-- ==== Sys2Proof/Word.lean ====
section
/-! DEFINITION. Words, key values and function numbers of the Aedvik model (00_scope.md, Table 00-3). -/
namespace Sys2Proof

abbrev Byte := BitVec 8
abbrev W16 := BitVec 16
abbrev W32 := BitVec 32
abbrev W64 := BitVec 64
/-- A 256-bit key value, nonce or seed. -/
abbrev Key := BitVec 256
/-- A SHA-384 value. -/
abbrev Hash := BitVec 384
/-- A 256-byte pool line; byte j stands in bits 8j+7:8j (R1). -/
abbrev Line := BitVec 2048
/-- A 64-byte Teasel node (Table 09-4): MAJOR in bits 63:0, minor k in bits 64+7k+6:64+7k. -/
abbrev Node := BitVec 512

/-- A function of the package: the PF or one of the VFs 0-4095 (R56, R145). -/
inductive Fn where
  | pf
  | vf (i : BitVec 12)
  deriving DecidableEq, Repr

/-- The number a function has as a key of a map: the VF number, or 0x1000 for the PF (R111). -/
def Fn.key : Fn → Nat
  | .pf => 4096
  | .vf i => i.toNat

/-- What a DMA read by Aedvik brought: the data, or the failure of the read (R422). -/
inductive Fetched (α : Type) where
  | ok (a : α)
  | failed
  deriving DecidableEq, Repr

end Sys2Proof
end

