-- ==== Sys2Proof/Syntax.lean ====
section
/-! DEFINITION. The commands of the block: one constructor of `Instr` for every row of spec/opcode_table.json, with the
records their operands are made of. What a buffer, a frame or a flash area holds comes as a record of its fields; where a
signature, a tag, a MAC or a key wrap is checked, the record carries the verdict of that check (log entry 2). -/
namespace Sys2Proof

/-- The header of a dispatched command (Table 03-5), with the ring it came from and the descriptor's free-running count. -/
structure CmdHdr where
  fn : Fn
  tag : W32
  event : Bool
  ordered : Bool
  ctx : W16
  ctxGen : W16
  tvValid : Bool
  tv : BitVec 12
  idx : W32
  deriving DecidableEq, Repr

/-- The driver half of a doorbell record as a read returned it (Table 03-2). -/
structure DrvHalf where
  cmdTail : W32
  cplHead : W32
  eventTake : W32
  evtOvfClr : Bool
  deriving DecidableEq, Repr

/-- A register access: the function whose BAR it uses, its size in bytes, and whether it is a request of the VF's bound IDE
stream that carries the T bit (R405, R406). `low` says that it covers bits 31:0 of its register. A value that a row carries beside
it stands as in the register, so that a write of bits 63:32 alone has its data there. -/
structure RegAcc where
  fn : Fn
  bytes : Nat
  low : Bool
  trusted : Bool
  deriving DecidableEq, Repr

/-- The job key encapsulation (Table 05-3). -/
structure Encap where
  format : W16
  jobId : W16
  packageId : W16
  rsvd6 : W16
  keHash : Hash
  mlkemCt : List Byte
  ecdhEph : List Byte
  rsvd1721 : BitVec 24
  wrappedJmk : List Byte
  deriving DecidableEq, Repr

/-- A wrapped key blob (Table 05-10): WRAPPED is a byte string of 48 bytes. -/
structure Blob where
  format : W16
  wrap : Byte
  rsvd : BitVec 40
  wrapped : List Byte
  deriving DecidableEq, Repr

/-- An owner policy record (Table 04-18). `signerHash` is the hash of the signer's keys (R83); `sigsOk`: both signatures verify. -/
structure Policy where
  format : W16
  rsvd2 : W16
  ownerSlot : Byte
  flags : Byte
  tamperPins : Byte
  l2Sources : Byte
  deviceId : W64
  seq : W64
  rsvd24 : BitVec 320
  signerHash : Hash
  sigsOk : Bool
  deriving DecidableEq, Repr

/-- An owner certificate chain (R97 item 0x02): its bytes, the hash of its root, and the verdicts of R154. -/
structure OwnerChain where
  bytes : List Byte
  rootHash : Hash
  certsOk : Bool
  leafIsIdentity : Bool
  deriving DecidableEq, Repr

/-- The item of OWNER_STORE (R97). -/
inductive OwnerItem where
  | policy (p : Policy)
  | chain (c : OwnerChain)
  deriving DecidableEq, Repr

/-- A life-cycle transition request (Table 04-7). -/
structure LcReq where
  format : W16
  kind : Byte
  target : Byte
  signer : Byte
  ownerSlot : Byte
  rsvd6 : W16
  deviceId : W64
  identityHash : Hash
  nonce : Key
  newOwnerHash : Hash
  rsvd144 : BitVec 128
  signerHash : Hash
  ecOk : Bool
  pqOk : Bool
  deriving DecidableEq, Repr

/-- A Speedwell certificate (Table 13-1). -/
structure Cert where
  format : W16
  issuer : Byte
  rsvd3 : Byte
  scope : W16
  rsvd6 : W16
  deviceId : W64
  identityHash : Hash
  rights : W64
  bootFirst : W64
  bootLast : W64
  ownerHash : Hash
  serial : W64
  rsvd144 : BitVec 128
  signerHash : Hash
  ecOk : Bool
  pqOk : Bool
  deriving DecidableEq, Repr

/-- A firmware image as ROM copies it (Table 15-5). `rsvdOk`: its RSVD bytes are zero; `signerHash` is the hash of the signer's keys (R83);
`ecOk` and `pqOk`: the signatures verify; `codeSha` is SHA-384 of the code, `measurement` of the whole image. -/
structure FwImage where
  format : W16
  svn : W16
  version : W32
  codeLen : W32
  entry : W32
  codeHash : Hash
  rsvdOk : Bool
  signerHash : Hash
  ecOk : Bool
  pqOk : Bool
  codeSha : Hash
  measurement : Hash
  deriving DecidableEq, Repr

/-- A directory checkpoint record in user flash (R135); `wrapped` is the root under the PF's durable wrap key. -/
structure Checkpoint where
  job : W16
  keeper : BitVec 12
  home : BitVec 12
  seq : W64
  boot : W64
  wrapped : List Byte
  deriving DecidableEq, Repr

/-- One copy of the transition journal (R92): the request, and whether its digest matches. -/
structure JournalCopy where
  req : LcReq
  digestOk : Bool
  deriving DecidableEq, Repr

/-- The halt record (Table 14-4). `format` 0 is the empty record. -/
structure HaltRec where
  format : W16 := 0
  cause : Byte := 0
  level : Byte := 0
  sources : W32 := 0
  boot : W64 := 0
  tick : W64 := 0
  unit : W16 := 0
  jobId : W16 := 0
  streamId : W32 := 0
  whereF : W64 := 0
  regionId : BitVec 40 := 0
  lcState : Byte := 0
  kid : W16 := 0
  powerState : Byte := 0
  haltCount : W32 := 0
  deriving DecidableEq, Repr

/-- What package flash holds for Aedvik: image slot, profile verdicts (NULL_REASON of profile k, Table 16-16), the Talward chain of
certificate slot 0 in the vendor area (R153), owner policy and chain, journal copies, checkpoints, halt log with its cleared marks. Flash is outside the trust boundary (R14).
Log entry 9 (DESIGN CHOICE). -/
structure Flash where
  image : Option FwImage := none
  profileBad : List (Nat × BitVec 4) := []
  talward : List Byte := []
  policy : Option Policy := none
  chain : Option OwnerChain := none
  journal : List JournalCopy := []
  checkpoints : List Checkpoint := []
  haltLog : List (HaltRec × Bool) := []
  deriving DecidableEq, Repr

/-- What the self-tests find at a unit (R388, R392): how its final MISR differs from that of a unit without fault, and the failing rows of
its memories, each as a line of Table 15-3 (from 0) and the rows that fail in one instance. A unit not listed has no fault. -/
structure UnitRun where
  unit : W16
  delta : W64
  rows : List (Nat × Nat)
  deriving DecidableEq, Repr

/-- A die's answer to a pairing nonce (R395): N_D and M_D. -/
structure PairTry where
  nonce : Key
  mac : Key
  deriving DecidableEq, Repr

/-- What a start meets in its surroundings (R384): the strap, fuse pairs that do not read back, the health tests that the entropy source
fails in a row, the BIST limits, what the self-tests find, the detectors whose BIST fails, each die's answers to pairing in order, the
detectors' lowest voltages in mV, the pins held low and the ports whose dies are trained before READY; and what flash holds
where someone has replaced it. -/
structure StartEnv where
  strap : BitVec 2
  weakPairs : Nat
  entropyFails : Nat
  bistLimitsOk : Bool
  units : List UnitRun
  badDetectors : List Nat
  dies : List (List PairTry)
  vll : List Nat
  pinsLow : BitVec 4
  trained : BitVec 32
  flash : Option Flash
  deriving DecidableEq, Repr

/-- R386: the entropy source passes, unless its health tests fail three times in a row. -/
def StartEnv.entropyOk (e : StartEnv) : Bool := decide (e.entropyFails < 3)

/-- A bulk operation's operands (Table 03-16). Addresses carry SPACE in bit 63 (R334). -/
structure BulkOperands where
  src : W64
  dst : W64
  length : W32
  flags : Byte
  aux : W64
  deriving DecidableEq, Repr

/-- The auxiliary area as read (Table 12-3). `rsvdOk`: its RSVD bytes and unused bytes are zero. -/
structure Aux where
  iv : BitVec 128
  aadLen : W32
  duLog2 : Byte
  aadAddr : W64
  digest : BitVec 512
  rsvdOk : Bool
  deriving DecidableEq, Repr

/-- The chaining state of a bulk context (Table 12-6). -/
structure Chain where
  chain : BitVec 512 := 0
  counter : BitVec 128 := 0
  iv : BitVec 128 := 0
  msgBytes : W64 := 0
  aadBytes : W64 := 0
  deriving DecidableEq, Repr

/-- A bulk context record (Table 12-5): bytes 0-31 by their fields, and STATE and KEY_BLOB as they stand. -/
structure BulkRec where
  format : W16
  mode : Byte
  rflags : Byte
  vf : W16
  duLog2 : Byte
  rsvd7 : Byte
  kid : W16
  rsvd10 : BitVec 176
  state : List Byte
  blob : List Byte
  deriving DecidableEq, Repr

/-- A saved descriptor of REPLAY_CONTEXT (R311): its 64 bytes, and what a read of the auxiliary area or the record that it names gives. -/
structure ReplayDesc where
  raw : BitVec 512
  aux : Fetched Aux
  record : Fetched BulkRec
  deriving DecidableEq, Repr

/-- A migration key message: its bytes (Table 11-5), and for an ACCEPT what its certificate chain and signatures give (R319): the chain's
verdict, the leaf's device id, P-384 key and IDENTITY_HASH, and the verdict of both signatures. -/
structure MigMsg where
  bytes : List Byte
  chainOk : Bool
  leafDevice : W64
  leafKey : List Byte
  leafHash : Hash
  sigsOk : Bool
  deriving DecidableEq, Repr

/-- One object of a migration image's device state (R322). -/
inductive ImageItem where
  | context (handle gen : W16)
  | object (handle : W32) (rights : Byte) (ctx : W16) (set : Nat) (offset size : Nat)
  | fence (handle : W32) (value : W64) (err : BitVec 2) (producer : W16) (refs : List W16)
  | tenant (kid : W16) (key : Key) (job ctx ctxGen parent : W16)
  | bulk (bctx : W32) (mode : Byte) (kid : W16) (ctx ctxGen : W16) (inMessage decrypt : Bool) (duLog2 : Byte) (chain : Chain)
  | ring (cmdBase cplBase dbrecBase size msix : W64) (cmdHead cplTail eventPending devFlags : W32)
  deriving DecidableEq, Repr

/-- A return filter as an image carries it (R322): the job, its claimed entries and their HMAC; and the device it comes from. -/
structure FilterImage where
  job : W16
  entries : List (BitVec 12 × W16)
  mac : BitVec 128
  device : W64
  deriving DecidableEq, Repr

/-- What an image chunk holds in the clear (R322). -/
inductive ChunkBody where
  | header (srcDevice dstDevice : W64) (srcVf job : W16) (carveSizes : List Nat) (wrapMig wrapLocal : List Byte)
  | device (items : List ImageItem)
  | segment (data : List Byte)
  | filter (job : W16) (entries : List (BitVec 12 × W16)) (mac : BitVec 128)
  | segMap (l : List W32)
  | last (count : Nat)
  deriving DecidableEq, Repr

/-- An image chunk (Table 11-6): its header, what it holds once opened, and its tag. -/
structure Chunk where
  format : W16
  ckind : Byte
  rsvd3 : Byte
  length : W32
  index : W64
  segment : W32
  rsvd20 : BitVec 96
  imageId : BitVec 128
  rsvd48 : BitVec 128
  body : ChunkBody
  tag : BitVec 128
  deriving DecidableEq, Repr

/-- What a SELF_TEST run finds (R389, R390, R392): 0 the limits hold, 1 the clock is outside them, 2 the voltage; and what it finds at its
units. The row carries none while the run goes on; a later row of the same command then brings its end. -/
structure TestRun where
  limits : BitVec 2
  units : List UnitRun
  deriving DecidableEq, Repr

/-- One signal of a chime (Table 08-3). -/
structure ChimeSig where
  fence : W32
  op : Byte
  value : W64
  deriving DecidableEq, Repr

/-- A chime payload (Table 08-3). `rsvdOk`: its RSVD bytes, those of entries beyond COUNT included, are zero. -/
structure ChimePay where
  count : Byte
  rsvdOk : Bool
  sigs : List ChimeSig
  deriving DecidableEq, Repr

/-- A placement header (Table 07-6) or return header (Table 08-8) with its data. -/
structure DataPay where
  object : W32
  length : W32
  offset : W64
  rsvdOk : Bool
  data : List Byte
  deriving DecidableEq, Repr

/-- A TOKEN payload: its header (Table 08-6) and the activation data that follows it. -/
structure TokenPay where
  tokenTag : W32
  batchGen : W16
  nchoice : Byte
  retOrdinal : Byte
  expert : W64
  length : W32
  retObject : W32
  retOffset : W64
  rsvdOk : Bool
  data : List Byte
  deriving DecidableEq, Repr

/-- A refusal payload (Table 08-7). -/
structure RefusalPay where
  tokenTag : W32
  choice : Byte
  reason : Byte
  expert : W16
  rsvdOk : Bool
  deriving DecidableEq, Repr

/-- A pool header (Table 09-10) with the data that follows it. -/
structure PoolPay where
  pop : Byte
  redOp : Byte
  redFormat : Byte
  retOrdinal : Byte
  ptag : W32
  regionId : W64
  offset : W64
  length : W32
  pstat : W16
  rsvdOk : Bool
  data : List Byte
  deriving DecidableEq, Repr

/-- A MGMT handover offer (R279 step 3). -/
structure OfferPay where
  regionId : BitVec 40
  epoch : W32
  creator : BitVec 12
  size : W64
  home : BitVec 12
  base : W64
  key : Key
  root : Node
  deriving DecidableEq, Repr

/-- The hop word (Table 07-3). -/
structure Hop where
  kind : BitVec 4
  vc : BitVec 4
  routeSel : BitVec 2
  hopIndex : BitVec 2
  unitsM1 : BitVec 5
  linkSeq : BitVec 11
  ackSeq : BitVec 11
  ackValid : Bool
  nak : Bool
  crdVc : BitVec 4
  crdCount : BitVec 12
  rsvd : BitVec 7 := 0
  deriving DecidableEq, Repr

/-- A frame's arrival: the port, its hop word, the routing word (R174), the bytes from offset 12 to the HOP_CRC, and the HOP_CRC as it
came. Log entry 153 (DESIGN CHOICE). -/
structure Arrival where
  port : Fin 32
  hop : Hop
  route : W32
  tail : List Byte
  crc : W32
  deriving DecidableEq, Repr

/-- A sealed frame's header (Table 07-4; STREAM_ID is the routing word) and the verdict of its tag. -/
structure SealHdr where
  sid : W32
  seq : W64
  jobId : W16
  units : Byte
  dstCtx : W16
  dstCtxGen : W16
  batch : W16
  batchGen : W16
  tagOk : Bool
  deriving DecidableEq, Repr

/-- A HOME frame's header (Table 09-6). -/
structure HomeHdr where
  xid : W32
  hop : Byte
  hstat : Byte
  count : Byte
  hflags : Byte
  jobId : W16
  regionId : BitVec 40
  baseItem : BitVec 40
  deriving DecidableEq, Repr

/-- A line of a READ_LINES response: the plaintext its ciphertext decrypts to under the counter in force, and the verdict of
its MAC (R246). -/
structure LineItem where
  plain : Line
  macOk : Bool
  deriving DecidableEq, Repr

/-- A record of a READ_NODES response: the node, its UE flag and the verdict of its MAC (R247). -/
structure NodeItem where
  node : Node
  ue : Bool
  macOk : Bool
  deriving DecidableEq, Repr

/-- What a home's memory reported while a request was served (R256): errors corrected; and, by their place in the request, the lines,
MAC words and node records with an uncorrectable error. -/
structure EccReport where
  ce : Nat := 0
  lines : List Nat := []
  macs : List Nat := []
  nodes : List Nat := []
  deriving DecidableEq, Repr

/-- A read that reaches this package as a home: its header, and what the memory reports while it is served (R256). -/
structure HomeRead where
  hdr : HomeHdr
  ecc : EccReport := {}
  deriving DecidableEq, Repr

/-- The payload and trailer of a HOME response (Tables 09-7, 09-8). -/
structure HomeResp where
  ueMap : W32
  macUe : W32
  ceCount : W32
  lines : List LineItem
  nodes : List NodeItem
  deriving DecidableEq, Repr

/-- A compute requester's request to seal a frame on a stream (R175). `batch` and `batchGen` are of class 2; `fport` is the fabric
port it comes in at (R43). -/
structure SealReq where
  fn : Fn
  ctx : W16
  cls : BitVec 4
  peer : BitVec 12
  ordinal : BitVec 4
  ftype : Byte
  units : Byte
  dstCtx : W16
  dstCtxGen : W16
  batch : BitVec 12
  batchGen : W16
  payload : List Byte
  fport : BitVec 3
  deriving DecidableEq, Repr

/-- A compute requester's pool request (R261, R262). -/
structure PoolReq where
  fn : Fn
  ctx : W16
  pop : Byte
  redOp : Byte
  redFormat : Byte
  regionId : BitVec 40
  offset : W64
  length : W32
  data : List Byte
  buffer : W64
  deriving DecidableEq, Repr

/-- The class of a requester at a firewall checker (Table 10-3). -/
inductive ReqClass where
  | compute | engine | homeResponder | traceWriter | scrubber | debugMaster
  deriving DecidableEq, Repr

/-- An access to in-package memory (R292). -/
structure MemAccess where
  id : Nat
  cls : ReqClass
  fn : Fn
  addr : BitVec 48
  len : Nat
  write : Bool
  deriving DecidableEq, Repr

/-- Where an SPDM, IDE_KM or TDISP request came in: the port's mailbox and, inside a session, the session. `parity`: the DSM port found a
parity error in it (Table 01-4). -/
structure SpdmReq where
  port : BitVec 1
  parity : Bool
  version13 : Bool
  session : Option Nat
  deriving DecidableEq, Repr

/-- Algorithms of SPDM: those that a NEGOTIATE_ALGORITHMS offers, or those that an ALGORITHMS response selects (Table 06-2). -/
structure Algorithms where
  measurementSpec : Byte
  otherParams : Byte
  baseAsym : W32
  baseHash : W32
  measurementHash : W32
  dhe : W16
  aead : W16
  reqBaseAsym : W16
  keySchedule : W16
  deriving DecidableEq, Repr

/-- Where the host has placed a VF (Table 06-9): BAR 0, the MSI-X table and the pending-bit array. -/
structure Placement where
  bar : W64 := 0
  msixTable : W64 := 0
  pendingBits : W64 := 0
  deriving DecidableEq, Repr

/-- What row 1 of Table 06-10 names: a function-level reset of a VF, a change of its configuration, or memory space or bus master enable
cleared. -/
inductive VfEvent where
  | reset
  | config (p : Placement)
  | enableCleared
  deriving DecidableEq, Repr

/-- What the host says as it enables a VF: the tick at which its views start (R359), and where it has placed the VF. -/
structure VfStart where
  tick : Nat
  place : Placement := {}
  deriving DecidableEq, Repr

/-- What the host does to a VF (Table 06-10 row 1). -/
structure VfChange where
  vf : BitVec 12
  event : VfEvent := .reset
  deriving DecidableEq, Repr

/-- A stream, key set, sub-stream and direction of an IDE_KM message (R158): stream 0 is the link stream, 1-8 selective.
Log entry 177 (DESIGN CHOICE). -/
structure IdeSel where
  stream : Nat
  keySet : BitVec 1
  sub : Nat
  dir : BitVec 1
  portIndex : Byte
  deriving DecidableEq, Repr

/-- A request of a debug master (R281, R354): to a range of in-package memory, or of the pool data that an engine reaches, with the data of
a write. -/
inductive DebugTarget where
  | memory (fn : Fn) (addr : BitVec 48) (len : Nat)
  | pool (engine : BitVec 3) (offset : W64) (length : W32) (data : List Byte)
  deriving DecidableEq, Repr

/-- What a host DMA transfer of HOST_DMA_DONE was for. Log entry 155 (DESIGN CHOICE). -/
inductive DmaWhat where
  | recordWrite (fn : Fn)
  | command (fn : Fn) (idx : W32)
  deriving DecidableEq, Repr

/-- Whose public-key operation a KXE core has finished. -/
inductive KxeWho where
  | command (fn : Fn) (idx : W32)
  | mailbox (port : BitVec 1)
  deriving DecidableEq, Repr

/-- What a package-flash write or erase was for. -/
inductive FlashJob where
  | ownerStore (fn : Fn) (idx : W32)
  | transition
  deriving DecidableEq, Repr

/-- A tamper source (Table 14-1). -/
inductive TamperSrc where
  | pin (k : BitVec 2)
  | lowVolt (detector : Fin 24)
  | highVolt (detector : Fin 24)
  | clock
  | thermal (sensor : BitVec 3)
  | mesh
  deriving DecidableEq, Repr

/-- A view of the Tabor gate (Table 13-7). -/
inductive ViewId where
  | vf (v : BitVec 12)
  | pfOf (v : BitVec 12)
  | package
  deriving DecidableEq, Repr

/-- A power state (Table 14-6). -/
inductive Power where
  | a0 | a1 | a2 | a3 | off
  deriving DecidableEq, Repr

/-- What the life-cycle mailbox on the TAP is asked for (R79, R83, R104). -/
inductive LcMailOp where
  | status
  | challenge
  | transition (req : LcReq) (env : StartEnv)
  deriving DecidableEq, Repr

/-- What a bulk engine's transfers gave for a request: the bytes of the source that it processed, all of them where no transfer failed, and
the additional data of a GCM message that the op starts. -/
structure BulkDone where
  dmaOk : Bool
  data : List Byte
  aad : List Byte
  deriving DecidableEq, Repr

/-- The commands. The docstring-free order is the table's own. -/
inductive Instr where
  | wakeWrite (a : RegAcc) (offset : BitVec 12)
  | doorbellReadDone (fn : Fn) (r : Fetched (BitVec 512))
  | scanDispatch (raw : Fetched (BitVec 512))
  | joinJob (h : CmdHdr) (jobId packageId : W16) (encapLen : W32) (buf : Fetched Encap)
  | leaveJob (h : CmdHdr) (jobId : W16)
  | nop (h : CmdHdr)
  | keyAlloc (h : CmdHdr) (source : Byte) (importLen : W32) (buf : Fetched Blob)
  | keyDerive (h : CmdHdr) (parentKid : W16) (label : Byte) (args : BitVec 128)
  | keyRotate (h : CmdHdr) (kid : W16)
  | keyRetire (h : CmdHdr) (kid : W16)
  | flushConfirm (kid : W16) (engine : Nat)
  | park (h : CmdHdr) (kid : W16) (wrap : Byte) (regionId : W64) (dirIndex : W32)
  | resume (h : CmdHdr) (wrap engine : Byte) (regionId : W64) (dirIndex : W32)
  | checkpointWrite (job : W16)
  | regionCreate (h : CmdHdr) (regionId size : W64) (home : W16) (engine : Byte)
  | regionFree (h : CmdHdr) (regionId : W64)
  | keeperHandover (h : CmdHdr) (regionId : W64) (newKeeper : W16)
  | reduce (h : CmdHdr) (regionId : W64) (redOp redFormat : Byte) (offset : W64) (length : W32) (srcAddr : W64) (src : Fetched (List Byte))
  | streamOpen (h : CmdHdr) (peer : W16) (cls ordinal direction : Byte)
  | streamClose (h : CmdHdr) (peer : W16) (cls ordinal direction : Byte)
  | batchCancel (h : CmdHdr) (batchId : W16)
  | carveGrow (h : CmdHdr) (set : Byte) (base limit : W64)
  | carveShrink (h : CmdHdr) (set : Byte) (base limit : W64)
  | contextCreate (h : CmdHdr)
  | contextAbandon (h : CmdHdr)
  | fenceCreate (h : CmdHdr) (value : W64) (pick : W16)
  | fenceRelease (h : CmdHdr) (handle : W32)
  | fenceSignal (h : CmdHdr) (handle : W32) (value : W64)
  | fenceWait (h : CmdHdr) (handle : W32) (value : W64)
  | memMap (h : CmdHdr) (rights : Byte) (base size : W64) (pick : W16)
  | memUnmap (h : CmdHdr) (handle : W32)
  | quiesceVf (h : CmdHdr)
  | resetVf (h : CmdHdr)
  | resetPackage (h : CmdHdr) (env : StartEnv)
  | replayContext (h : CmdHdr) (count : W32) (descs : Fetched (List ReplayDesc))
  | migrateKey (h : CmdHdr) (bufAddr bufLen : W64) (msg : Fetched MigMsg)
  | migrateFreeze (h : CmdHdr)
  | migrateSave (h : CmdHdr) (migKid : W16) (bufAddr bufLen cursor : W64)
  | migrateRestore (h : CmdHdr) (migKid : W16) (cursor : W64) (chunks : Fetched (List Chunk))
  | dirtyLogStart (h : CmdHdr) (bufAddr bufLen : W64)
  | dirtyLogStop (h : CmdHdr)
  | dirtyLogSync (h : CmdHdr) (bufAddr bufLen : W64)
  | telemWindow (h : CmdHdr) (windowUs : W32)
  | telemRead (h : CmdHdr) (bufAddr : W64) (bufLen : W32) (badBlocks : List Nat)
  | traceConfig (h : CmdHdr) (share gib : Byte)
  | debugGrant (h : CmdHdr) (bufLen : W32) (cert : Fetched Cert)
  | debugRevoke (h : CmdHdr)
  | lcChallenge (h : CmdHdr) (bufAddr : W64)
  | lcTransition (h : CmdHdr) (bufLen : W32) (req : Fetched LcReq) (env : StartEnv)
  | lcStatus (h : CmdHdr) (bufAddr : W64) (bufLen : W32)
  | ownerStore (h : CmdHdr) (item : Byte) (bufLen : W32) (it : Fetched OwnerItem)
  | bulkCtxOpen (h : CmdHdr) (engine mode : Byte) (kid : W16)
  | bulkOp (h : CmdHdr) (bctx : W32) (op : BulkOperands) (aux : Fetched Aux)
  | bulkCtxSave (h : CmdHdr) (bctx : W32) (dst : W64) (flags : Byte)
  | bulkCtxRestore (h : CmdHdr) (bctx : W32) (src : W64) (flags : Byte) (rec : Fetched BulkRec)
  | bulkCtxClose (h : CmdHdr) (bctx : W32)
  | setProfile (h : CmdHdr) (profile : Byte)
  | selfTest (h : CmdHdr) (unit : W16) (patterns : W32) (seed : W64) (run : Option TestRun)
  | ringEnable (a : RegAcc)
  | ringEnableDone (fn : Fn) (r : Fetched (BitVec 512)) (writeOk : Bool)
  | ringDisable (a : RegAcc)
  | haltClear (a : RegAcc)
  | recoveryRequest (a : RegAcc)
  | go (a : RegAcc)
  | routeCommit (a : RegAcc) (value : W64)
  | routeStage (a : RegAcc) (reg1 : Bool) (value : W64)
  | ptbHskWrite (a : RegAcc) (value : W64)
  | ptbBpWrite (a : RegAcc) (value : W64)
  | ptbTagholdWrite (a : RegAcc) (value : W64)
  | ptbBeatWrite (a : RegAcc) (value : W64)
  | ptbLoopWrite (a : RegAcc) (value : W64)
  | registerWrite (a : RegAcc) (offset : W16) (value : W64)
  | sealRequest (q : SealReq)
  | tokenRequest (q : SealReq) (t : TokenPay)
  | refusalRequest (job : W16) (source : BitVec 12) (t : TokenPay) (choice reason : Byte) (expert : W16)
  | chimeRequest (q : SealReq) (p : ChimePay)
  | localChimeRequest (fn : Fn) (ctx : W16) (cls : BitVec 4) (fport : BitVec 3) (p : ChimePay)
  | memberPoolRequest (q : PoolReq) (keeper : BitVec 12) (ordinal retOrdinal : BitVec 4)
  | localPoolRequest (q : PoolReq)
  | debugMasterRequest (t : DebugTarget) (write : Bool)
  | firewallAccess (m : MemAccess)
  | switchNotice (fn : Fn) (ctx : W16)
  | commandStart (fn : Fn) (ctx : W16)
  | taborEvent (fn : Fn) (ctx : W16) (type format : Nat) (units : Nat) (tick : Nat)
  | syncWaitRegister (fn : Fn) (ctx : W16) (handle : W32) (value : W64)
  | writeCompletion (id : Nat)
  | chimeRelease (fn : Fn) (port : Option (Fin 32))
  | data (a : Arrival) (h : SealHdr) (p : DataPay)
  | chime (a : Arrival) (h : SealHdr) (p : ChimePay)
  | token (a : Arrival) (h : SealHdr) (p : TokenPay)
  | return_ (a : Arrival) (h : SealHdr) (p : DataPay)
  | refusal (a : Arrival) (h : SealHdr) (p : RefusalPay)
  | poolRead (a : Arrival) (h : SealHdr) (p : PoolPay)
  | poolWrite (a : Arrival) (h : SealHdr) (p : PoolPay)
  | poolReduce (a : Arrival) (h : SealHdr) (p : PoolPay)
  | poolResponse (a : Arrival) (h : SealHdr) (p : PoolPay)
  | mgmtOffer (a : Arrival) (h : SealHdr) (p : OfferPay)
  | mgmtAnswer (a : Arrival) (h : SealHdr) (regionId : BitVec 40) (status : W16) (detail : W32)
  | mgmtCommit (a : Arrival) (h : SealHdr) (regionId : BitVec 40)
  | epochEnd (a : Arrival) (h : SealHdr) (nextSeq : W64)
  | close (a : Arrival) (h : SealHdr)
  | homeResponse (a : Arrival) (h : HomeHdr) (r : HomeResp)
  | alloc (a : Arrival) (h : HomeHdr) (size : W64) (depth : Byte)
  | free (a : Arrival) (h : HomeHdr)
  | rebind (a : Arrival) (h : HomeHdr) (newKeeper : BitVec 12)
  | readLines (a : Arrival) (r : HomeRead)
  | writeLines (a : Arrival) (h : HomeHdr) (lines : List (Line × W64))
  | readNodes (a : Arrival) (r : HomeRead) (addrs : List W64)
  | writeNodes (a : Arrival) (h : HomeHdr) (nodes : List (W64 × Node × W64))
  | leaseRelease (a : Arrival) (h : HomeHdr)
  | relayForward (a : Arrival)
  | beat (a : Arrival) (boot : W64) (senderPort bflags : Byte)
  | knell (a : Arrival) (boot : W64) (reason : Byte)
  | proxyKnell (a : Arrival) (lost : BitVec 12) (cause : Byte) (lostBoot : W64)
  | openReq (a : Arrival) (sid : W32) (jobId : W16) (challenge : BitVec 128)
  | openAck (a : Arrival) (sid : W32) (jobId : W16) (routeSel : BitVec 2) (epoch : W32) (challenge : BitVec 128) (relays : List (BitVec 12)) (tagOk : Bool)
  | credit (a : Arrival) (more : List (BitVec 4 × BitVec 12))
  | loop (a : Arrival) (tagOk : Bool)
  | reservedKindFrame (a : Arrival)
  | beatSend (port : Fin 32)
  | neighbourLostSilence (port : Fin 32)
  | portDown (port : Fin 32)
  | portTrained (port : Fin 32)
  | openReqResend (fn : Fn) (idx : W32)
  | openReqHoldExpiry (jobId : W16) (sid : W32)
  | streamOpenTimeout (fn : Fn) (idx : W32)
  | streamCloseTimeout (fn : Fn) (idx : W32)
  | receiveWaitExpiry (jobId : W16) (sid : W32)
  | homeExchangeTimeout (xid : W32)
  | handoverTimeout (fn : Fn) (idx : W32)
  | dirtyNodeWriteback (jobId : W16) (regionId : BitVec 40) (level index : Nat)
  | overflowSweep (jobId : W16) (regionId : BitVec 40) (level index : Nat)
  | quarantineEpoch
  | fabricEpochBoundary
  | windowEnd (v : ViewId)
  | traceBlockSeal (fn : Fn)
  | lendingCheck (idleSeal idleOpen : BitVec 32)
  | bankRestoreDone (port : Fin 32) (openHalf : Bool)
  | budgetReport (draws : List Nat)
  | scrubDone
  | powerStateRequest (target : Power) (env : StartEnv)
  | tamperSourceFire (src : TamperSrc)
  | clockMonitorMeasure (cipherKhz aonKhz : Nat)
  | meshPattern (fault : Bool)
  | droopWarning (detector : Fin 24)
  | avkPwrokRise (env : StartEnv)
  | avkPwrokFall
  | bistLimitRecheck (met : Bool)
  | svnFuseBurn
  | doeDiscovery (port : BitVec 1) (index : Byte)
  | getVersion (q : SpdmReq)
  | getCapabilities (q : SpdmReq)
  | negotiateAlgorithms (q : SpdmReq) (offer : Algorithms)
  | getDigests (q : SpdmReq)
  | getCertificate (q : SpdmReq) (slot : Byte) (offset length : W16)
  | challenge (q : SpdmReq) (slot : Byte) (nonce : Key)
  | getMeasurements (q : SpdmReq) (index : Byte) (signed raw : Bool) (nonce : Key)
  | keyExchange (q : SpdmReq) (slot : Byte)
  | finish (q : SpdmReq) (session : Nat) (verifyOk : Bool)
  | endSession (q : SpdmReq)
  | respondIfReady (q : SpdmReq)
  | spdmUnsupportedRequest (q : SpdmReq) (code : Byte)
  | query (q : SpdmReq)
  | keyProg (q : SpdmReq) (i : IdeSel) (key : Key) (iv : W64)
  | kSetGo (q : SpdmReq) (i : IdeSel)
  | kSetStop (q : SpdmReq) (i : IdeSel)
  | getTdispVersion (q : SpdmReq)
  | getTdispCapabilities (q : SpdmReq)
  | lockInterfaceRequest (q : SpdmReq) (vf : BitVec 12) (stream : Nat) (assocOk entropyOk : Bool)
  | getDeviceInterfaceReport (q : SpdmReq) (vf : BitVec 12)
  | getDeviceInterfaceState (q : SpdmReq) (vf : BitVec 12)
  | startInterfaceRequest (q : SpdmReq) (vf : BitVec 12) (nonce : Key)
  | stopInterfaceRequest (q : SpdmReq) (vf : BitVec 12)
  | tdispUnsupportedRequest (q : SpdmReq) (code : Byte)
  | vfEnable (vf : BitVec 12) (start : VfStart)
  | vfFunctionLevelReset (c : VfChange)
  | pfFunctionLevelReset
  | ideIntegrityFailure (port : BitVec 1) (stream : Nat)
  | linkDown (port : BitVec 1) (hostWriteFailed : List Fn)
  | recoveryStatus
  | recoveryLcChallenge
  | recoveryLcTransition (req : LcReq) (env : StartEnv)
  | imgBegin (length : Nat)
  | imgData (offset : Nat) (bytes : Nat)
  | imgCommit (img : FwImage)
  | imageWriteDone (readBackOk : Bool) (env : StartEnv)
  | extest
  | samplePreload
  | idcode
  | lcMbox (op : LcMailOp)
  | dbgMbox (op : Byte) (cert : Cert)
  | statusRd
  | ctrRd
  | traceRd (reader : Fn) (badBlocks : List Nat)
  | memPort (t : DebugTarget) (write : Bool)
  | tileDbg (fn : Fn)
  | ksMetaRd (slot : Nat)
  | otpRd (word : Nat)
  | ctrlDbg
  | kxeDbg
  | entropyRd
  | scanAon
  | scanCipher
  | bypass (code : Byte)
  | parityError (unit : W16)
  | reservedFtypeFrame (a : Arrival) (h : SealHdr) (ftype : Byte)
  | kxeOperationDone (who : KxeWho)
  | bulkRequestDone (fn : Fn) (idx : W32) (r : BulkDone)
  | flashWriteDone (job : FlashJob) (env : StartEnv)
  | hostDmaDone (what : DmaWhat) (ok : Bool)
  | checkerAccessDone (id : Nat)
  | pcieControllerUncorrectable (port : BitVec 1) (vfs : List (BitVec 12))
  deriving DecidableEq, Repr

end Sys2Proof
end

