-- ==== Sys2Proof/Config.lean ====
section
/-! DEFINITION. Constants of the block, the open values (opaque: nothing can be proved of one), and the cryptographic
primitives of outside standards, which the model leaves uninterpreted (log entry 3). -/
namespace Sys2Proof.Config

/-- Draw number `n` of the SP 800-90B entropy source: keys, nonces, challenges and seeds (R84, R108, R123). A free value.
Log entry 11 (DESIGN CHOICE). -/
opaque entropy : Nat → BitVec 256
/-- A value that the manual leaves open and a command delivers (IDCODE, scan contents, MISR contents …). A free value.
Log entry 12 (DESIGN CHOICE). -/
opaque openWord : Nat → BitVec 64
/-- A DETAIL or a condition number for which the manual states no value, by the outputs sent before it. A free value.
Log entry 13 (DESIGN CHOICE). -/
opaque detail : Nat → BitVec 32
/-- Tabor tick of the moment that the model's event counter numbers `n` (R356). A free value. -/
opaque tick : Nat → BitVec 64
/-- Which engine a REGION_CREATE takes among engines that hold equally few regions (R277): an index into the list of them.
Log entry 14 (DESIGN CHOICE). -/
opaque engineTie : Nat → Nat

/-- The stack that the 256-byte hash gives a block of fabric addresses within its set (R290): taken modulo the stacks. A free value.
Log entry 50 (DESIGN CHOICE). -/
opaque stackHash : Nat → Nat
/-- Where among the free places of the home carve-outs a region's items go (R302): taken modulo the places. A free value.
Log entry 51 (DESIGN CHOICE). -/
opaque homePlace : Nat → Nat

/-- Bytes of the items of a migration image whose layout R322 does not give: the header chunk's (devices, VF, job, carve-out sizes, both
wraps), the device state, the return filter without its HMAC, the end chunk (chunk count). Free values. Log entry 109 (DESIGN CHOICE). -/
opaque headerImage : W64 → W64 → W16 → W16 → List Nat → List Byte → List Byte → List Byte
opaque deviceImage : List ImageItem → List Byte
opaque filterImage : W16 → List (BitVec 12 × W16) → List Byte
opaque endImage : Nat → List Byte
/-- What in-package memory holds in segment `k` of a VF at moment `n`: the model keeps no contents of carve-outs. A free value. Log entry 180
(DESIGN CHOICE). -/
opaque segmentData : Nat → Nat → List Byte
/-- Package id of the unit that an image comes from, by its device id: the source of BATCH-FILTER, which no item of the image carries (R322).
A free value. Log entry 181 (DESIGN CHOICE). -/
opaque sourcePackage : W64 → BitVec 12

/-- Clocks that shift one pattern into the scan chains of a unit's class, named by its first code (R388): a free value. Log entry 192
(DESIGN CHOICE). -/
opaque scanLength : Nat → Nat
/-- The response that a unit of a class without fault captures to a pattern, each a word per clock (R388): a free value. Log entry 192
(DESIGN CHOICE). -/
opaque response : Nat → List (BitVec 64) → List (BitVec 64)
/-- The IDCODE of the package TAP (Table 13-4). A free value. -/
opaque idcode : BitVec 64
/-- The bytes that an SPDM signature covers, by the draws made before it: the transcript of a connection, whose messages the SPDM standard
lays out (R154). A free value. Log entry 174 (DESIGN CHOICE). -/
opaque transcript : Nat → List Byte
/-- Key of a session's key schedule, by the session's number (Table 06-2, R152). A free value. Log entry 175 (DESIGN CHOICE). -/
opaque sessionKey : Nat → Key
/-- A signed response, by the draws made before it, would take longer than 2^CTExponent µs (R152). A free value. Log entry 176
(DESIGN CHOICE). -/
opaque slow : Nat → Bool
/-- IDE capability register of a port's PCIe controller, which R158 bounds and does not lay out. A free value. -/
opaque ideCapability : BitVec 1 → W32
/-- SHA-384 of the ROM (Table 06-6). A free value. -/
opaque romHash : Hash
/-- SHA-384 of stored profile `k` (Table 06-6). A free value. -/
opaque profileHash : Nat → Hash

/-- One AES-256 block under a key (FIPS 197). -/
opaque aesBlock : Key → BitVec 128 → BitVec 128
/-- GHASH of a list of blocks under the hash key H (SP 800-38D). -/
opaque ghash : BitVec 128 → List (BitVec 128) → BitVec 128
/-- AES-256-GCM encryption of the bytes under key and 96-bit IV (SP 800-38D). -/
opaque gcmCipher : Key → BitVec 96 → List Byte → List Byte
/-- The 128-bit tag of AES-256-GCM over additional data and plaintext. -/
opaque gcmTag : Key → BitVec 96 → List Byte → List Byte → BitVec 128
/-- Output of a bulk cipher mode (Table 12-1; SP 800-38A, SP 800-38D, IEEE 1619): by MODE, data key, tweak key, counter block or data-unit
number, log2 of the data unit, DECRYPT, and the input. -/
opaque bulkCipher : Byte → Key → Key → BitVec 128 → Byte → Bool → List Byte → List Byte
/-- Chaining value of a mode at the start of a message: the hash's initial value, HMAC's after its inner key block, GHASH's zero. -/
opaque bulkInit : Byte → Key → BitVec 512
/-- Chaining value of a mode after further bytes (FIPS 180-4, SP 800-38D). -/
opaque bulkAbsorb : Byte → Key → BitVec 512 → List Byte → BitVec 512
/-- Tag, digest or MAC of a mode's message: by MODE, key, IV, chaining value before the last op, additional-data bytes, bytes of the whole
message, and the last op's bytes. -/
opaque bulkDigest : Byte → Key → BitVec 128 → BitVec 512 → Nat → Nat → List Byte → BitVec 512
/-- HMAC-SHA-384 (FIPS 198-1). -/
opaque hmacSha384 : List Byte → List Byte → Hash
/-- SHA-384 (FIPS 180-4). -/
opaque sha384 : List Byte → Hash
/-- AES-256-KW wrap of a byte string, 8 bytes longer than it (SP 800-38F). -/
opaque kwWrap : Key → List Byte → List Byte
/-- AES-256-KW unwrap; none when the integrity check fails. -/
opaque kwUnwrap : Key → List Byte → Option (List Byte)
/-- The uncompressed P-384 point, 97 bytes, of a private key (FIPS 186-5). -/
opaque p384Public : Nat → List Byte
/-- The 48-byte x-coordinate of a private key times an uncompressed point; none where the bytes are no point of P-384 other than the point
at infinity. -/
opaque p384Shared : Nat → List Byte → Option (BitVec 384)
/-- ECDSA P-384 signature, 96 bytes, of a private key over a message (FIPS 186-5). -/
opaque ecdsaSign : Nat → List Byte → List Byte
/-- ML-DSA-87 public key, 2,592 bytes, of the seed ξ (FIPS 204). -/
opaque mldsaPublic : Key → List Byte
/-- ML-DSA-87 signature, 4,627 bytes, of the seed ξ under a context string over a message (FIPS 204). -/
opaque mldsaSign : Key → List Byte → List Byte → List Byte
/-- ML-KEM-1024 encapsulation key, 1,568 bytes, of the seeds d and z (FIPS 203). -/
opaque mlkemPublic : Key → Key → List Byte
/-- ML-KEM-1024 decapsulation of a ciphertext under the pair of d and z (FIPS 203). -/
opaque mlkemDecaps : Key → Key → List Byte → Key
/-- ML-KEM-1024 encapsulation to a key with 32 random bytes: the ciphertext, 1,568 bytes, and the shared secret (FIPS 203). -/
opaque mlkemEncaps : List Byte → Key → List Byte × Key

/-- Completion-ring entries a function's asynchronous queue holds (R69). -/
def asyncDepth : Nat := 64
/-- Commands a ring may have in progress (R61). -/
def maxInProgress : Nat := 8
/-- KIDs allocated to functions: 0x0001 to 0xFDFF (R118). -/
def kidFirst : Nat := 0x0001
def kidLast : Nat := 0xFDFF
/-- KIDs internal to Aedvik: 0xFE00 to 0xFEFF (R118). -/
def kidIntFirst : Nat := 0xFE00
def kidIntLast : Nat := 0xFEFF
/-- Slots of one KS bank (R29). -/
def bankSlots : Nat := 1024
/-- Entries of an open half's snare and of a fabric port's (R216). -/
def openSnare : Nat := 256
def fabricSnare : Nat := 512
/-- Pending OPEN_REQs a source holds (Table 07-12). -/
def openReqTable : Nat := 256
/-- Sending-stream records per start (Table 07-12). -/
def sendingRecords : Nat := 65536
/-- Replay buffer bytes per port, and frames that may await acknowledgement (R193). -/
def replayBytes : Nat := 524288
def replayFrames : Nat := 1024
/-- Bytes of a certificate chain at most (R153). -/
def chainMax : Nat := 16384
/-- Resends of one frame in a row (R194). -/
def retryLimit : Nat := 16
/-- Member's pending pool requests per fabric port (R261). -/
def memberTable : Nat := 1024
/-- Regions a pool engine's table holds (R243). -/
def regionTable : Nat := 2048
/-- Node fetches that a walker keeps in flight (R253), and the eighth of the counter cache below which dirty nodes are kept (R252). -/
def nodeFetches : Nat := 64
def dirtyNodes : Nat := 12288
/-- Size of a local loop's scratch region, in leaves of 16 KiB, up to 16 MiB with the items in a loop buffer of 16 MiB (R282): taken modulo
the room. A free value. Log entry 189 (DESIGN CHOICE). -/
opaque loopLeaves : Nat → Nat
/-- MAC mismatches that a read of a local loop meets, by the open values taken before it (R282): a fault of the engine's own. A free value.
Log entry 189 (DESIGN CHOICE). -/
opaque loopFaults : Nat → Nat
/-- FENCED ranges of a region (R270). -/
def fencedRanges : Nat := 16
/-- Leases a keeper may hold at a home (Table 09-9). -/
def leaseLimit : Nat := 1024
/-- Nodes of a counter cache (R252). -/
def cacheNodes : Nat := 98304
/-- Contexts: per function and per package (Table 10-1). -/
def ctxPerFn : Nat := 1024
def ctxPackage : Nat := 16384
/-- Memory objects and fences: per function and per package (Table 10-1). -/
def objPerFn : Nat := 65536
def objPackage : Nat := 1048576
def fencePerFn : Nat := 65536
def fencePackage : Nat := 262144
/-- References of a fence (R289) and remote producers it records (R224). -/
def fenceRefs : Nat := 16
def fenceProducers : Nat := 8
/-- Per-command sets of the Tabor gate (R360). -/
def commandSets : Nat := 1024
/-- Trace records of a block, and of the writer queue (R363, R364). -/
def traceBlock : Nat := 7
def traceQueue : Nat := 4096
/-- Bulk contexts per engine, and the queue of one (R331, R339). -/
def bulkContexts : Nat := 16
def bulkQueue : Nat := 64
/-- The fixed boot seed and count of logic BIST (R388). -/
def bootSeed : W64 := 0xA5C396E10F2D7B48
def bootPatterns : Nat := 8192
/-- Halt-log ring of package flash (R375). -/
def haltLog : Nat := 16
/-- Virtual channels that carry credits, and the allotment of each (Table 07-8). -/
def vcCredits (vc : Nat) : Nat :=
  if vc < 3 then 1024 else if vc < 9 then 128 else if vc < 12 then 256 else if vc < 15 then 64 else 0

/-- Power that a package under the null profile reserves, in W (R51 gives none). -/
opaque nullPower : Nat
/-- Rated full-load draw and draw while lent of a link engine, in 10 mW units: figures of the engine within Table 02-8 (R240). -/
opaque ratedDraw : Nat → Nat
opaque lentDraw : Nat → Nat

end Sys2Proof.Config
end

