-- ==== Sys2Proof/Machine/Map.lean ====
section
/-! DEFINITION. Sorted association lists from numbers, the model's sparse tables. -/
namespace Sys2Proof

/-- A sparse table keyed by numbers; `FMap.wf` is its canonical form. -/
abbrev FMap (β : Type) := List (Nat × β)

namespace Machine

/-- The entry stored under `k`. -/
def mapFind {β : Type} : FMap β → Nat → Option β
  | [], _ => none
  | (j, v) :: m, k => if j = k then some v else mapFind m k

/-- The entry under `k`, or `d` where the table lists none. -/
def mapGet {β : Type} (d : β) (m : FMap β) (k : Nat) : β := (mapFind m k).getD d

/-- Store `v` under `k`, keeping the keys strictly rising. -/
def mapSet {β : Type} : FMap β → Nat → β → FMap β
  | [], k, v => [(k, v)]
  | (j, w) :: m, k, v =>
    if k < j then (k, v) :: (j, w) :: m
    else if k = j then (k, v) :: m
    else (j, w) :: mapSet m k v

/-- Remove the entry under `k`. -/
def mapErase {β : Type} : FMap β → Nat → FMap β
  | [], _ => []
  | (j, w) :: m, k => if j = k then mapErase m k else (j, w) :: mapErase m k

/-- Store `v` under `k` in a table whose unlisted keys read as `d`: writing `d` removes the entry. -/
def mapPut {β : Type} [DecidableEq β] (d : β) (m : FMap β) (k : Nat) (v : β) : FMap β :=
  if v = d then mapErase m k else mapSet m k v

/-- Change the entry under `k`, which reads as `d` where unlisted. -/
def mapMod {β : Type} (d : β) (m : FMap β) (k : Nat) (f : β → β) : FMap β :=
  mapSet m k (f (mapGet d m k))

/-- The canonical form: keys strictly rising. -/
def mapWf {β : Type} : FMap β → Bool
  | [] => true
  | [_] => true
  | (j, _) :: (k, w) :: m => decide (j < k) && mapWf ((k, w) :: m)

/-- The canonical form of a table whose unlisted keys read as `d`: keys rising, no entry equal to `d`. -/
def mapWfD {β : Type} [DecidableEq β] (d : β) (m : FMap β) : Bool :=
  mapWf m && m.all (fun e => decide (e.2 ≠ d))

end Machine
end Sys2Proof
end

