-- ==== Sys2Proof/Machine/State.lean ====
section
/-! DEFINITION. The state of the block as plain data. Every field's comment gives its rule of the manual, its reset value and
its meaning; "DC" marks a reset value the manual does not state (log entry 1). A sparse table (`FMap`) lists only what differs
from its default entry, which is the reset value of its type. -/
namespace Sys2Proof.Machine

/-! ### Rings -/

/-- A completion record (Table 03-18). -/
structure CplRec where
  tag : W32
  status : W16
  opcode : Byte
  phase : Bool
  async : Bool
  cmdIndex : W16
  vfGen : W16
  detail : W32
  result : BitVec 128
  deriving DecidableEq, Repr

/-- The half of the doorbell record that Aedvik writes (Table 03-2, bytes 64-127). -/
structure DevHalf where
  cmdHead : W32
  cplTail : W32
  eventPending : W32
  evtOvf : Bool
  evqOvf : Bool
  faulted : Bool
  faultCode : W16
  deriving DecidableEq, Repr

/-- An asynchronous record waiting for a completion slot (R69, Table 03-19). -/
structure AsyncRec where
  kind : W32
  status : W16
  result : BitVec 128
  deriving DecidableEq, Repr

/-- The doorbell-record read of a ring (R60): none outstanding, one owed while the controller sleeps (R380), one issued, or one
issued with a further one owed. -/
inductive DbRead where
  | idle | owed | issued | again
  deriving DecidableEq, Repr

/-- A function's rings and set-up registers. -/
structure RingSt where
  /-- R409 | reset 0 | AVK_CMD_BASE (Table 16-3) -/
  cmdBase : W64 := 0
  /-- R409 | reset 0 | AVK_CPL_BASE (Table 16-3) -/
  cplBase : W64 := 0
  /-- R409 | reset 0 | AVK_DBREC_BASE (Table 16-4) -/
  dbrecBase : W64 := 0
  /-- R409 | reset 0 | CMD_LOG2 of AVK_RING_SIZE (Table 16-5) -/
  cmdLog2 : BitVec 4 := 0
  /-- R409 | reset 0 | CPL_LOG2 of AVK_RING_SIZE (Table 16-5) -/
  cplLog2 : BitVec 4 := 0
  /-- R409 | reset 0 | VECTOR of AVK_MSIX_VEC (Table 16-6) -/
  vector : BitVec 2 := 0
  /-- R410 | reset 0 | ENABLE of AVK_RING_CTRL (Table 16-7) -/
  ctrl : Bool := false
  /-- R410 | reset 0 | ENABLED of AVK_RING_STATUS (Table 16-8) -/
  enabled : Bool := false
  /-- R410 | reset 0 | an enable has passed its checks and its record read and write are under way -/
  enabling : Bool := false
  /-- R410 | reset 0 | ENABLE_ERR of AVK_RING_STATUS (Table 16-9) -/
  enableErr : Byte := 0
  /-- R59 | reset 0 | FAULTED -/
  faulted : Bool := false
  /-- R58 | reset 0 | FAULT_CODE (Table 03-2) -/
  faultCode : W16 := 0
  /-- R70 | reset 0 | EVT_OVF -/
  evtOvf : Bool := false
  /-- R69 | reset 0 | EVQ_OVF -/
  evqOvf : Bool := false
  /-- R60 | reset 0 | CMD_TAIL as the last wake read gave it -/
  cmdTail : W32 := 0
  /-- R58 | reset 0 | CMD_HEAD: descriptors dispatched -/
  cmdHead : W32 := 0
  /-- R58 | reset 0 | CPL_TAIL: completion records written -/
  cplTail : W32 := 0
  /-- R60 | reset 0 | CPL_HEAD as the last wake read gave it -/
  cplHead : W32 := 0
  /-- R70 | reset 0 | EVENT_TAKE as the last wake read gave it -/
  eventTake : W32 := 0
  /-- R70 | reset 0 | EVENT_PENDING -/
  eventPending : W32 := 0
  /-- R71 | reset 0 | an interrupt of the ring is outstanding -/
  interrupt : Bool := false
  /-- R69 | reset empty | asynchronous records waiting for a free slot, oldest first, at most 64 -/
  waiting : List AsyncRec := []
  /-- R60 | reset idle | the wake's doorbell-record read -/
  dbRead : DbRead := .idle
  /-- R168 | reset 0 | a host write of the ring has already failed -/
  hostWriteFailed : Bool := false
  /-- R61 | reset 0 | the descriptor at CMD_HEAD has been found to have ORDERED set while commands are in progress -/
  headOrdered : Bool := false
  /-- R164 | reset 0 | dispatch is stopped for good: the ring is disabled once its commands have left -/
  closing : Bool := false
  deriving DecidableEq, Repr

/-! ### Functions, contexts, objects and fences -/

/-- A context handle that has been used since the VF's reset (R65, R286). -/
structure CtxSt where
  /-- R286 | reset 0 | generation -/
  gen : W16 := 0
  /-- R65 | reset 0 | the context is live -/
  live : Bool := false
  /-- R310 | reset 0 | the context is a suspect -/
  suspect : Bool := false
  deriving DecidableEq, Repr

/-- A memory object (R287, R288). -/
structure ObjSt where
  rights : Byte
  ctx : W16
  base : Nat
  size : Nat
  unmapping : Bool
  scrub : Bool
  deriving DecidableEq, Repr

/-- ERR of a fence (Table 08-4). -/
inductive FenceErr where
  | none | range | abandoned | peerLost
  deriving DecidableEq, Repr

/-- A fence (Table 08-4) with its reference list (R289): contexts, 0xFFFF being the VF-level holder, and the waits that the
synchronisation unit registered. -/
structure FenceSt where
  /-- R224 | reset 0 | VALUE -/
  value : W64 := 0
  /-- R224 | reset none | ERR -/
  err : FenceErr := .none
  /-- R224 | reset 0xFFFF | LOCAL_PRODUCER -/
  local_ : W16 := 0xFFFF
  /-- R227 | reset 0 | package whose loss set ERR (DETAIL of PEER_LOST) -/
  lostPeer : BitVec 12 := 0
  /-- R224 | reset empty | REMOTE_PRODUCERS -/
  remotes : List (BitVec 12) := []
  /-- R224 | reset 0 | overflow bit of REMOTE_PRODUCERS -/
  overflow : Bool := false
  /-- R289 | reset empty | reference list -/
  refs : List W16 := []
  /-- R238 | reset empty | waits registered by the synchronisation unit: context and awaited value -/
  unitWaits : List (W16 × W64) := []
  deriving DecidableEq, Repr

/-- The state of a TDI (R162). -/
inductive TdiState where
  | unlocked | locked | run | error
  deriving DecidableEq, Repr

/-- A TDI: its state, and what a lock froze (Table 06-9). -/
structure TdiSt where
  /-- R162 | reset CONFIG_UNLOCKED | TDI state -/
  state : TdiState := .unlocked
  /-- R164 | reset 0 | bound selective stream id -/
  stream : Nat := 0
  /-- R164 | reset none | start nonce -/
  nonce : Option Key := none
  /-- R164 | reset 0 | VF reset generation recorded at the lock -/
  lockGen : W16 := 0
  /-- R164 | reset 0 (DC) | placement that the lock froze -/
  place : Placement := {}
  /-- R164 | reset 0 | a STOP awaits the cleanup sequence: its port and session -/
  stopOwed : List (BitVec 1) := []
  deriving DecidableEq, Repr

/-- Dirty logging of a VF (R326, R327). -/
structure DirtyLog where
  bufAddr : W64
  bufLen : W64
  activeB : Bool
  pagesA : List Nat
  pagesB : List Nat
  overflow : Bool
  deriving DecidableEq, Repr

/-- An image being saved from a VF (R322-R324); `header`: SHA-384 of its header chunk, once that is written. -/
structure SaveSt where
  contentKey : Key
  imageId : BitVec 128
  header : Option Hash
  nextIndex : Nat
  segments : FMap Nat
  left : Option (List (Byte × Nat))
  pos : Nat
  deriving DecidableEq, Repr

/-- An image being restored into a VF (R325); `pos`: bytes of the whole image applied. -/
structure RestoreSt where
  contentKey : Key
  header : Hash
  srcDevice : W64
  jobId : W16
  carveSizes : List Nat
  lastIndex : Nat
  items : List ImageItem
  filter : Option FilterImage
  segments : FMap Nat
  segMap : List W32
  pos : Nat
  deriving DecidableEq, Repr

/-- A cleanup sequence of R164 in progress: the steps that still wait. -/
structure CleanSt where
  kids : List W16
  byReset : Option (Fn × W32)
  blocking : Bool := false
  deriving DecidableEq, Repr

/-- A function: its rings, contexts, objects, fences, TDI, job and generations. -/
structure FnSt where
  /-- R56 | reset as its fields | rings and set-up registers -/
  ring : RingSt := {}
  /-- R286 | reset empty | context handles used -/
  ctxs : FMap CtxSt := []
  /-- R287 | reset empty | memory objects, by index -/
  objs : FMap ObjSt := []
  /-- R285 | reset 0 (DC) | reuse counts of memory-object indices -/
  objReuse : FMap W16 := []
  /-- R224 | reset empty | fences, by index -/
  fences : FMap FenceSt := []
  /-- R285 | reset 0 (DC) | reuse counts of fence indices -/
  fenceReuse : FMap W16 := []
  /-- R162 | reset 0 | the VF is enabled -/
  enabled : Bool := false
  /-- R164 | reset 0 (DC) | where the host has placed the VF -/
  place : Placement := {}
  /-- R306 | reset 0x0001 | VF reset generation -/
  gen : W16 := 1
  /-- R162 | reset CONFIG_UNLOCKED | TDI -/
  tdi : TdiSt := {}
  /-- R11 | reset none | job the VF is bound to -/
  job : Option W16 := none
  /-- R116 | reset 0 | KID of the bound job's master key -/
  jmkKid : W16 := 0
  /-- R309 | reset 0 | the VF is quiesced -/
  quiesced : Bool := false
  /-- R309 | reset empty | quiescence set: descriptor counts in progress when QUIESCE_VF recorded them -/
  quiesceSet : List W32 := []
  /-- R321 | reset 0 | the VF is frozen -/
  frozen : Bool := false
  /-- R326 | reset none | dirty logging -/
  dirty : Option DirtyLog := none
  /-- R36 | reset empty | dirty segments marked by the firewall checkers -/
  marks : List Nat := []
  /-- R318 | reset none | outstanding NONCE_S -/
  nonceS : Option Key := none
  /-- R318 | reset none | destination's KEY parameters of the exchange: source device, destination device, source VF -/
  migPeer : Option (W64 × W64 × W16) := none
  /-- R320 | reset empty | migration KIDs of the VF -/
  migKids : List W16 := []
  /-- R324 | reset none | image being saved -/
  save : Option SaveSt := none
  /-- R325 | reset none | image being restored -/
  restore : Option RestoreSt := none
  /-- R325 | reset none | return-filter chunk held until the VF joins its job -/
  heldFilter : Option FilterImage := none
  /-- R164 | reset none | cleanup sequence in progress -/
  cleaning : Option CleanSt := none
  /-- R309 | reset empty | requests of the VF's contexts that wait at the fabric ports while it is quiesced, oldest first -/
  fabHeld : List Instr := []
  deriving DecidableEq, Repr

/-! ### Data for host memory -/

/-- A trace record (Table 13-10). -/
structure TraceRec where
  tick : Nat
  kind : Nat
  ctx : W16
  data : BitVec 128
  deriving DecidableEq, Repr

/-- A life-cycle status block (Table 04-16). -/
structure LcStatus where
  state : Byte
  progress : Byte
  tokensLeft : Byte
  flags : Byte
  ownerSlot : Byte
  ownerSlotsLeft : Byte
  deviceId : W64
  identityHash : Hash
  ownerHash : Hash
  stateWord : W64
  progressWord : W64
  deriving DecidableEq, Repr

/-- Measurement blocks (Table 06-6): index, DMTF value type with its raw bit, value. -/
abbrev Measurements := List (Byte × Byte × List Byte)

/-- Data that Aedvik writes to host memory for a command. -/
inductive HostData where
  | nonce (n : Key)
  | lcStatus (b : LcStatus)
  | telemetry (view : Byte) (rflags : Byte) (vf : W16) (index start : Nat) (window : Nat) (counts : FMap Nat) (lost : Nat) (trace : List TraceRec)
  | migMessage (bytes : List Byte)
  | chunk (c : Chunk) (content : List Byte)
  | segmentMap (len : Nat) (bits : List Nat)
  | dirtyLine (inB : Bool) (line : Nat) (pages : List Nat)
  | bulkRecord (r : BulkRec)
  | digest (d : BitVec 512)
  | plain (data : List Byte)
  deriving DecidableEq, Repr

/-! ### Commands in progress -/

/-- What a started command waits for before its last part runs; every part must be satisfied (empty and false are). -/
structure Hold where
  kids : List W16 := []
  writes : List Nat := []
  cmds : List (Fn × W32) := []
  xids : List W32 := []
  jobs : List Nat := []
  objs : List (Nat × Nat) := []
  accesses : List Nat := []
  batches : List Nat := []
  seals : List (W16 × W32) := []
  dma : Bool := false
  kxe : Bool := false
  flash : Bool := false
  boundary : Bool := false
  room : Option Nat := none
  checkpoint : Bool := false
  peer : Bool := false
  signal : Bool := false
  engine : Bool := false
  deriving DecidableEq, Repr

/-- The last part of a started command, run when its hold is satisfied. -/
inductive Act where
  | none
  | done (status : W16) (detail : W32) (result : BitVec 128)
  | join (jobId : W16) (kid : W16) (key : Key) (ok : Bool)
  | leave (jobId : W16)
  | leaveDone (jobId : W16) (keys : List Nat)
  | park (key dir : Nat) (kid : W16) (dirIndex : W32) (durable : Bool) (step jobId : Nat)
  | resume (key dir : Nat) (kid : W16) (dirIndex : W32) (durable : Bool) (step jobId : Nat)
  | regionCreate (key : Nat) (kid : W16)
  | regionFree (key : Nat)
  | handover (key : Nat) (newKeeper : BitVec 12) (step : Nat)
  | reduce (ids : List Nat)
  | rotate (job : W16) (sid : W32)
  | openSend (sid : W32) (peer : BitVec 12) (kid : W16)
  | openRecv (sid : W32) (peer : BitVec 12) (kid : W16) (challenge : BitVec 128) (sendSid : Option W32) (sendDone recvDone : Bool) (e0 : W32) (sendKid : W16)
  | close (sid : W32) (job : W16) (sending receiving : Bool)
  | carve (key : Nat) (base limit : Nat) (step : Nat)
  | unmap (fn : Nat) (idx : Nat)
  | abandon (vf : Fn) (ctx newGen : W16) (kids : List W16) (regions : List Nat)
  | fenceWait (idx : Nat) (value : W64)
  | quiesce
  | reset (vf : Fn) (step : Nat)
  | resetPackage (env : StartEnv)
  | replay (ctx : W16) (left : List ReplayDesc) (total done : W32)
  | migrateKey (kid : W16) (addr : W64) (reply : Option HostData)
  | freeze (step : Nat)
  | dirtySync (addr : W64) (hostBits : Nat) (step : Nat)
  | debugGrant (cert : Cert) (kid : W16)
  | lcTransition (req : LcReq) (env : StartEnv) (step : Nat)
  | ownerStore (it : OwnerItem)
  | bulkOp (bctx : W32) (op : BulkOperands) (aux : Fetched Aux) (queued : Bool)
  | bulkSave (bctx : W32) (dst : W64) (wrapped : Bool) (queued : Bool)
  | bulkRestore (bctx : W32) (wrapped : Bool) (rec : Fetched BulkRec) (queued : Bool)
  | bulkClose (bctx : W32)
  | selfTest (units : List W16) (seed : W64) (patterns : Nat)
  deriving DecidableEq, Repr

/-- A command in progress (R61): dispatched, its record not yet written. `raw`: the copy of its descriptor; `rsvd`: the first RSVD byte
of its operands that is not zero (R64, R421); `started`: its own row has come. -/
structure InProg where
  fn : Fn
  idx : W32
  raw : BitVec 512
  opcode : Byte
  tag : W32
  event : Bool
  ctx : W16
  ctxGen : W16
  tvf : Option (BitVec 12)
  gen : W16
  rsvd : Option Nat
  started : Bool
  hold : Hold
  act : Act
  deriving DecidableEq, Repr

/-! ### Key store -/

/-- KIND of a slot (Table 05-6). -/
inductive KeyKind where
  | job | stream | region | directory | batchFilter | tenant | trace | migration | debug | spdm | ide | firmware
  deriving DecidableEq, Repr

/-- A filled slot (Table 05-6): key and metadata. -/
structure SlotSt where
  key : Key
  kind : KeyKind
  use : Byte
  kid : W16
  owner : Fn
  job : W16
  ctx : W16
  ctxGen : W16
  epoch : W32
  subject : BitVec 40
  parent : W16
  deriving DecidableEq, Repr

/-- The state of a KID (Table 05-7). -/
inductive KidState where
  | reserved (by_ : Fn) | live | suspended | retiring | quarantined (epoch : Nat)
  deriving DecidableEq, Repr

/-- An entry of the KID table: state, slot, and the function it belongs to (none: Aedvik). -/
structure KidSt where
  st : KidState
  slot : Nat
  owner : Option Fn
  deriving DecidableEq, Repr

/-- What the KXE's key memory holds from the start on (R112): the P-384 private key of the identity pair, ξ of the ML-DSA-87 pair, d and z
of the ML-KEM-1024 pair, and the P-384 private key of the key-establishment pair. -/
structure IdentityKeys where
  ecD : Nat
  xi : Key
  kemD : Key
  kemZ : Key
  keD : Nat
  deriving DecidableEq, Repr

/-- The key store, the ladder and the engines' key caches. -/
structure KsSt where
  /-- R119 | reset empty | filled slots by number; a slot not listed is free -/
  slots : FMap SlotSt := []
  /-- R120 | reset empty | KID table; a KID not listed is UNALLOCATED -/
  kids : FMap KidSt := []
  /-- R121 | reset 0 | last KID allocated to a function -/
  lastKid : Nat := 0
  /-- R121 | reset 0xFDFF | last internal KID allocated -/
  lastInt : Nat := 0xFDFF
  /-- R121 | reset 15 | bank last used -/
  lastBank : Nat := 15
  /-- R138 | reset 0 | quarantine epoch -/
  epoch : Nat := 0
  /-- R125 | reset empty | key caches, which CACHED_IN of Table 05-6 reports: engine number to its KIDs, most recent first -/
  caches : FMap (List W16) := []
  /-- R108 | reset 0 | boot nonce in the ladder -/
  bootNonce : Key := 0
  /-- R109 | reset none | trace root drawn where the DRS cannot be used -/
  traceRoot : Option Key := none
  /-- R112 | reset 0 | KE_HASH of this start -/
  keHash : Hash := 0
  /-- R112 | reset none | private halves of the identity and key-establishment pairs, in the KXE's key memory -/
  identity : Option IdentityKeys := none
  deriving DecidableEq, Repr

/-! ### Frames and links -/

/-- Body of a frame that a port sends. -/
inductive Body where
  | sealed (h : SealHdr) (ftype : Byte) (cipher : List Byte) (tag : BitVec 128)
  | home (h : HomeHdr) (payload : List Byte) (ueMap macUe ceCount : W32)
  | forwarded (tail : List Byte)
  | beat (boot : W64) (port : Nat) (bflags : Byte)
  | knell (boot : W64) (reason : Byte)
  | proxyKnell (lost : BitVec 12) (cause : Byte) (lostBoot : W64)
  | openReq (sid : W32) (job : W16) (challenge : BitVec 128)
  | openAck (sid : W32) (job : W16) (routeSel : BitVec 2) (epoch : W32) (challenge : BitVec 128) (relays : List (BitVec 12)) (tag : BitVec 128)
  | credit (more : List (BitVec 4 × BitVec 12))
  | loop (header : List Byte) (cipher : List Byte) (tag : BitVec 128)
  deriving DecidableEq, Repr

/-- A frame on a hop: its hop word, routing word, body and HOP_CRC (Tables 07-2, 07-3, 07-7). -/
structure Frame where
  hop : Hop
  route : W32
  body : Body
  crc : W32
  deriving DecidableEq, Repr

/-- What a port still has to send: a frame to be sealed, whose stream state is taken when it is sealed, or a ready frame of the HOME,
control or forwarded kinds; `ret` gives a forwarded frame's arrival port and VC and the credits it holds there. -/
inductive TxItem where
  | seal (job : W16) (sid : W32) (ftype : Byte) (units : Nat) (dstCtx dstCtxGen batch batchGen : W16) (payload : List Byte) (ctx : W16)
  | ready (vc : BitVec 4) (kind : BitVec 4) (routeSel hopIndex : BitVec 2) (units : Nat) (route : W32) (body : Body) (ret : Option (Fin 32 × Nat × Nat))
  deriving DecidableEq, Repr

/-- A link port. -/
structure PortSt where
  /-- R415 | reset 0 | the optical die reports the port trained -/
  trained : Bool := false
  /-- R415 | reset 0 | the port is up -/
  up : Bool := false
  /-- R424 | reset none | neighbour's package id, learnt -/
  nbr : Option (BitVec 12) := none
  /-- R202 | reset none | boot count last seen from the neighbour -/
  nbrBoot : Option W64 := none
  /-- R202 | reset 0 | the neighbour is declared lost (NBR_LOST in our beats) -/
  nbrLost : Bool := false
  /-- R202 | reset none | id of the neighbour declared lost, until it is readmitted -/
  lostId : Option (BitVec 12) := none
  /-- R205 | reset 0 | LOST_SEEN in our beats -/
  lostSeen : Bool := false
  /-- R239 | reset 0 | LENDING of the neighbour's previous beat -/
  nbrLending : Bool := false
  /-- R193 | reset 0 (DC) | LINK_SEQ of the next frame sent -/
  txSeq : BitVec 11 := 0
  /-- R193 | reset 0 (DC) | LINK_SEQ expected next -/
  rxSeq : BitVec 11 := 0
  /-- R193 | reset 0 | a frame has been received clean and in order (ACK_VALID) -/
  rxAny : Bool := false
  /-- R193 | reset 0 | a NAK is outstanding -/
  nak : Bool := false
  /-- R193 | reset empty | replay buffer: frames not yet acknowledged, oldest first -/
  replay : List Frame := []
  /-- R194 | reset 0 | resends in a row of the oldest unacknowledged frame -/
  resends : Nat := 0
  /-- R196 | reset 0 | credits granted by the neighbour and not consumed, per VC 0-14 -/
  credits : List Nat := List.replicate 15 0
  /-- R196 | reset 0 | credits of our own buffer per VC 0-14, held by frames that stand in the receive buffer -/
  held : List Nat := List.replicate 15 0
  /-- R196 | reset empty | frames waiting for credits or replay space, in order -/
  queue : List TxItem := []
  /-- R196 | reset 0 | credits to be returned to the neighbour, per VC 0-14, that no frame has carried yet -/
  due : List Nat := List.replicate 15 0
  /-- R193 | reset 0 | a NAK that no frame has carried yet -/
  nakDue : Bool := false
  /-- R35 | reset 0 | pointers of the egress arbiter per VC 0-15: arrival ports are requesters 0-31, seal halves 32-65 -/
  arb : List Nat := List.replicate 16 0
  /-- R203 | reset empty | through-set -/
  through : List (BitVec 12) := []
  /-- R238 | reset 0 | upper banks of the seal half asleep -/
  lentSeal : Bool := false
  /-- R238 | reset 0 | upper banks of the open half asleep -/
  lentOpen : Bool := false
  /-- R239 | reset 0 | the seal half's restore is under way -/
  restSeal : Bool := false
  /-- R239 | reset 0 | the open half's restore is under way -/
  restOpen : Bool := false
  /-- R208 | reset 0 | loopback depth -/
  loopDepth : Nat := 0
  /-- R417 | reset 0 | loopback partner port -/
  loopPartner : BitVec 5 := 0
  deriving DecidableEq, Repr

/-- A stream open for sending (R179, R181, R185). -/
structure SendSt where
  job : W16
  sid : W32
  fn : Fn
  ctx : W16
  ctxGen : W16
  e0 : W32
  epoch : W32
  index : Nat
  kid : W16
  next : Option W16
  routeSel : BitVec 2
  port : Fin 32
  relays : List (BitVec 12)
  closing : Bool
  deriving DecidableEq, Repr

/-- A stream open for receiving (R179, R186). -/
structure RecvSt where
  job : W16
  sid : W32
  fn : Fn
  ctx : W16
  ctxGen : W16
  e0 : W32
  epoch : W32
  index : Nat
  kid : W16
  next : Option W16
  relays : List (BitVec 12)
  closing : Bool
  deriving DecidableEq, Repr

/-- An OPEN_REQ held by the source (R182). -/
structure HeldReq where
  job : W16
  sid : W32
  challenge : BitVec 128
  deriving DecidableEq, Repr

/-- The opened content of a sealed frame. -/
inductive FrameBody where
  | data (p : DataPay)
  | chime (p : ChimePay)
  | token (p : TokenPay)
  | return_ (p : DataPay)
  | refusal (p : RefusalPay)
  | pool (p : PoolPay)
  | offer (p : OfferPay)
  | answer (regionId : BitVec 40) (status : W16) (detail : W32)
  | commit (regionId : BitVec 40)
  | epochEnd (nextSeq : W64)
  | close
  | reserved (ftype : Byte)
  deriving DecidableEq, Repr

/-- A sealed frame waiting in the receive buffer with its credits held (R187, R419, R216). -/
structure WaitSt where
  arr : Arrival
  hdr : SealHdr
  body : FrameBody
  deriving DecidableEq, Repr

/-- An entry of an open half's snare (R216): a verified chime and what it still waits for; `met`: its place in the order in which the
chimes' conditions were met, once they are (R221). -/
structure SnareSt where
  port : Fin 32
  fn : Fn
  src : BitVec 12
  job : W16
  sid : W32
  seq : W64
  dstCtx : W16
  sigs : List ChimeSig
  writes : List Nat
  jobs : List Nat
  met : Option Nat
  deriving DecidableEq, Repr

/-- An entry of a fabric port's snare: a local chime (R223). -/
structure LocalChime where
  fn : Fn
  ctx : W16
  fport : BitVec 3
  sigs : List ChimeSig
  jobs : List Nat
  tags : List W32
  deriving DecidableEq, Repr

/-- An entry of a fabric port's snare: the completion of a verified local pool read, which waits for the write of its plaintext to its
requester (R216); `id` numbers that write, `job` is the request's number. -/
structure LocalRead where
  id : Nat
  fport : Nat
  fn : Fn
  ctx : W16
  gen : W16
  job : Nat
  deriving DecidableEq, Repr

/-- A plaintext write handed to the compute fabric and not yet completed (R220). -/
structure WriteSt where
  fn : Fn
  job : W16
  sid : W32
  obj : Option (Nat × Nat)
  e0 : W32
  batch : Option (BitVec 12)
  addr : Nat
  len : Nat
  deriving DecidableEq, Repr

/-- An entry of the return filter (Table 08-9). -/
structure FilterSt where
  /-- R234 | reset 0 | CLAIMED -/
  claimed : Bool := false
  /-- R234 | reset 0 | JOB_ID -/
  job : W16 := 0
  /-- R234 | reset 0 | GEN -/
  gen : W16 := 0
  /-- R234 | reset 0 | IN_FLIGHT -/
  inFlight : W16 := 0
  deriving DecidableEq, Repr

/-- A member's pending pool request (R261). -/
structure MemberSt where
  fn : Fn
  ctx : W16
  keeper : BitVec 12
  read : Bool
  buffer : W64
  gen : W16
  fp : Nat
  deriving DecidableEq, Repr

/-! ### The encrypted pool -/

/-- The state of a region at its keeper (Table 09-2). -/
inductive RegState where
  | creating | live | parking | handover | lost | freeing
  deriving DecidableEq, Repr

/-- A cached tree node (R252). -/
structure CacheNode where
  node : Node
  dirty : Bool
  used : Nat
  deriving DecidableEq, Repr

/-- A sweep of a node's 64 children after a minor overflow or a bump to BASE (R250, R267): the node before, whether the walker
has begun, the children read so far. The root stands one level above the top node. -/
structure SweepSt where
  level : Nat
  idx : Nat
  old : Node
  started : Bool
  xids : List W32
  lines : FMap Line
  nodes : FMap Node
  deriving DecidableEq, Repr

/-- A region in a pool engine's table. `gone`: it has been LOST, so that its home is told nothing any more (R278); `loop`: the scratch
region of an engine's local loop, which stands in no table (R282). -/
structure RegionSt where
  fn : Fn
  job : W16
  rid : BitVec 40
  homeRid : BitVec 40
  oldKeeper : Option (BitVec 12)
  ctx : W16
  ctxGen : W16
  epoch : W32
  creator : BitVec 12
  size : Nat
  home : BitVec 12
  engine : Nat
  kid : W16
  state : RegState
  root : Node
  base : Nat
  cache : FMap CacheNode
  arrived : FMap NodeItem
  fenced : List (Nat × Nat)
  leases : List Nat
  sweeps : List SweepSt
  writeBuf : FMap Line
  deferred : List Nat
  opcode : Byte
  gone : Bool
  loop : Bool
  deriving DecidableEq, Repr

/-- Who a pool request at the keeper answers; on a local loop, the loop itself (`own`) or the debug master, under its debug KID. -/
inductive PoolFrom where
  | localReq (fn : Fn) (ctx : W16) (gen : W16)
  | member (sid : W32) (member : BitVec 12) (job : W16) (retOrdinal : BitVec 4) (ptag : W32) (pop : Byte) (seq : W64)
  | command (fn : Fn) (idx : W32)
  | loop (kid : W16) (own : Bool)
  deriving DecidableEq, Repr

/-- What a pool request does to its lines. -/
inductive PoolKind where
  | read | write | reduce (op fmt : Byte)
  deriving DecidableEq, Repr

/-- A pool request admitted at the keeper (R262). `phase` 0: waiting for its fetches; 1: waiting for its writes, `owes` being the
lines still held by the read-modify-write unit; 2: finished, kept for its command. `bad`: fetched lines whose MAC failed; `shown`: lines
whose plaintext has been released to the requester (R211). -/
structure PoolJob where
  id : Nat
  region : Nat
  from_ : PoolFrom
  kind : PoolKind
  offset : Nat
  length : Nat
  data : List Byte
  phase : Nat
  xids : List W32
  lines : FMap Line
  bad : List Nat
  shown : List Nat
  owes : List Nat
  status : W16
  detail : W32
  deriving DecidableEq, Repr

/-- What a HOME exchange of the keeper asked for (R254, R271). -/
structure ExchSt where
  op : Byte
  region : Nat
  job : W16
  rid : BitVec 40
  home : BitVec 12
  items : List Nat
  lease : Bool
  release : Bool
  held : Bool
  arg : W64
  cmd : Option (Fn × W32)
  deriving DecidableEq, Repr

/-- A region stored at this package as home (R256, R258). -/
structure HomeSt where
  job : W16
  rid : BitVec 40
  keeper : BitVec 12
  size : Nat
  depth : Nat
  base : Nat
  lines : FMap Line
  lineMacs : FMap W64
  nodes : FMap Node
  nodeMacs : FMap W64
  leases : List Nat
  waiting : List (Arrival × HomeHdr × EccReport)
  deriving DecidableEq, Repr

/-- The loop buffer of a pool engine (R282): the items that a home would store (Table 09-5). -/
structure LoopBuf where
  lines : FMap Line := []
  lineMacs : FMap W64 := []
  nodes : FMap Node := []
  nodeMacs : FMap W64 := []
  deriving DecidableEq, Repr

/-- FENCED ranges of a parked region, which stand until its REGION_FREE (R270). -/
structure ParkedFence where
  job : W16
  rid : BitVec 40
  epoch : W32
  ranges : List (Nat × Nat)
  deriving DecidableEq, Repr

/-! ### Carve-outs and the scrubber -/

/-- State of a carve-out entry (R291). -/
inductive CarveState where
  | open_ | blocked | shrinking
  deriving DecidableEq, Repr

/-- A carve-out entry (R291). -/
structure CarveSt where
  /-- R291 | reset 0 | BASE -/
  base : Nat := 0
  /-- R291 | reset 0 | LIMIT, exclusive -/
  limit : Nat := 0
  /-- R291 | reset OPEN | state -/
  state : CarveState := .open_
  /-- R295 | reset 0 | the range that stays in force while a shrink is in progress -/
  keepLo : Nat := 0
  keepHi : Nat := 0
  /-- R321 | reset 0 | closed by a freeze except for the reads of MIGRATE_SAVE -/
  frozen : Bool := false
  /-- R293, R304 | reset 0 | enters BLOCKED at the next boundary, or once the shrink in progress completes -/
  blockNext : Bool := false
  deriving DecidableEq, Repr

/-- A range handed to the scrubber (R297): the opcode that released it, and the carve-out entry that reopens when its last
range is done. -/
structure ScrubSt where
  lo : Nat
  hi : Nat
  opcode : W32
  carve : Option Nat
  deriving DecidableEq, Repr

/-- A change of the carve-out table staged for the next fabric epoch boundary (R293). -/
inductive Staged where
  | setEntry (key base limit : Nat)
  | shrinkStart (key lo hi : Nat)
  | shrinkEnd (key base limit : Nat)
  | block (key : Nat)
  | reopen (key : Nat)
  | freeze (fn : Nat) (on : Bool)
  | clearMarks (fn : Nat)
  | takeMarks (fn : Nat) (cmd : Fn × W32)
  deriving DecidableEq, Repr

/-! ### Tabor gate -/

/-- A view (R357-R359). -/
structure ViewSt where
  /-- R359 | reset 1000 | window in force, microseconds -/
  window : Nat := 1000
  /-- R359 | reset 0 | T0 -/
  t0 : Nat := 0
  /-- R357 | reset 0 | index of the window now open -/
  index : Nat := 0
  /-- R357 | reset empty | start latch of the window now open -/
  start : FMap Nat := []
  /-- R362 | reset none | most recently closed window: index, start tick, window, counts -/
  closed : Option (Nat × Nat × Nat × FMap Nat) := none
  /-- R359 | reset none | setting that takes effect at the next end tick -/
  pending : Option Nat := none
  deriving DecidableEq, Repr

/-- A stamped event on its way to the running counters (R356): function, context, counter, units, tick. -/
structure TaborEv where
  fn : Nat
  ctx : W16
  counter : Nat
  units : Nat
  tick : Nat
  deriving DecidableEq, Repr

/-- A per-command set (R360). -/
structure CmdSet where
  fn : Nat
  ctx : W16
  counts : FMap Nat
  sat : Bool
  deriving DecidableEq, Repr

/-- A sealed block of a reader's slice (Table 13-10): SEQ, its records, and its 256 bytes. -/
structure TraceBlock where
  seq : Nat
  recs : List TraceRec
  image : List Byte
  deriving DecidableEq, Repr

/-- A reader's trace: queued records, sealed blocks, next SEQ, records lost since the last read. -/
structure TraceSt where
  /-- R363 | reset empty | records of the block being filled -/
  queue : List TraceRec := []
  /-- R363 | reset empty | sealed blocks in the reader's slice -/
  blocks : List TraceBlock := []
  /-- R118 | reset none | KID of the reader's TRACE key, once a block has been sealed under it -/
  kid : Option W16 := none
  /-- R363 | reset 0 | SEQ of the next block -/
  seq : Nat := 0
  /-- R362 | reset 0 | records lost since the last read -/
  lost : Nat := 0
  deriving DecidableEq, Repr

/-- The Tabor gate. Counter keys: function number × 128 + code, codes 0-95 the operation counters, 96-127 the VF-scope
counters 0x20-0x3F; port counters port × 16 + code; package counters by code. -/
structure TaborSt where
  /-- R355 | reset 0 | running counters of functions -/
  counts : FMap Nat := []
  /-- R361 | reset 0 | port counters -/
  ports : FMap Nat := []
  /-- R361 | reset 0 | package counters 0x10-0x1F -/
  pkg : FMap Nat := []
  /-- R292 | reset 0 | refusals per function and checker: function number × 16 + checker -/
  checkers : FMap Nat := []
  /-- R358 | reset 1000 us views | VF views -/
  vfViews : FMap ViewSt := []
  /-- R358 | reset 1000 us views | PF views of VFs -/
  pfViews : FMap ViewSt := []
  /-- R358 | reset 1000 us view | package view -/
  pkgView : ViewSt := {}
  /-- R356 | reset empty | events stamped and not yet applied, in stamp order -/
  events : List TaborEv := []
  /-- R360 | reset empty | per-command sets -/
  sets : List CmdSet := []
  /-- R363 | reset empty | trace of each reader, by function number -/
  trace : FMap TraceSt := []
  /-- R301 | reset 5 (profile) | TRACE_SHARE, in units of 0.1 % -/
  share : Nat := 5
  /-- R301 | reset 1 (profile) | TRACE_GIB -/
  gib : Nat := 1
  deriving DecidableEq, Repr

/-! ### Debug -/

/-- The Speedwell grant in force (R346, R350). -/
structure GrantSt where
  rights : W64
  scope : W16
  owner : Bool
  kid : W16
  deriving DecidableEq, Repr

/-- The perturbation registers (Table 16-26). -/
structure PerturbSt where
  /-- R417 | reset 0 | AVK_PTB_HSK: CROSSING -/
  hskCrossing : BitVec 6 := 0
  /-- R417 | reset 0 | AVK_PTB_HSK: DELAY -/
  hskDelay : Byte := 0
  /-- R417 | reset 0 | AVK_PTB_BP: GRANT_HOLD -/
  bp : W32 := 0
  /-- R417 | reset 0 | AVK_PTB_TAGHOLD: PORT -/
  tagPort : BitVec 5 := 0
  /-- R417 | reset 0 | AVK_PTB_TAGHOLD: CYCLES -/
  tagCycles : BitVec 12 := 0
  /-- R417 | reset 0 | AVK_PTB_BEAT: PORT -/
  beatPort : BitVec 5 := 0
  /-- R417 | reset 0 | AVK_PTB_BEAT: COUNT -/
  beatCount : Byte := 0
  /-- R417 | reset 0 | AVK_PTB_LOOP as last written -/
  loopLast : W32 := 0
  /-- R282 | reset 0 | pool engines whose local loop runs -/
  poolLoops : List Nat := []
  /-- R208 | reset 0 | debug KIDs of running loops: 0-31 ports, 32-39 pool engines -/
  loopKids : FMap W16 := []
  deriving DecidableEq, Repr

/-! ### SPDM and IDE -/

/-- An answer of the SPDM responder, IDE_KM or TDISP; signatures as bytes. -/
inductive Resp where
  | doeDiscovery (vendor : W16) (type : Byte) (next : Byte)
  | version (entries : List W16)
  | capabilities (flags : W32) (ctExponent : Byte) (transfer maxMsg : W32)
  | algorithms (sel : Algorithms)
  | digests (slots : Byte) (hashes : List Hash)
  | certificate (slot : Byte) (offset : W16) (portion : List Byte) (remainder : Nat)
  | challengeAuth (slot : Byte) (nonce : Key) (signature : List Byte)
  | measurements (blocks : Measurements) (nonce : Key) (signature : Option (List Byte))
  | keyExchangeRsp (session : Nat) (signature : List Byte)
  | finishRsp | endSessionAck
  | error (code : Byte) (data : Byte)
  | queryResp (portIndex : Byte) (capability control : W32)
  | kpAck (ok : Bool)
  | goAck (ok : Bool) | stopAck (ok : Bool)
  | tdispVersion | tdispCapabilities
  | lockResponse (nonce : Key)
  | interfaceReport (vf : BitVec 12) (stream : Nat) (ranges : List (W64 × Nat)) (msixTable pendingBits : W64)
  | interfaceState (st : TdiState)
  | startResponse | stopResponse
  | tdispError (code : Nat)
  deriving DecidableEq, Repr

/-- How far a mailbox's connection has come (R147-R150). -/
inductive SpdmPhase where
  | start | version | capabilities | negotiated
  deriving DecidableEq, Repr

/-- An SPDM session of a mailbox. -/
structure SessionSt where
  id : Nat
  established : Bool
  kid : W16
  deriving DecidableEq, Repr

/-- A DOE mailbox (R146). -/
structure MailSt where
  /-- R147 | reset start | connection state -/
  phase : SpdmPhase := .start
  /-- R150 | reset empty | sessions -/
  sessions : List SessionSt := []
  /-- R146 | reset none | the response that a request in the KXE still owes -/
  owed : Option Resp := none
  /-- R152 | reset 0 | the request has been answered ResponseNotReady -/
  deferred : Bool := false
  /-- R152 | reset none | response ready for RESPOND_IF_READY -/
  ready : Option Resp := none
  /-- R378 | reset none | DOE request held while the controller sleeps -/
  held : Option Instr := none
  deriving DecidableEq, Repr

/-- An IDE key register: port, stream, key set, sub-stream and direction make its key number. -/
structure IdeSt where
  /-- R159 | reset empty | key and IV programmed in the PCIe controller, by register number -/
  keys : FMap (Key × W64) := []
  /-- R160 | reset empty | register numbers that are active -/
  active : List Nat := []
  /-- R158 | reset 0 (DC) | IDE control registers of ports 0 and 1 -/
  control0 : W32 := 0
  control1 : W32 := 0
  deriving DecidableEq, Repr

/-! ### Bulk engines -/

/-- State of a bulk context (Table 12-2). -/
inductive BulkState where
  | idle | message | lost
  deriving DecidableEq, Repr

/-- An open bulk context (R331-R333). -/
structure BulkCtx where
  vf : Fn
  mode : Byte
  ctx : W16
  ctxGen : W16
  kid : W16
  key : Option Key
  tweak : Option Key := none
  state : BulkState
  decrypt : Bool
  duLog2 : Byte
  chain : Chain
  deriving DecidableEq, Repr

/-! ### Always-on island, OTP and flash -/

/-- OTP (R80, R113, R385, R398). Life-cycle words 0-7 as burned. -/
structure OtpSt where
  /-- R80 | reset 0 | words 0-2: copies of the state word -/
  state : List W64 := [0, 0, 0]
  /-- R80 | reset 0 | words 3-5: copies of the progress word -/
  progress : List W64 := [0, 0, 0]
  /-- R80 | reset 0 | word 6: tansy tokens -/
  tansy : W64 := 0
  /-- R80 | reset 0 | word 7: owner count and DRS_KILL -/
  owner : W64 := 0
  /-- R100 | reset 0 | DRS partition -/
  drs : Key := 0
  /-- R99 | reset 0 | die-pairing keys of OD0-OD3 -/
  pairing : List Key := [0, 0, 0, 0]
  /-- R113 | reset 0 (DC) | device id -/
  deviceId : W64 := 0
  /-- R113 | reset 0 (DC) | Talward authority key hash -/
  authority : Hash := 0
  /-- R113 | reset 0 (DC) | tamper floor of each detector, mV -/
  floor : List Nat := List.replicate 24 0
  /-- R94 | reset 0 | owner key hash slots 0-7 -/
  owners : List Hash := List.replicate 8 0
  /-- R385 | reset 0 | boot-count fuse pairs burned: index of the highest pair that reads 1, plus 1 -/
  bootPairs : Nat := 0
  /-- R398 | reset 0 | fused security version -/
  svn : Nat := 0
  deriving DecidableEq, Repr

/-- The life-cycle shadow and what the AON island holds. -/
structure AonSt where
  /-- R81 | reset 0 | majority state word -/
  stateWord : W64 := 0
  /-- R81 | reset 0 | majority progress word -/
  progressWord : W64 := 0
  /-- R81 | reset 0 | a bit stands in exactly one copy -/
  weak : Bool := false
  /-- R78 | reset 0 | a TEST_OPEN or analysis session is open -/
  session : Bool := false
  /-- R81, R101 | reset 0 | tansy tokens consumed, by majority -/
  tansy : W16 := 0
  /-- R81 | reset 0 | majority of OWNER_COUNT -/
  owners : Byte := 0
  /-- R81, R143 | reset 0 | a DRS_KILL bit reads 1 -/
  kill : Bool := false
  /-- R91 | reset 0 | progress byte of the most recent field transition -/
  progress : Byte := 0
  /-- R84 | reset none | outstanding challenge nonce -/
  nonce : Option Key := none
  /-- R92 | reset 0 | ROM waits for a resubmitted journal -/
  journalWait : Bool := false
  /-- R50 | reset 0 | selected profile -/
  profile : BitVec 2 := 0
  /-- R48 | reset 0 | PROF_SEL as sampled -/
  strap : BitVec 2 := 0
  /-- R50 | reset none | pending profile -/
  pendingProfile : Option (BitVec 2) := none
  /-- R413 | reset 0 | recovery request -/
  recoveryReq : Bool := false
  /-- R376 | reset empty | halt record -/
  halt : HaltRec := {}
  /-- R371 | reset 0 (DC) | detectors' recorded V_LL, T_T and T_W, mV -/
  trims : List (Nat × Nat × Nat) := []
  /-- R412 | reset 0 | DROOP_COUNT -/
  droop : W16 := 0
  /-- R412 | reset 0 | SEEN -/
  seen : BitVec 6 := 0
  /-- R370 | reset 0 | PIN_ARMED -/
  armed : BitVec 4 := 0
  /-- R412 | reset 0 (DC) | PIN_LOW -/
  pinsLow : BitVec 4 := 0
  /-- R370 | reset 0 | L2_SOURCES in force -/
  l2Sources : Byte := 0
  /-- R143 | reset 0 | L2_ARMED -/
  l2Armed : Bool := false
  /-- R96 | reset 0 | POLICY_FLAGS in force -/
  policyFlags : Byte := 0
  /-- R47 | reset 0 | AVK_HALT_n is asserted -/
  haltPin : Bool := false
  /-- R374 | reset 0 | Tocsin level standing -/
  tocsin : Nat := 0
  deriving DecidableEq, Repr

/-- Where the package stands between power-on and ready. -/
inductive Phase where
  | off
  | bistWait (tries : Nat) (env : StartEnv)
  | recovery
  | romHalt
  | ready
  | halted
  deriving DecidableEq, Repr

/-- The start's outcome: what firmware published, and the recovery mailbox's work. -/
structure PkgSt where
  /-- R384 | reset off | phase of the package -/
  phase : Phase := .off
  /-- R412 | reset 0 | AVK_CAP0 -/
  cap0 : W64 := 0
  /-- R412 | reset 0 | AVK_CAP1 -/
  cap1 : W64 := 0
  /-- R412 | reset 0 | AVK_CAP2 -/
  cap2 : W64 := 0
  /-- R412 | reset 0 | AVK_CAP3 -/
  cap3 : W64 := 0
  /-- R54 | reset empty | units unusable in this start: failed self-test, or failed in service -/
  bad : List W16 := []
  /-- R387 | reset empty | units under SELF_TEST -/
  testing : List W16 := []
  /-- R388, R389 | reset empty | final MISR of each unit's latest run: by unit code, the seed, the patterns, and the difference from the
  MISR of a unit without fault -/
  misr : FMap (W64 × Nat × W64) := []
  /-- R394 | reset 0 | IN_SERVICE_FAIL -/
  serviceFail : Bool := false
  /-- R390 | reset 0 | BIST_LIMITS -/
  bistLimits : Bool := false
  /-- R51 | reset 0 | the null profile is active -/
  nullProfile : Bool := false
  /-- R51 | reset 0 | NULL_REASON -/
  nullReason : BitVec 4 := 0
  /-- R395 | reset 0 | dies paired at this start -/
  paired : BitVec 4 := 0
  /-- R49 | reset 0 | power that the active profile reserves from the power manager, in W -/
  reserved : Nat := 0
  /-- R385 | reset 0 | boot count of this start -/
  boot : Nat := 0
  /-- R397 | reset 0 | firmware measurement -/
  measurement : Hash := 0
  /-- R398 | reset 0 | SVN of the running image -/
  svn : Nat := 0
  /-- R396 | reset 0 | IMAGE_VERSION of the running image -/
  version : W32 := 0
  /-- R378 | reset A0 | power state -/
  power : Power := .a0
  /-- R399 | reset 0 | REASON of the recovery mode -/
  reason : Byte := 0
  /-- R400 | reset none | image length, bytes received -/
  imgLen : Option Nat := none
  imgGot : Nat := 0
  /-- R401 | reset 0 | WRITING -/
  writing : Bool := false
  /-- R401 | reset none | image being written -/
  imgNew : Option FwImage := none
  deriving DecidableEq, Repr

/-! ### Fabric page -/

/-- The fabric page and its staging (R415, R416). -/
structure FabSt where
  /-- R415 | reset 0 | PACKAGE_ID -/
  id : BitVec 12 := 0
  /-- R415 | reset 0 | POD_BRIDGE -/
  bridge : Bool := false
  /-- R415 | reset 0 | GO -/
  go : Bool := false
  /-- R416 | reset 0 | AVK_ROUTE_SEL: SEL and DEST -/
  sel : BitVec 2 := 0
  dest : BitVec 12 := 0
  /-- R416 | reset none | staged upper half of AVK_ROUTE_DATA0 -/
  stage0 : W32 := 0
  /-- R416 | reset 0 | staged AVK_ROUTE_DATA1 -/
  stage1 : BitVec 60 := 0
  /-- R416 | reset empty | route table: DEST × 4 + SEL to DATA0 (as stored) and DATA1; an entry not listed is invalid, zero -/
  routes : FMap (W64 × BitVec 60) := []
  deriving DecidableEq, Repr

/-! ### Outputs -/

/-- Whose requester identity a host transfer or interrupt message carries, and the selective IDE stream it travels on: that of the TDI
for a VF whose TDI is in RUN, and none otherwise (R56, R162, R164). -/
structure Via where
  fn : Fn
  stream : Option Nat
  deriving DecidableEq, Repr

/-- What the block sends out at its edge, in the order it is sent; a write to host memory comes with its bytes as they stand there
(R1). The list is the model's own record of it (log entry 4). -/
inductive Output where
  | record (via : Via) (slot : Nat) (r : CplRec) (image : List Byte)
  | doorbell (via : Via) (d : DevHalf) (image : List Byte)
  | recordRead (via : Via)
  | flushRead (via : Via)
  | msix (via : Via) (vector : BitVec 2)
  | hostWrite (via : Via) (addr : W64) (d : HostData) (image : List Byte)
  | frame (port : Fin 32) (f : Frame)
  | loopFrame (port : Fin 32) (depth : Nat) (f : Frame)
  | respond (port : BitVec 1) (r : Resp)
  | recoveryResp (rcmd : Byte) (rstat : W16) (image : List Byte)
  | tapLc (status : W16) (detail : W32) (body : Option LcStatus) (nonce : Option Key)
  | tapDbg (status : W16) (detail : W32) (rights : W64)
  | tapCounts (d : HostData)
  | traceWrite (addr : Nat) (image : List Byte)
  | tapTrace (reader : Fn) (recs : List TraceRec) (lost : Nat)
  | tdo (words : List W64)
  | plainWrite (id : Nat) (fn : Fn) (addr : Nat) (data : List Byte)
  | fabricError (fn : Fn) (ctx : W16)
  | fabricDone (fn : Fn) (ctx : W16) (status : W16) (data : List Byte)
  | readPlain (id : Nat) (fn : Fn) (ctx : W16) (data : List Byte)
  | earlyPlain (fn : Fn) (ctx : W16) (line : Nat) (data : Line)
  | fenceForward (fn : Fn) (handle : W32) (value : W64) (err : FenceErr)
  | fenceDrop (fn : Fn) (handle : W32)
  | unitWaitEnd (fn : Fn) (ctx : W16) (handle : W32) (status : W16) (value : W64)
  | tokenDeliver (job : W16) (src : BitVec 12) (t : TokenPay)
  | refusalDeliver (job : W16) (r : RefusalPay)
  | switchAck (fn : Fn) (ctx : W16)
  | snapshot (fn : Fn) (ctx : W16) (counts : FMap Nat) (sat noSet : Bool)
  | accessOk (id : Nat) | accessRefused (id : Nat)
  | debugMaster (served : Bool)
  | debugPool (kid : W16) (status : W16) (data : List Byte)
  | scrubWrite (lo hi : Nat)
  | engineRequest (engine : Nat) (fn : Fn) (idx : W32)
  | pcieUncorrectable (port : BitVec 1) | linkDisable (port : BitVec 1)
  | ringFaultSeen (fn : Fn)
  | flashLog (r : HaltRec)
  | flashWrite
  | powerAnswer (refusal : Option Nat) | powerAsk (target : Power) | throttle
  | budget (tenMw : List Nat) | reclaim (engine : Nat) | reserve (watts : Nat)
  | killBurn
  | dieFuse (die : Nat) (key : Key)
  | pairNonce (die : Nat) (na : Key) | pairProof (die : Nat) (ma : Key)
  | scrubAll
  deriving DecidableEq, Repr

/-! ### The whole -/

/-- A sending-stream record (R181): low half of the highest epoch used for a job and stream id since the start. -/
structure SentSt where
  job : W16
  sid : W32
  n : Nat
  deriving DecidableEq, Repr

/-- A request at a unit, or a host transfer, whose command has ended (R306): the command, its function, the bulk engine it is at, and the
reset generation it carries. -/
structure LateReq where
  fn : Fn
  idx : W32
  target : Fn
  engine : Option Nat
  gen : W16
  deriving DecidableEq, Repr

/-- An access to in-package memory admitted at its checker and not yet completed (R295). -/
structure AccSt where
  fn : Nat
  addr : Nat
  len : Nat
  obj : Option (Nat × Nat)
  deriving DecidableEq, Repr

/-- The state of the block. Log entry 15 (DESIGN CHOICE). -/
structure State where
  /-- model | reset empty | commands that wait, first in first out -/
  pending : List Instr
  /-- model | reset empty | what the block has sent out at its edge, oldest first -/
  out : List Output
  /-- model | reset 0 (DC) | draws made of the entropy source -/
  draws : Nat
  /-- model | reset 0 (DC) | open values taken, and events stamped -/
  opens : Nat
  /-- R52 | reset 0 (DC) | the variant is K3-S -/
  k3s : Bool
  /-- R384 | reset off | package phase, capabilities and the start's outcome -/
  pkg : PkgSt
  /-- R80 | reset BLANK | one-time-programmable words -/
  otp : OtpSt
  /-- R81 | reset 0 | always-on island -/
  aon : AonSt
  /-- R14 | reset empty | package flash, as Aedvik last wrote or found it -/
  flash : Flash
  /-- R56 | reset default entries | functions by number, the PF being 0x1000 -/
  fns : FMap FnSt
  /-- R61 | reset empty | commands in progress, in dispatch order -/
  prog : List InProg
  /-- R306 | reset empty | requests and host transfers still out whose commands have ended -/
  late : List LateReq
  /-- R352 | reset none | debug KID whose retirement a DEBUG_REVOKE of the TAP waits for -/
  tapRevoke : Option W16
  /-- R61 | reset VF 4,095 | the ring scan's pointer: 0 is the admin ring, v + 1 is VF v -/
  scan : Nat
  /-- R119 | reset empty | key store -/
  ks : KsSt
  /-- R415 | reset 0 | fabric page and route table -/
  fab : FabSt
  /-- R31 | reset down | link ports LP0-LP31; an unlisted port is at its reset value -/
  ports : FMap PortSt
  /-- R179 | reset empty | streams open for sending -/
  sends : List SendSt
  /-- R179 | reset empty | streams open for receiving -/
  recvs : List RecvSt
  /-- R26 | reset empty | receiving streams ended by the loss of a peer, until they are opened again -/
  gone : List (W16 × W32)
  /-- R181 | reset empty | sending-stream records -/
  sent : List SentSt
  /-- R182 | reset empty | OPEN_REQs held -/
  openReqs : List HeldReq
  /-- R419 | reset empty | sealed frames waiting in the receive buffers -/
  waits : List WaitSt
  /-- R216 | reset empty | open-half snares, oldest first -/
  snare : List SnareSt
  /-- R216 | reset empty | fabric-port snares: local chimes, oldest first -/
  localSnare : List LocalChime
  /-- R216 | reset empty | fabric-port snares: completions of local pool reads, oldest first -/
  reads : List LocalRead
  /-- R220 | reset empty | plaintext writes outstanding, by write number -/
  writes : FMap WriteSt
  /-- R220 | reset 0 (DC) | number of the next plaintext write -/
  nextWrite : Nat
  /-- R234 | reset 0 | return filter, by batch id -/
  filter : FMap FilterSt
  /-- R261 | reset empty | member's pending pool requests, by PTAG -/
  members : FMap MemberSt
  /-- R261 | reset 0 (DC) | next PTAG -/
  nextTag : W32
  /-- R243 | reset empty | region tables of the pool engines, by the region's number -/
  regions : FMap RegionSt
  /-- R243 | reset 0 (DC) | number of the next region -/
  nextRegion : Nat
  /-- R244 | reset empty | earlier REGION_CREATEs per job and region id (N of R244) -/
  made : List (W16 × BitVec 40 × Nat)
  /-- R271 | reset empty | HOME exchanges without an answer, by XID -/
  exch : FMap ExchSt
  /-- R254 | reset 0 (DC) | next XID -/
  nextXid : W32
  /-- R262 | reset empty | pool requests admitted, oldest first -/
  jobs : List PoolJob
  /-- R262 | reset 0 (DC) | number of the next pool request -/
  nextJob : Nat
  /-- R252 | reset 0 (DC) | count of counter-cache uses, which orders the least recently used -/
  poolClock : Nat
  /-- R256 | reset empty | regions this package stores as home -/
  homes : List HomeSt
  /-- R282 | reset empty | loop buffers of the pool engines whose local loop runs, by engine -/
  loops : FMap LoopBuf
  /-- R270 | reset empty | FENCED ranges of parked regions -/
  parked : List ParkedFence
  /-- R291 | reset empty | carve-out table: function number × 3 + stack set -/
  carves : FMap CarveSt
  /-- R293 | reset empty | carve-out changes staged for the next fabric epoch boundary -/
  staged : List Staged
  /-- R293 | reset 0 | fabric epochs since the start -/
  fabEpoch : Nat
  /-- R297 | reset empty | ranges handed to the scrubber, oldest first -/
  scrub : List ScrubSt
  /-- R295 | reset empty | accesses in flight at the checkers, by number -/
  accesses : FMap AccSt
  /-- R355 | reset 0 | Tabor gate -/
  tabor : TaborSt
  /-- R346 | reset none | certificate grant in force -/
  grant : Option GrantSt
  /-- R417 | reset 0 | perturbation registers -/
  ptb : PerturbSt
  /-- R146 | reset idle | DOE mailboxes of ports 0 and 1 -/
  mail0 : MailSt
  mail1 : MailSt
  /-- R146 | reset 0 | pointer of the DSM port's arbiter between the mailboxes (R35) -/
  mailArb : BitVec 1
  /-- R146 | reset 1 (DC) | number of the next SPDM session -/
  nextSession : Nat
  /-- R159 | reset empty | IDE key registers of both ports -/
  ide : IdeSt
  /-- R331 | reset empty | open bulk contexts: engine × 16 + index -/
  bulk : FMap BulkCtx
  /-- R331 | reset 0 (DC) | reuse counts of bulk context indices -/
  bulkReuse : FMap W16
  /-- R310 | reset none | a replay holds a bulk engine alone -/
  replayEngine : Option Nat
  deriving DecidableEq, Repr

/-- No command of this block ends in a fault: every happening that the manual gives an effect is a next state. The one
constructor is never raised by any meaning (safe). -/
inductive Fault where
  | never
  deriving DecidableEq, Repr

/-- Why a command has no meaning. -/
inductive Refusal where
  /-- The command's meaning has not been written; raised only by arms of `exec` (safe). -/
  | notModelled (mnemonic : String)
  deriving DecidableEq, Repr

/-- The block right after reset: AVK_PWROK low, so that the AON island is held in reset (R45), with OTP as a BLANK unit has it
(R80). A start begins with the command AVK_PWROK_RISE. Log entry 17 (DEDUCED). -/
def State.reset : State where
  pending := []
  out := []
  draws := 0
  opens := 0
  k3s := false
  pkg := {}
  otp := {}
  aon := {}
  flash := {}
  fns := []
  prog := []
  scan := 4096
  ks := {}
  fab := {}
  ports := []
  sends := []
  recvs := []
  gone := []
  sent := []
  openReqs := []
  waits := []
  snare := []
  localSnare := []
  reads := []
  late := []
  tapRevoke := none
  writes := []
  nextWrite := 0
  filter := []
  members := []
  nextTag := 0
  regions := []
  nextRegion := 0
  made := []
  exch := []
  nextXid := 0
  jobs := []
  nextJob := 0
  poolClock := 0
  homes := []
  loops := []
  parked := []
  carves := []
  staged := []
  fabEpoch := 0
  scrub := []
  accesses := []
  tabor := {}
  grant := none
  ptb := {}
  mail0 := {}
  mail1 := {}
  mailArb := 0
  nextSession := 1
  ide := {}
  bulk := []
  bulkReuse := []
  replayEngine := none

end Sys2Proof.Machine
end

