-- ==== Sys2Proof/Machine/Bytes.lean ====
section
/-! DEFINITION. Bytes as they stand in host memory and on a link: byte strings (R1, R2), the CRC-32 of a hop (R172), raw descriptors
(R64), and the images of the records that the rings exchange (Tables 03-2 and 03-18). -/
namespace Sys2Proof.Machine

/-! ### Byte strings -/

/-- `x` as `n` bytes, most significant first (R2, R110). -/
def be : Nat → Nat → List Byte
  | 0, _ => []
  | n + 1, x => BitVec.ofNat 8 (x / 256 ^ n) :: be n x

/-- The value of bytes, most significant first. -/
def ofBe : List Byte → Nat
  | [] => 0
  | b :: l => b.toNat * 256 ^ l.length + ofBe l

/-- `x` as `n` bytes, least significant first (R1). -/
def le : Nat → Nat → List Byte
  | 0, _ => []
  | n + 1, x => BitVec.ofNat 8 x :: le n (x / 256)

/-- The value of bytes, least significant first. -/
def ofLe : List Byte → Nat
  | [] => 0
  | b :: l => b.toNat + 256 * ofLe l

/-- `n` zero bytes. -/
def zeros (n : Nat) : List Byte := List.replicate n 0
/-- Bytes padded with zeros to at least `n`. -/
def padTo (n : Nat) (l : List Byte) : List Byte := l ++ List.replicate (n - l.length) 0
/-- A flag as bit `n` of a field. -/
def flag (b : Bool) (n : Nat) : Nat := if b then 2 ^ n else 0

/-! ### The CRC-32 of a hop (R172) -/

/-- One bit of the CRC-32 of IEEE 802.3 clause 3, whose generator 0x04C11DB7 stands here with its bits reversed.
Log entry 162 (PRESUMED). -/
def crcBit (c : W32) : W32 := if c.getLsbD 0 then (c >>> 1) ^^^ 0xEDB88320 else c >>> 1
/-- One byte of the CRC-32, least significant bit first. -/
def crcByte (c : W32) (b : Byte) : W32 :=
  crcBit (crcBit (crcBit (crcBit (crcBit (crcBit (crcBit (crcBit (c ^^^ b.setWidth 32))))))))
/-- The CRC-32 over a byte string. -/
def crc32 (l : List Byte) : W32 := ~~~(l.foldl crcByte 0xFFFFFFFF)

/-! ### Raw descriptors (R64) -/

/-- Byte `o` of a 64-byte descriptor. -/
def rawByte (raw : BitVec 512) (o : Nat) : Nat := raw.toNat / 2 ^ (8 * o) % 256
/-- The little-endian field of `n` bytes at offset `o`. -/
def rawField (raw : BitVec 512) (o n : Nat) : Nat := raw.toNat / 2 ^ (8 * o) % 2 ^ (8 * n)

/-- The first non-zero byte of the range of `n` bytes at offset `o` (R421). -/
def firstNonZero (raw : BitVec 512) : Nat → Nat → Option Nat
  | _, 0 => none
  | o, n + 1 => if rawByte raw o ≠ 0 then some o else firstNonZero raw (o + 1) n

/-- The first RSVD byte that is not zero among ranges given as offset and length, in order. -/
def rsvdFault (raw : BitVec 512) : List (Nat × Nat) → Option Nat
  | [] => none
  | (o, n) :: l => match firstNonZero raw o n with | some k => some k | none => rsvdFault raw l

/-- The operands of a descriptor as a row brings them: offset, size and value of each field (Tables 03-7 to 03-17). -/
abbrev OpFields := List (Nat × Nat × Nat)
/-- The descriptor holds these operands. -/
def rawHas (raw : BitVec 512) (l : OpFields) : Bool := l.all (fun x => rawField raw x.1 x.2.1 == x.2.2)

/-! ### The records of the rings (R1) -/

/-- A completion record as it stands in host memory (Table 03-18). -/
def cplBytes (r : CplRec) : List Byte :=
  le 4 r.tag.toNat ++ le 2 r.status.toNat ++ [r.opcode, BitVec.ofNat 8 (flag r.async 1 + flag r.phase 0)] ++ le 2 r.cmdIndex.toNat
    ++ le 2 r.vfGen.toNat ++ le 4 r.detail.toNat ++ le 16 r.result.toNat
/-- Bytes 64-127 of the doorbell record (Table 03-2). -/
def devBytes (d : DevHalf) : List Byte :=
  le 4 d.cmdHead.toNat ++ le 4 d.cplTail.toNat ++ le 4 d.eventPending.toNat
    ++ le 4 (flag d.faulted 2 + flag d.evqOvf 1 + flag d.evtOvf 0) ++ le 2 d.faultCode.toNat ++ zeros 46
/-- The driver's half of a doorbell record as its bytes 0-63 give it (Table 03-2); DRV_FLAGS bits 31:1 and the RSVD bytes are not
looked at. -/
def drvOf (raw : BitVec 512) : DrvHalf :=
  { cmdTail := BitVec.ofNat 32 (rawField raw 0 4), cplHead := BitVec.ofNat 32 (rawField raw 4 4),
    eventTake := BitVec.ofNat 32 (rawField raw 8 4), evtOvfClr := rawField raw 12 4 % 2 == 1 }

/-! ### Frames on a hop (R2) -/

/-- The hop word (Table 07-3): bit offsets count from the most significant bit of byte 0. -/
def hopBytes (h : Hop) : List Byte :=
  be 8 (h.kind.toNat * 2 ^ 60 + h.vc.toNat * 2 ^ 56 + h.routeSel.toNat * 2 ^ 54 + h.hopIndex.toNat * 2 ^ 52 + h.unitsM1.toNat * 2 ^ 47
    + h.linkSeq.toNat * 2 ^ 36 + h.ackSeq.toNat * 2 ^ 25 + flag h.ackValid 24 + flag h.nak 23 + h.crdVc.toNat * 2 ^ 19
    + h.crdCount.toNat * 2 ^ 7 + h.rsvd.toNat)

/-- Bytes 8-31 of a sealed frame, the additional data (Table 07-4). -/
def headerBytes (h : SealHdr) (ftype : Byte) : List Byte :=
  be 4 h.sid.toNat ++ be 8 h.seq.toNat ++ be 2 h.jobId.toNat ++ [ftype, h.units] ++ be 2 h.dstCtx.toNat ++ be 2 h.dstCtxGen.toNat
    ++ be 2 h.batch.toNat ++ be 2 h.batchGen.toNat

/-- Bytes 12-31 of a HOME frame (Table 09-6). -/
def homeHdrBytes (h : HomeHdr) : List Byte :=
  be 4 h.xid.toNat ++ [h.hop, h.hstat, h.count, h.hflags] ++ be 2 h.jobId.toNat ++ be 5 h.regionId.toNat ++ be 5 h.baseItem.toNat
/-- Line units and the unit of their MACs (Table 09-8). -/
def lineUnits (lines : List Line) (macs : List W64) : List Byte :=
  lines.flatMap (fun l => le 256 l.toNat) ++ padTo 256 (macs.flatMap (fun m => be 8 m.toNat))
/-- A unit of node addresses (Table 09-8). -/
def addrUnit (l : List W64) : List Byte := padTo 256 (l.flatMap (fun w => be 8 w.toNat))
/-- An 80-byte node record: node, node MAC, UE flag (Table 09-8). -/
def nodeRecBytes (n : Node) (mac : W64) (ue : Bool) : List Byte := le 64 n.toNat ++ be 8 mac.toNat ++ [if ue then 1 else 0] ++ zeros 7
/-- Units of three node records each; the fuel bounds the units. -/
def nodeUnits : Nat → List (List Byte) → List Byte
  | 0, _ => []
  | n + 1, l => if l.isEmpty then [] else padTo 256 (l.take 3).flatten ++ nodeUnits n (l.drop 3)

/-- The relay list of an OPEN_ACK: five package ids, 0xFFFF for none (Table 07-7). -/
def relayBytes (l : List (BitVec 12)) : List Byte := (l.take 5).flatMap (fun r => be 2 r.toNat) ++ List.replicate (2 * (5 - l.length)) 0xFF
/-- Bytes 12-63 of an OPEN_ACK, which its tag covers (Table 07-7, R183). -/
def ackBytes (sid : W32) (job : W16) (sel : BitVec 2) (e0 : W32) (ch : BitVec 128) (relays : List (BitVec 12)) : List Byte :=
  be 4 sid.toNat ++ be 2 job.toNat ++ [sel.setWidth 8, 0] ++ be 4 e0.toNat ++ be 16 ch.toNat ++ relayBytes relays ++ zeros 14

/-- The bytes of a frame from offset 12 to its HOP_CRC (Tables 07-2, 07-7, 09-6, 09-7); RSVD bytes are zero. -/
def bodyBytes (b : Body) : List Byte :=
  match b with
  | .sealed h ftype cipher tag => (headerBytes h ftype).drop 4 ++ cipher ++ be 16 tag.toNat
  | .home h payload ue mac ce => homeHdrBytes h ++ payload ++ be 4 ue.toNat ++ be 4 mac.toNat ++ be 4 ce.toNat ++ zeros 4
  | .forwarded tail => tail
  | .beat boot port bflags => be 8 boot.toNat ++ [BitVec.ofNat 8 port, bflags] ++ zeros 74
  | .knell boot reason => be 8 boot.toNat ++ [reason] ++ zeros 75
  | .proxyKnell lost cause boot => be 2 lost.toNat ++ [cause, 0] ++ be 8 boot.toNat ++ zeros 72
  | .openReq sid job ch => be 4 sid.toNat ++ be 2 job.toNat ++ zeros 6 ++ be 16 ch.toNat ++ zeros 56
  | .openAck sid job sel e0 ch relays tag => ackBytes sid job sel e0 ch relays ++ be 16 tag.toNat ++ zeros 16
  | .credit more => padTo 84 ((more.take 8).flatMap (fun m => be 2 (m.1.toNat * 4096 + m.2.toNat)))
  | .loop header cipher tag => header ++ cipher ++ be 16 tag.toNat

/-- The bytes that HOP_CRC covers (R172, R178). -/
def wireImage (hop : Hop) (route : W32) (tail : List Byte) : List Byte := hopBytes hop ++ be 4 route.toNat ++ tail
/-- HOP_CRC of an arriving frame is clean (R172). -/
def crcOk (a : Arrival) : Bool := crc32 (wireImage a.hop a.route a.tail) == a.crc
/-- The field of `n` bytes at offset `o` of an arriving frame, from offset 12 on. -/
def wireField (a : Arrival) (o n : Nat) : Nat := ofBe ((a.tail.drop (o - 12)).take n)

/-! ### Data for host memory (R1) -/

/-- `n` bytes in which the bits numbered `l` are set; bit k of byte j has number 8j + k. -/
def bitBytes (n : Nat) (l : List Nat) : List Byte :=
  (List.range n).map (fun j => BitVec.ofNat 8 (((List.range 8).map (fun k => flag (l.contains (8 * j + k)) k)).sum))

/-- A life-cycle status block (Table 04-16). -/
def lcBytes (b : LcStatus) : List Byte :=
  [b.state, b.progress, b.tokensLeft, b.flags, b.ownerSlot, b.ownerSlotsLeft] ++ zeros 2 ++ le 8 b.deviceId.toNat
    ++ be 48 b.identityHash.toNat ++ be 48 b.ownerHash.toNat ++ le 8 b.stateWord.toNat ++ le 8 b.progressWord.toNat

/-- A trace record (Table 13-10). -/
def traceBytes (r : TraceRec) : List Byte := le 8 r.tick ++ le 2 r.kind ++ le 2 r.ctx.toNat ++ zeros 4 ++ le 16 r.data.toNat
/-- Counters of a telemetry record, 8 bytes each, those numbered from `lo`, `n` of them (Table 13-9). -/
def countBytes (m : FMap Nat) (lo n : Nat) : List Byte :=
  (List.range n).flatMap (fun i => le 8 (((m.find? (fun e => e.1 == lo + i)).map (·.2)).getD 0 % 2 ^ 48))
/-- A telemetry record and the trace after it (Table 13-9). -/
def telemBytes (view rflags : Byte) (vf : W16) (index start window : Nat) (counts : FMap Nat) (lost : Nat) (trace : List TraceRec) : List Byte :=
  le 2 0x0008 ++ [view, rflags] ++ le 2 vf.toNat ++ zeros 2 ++ le 8 index ++ le 8 start ++ le 4 window ++ le 4 (32 * trace.length)
    ++ le 8 lost ++ zeros 24
    ++ (if view = 3 then countBytes counts 0 561 ++ zeros 56 else countBytes counts 0 128)
    ++ trace.flatMap traceBytes

/-- Bytes 0-31 of a bulk context record (Table 12-5). -/
def recordHead (r : BulkRec) : List Byte :=
  le 2 r.format.toNat ++ [r.mode, r.rflags] ++ le 2 r.vf.toNat ++ [r.duLog2, r.rsvd7] ++ le 2 r.kid.toNat ++ le 22 r.rsvd10.toNat
/-- The chaining state of a bulk context (Table 12-6). -/
def chainBytes (c : Chain) : List Byte :=
  le 64 c.chain.toNat ++ le 16 c.counter.toNat ++ le 16 c.iv.toNat ++ le 8 c.msgBytes.toNat ++ le 8 c.aadBytes.toNat ++ zeros 16
/-- The chaining state that bytes give (Table 12-6). -/
def chainOf (l : List Byte) : Chain :=
  { chain := BitVec.ofNat 512 (ofLe (l.take 64)), counter := BitVec.ofNat 128 (ofLe ((l.drop 64).take 16))
    iv := BitVec.ofNat 128 (ofLe ((l.drop 80).take 16)), msgBytes := BitVec.ofNat 64 (ofLe ((l.drop 96).take 8))
    aadBytes := BitVec.ofNat 64 (ofLe ((l.drop 104).take 8)) }

/-- A byte string of exactly `n` bytes: `l` cut, or padded with zeros. -/
def fitTo (n : Nat) (l : List Byte) : List Byte := (l ++ zeros n).take n
/-- The 64-byte header of an image chunk (Table 11-6). -/
def chunkHead (c : Chunk) : List Byte :=
  le 2 c.format.toNat ++ [c.ckind, c.rsvd3] ++ le 4 c.length.toNat ++ le 8 c.index.toNat ++ le 4 c.segment.toNat ++ le 12 c.rsvd20.toNat
    ++ be 16 c.imageId.toNat ++ le 16 c.rsvd48.toNat
/-- The bytes of a chunk in the clear (R322). -/
def bodyImage (b : ChunkBody) : List Byte :=
  match b with
  | .header src dst vf job sizes mig loc => Config.headerImage src dst vf job sizes mig loc
  | .device items => Config.deviceImage items
  | .segment data => data
  | .filter job entries mac => Config.filterImage job entries ++ be 16 mac.toNat
  | .segMap l => l.flatMap (fun k => le 4 k.toNat)
  | .last n => Config.endImage n
/-- A chunk as it stands in an image: header, LENGTH bytes, and the tag of all but a header chunk. -/
def chunkBytes (c : Chunk) (content : List Byte) : List Byte :=
  chunkHead c ++ fitTo c.length.toNat content ++ if c.ckind = 1 then [] else be 16 c.tag.toNat
/-- Bytes of a chunk in an image. -/
def chunkSize (c : Chunk) : Nat := 64 + c.length.toNat + if c.ckind = 1 then 0 else 16

/-- The bytes that stand in host memory after a write. A byte string stands first byte first, its first byte being the most significant
of its value. Log entry 164 (PRESUMED). -/
def hostBytes (d : HostData) : List Byte :=
  match d with
  | .nonce n => be 32 n.toNat
  | .lcStatus b => lcBytes b
  | .telemetry view rflags vf index start window counts lost trace => telemBytes view rflags vf index start window counts lost trace
  | .migMessage l => l
  | .chunk c content => chunkBytes c content
  | .segmentMap len bits => bitBytes len bits
  | .dirtyLine _ line pages => bitBytes 64 (pages.map (fun k => k - 512 * line))
  | .bulkRecord r => recordHead r ++ r.state ++ r.blob
  | .digest d => le 64 d.toNat
  | .plain data => data

end Sys2Proof.Machine
end

