-- ==== Sys2Proof/Machine/Ops.lean ====
section
/-! DEFINITION. Named operations every meaning is built of: outputs, free values, functions and their rings, completion records
and events, counters, and the tests of life-cycle state, rights and units. -/
namespace Sys2Proof.Machine

/-! ### Outputs and free values -/

/-- The block sends `o`. -/
def emit (o : Output) (s : State) : State := { s with out := s.out ++ [o] }

/-- The entropy source's next draw. -/
def drawn (s : State) : Key := Config.entropy s.draws
/-- The state after one draw. -/
def bumpDraw (s : State) : State := { s with draws := s.draws + 1 }
/-- An open value of the manual, fresh at every taking. -/
def opened (s : State) : W64 := Config.openWord s.opens
/-- A DETAIL that the manual does not state. -/
def openDetail (s : State) : W32 := Config.detail s.out.length
/-- The state after an open value has been taken. -/
def bumpOpen (s : State) : State := { s with opens := s.opens + 1 }

/-! ### Functions -/

/-- The state of function `f`. -/
def fnOf (s : State) (f : Fn) : FnSt := mapGet {} s.fns f.key
/-- Change the state of function `f`. -/
def fnMod (f : Fn) (g : FnSt → FnSt) (s : State) : State := { s with fns := mapMod {} s.fns f.key g }
/-- The rings of function `f`. -/
def ringOf (s : State) (f : Fn) : RingSt := (fnOf s f).ring
/-- Change the rings of function `f`. -/
def ringMod (f : Fn) (g : RingSt → RingSt) (s : State) : State := fnMod f (fun x => { x with ring := g x.ring }) s

/-- The function with number `k` (0x1000 is the PF). -/
def fnAt (k : Nat) : Fn := if k = 4096 then .pf else .vf (BitVec.ofNat 12 k)

/-- The functions whose state differs from the default, PF included. -/
def listedFns (s : State) : List Fn := s.fns.map (fun e => fnAt e.1)

/-- The VF bound to `job` (R11), if any. -/
def vfOfJob (s : State) (job : W16) : Option Fn :=
  (s.fns.find? (fun e => e.2.job == some job)).map (fun e => fnAt e.1)

/-- The bulk context that a started bulk command names (R339). -/
def bulkOf (a : Act) : Option W32 :=
  match a with
  | .bulkOp b _ _ _ => some b
  | .bulkSave b _ _ _ => some b
  | .bulkRestore b _ _ _ => some b
  | .bulkClose b => some b
  | _ => none
/-- Addresses of memory that a started bulk command uses. -/
def bulkTouches (a : Act) : List W64 :=
  match a with
  | .bulkOp _ op _ _ => [op.src, op.dst, op.aux]
  | .bulkSave _ dst _ _ => [dst]
  | _ => []
/-- The commands that function `f` has in progress. -/
def progOf (s : State) (f : Fn) : List InProg := s.prog.filter (fun p => p.fn == f)
/-- The command in progress from ring `f` with descriptor count `idx`. -/
def findProg (s : State) (f : Fn) (idx : W32) : Option InProg := s.prog.find? (fun p => p.fn == f && p.idx == idx)
/-- Change the command in progress from ring `f` with descriptor count `idx`. -/
def modProg (f : Fn) (idx : W32) (g : InProg → InProg) (s : State) : State :=
  { s with prog := s.prog.map (fun p => if p.fn == f && p.idx == idx then g p else p) }
/-- The function a command acts on: TARGET_VF where one is named, else its own ring's. -/
def InProg.target (p : InProg) : Fn := match p.tvf with | some v => .vf v | none => p.fn

/-! ### Counters (R361, R355) -/

/-- Advance a counter of a sparse table by `n`, modulo 2^48. -/
def bump (m : FMap Nat) (k n : Nat) : FMap Nat := mapPut 0 m k ((mapGet 0 m k + n) % 2 ^ 48)

/-- Count a port counter (codes 0x00-0x0E). -/
def countPort (port : Fin 32) (code : Nat) (s : State) : State :=
  { s with tabor := { s.tabor with ports := bump s.tabor.ports (port.val * 16 + code) 1 } }
/-- Count a package counter (codes 0x10-0x15). -/
def countPkg (code : Nat) (s : State) : State :=
  { s with tabor := { s.tabor with pkg := bump s.tabor.pkg code 1 } }
/-- Count a VF-scope counter (codes 0x20-0x31) for function `f`. -/
def countFn (f : Fn) (code : Nat) (s : State) : State :=
  { s with tabor := { s.tabor with counts := bump s.tabor.counts (f.key * 128 + 64 + code) 1 } }
/-- Count `units` of operation counter 12 × TYPE + FORMAT for function `f` (R355). -/
def countOp (f : Fn) (counter units : Nat) (s : State) : State :=
  { s with tabor := { s.tabor with counts := bump s.tabor.counts (f.key * 128 + counter) units } }
/-- A saturating add to a counter of a per-command set (R360). -/
def addSat (c : CmdSet) (counter units : Nat) : CmdSet :=
  let n := mapGet 0 c.counts counter + units
  if 2 ^ 48 ≤ n then { c with counts := mapPut 0 c.counts counter (2 ^ 48 - 1), sat := true }
  else { c with counts := mapPut 0 c.counts counter n }
/-- R356, R360: add an event of a context to its per-command set; the context takes a free set where it has none. Log entry 86 (DEDUCED). -/
def addSet (f : Fn) (ctx : W16) (counter units : Nat) (s : State) : State :=
  let l := s.tabor.sets
  let mine := fun (c : CmdSet) => c.fn == f.key && c.ctx == ctx
  if ctx = 0xFFFF then s
  else if l.any mine then { s with tabor := { s.tabor with sets := l.map (fun c => if mine c then addSat c counter units else c) } }
  else if l.length < Config.commandSets then
    { s with tabor := { s.tabor with sets := l ++ [addSat { fn := f.key, ctx := ctx, counts := [], sat := false } counter units] } }
  else s
/-- Count a seal or open of a frame of `units` payload units for function `f` and a context: type 7, format 11 (R355). -/
def countSealed (f : Fn) (ctx : W16) (units : Nat) (s : State) : State := addSet f ctx 95 units (countOp f 95 units s)

/-- Queue a trace record for a reader (R363, R364): where the writer queue is full, the reader's oldest is replaced.
Log entry 59 (DESIGN CHOICE). -/
def trace (reader : Fn) (kind : Nat) (ctx : W16) (data : BitVec 128) (s : State) : State :=
  let t := mapGet {} s.tabor.trace reader.key
  let r : TraceRec := { tick := (Config.tick s.opens).toNat, kind := kind, ctx := ctx, data := data }
  let total := (s.tabor.trace.map (fun e => e.2.queue.length)).sum
  let t' := if total < Config.traceQueue then { t with queue := t.queue ++ [r] }
    else { t with queue := t.queue.drop 1 ++ [r], lost := t.lost + 1 }
  { s with opens := s.opens + 1, tabor := { s.tabor with trace := mapSet s.tabor.trace reader.key t' } }

/-- Queue a trace record of a kind that VF readers have (Table 13-10); the PF has none of these. -/
def traceVf (f : Fn) (kind : Nat) (ctx : W16) (data : BitVec 128) (s : State) : State :=
  match f with
  | .vf _ => trace f kind ctx data s
  | .pf => s

/-! ### Life cycle, rights, units -/

/-- Bit by bit majority of three copies (R81). -/
def maj3 {n : Nat} (a b c : BitVec n) : BitVec n := (a &&& b) ||| (a &&& c) ||| (b &&& c)

/-- State codes (Table 04-1). -/
def lcBlank : Byte := 0
def lcTestLocked : Byte := 1
def lcTestOpen : Byte := 2
def lcAssembled : Byte := 3
def lcProvisioned : Byte := 4
def lcDeployed : Byte := 5
def lcAnalysis : Byte := 6
def lcScrap : Byte := 7
def lcBroken : Byte := 8

/-- The thermometer bits 4:0 that the state word may hold (Table 04-6, row 2). -/
def thermo (w : W64) : Bool :=
  let t := w.toNat % 32
  t == 0 || t == 1 || t == 3 || t == 7 || t == 15 || t == 31

/-- A RSVD bit of the state word reads 1. -/
def stateRsvd (w : W64) : Bool := decide (w.toNat / 32 % 8 ≠ 0) || decide (w.toNat / 2048 ≠ 0)

/-- Table 04-6: the state that a majority state word decodes to. -/
def lcDecode (w : W64) (session : Bool) : Byte :=
  let t := w.toNat % 32
  if w.getLsbD 10 then lcBroken
  else if stateRsvd w || !thermo w then lcBroken
  else if w.getLsbD 9 then lcScrap
  else if w.getLsbD 8 then (if t = 15 ∨ t = 31 then lcAnalysis else lcBroken)
  else if t = 31 then lcDeployed
  else if t = 15 then lcProvisioned
  else if t = 3 ∨ t = 7 then lcAssembled
  else if t = 1 then (if session then lcTestOpen else lcTestLocked)
  else lcBlank

/-- The package's life-cycle state code. -/
def lcState (s : State) : Byte := lcDecode s.aon.stateWord s.aon.session

/-- Some DRS_KILL bit of word 7 reads 1 (Table 04-5). Log entry 184 (DEDUCED). -/
def killed (o : OtpSt) : Bool := decide (o.owner.toNat / 2 ^ 24 % 2 ^ 24 ≠ 0)
/-- R107: derivations under the DRS are allowed. -/
def drsUsable (s : State) : Bool := (lcState s == lcProvisioned || lcState s == lcDeployed) && !s.aon.kill

/-- Majority of OWNER_COUNT's three copies (Table 04-5). -/
def ownerMajority (o : OtpSt) : Byte :=
  maj3 (BitVec.ofNat 8 (o.owner.toNat)) (BitVec.ofNat 8 (o.owner.toNat / 2 ^ 8)) (BitVec.ofNat 8 (o.owner.toNat / 2 ^ 16))
/-- Owner slots installed. -/
def slotsInstalled (s : State) : Nat := ((List.range 8).filter (fun k => s.aon.owners.getLsbD k)).length
/-- R94: the owner slot in force, in DEPLOYED. -/
def ownerSlot (s : State) : Option Nat :=
  if lcState s == lcDeployed && 0 < slotsInstalled s then some (slotsInstalled s - 1) else none
/-- The owner key hash in force; zero for none. -/
def ownerHash (s : State) : Hash := match ownerSlot s with | some k => s.otp.owners.getD k 0 | none => 0

/-- Token `i` reads consumed by majority (Table 04-4). -/
def tokenUsed (w : W64) (i : Nat) : Bool :=
  let n := [3 * i, 3 * i + 1, 3 * i + 2].filter (fun b => w.getLsbD b)
  decide (2 ≤ n.length)
/-- The tokens of word 6 that read consumed. -/
def tokenMajority (o : OtpSt) : W16 := BitVec.ofNat 16 (((List.range 16).map (fun i => if tokenUsed o.tansy i then 2 ^ i else 0)).sum)
/-- Tansy tokens not consumed. -/
def tokensLeft (s : State) : Nat := ((List.range 16).filter (fun i => !s.aon.tansy.getLsbD i)).length

/-- All 20 rights (Table 13-2), bits 1 to 20. -/
def allRights : W64 := 0x1FFFFE
/-- R346: the rights in force. -/
def rightsInForce (s : State) : W64 :=
  let l := lcState s
  if l == lcTestOpen || l == lcAssembled || (l == lcAnalysis && s.aon.session) then allRights
  else if l == lcBlank || l == lcTestLocked then 0
  else match s.grant with | some g => g.rights | none => 0
/-- Right number `n` is in force. -/
def hasRight (s : State) (n : Nat) : Bool := (rightsInForce s).getLsbD n

/-- The package is past its start and not halted. -/
def ready (s : State) : Bool := s.pkg.phase == .ready
/-- The controller runs: ready, and not in A3 or OFF (Table 14-6). -/
def serving (s : State) : Bool := ready s && !(s.pkg.power == .a3 || s.pkg.power == .off)
/-- Do `f` while the controller runs; nothing otherwise (log entry 5). -/
def whenLive (f : State → State) (s : State) : State := if serving s then f s else s

/-- R89: a field transition has quiesced the package and has not ended. -/
def quiescing (s : State) : Bool :=
  s.prog.any (fun p => match p.act with | .lcTransition _ _ st => st == 1 || st == 2 | _ => false)

/-- Bit `b` of a capability register. -/
def capBit (w : W64) (b : Nat) : Bool := w.getLsbD b

/-- The link engine that serves port `n` (R31). -/
def engineOfPort (s : State) (n : Nat) : Nat :=
  if capBit s.pkg.cap1 45 && (s.pkg.cap1.toNat / 2 ^ 40 % 32 == n) then 32
  else if capBit s.pkg.cap1 53 && (s.pkg.cap1.toNat / 2 ^ 48 % 32 == n) then 33
  else n
/-- R54: port `n` is present: usable at the start, its engine not failed in service, enabled by the profile. -/
def portPresent (s : State) (n : Nat) : Bool :=
  capBit s.pkg.cap0 (32 + n) && !(s.pkg.bad.contains (BitVec.ofNat 16 (engineOfPort s n)))
    && !(s.pkg.bad.contains (BitVec.ofNat 16 (0x70 + n / 4)))
/-- R54: pool engine `k` is present, usable and permitted to keep regions. -/
def poolPresent (s : State) (k : Nat) : Bool :=
  decide (k < 8) && capBit s.pkg.cap2 k && capBit s.pkg.cap2 (8 + k) && capBit s.pkg.cap2 (16 + k)
    && !(s.pkg.bad.contains (BitVec.ofNat 16 (0x30 + k))) && !(s.pkg.bad.contains (BitVec.ofNat 16 (0x70 + k)))
    && !(s.ptb.poolLoops.contains k)
/-- R54: bulk engine `e` is present and usable. -/
def bulkPresent (s : State) (e : Nat) : Bool :=
  decide (e < 2) && capBit s.pkg.cap2 (24 + e) && capBit s.pkg.cap2 (26 + e) && !s.pkg.nullProfile
    && !(s.pkg.bad.contains (BitVec.ofNat 16 (0x40 + e))) && !(s.pkg.bad.contains (BitVec.ofNat 16 (0x70 + e)))
/-- KS bank `b` is usable. -/
def bankUsable (s : State) (b : Nat) : Bool := capBit s.pkg.cap3 b
/-- The unit is under SELF_TEST. -/
def underTest (s : State) (unit : Nat) : Bool := s.pkg.testing.contains (BitVec.ofNat 16 unit)
/-- Port `n`'s engine or fabric port is under SELF_TEST. -/
def portTesting (s : State) (n : Nat) : Bool := underTest s (engineOfPort s n) || underTest s (0x70 + n / 4)
/-- Pool engine `k` or its fabric port is under SELF_TEST. -/
def poolTesting (s : State) (k : Nat) : Bool := underTest s (0x30 + k) || underTest s (0x70 + k)
/-- Bulk engine `e` or its fabric port is under SELF_TEST. -/
def bulkTesting (s : State) (e : Nat) : Bool := underTest s (0x40 + e) || underTest s (0x70 + e)

/-! ### Status codes (Table 03-20) -/

def stOk : W16 := 0x0000
def stNoSlot : W16 := 0x0001
def stUnitAbsent : W16 := 0x0002
def stBadState : W16 := 0x0003
def stNotPermitted : W16 := 0x0004
def stFenceRange : W16 := 0x0005
def stFenceAbandoned : W16 := 0x0006
def stPeerLost : W16 := 0x0007
def stPoolFenced : W16 := 0x0008
def stStale : W16 := 0x0009
def stLimits : W16 := 0x000A
def stBusy : W16 := 0x000B
def stMalformed : W16 := 0x000C
def stAuthFailed : W16 := 0x000D
def stDmaError : W16 := 0x000E
def stAborted : W16 := 0x000F
def stTimedOut : W16 := 0x0010

/-! ### Records and events -/

/-- Entries of the completion ring. -/
def cplEntries (r : RingSt) : Nat := 2 ^ r.cplLog2.toNat
/-- Entries of the command ring. -/
def cmdEntries (r : RingSt) : Nat := 2 ^ r.cmdLog2.toNat
/-- R61: free completion slots: the entry count less (records written or reserved, minus CPL_HEAD), every command in progress having
reserved one. -/
def freeSlots (s : State) (f : Fn) : Nat :=
  cplEntries (ringOf s f) - (((ringOf s f).cplTail - (ringOf s f).cplHead).toNat + (progOf s f).length)
/-- R68: PHASE of the record with count `c`. -/
def phaseBit (r : RingSt) (c : W32) : Bool := decide (c.toNat / cplEntries r % 2 = 0)
/-- The reset generation a record or request of `f` carries; zero on the admin ring. -/
def genOf (s : State) (f : Fn) : W16 := match f with | .pf => 0 | .vf _ => (fnOf s f).gen

/-- The half of the doorbell record that Aedvik writes. -/
def devHalf (r : RingSt) : DevHalf :=
  { cmdHead := r.cmdHead, cplTail := r.cplTail, eventPending := r.eventPending, evtOvf := r.evtOvf, evqOvf := r.evqOvf,
    faulted := r.faulted, faultCode := r.faultCode }
/-- R56, R162, R164: how Aedvik reaches the host for function `f`. -/
def viaOf (s : State) (f : Fn) : Via :=
  { fn := f, stream := if f ≠ .pf ∧ (fnOf s f).tdi.state = .run then some (fnOf s f).tdi.stream else none }
/-- R71: raise the ring's MSI-X vector when no interrupt is outstanding. -/
def raiseMsix (f : Fn) (s : State) : State :=
  if (ringOf s f).interrupt then s
  else emit (.msix (viaOf s f) (ringOf s f).vector) (ringMod f (fun r => { r with interrupt := true }) s)

/-- R70: signal the completion ring's event object. -/
def signalEvent (f : Fn) (s : State) : State :=
  let r := ringOf s f
  let s := if r.eventPending = 0xFFFFFFFF then ringMod f (fun r => { r with evtOvf := true }) s
    else ringMod f (fun r => { r with eventPending := r.eventPending + 1 }) s
  raiseMsix f s

/-- R306: the result of a request whose command has ended is discarded; one that carries another reset generation than the one in force is
counted. Log entry 191 (DESIGN CHOICE). -/
def lateDone (f : Fn) (i : W32) (s : State) : State :=
  match s.late.find? (fun x => x.fn == f && x.idx == i) with
  | none => s
  | some x =>
    let s := { s with late := s.late.erase x }
    if x.gen = genOf s x.target then s else countFn x.target 0x2F s

/-- Set the bit of a page in the active bitmap (R326), by a write of the bitmap's 64-byte line; a page beyond its reach sets the
overflow flag. -/
def markPage (f : Fn) (page : Nat) (s : State) : State :=
  match (fnOf s f).dirty with
  | none => s
  | some d =>
    let put := fun (e : DirtyLog) => fnMod f (fun x => { x with dirty := some e })
    if 8 * d.bufLen.toNat ≤ page then put { d with overflow := true } s
    else if (if d.activeB then d.pagesB else d.pagesA).contains page then s
    else
      let pages := (if d.activeB then d.pagesB else d.pagesA) ++ [page]
      let addr := d.bufAddr + BitVec.ofNat 64 ((if d.activeB then d.bufLen.toNat else 0) + page / 512 * 64)
      let line := HostData.dirtyLine d.activeB (page / 512) (pages.filter (fun k => k / 512 == page / 512))
      emit (.hostWrite (viaOf s .pf) addr line (hostBytes line))
        (put (if d.activeB then { d with pagesB := pages } else { d with pagesA := pages }) s)

/-- Pages from `page` up, `n` of them. -/
def markPages (f : Fn) : Nat → Nat → State → State
  | _, 0, s => s
  | page, n + 1, s => markPages f (page + 1) n (markPage f page s)

/-- R326: the pages that a DMA write of `n` bytes by function `f` touches are marked before the write is issued. Log entry 113 (DEDUCED). -/
def markHost (f : Fn) (addr n : Nat) (s : State) : State :=
  if (fnOf s f).dirty.isNone || n == 0 then s else markPages f (addr / 4096) ((addr + n - 1) / 4096 - addr / 4096 + 1) s

/-- Data written to host memory for function `f`. -/
def sendHost (f : Fn) (addr : W64) (d : HostData) (s : State) : State :=
  emit (.hostWrite (viaOf s f) addr d (hostBytes d)) (markHost f addr.toNat (hostBytes d).length s)

/-- Write bytes 64-127 of the doorbell record (R58). -/
def postDoorbell (f : Fn) (s : State) : State :=
  emit (.doorbell (viaOf s f) (devHalf (ringOf s f)) (devBytes (devHalf (ringOf s f)))) (markHost f ((ringOf s f).dbrecBase.toNat + 64) 64 s)

/-- Write one completion record at CPL_TAIL and advance it (R68); dropped when the ring's writes have failed (R59). -/
def writeRecord (f : Fn) (mk : Bool → CplRec) (s : State) : State :=
  let r := ringOf s f
  if r.hostWriteFailed then s
  else
    let slot := r.cplTail.toNat % cplEntries r
    let x := mk (phaseBit r r.cplTail)
    let s := emit (.record (viaOf s f) slot x (cplBytes x)) (markHost f (r.cplBase.toNat + 32 * slot) 32 s)
    ringMod f (fun r => { r with cplTail := r.cplTail + 1 }) s

/-- Write one asynchronous record (Table 03-19). -/
def writeAsync (f : Fn) (a : AsyncRec) (s : State) : State :=
  writeRecord f (fun ph =>
    { tag := 0, status := a.status, opcode := 0, phase := ph, async := true, cmdIndex := 0,
      vfGen := genOf s f, detail := a.kind, result := a.result }) s

/-- R69: free slots that no dispatched command has reserved. -/
def asyncRoom (s : State) (f : Fn) : Bool := decide (0 < freeSlots s f)

/-- R69: report a happening on the completion ring of `f`. -/
def asyncRecord (f : Fn) (a : AsyncRec) (s : State) : State :=
  let r := ringOf s f
  if !r.enabled then s
  else
    let s :=
      if r.waiting.isEmpty && asyncRoom s f then writeAsync f a s
      else if r.waiting.length < Config.asyncDepth then ringMod f (fun r => { r with waiting := r.waiting ++ [a] }) s
      else ringMod f (fun r => { r with evqOvf := true }) s
    postDoorbell f (signalEvent f s)

/-- Write waiting asynchronous records while free, unreserved slots are left; the fuel bounds the loop by the queue's length. -/
def drainAsync : Nat → Fn → State → State
  | 0, _, s => s
  | n + 1, f, s =>
    match (ringOf s f).waiting with
    | [] => s
    | a :: rest =>
      if asyncRoom s f then drainAsync n f (writeAsync f a (ringMod f (fun r => { r with waiting := rest }) s)) else s

/-- R411: a ring whose ENABLE is clear reads disabled once no command is in progress; its waiting records are discarded. -/
def settleRing (f : Fn) (s : State) : State :=
  let r := ringOf s f
  if r.enabled && !r.ctrl && (progOf s f).isEmpty then
    ringMod f (fun r => { r with enabled := false, waiting := [], closing := false, headOrdered := false, dbRead := .idle }) s
  else s

/-- Take a command out of progress. -/
def dropProg (p : InProg) (s : State) : State :=
  { s with prog := s.prog.filter (fun q => !(q.fn == p.fn && q.idx == p.idx)) }

/-- Complete a command: its record (R68), its event (R70), the doorbell record. -/
def complete (p : InProg) (st : W16) (detail : W32) (result : BitVec 128) (s : State) : State :=
  let s := dropProg p s
  let s := writeRecord p.fn (fun ph =>
    { tag := p.tag, status := st, opcode := p.opcode, phase := ph, async := false,
      cmdIndex := p.idx.setWidth 16, vfGen := genOf s p.fn, detail := detail, result := result }) s
  let s := if p.event then signalEvent p.fn s else s
  let s := traceVf p.fn 0x02 p.ctx ((p.opcode.setWidth 128) ||| (st.setWidth 128 <<< 16)) s
  settleRing p.fn (postDoorbell p.fn s)

/-- R59: fault a ring. A ring already faulted keeps its code; once a write of its records has failed, further ones are dropped. -/
def ringFault (f : Fn) (code : W16) (s : State) : State :=
  let r := ringOf s f
  if r.faulted then (if code = 4 then ringMod f (fun r => { r with hostWriteFailed := true }) s else s)
  else postDoorbell f (ringMod f (fun r =>
    { r with faulted := true, faultCode := code, hostWriteFailed := r.hostWriteFailed || code == 4 }) s)

/-- Entry of a RESULT field: `v` at byte offset `o`. -/
def resAt (o : Nat) (v : Nat) : BitVec 128 := BitVec.ofNat 128 (v * 2 ^ (8 * o))

/-! ### Checks of a command (R73) -/

/-- A failed check: status and DETAIL. -/
abbrev Check := Option (W16 × W32)
/-- The check that fails when `b` holds. -/
def failIf (b : Bool) (st : W16) (detail : W32) : Check := if b then some (st, detail) else none
/-- The first failing check of a list (R73). -/
def firstFail : List Check → Check
  | [] => none
  | none :: l => firstFail l
  | some c :: _ => some c

/-- R65: the context a command names, on the function it acts on: the check of its generation and of its being live. -/
def ctxStale (s : State) (f : Fn) (h : CmdHdr) : Check :=
  if h.ctx = 0xFFFF then none
  else
    let g := (mapGet {} (fnOf s f).ctxs h.ctx.toNat).gen
    failIf (g != h.ctxGen) stStale (g.setWidth 32)
/-- R65: a context that is not live. -/
def ctxDead (s : State) (f : Fn) (h : CmdHdr) : Check :=
  if h.ctx = 0xFFFF then none else failIf (!(mapGet {} (fnOf s f).ctxs h.ctx.toNat).live) stBadState 0

/-- The function that a command's header makes it act on. -/
def hdrTarget (h : CmdHdr) : Fn := if h.tvValid then .vf h.tv else h.fn

/-- A command in Table 03-21's order: its own checks around those that every command shares. `malformed` are the descriptor's
fields, each with its offset as DETAIL; `buffer` the read of a buffer and its fields, in order (R422). -/
structure Checks where
  malformed : List Check := []
  buffer : List Check := []
  permitted : List Check := []
  unit : List Check := []
  state : List Check := []
  limits : List Check := []
  busy : List Check := []
  slots : List Check := []

/-- R421: the failing check whose field comes first. -/
def firstField : List Check → Check
  | [] => none
  | none :: l => firstField l
  | some c :: l => match firstField l with | some d => if d.2 < c.2 then some d else some c | none => some c

/-- Table 03-6: an opcode that only the admin ring may carry. -/
def adminOnly (op : Nat) : Bool :=
  op == 0x40 || op == 0x41 || (0x50 ≤ op && op ≤ 0x5E) || op == 0x62 || (0x68 ≤ op && op ≤ 0x73) || op == 0x7E || op == 0x7F
/-- Table 03-6: an opcode that both kinds of ring may carry. -/
def bothRings (op : Nat) : Bool := op == 0x0F || op == 0x42 || op == 0x43 || op == 0x60 || op == 0x61
/-- R66: the opcode may come on the ring of `f`. -/
def ringAllows (op : Byte) (f : Fn) : Bool :=
  bothRings op.toNat || (match f with | .pf => adminOnly op.toNat | .vf _ => !adminOnly op.toNat)

/-- The first check that fails, in the order of R73. -/
def Checks.first (c : Checks) (s : State) (h : CmdHdr) (p : InProg) : Check :=
  let rsvd : Check := p.rsvd.map (fun o => (stMalformed, BitVec.ofNat 32 o))
  firstFail ([firstField (rsvd :: c.malformed)] ++ c.buffer ++ [failIf (!ringAllows p.opcode h.fn) stNotPermitted 0] ++ c.permitted
    ++ [ctxStale s (hdrTarget h) h] ++ c.unit ++ [ctxDead s (hdrTarget h) h] ++ c.state ++ c.limits ++ c.busy ++ c.slots)

/-- A command's own row: its header and opcode, its operands, which are those of its descriptor (R64), and its checks. -/
structure Row where
  hdr : CmdHdr
  opcode : Byte
  fields : OpFields := []
  checks : State → Checks := fun _ => {}

/-- The row is that of the command `p`: its ring, count, opcode, header and operands. -/
def rowOf (r : Row) (p : InProg) : Bool :=
  p.fn == r.hdr.fn && p.idx == r.hdr.idx && p.opcode == r.opcode && p.tag == r.hdr.tag && p.event == r.hdr.event && p.ctx == r.hdr.ctx
    && p.ctxGen == r.hdr.ctxGen && p.tvf == (if r.hdr.tvValid then some r.hdr.tv else none) && rawHas p.raw r.fields
/-- R61, R62, R74: commands are validated and started in the order of their dispatch, so the row that may come is that of the first
command dispatched whose own row has not yet come; this is its entry, when the row is that command's. Log entry 163 (DEDUCED). -/
def dispatched (s : State) (r : Row) : Option InProg :=
  match s.prog.find? (fun p => !p.started) with
  | some p => if rowOf r p then some p else none
  | none => none

/-- Run a dispatched command: refuse it at its first failing check, or run `f`. A row whose command the scan has not dispatched next,
or that comes while the controller does not run, does nothing (log entry 5). -/
def runCmd (r : Row) (f : InProg → State → State) (s : State) : State :=
  if serving s then
    match dispatched s r with
    | none => s
    | some p =>
      match (r.checks s).first s r.hdr p with
      | some (st, d) => complete p st d 0 s
      | none => f p s
  else s

/-- Leave a command in progress under `hold`, with `act` to follow. -/
def holdCmd (p : InProg) (hold : Hold) (act : Act) (s : State) : State :=
  modProg p.fn p.idx (fun q => { q with started := true, hold := hold, act := act }) s

/-- A field of the descriptor at offset `o` that offends when `b` holds (R421). -/
def badField (b : Bool) (o : Nat) : Check := failIf b stMalformed (BitVec.ofNat 32 o)

/-- R421: DETAIL of a field inside a buffer. -/
def bufDetail (offset : Nat) : W32 := BitVec.ofNat 32 (0x80000000 + offset)
/-- A field of a buffer at offset `o` that offends when `b` holds. -/
def badBuf (b : Bool) (o : Nat) : Check := failIf b stMalformed (bufDetail o)
/-- The first non-zero byte of a RSVD field of `n` bytes. -/
def nzByte (x n : Nat) : Option Nat := (List.range n).find? (fun k => x / 256 ^ k % 256 != 0)
/-- A RSVD field of `n` bytes at offset `o` of a buffer: its first non-zero byte offends (R421). -/
def rsvdBuf (x n o : Nat) : Check := (nzByte x n).map (fun k => (stMalformed, bufDetail (o + k)))
/-- R422: the buffer's read failed, or the checks of what it brought. -/
def bufChecks {α : Type} (r : Fetched α) (k : α → List Check) : List Check :=
  match r with | .failed => [some (stDmaError, 0)] | .ok a => k a

/-- The tag of a context operand (R423): the context and its generation. -/
def ctxTag (h : CmdHdr) : W16 × W16 := (h.ctx, h.ctxGen)

end Sys2Proof.Machine
end

