-- ==== Sys2Proof/Machine/Operands.lean ====
section
/-! DEFINITION. Operand forms: the KDF input and its labels (R110, Table 05-1), the counter block (Table 09-3),
handles (R285, R331), stream ids, cursors, and the RSVD ranges of descriptors (R5, R64). -/
namespace Sys2Proof.Machine

/-! ### The derivation function (R110) -/

/-- "AVK1-IDENTITY". -/
def lblIdentity : List Byte := [0x41, 0x56, 0x4B, 0x31, 0x2D, 0x49, 0x44, 0x45, 0x4E, 0x54, 0x49, 0x54, 0x59]
/-- "AVK1-ID-ECDSA". -/
def lblIdEcdsa : List Byte := [0x41, 0x56, 0x4B, 0x31, 0x2D, 0x49, 0x44, 0x2D, 0x45, 0x43, 0x44, 0x53, 0x41]
/-- "AVK1-ID-MLDSA". -/
def lblIdMldsa : List Byte := [0x41, 0x56, 0x4B, 0x31, 0x2D, 0x49, 0x44, 0x2D, 0x4D, 0x4C, 0x44, 0x53, 0x41]
/-- "AVK1-KE-MLKEM". -/
def lblKeMlkem : List Byte := [0x41, 0x56, 0x4B, 0x31, 0x2D, 0x4B, 0x45, 0x2D, 0x4D, 0x4C, 0x4B, 0x45, 0x4D]
/-- "AVK1-KE-ECDH". -/
def lblKeEcdh : List Byte := [0x41, 0x56, 0x4B, 0x31, 0x2D, 0x4B, 0x45, 0x2D, 0x45, 0x43, 0x44, 0x48]
/-- "AVK1-FIRMWARE". -/
def lblFirmware : List Byte := [0x41, 0x56, 0x4B, 0x31, 0x2D, 0x46, 0x49, 0x52, 0x4D, 0x57, 0x41, 0x52, 0x45]
/-- "AVK1-STORAGE". -/
def lblStorage : List Byte := [0x41, 0x56, 0x4B, 0x31, 0x2D, 0x53, 0x54, 0x4F, 0x52, 0x41, 0x47, 0x45]
/-- "AVK1-TELEMETRY". -/
def lblTelemetry : List Byte := [0x41, 0x56, 0x4B, 0x31, 0x2D, 0x54, 0x45, 0x4C, 0x45, 0x4D, 0x45, 0x54, 0x52, 0x59]
/-- "AVK1-MIGWRAP". -/
def lblMigwrap : List Byte := [0x41, 0x56, 0x4B, 0x31, 0x2D, 0x4D, 0x49, 0x47, 0x57, 0x52, 0x41, 0x50]
/-- "AVK1-WRAP-VOL". -/
def lblWrapVol : List Byte := [0x41, 0x56, 0x4B, 0x31, 0x2D, 0x57, 0x52, 0x41, 0x50, 0x2D, 0x56, 0x4F, 0x4C]
/-- "AVK1-WRAP-DUR". -/
def lblWrapDur : List Byte := [0x41, 0x56, 0x4B, 0x31, 0x2D, 0x57, 0x52, 0x41, 0x50, 0x2D, 0x44, 0x55, 0x52]
/-- "AVK1-TRACE". -/
def lblTrace : List Byte := [0x41, 0x56, 0x4B, 0x31, 0x2D, 0x54, 0x52, 0x41, 0x43, 0x45]
/-- "AVK1-JOB-KEK". -/
def lblJobKek : List Byte := [0x41, 0x56, 0x4B, 0x31, 0x2D, 0x4A, 0x4F, 0x42, 0x2D, 0x4B, 0x45, 0x4B]
/-- "AVK1-CONFIRM". -/
def lblConfirm : List Byte := [0x41, 0x56, 0x4B, 0x31, 0x2D, 0x43, 0x4F, 0x4E, 0x46, 0x49, 0x52, 0x4D]
/-- "AVK1-STREAM". -/
def lblStream : List Byte := [0x41, 0x56, 0x4B, 0x31, 0x2D, 0x53, 0x54, 0x52, 0x45, 0x41, 0x4D]
/-- "AVK1-REGION". -/
def lblRegion : List Byte := [0x41, 0x56, 0x4B, 0x31, 0x2D, 0x52, 0x45, 0x47, 0x49, 0x4F, 0x4E]
/-- "AVK1-DIRECTORY". -/
def lblDirectory : List Byte := [0x41, 0x56, 0x4B, 0x31, 0x2D, 0x44, 0x49, 0x52, 0x45, 0x43, 0x54, 0x4F, 0x52, 0x59]
/-- "AVK1-BATCHF". -/
def lblBatchf : List Byte := [0x41, 0x56, 0x4B, 0x31, 0x2D, 0x42, 0x41, 0x54, 0x43, 0x48, 0x46]
/-- "AVK1-TENANT". -/
def lblTenant : List Byte := [0x41, 0x56, 0x4B, 0x31, 0x2D, 0x54, 0x45, 0x4E, 0x41, 0x4E, 0x54]
/-- "AVK1-XTS-TWEAK". -/
def lblXtsTweak : List Byte := [0x41, 0x56, 0x4B, 0x31, 0x2D, 0x58, 0x54, 0x53, 0x2D, 0x54, 0x57, 0x45, 0x41, 0x4B]
/-- "AVK1-MIGRATE". -/
def lblMigrate : List Byte := [0x41, 0x56, 0x4B, 0x31, 0x2D, 0x4D, 0x49, 0x47, 0x52, 0x41, 0x54, 0x45]
/-- "AVK1-MIG-CONFIRM". -/
def lblMigConfirm : List Byte := [0x41, 0x56, 0x4B, 0x31, 0x2D, 0x4D, 0x49, 0x47, 0x2D, 0x43, 0x4F, 0x4E, 0x46, 0x49, 0x52, 0x4D]

/-- The bytes that HMAC block `i` of the KDF covers: [i] ‖ label ‖ 0x00 ‖ context ‖ [L] (R110). -/
def kdfInput (i : Nat) (label ctx : List Byte) (bits : Nat) : List Byte :=
  be 4 i ++ label ++ [0x00] ++ ctx ++ be 4 bits

/-- HMAC block T(i) of the KDF under a parent of any length. -/
def kdfBlock (k label ctx : List Byte) (bits i : Nat) : List Byte := be 48 (Config.hmacSha384 k (kdfInput i label ctx bits)).toNat
/-- KDF(K, label, context, L) for L up to 768 bits: the first L bits of T(1) ‖ T(2), as bytes. -/
def kdfBytes (k label ctx : List Byte) (bits : Nat) : List Byte :=
  (kdfBlock k label ctx bits 1 ++ if bits ≤ 384 then [] else kdfBlock k label ctx bits 2).take (bits / 8)

/-- KDF(K, label, context, 256) of a 256-bit parent. -/
def kdf (k : Key) (label ctx : List Byte) : Key := BitVec.ofNat 256 (ofBe (kdfBytes (be 32 k.toNat) label ctx 256))
/-- KDF(K, label, context, 128) of a 256-bit parent. -/
def kdf128 (k : Key) (label ctx : List Byte) : BitVec 128 := BitVec.ofNat 128 (ofBe (kdfBytes (be 32 k.toNat) label ctx 128))

/-- A function's index in a context: the VF number, or 0x1000 for the PF (R111). -/
def fnCtx (f : Fn) : List Byte := be 2 f.key

/-- Contexts of Table 05-1. -/
def streamCtx (sid epoch : W32) : List Byte := be 4 sid.toNat ++ be 4 epoch.toNat
def regionCtx (rid : BitVec 40) (epoch : W32) (creator : BitVec 12) : List Byte :=
  be 5 rid.toNat ++ be 4 epoch.toNat ++ be 2 creator.toNat
def directoryCtx (job : W16) (keeper : BitVec 12) : List Byte := be 2 job.toNat ++ be 2 keeper.toNat

/-- Keys under a job master key (Table 05-1). -/
def streamKey (jmk : Key) (sid epoch : W32) : Key := kdf jmk lblStream (streamCtx sid epoch)
def regionKey (jmk : Key) (rid : BitVec 40) (epoch : W32) (creator : BitVec 12) : Key :=
  kdf jmk lblRegion (regionCtx rid epoch creator)
def directoryKey (jmk : Key) (job : W16) (keeper : BitVec 12) : Key := kdf jmk lblDirectory (directoryCtx job keeper)
def filterKey (jmk : Key) (source : BitVec 12) : Key := kdf jmk lblBatchf (be 2 source.toNat)
/-- The key confirmation of JOIN_JOB (Table 05-1). -/
def confirmation (jmk : Key) (job pkg : W16) (keHash : Hash) : BitVec 128 :=
  kdf128 jmk lblConfirm (be 2 job.toNat ++ be 2 pkg.toNat ++ be 48 keHash.toNat)
/-- A TENANT key: LABEL_ARGS as written, byte 16 first (R123). -/
def tenantKey (parent : Key) (args : BitVec 128) : Key := kdf parent lblTenant (le 16 args.toNat)

/-- Keys under the DRS (Table 05-1). -/
def identityKey (s : State) : Key := kdf s.otp.drs lblIdentity (be 8 s.otp.deviceId.toNat)
def storageKey (s : State) : Key :=
  kdf s.otp.drs lblStorage (be 1 (match ownerSlot s with | some k => k | none => 0xFF))
def telemetryKey (s : State) : Key := kdf s.otp.drs lblTelemetry (be 32 s.ks.bootNonce.toNat)
def migrationWrap (s : State) : Key := kdf s.otp.drs lblMigwrap (be 32 s.ks.bootNonce.toNat)
def firmwareKey (s : State) : Key := kdf s.otp.drs lblFirmware (be 48 s.pkg.measurement.toNat)
/-- The order n of the P-384 group (FIPS 186-5). -/
def p384Order : Nat :=
  0xFFFFFFFFFFFFFFFFFFFFFFFFFFFFFFFFFFFFFFFFFFFFFFFFC7634D81F4372DDF581A0DB248B0A77AECEC196ACCC52973
/-- R112: the P-384 private key of a 448-bit seed: (c mod (n − 1)) + 1. -/
def p384Private (seed : List Byte) : Nat := ofBe seed % (p384Order - 1) + 1
/-- R111, R112: the key pairs that the seeds under IDENTITY give. -/
def identityPairs (s : State) : IdentityKeys :=
  let id := be 32 (identityKey s).toNat
  let kem := kdfBytes id lblKeMlkem (be 32 s.ks.bootNonce.toNat) 512
  { ecD := p384Private (kdfBytes id lblIdEcdsa [] 448), xi := BitVec.ofNat 256 (ofBe (kdfBytes id lblIdMldsa [] 256))
    kemD := BitVec.ofNat 256 (ofBe (kem.take 32)), kemZ := BitVec.ofNat 256 (ofBe (kem.drop 32))
    keD := p384Private (kdfBytes id lblKeEcdh (be 32 s.ks.bootNonce.toNat) 448) }
/-- R83, R319: SHA-384 of the identity public keys, the P-384 point first. Log entry 171 (DEDUCED). -/
def identityHashOf (k : IdentityKeys) : Hash := Config.sha384 (Config.p384Public k.ecD ++ Config.mldsaPublic k.xi)
/-- The key-establishment public keys of R112: the ML-KEM-1024 key, then the uncompressed point. -/
def kePublic (k : IdentityKeys) : List Byte := Config.mlkemPublic k.kemD k.kemZ ++ Config.p384Public k.keD
/-- KE_HASH (R112). -/
def keHashOf (k : IdentityKeys) : Hash := Config.sha384 (kePublic k)
/-- The hybrid secret that a ciphertext and an ephemeral point give (R115, R320); none where the point is none of P-384. -/
def hybridSecret (k : IdentityKeys) (ct eph : List Byte) : Option (List Byte) :=
  (Config.p384Shared k.keD eph).map (fun x => be 32 (Config.mlkemDecaps k.kemD k.kemZ ct).toNat ++ be 48 x.toNat)
/-- The job key-encryption key (R115). -/
def jobKek (secret : List Byte) (job pkg : W16) (keHash : Hash) (ct eph : List Byte) : Key :=
  BitVec.ofNat 256 (ofBe (kdfBytes secret lblJobKek
    (be 2 job.toNat ++ be 2 pkg.toNat ++ be 48 keHash.toNat ++ be 48 (Config.sha384 (ct ++ eph)).toNat) 256))

/-- The wrap key of function `f`: durable or volatile (R127). -/
def wrapKey (s : State) (f : Fn) (durable : Bool) : Key :=
  if durable then kdf (storageKey s) lblWrapDur (fnCtx f)
  else kdf (storageKey s) lblWrapVol (fnCtx f ++ be 32 s.ks.bootNonce.toNat)
/-- The trace key of a reader; its parent is the trace root where the DRS cannot be used (R109). -/
def traceKey (s : State) (f : Fn) : Key :=
  kdf (match s.ks.traceRoot with | some r => r | none => telemetryKey s) lblTrace (fnCtx f)

/-! ### Counter blocks (Table 09-3) -/

/-- A tree counter: MAJOR and MINOR. -/
abbrev Ctr := Nat × Nat

/-- The counter block of Table 09-3. -/
def counterBlock (domain level index : Nat) (c : Ctr) (block : Nat) : BitVec 128 :=
  BitVec.ofNat 128 (domain * 2 ^ 124 + level * 2 ^ 121 + index * 2 ^ 85 + c.1 * 2 ^ 21 + c.2 * 2 ^ 14 + block)

/-- Block `b` of a line: its bytes 16b to 16b + 15, first byte most significant. -/
def lineBlock (l : Line) (b : Nat) : BitVec 128 :=
  BitVec.ofNat 128 (ofBe ((List.range 16).map (fun i => l.extractLsb' (8 * (16 * b + i)) 8)))
/-- The line whose blocks are given, block 0 first. -/
def lineOf (bs : List (BitVec 128)) : Line :=
  BitVec.ofNat 2048 (ofLe (bs.flatMap (fun b => be 16 b.toNat)))

/-- R245: encrypt (or decrypt) a line in counter mode. -/
def cryptLine (k : Key) (index : Nat) (c : Ctr) (l : Line) : Line :=
  lineOf ((List.range 16).map (fun b => lineBlock l b ^^^ Config.aesBlock k (counterBlock 1 0 index c b)))

/-- R246: the MAC of a line's ciphertext. -/
def lineMac (k : Key) (index : Nat) (c : Ctr) (cipher : Line) : W64 :=
  let h := Config.aesBlock k 0
  let g := Config.ghash h ((List.range 16).map (lineBlock cipher) ++ [BitVec.ofNat 128 2048])
  (g ^^^ Config.aesBlock k (counterBlock 2 0 index c 0)).extractLsb' 64 64

/-- R247: the MAC of a stored node. -/
def nodeMac (k : Key) (level index : Nat) (c : Ctr) (n : Node) : W64 :=
  let h := Config.aesBlock k 0
  let blk := fun b => BitVec.ofNat 128 (ofBe ((List.range 16).map (fun i => n.extractLsb' (8 * (16 * b + i)) 8)))
  let g := Config.ghash h ((List.range 4).map blk ++ [BitVec.ofNat 128 512])
  (g ^^^ Config.aesBlock k (counterBlock 3 level index c 0)).extractLsb' 64 64

/-! ### Nodes (Table 09-4) -/

/-- MAJOR of a node. -/
def major (n : Node) : Nat := n.toNat % 2 ^ 64
/-- Minor `k` of a node. -/
def minor (n : Node) (k : Nat) : Nat := n.toNat / 2 ^ (64 + 7 * k) % 128
/-- The counter a node holds for its child `k` (R249). -/
def childCtr (n : Node) (k : Nat) : Ctr := (major n, minor n k)
/-- The node with minor `k` replaced. -/
def setMinor (n : Node) (k v : Nat) : Node :=
  BitVec.ofNat 512 (n.toNat - minor n k * 2 ^ (64 + 7 * k) + v % 128 * 2 ^ (64 + 7 * k))
/-- A node of a MAJOR whose minors are all `v`. -/
def flatNode (maj v : Nat) : Node :=
  BitVec.ofNat 512 (maj % 2 ^ 64 + ((List.range 64).map (fun k => v % 128 * 2 ^ (64 + 7 * k))).sum)

/-- R248: the depth of a tree over `lines` lines: the smallest of 1 to 6 whose 64^h is at least that. -/
def treeDepth (lines : Nat) : Nat :=
  if lines ≤ 64 then 1 else if lines ≤ 64 ^ 2 then 2 else if lines ≤ 64 ^ 3 then 3
  else if lines ≤ 64 ^ 4 then 4 else if lines ≤ 64 ^ 5 then 5 else 6

/-- The node address of READ_NODES: LEVEL in bits 34:32, index in bits 29:0 (Table 09-8). -/
def nodeAddr (level index : Nat) : W64 := BitVec.ofNat 64 (level * 2 ^ 32 + index)

/-! ### Descriptors (R64) -/

/-- The opcodes of Table 03-6. -/
def opcodes : List Nat :=
  [0x01, 0x02, 0x0F, 0x10, 0x11, 0x12, 0x13, 0x14, 0x15, 0x20, 0x21, 0x22, 0x23, 0x30, 0x31, 0x32] ++
  [0x40, 0x41, 0x42, 0x43, 0x44, 0x45, 0x46, 0x47, 0x48, 0x49, 0x50, 0x51, 0x52, 0x53, 0x58, 0x59] ++
  [0x5A, 0x5B, 0x5C, 0x5D, 0x5E, 0x60, 0x61, 0x62, 0x68, 0x69, 0x70, 0x71, 0x72, 0x73] ++
  [0x78, 0x79, 0x7A, 0x7B, 0x7C, 0x7E, 0x7F]

/-- R64: on the admin ring these act only on a VF. -/
def needsVf (op : Nat) : Bool := op == 0x50 || op == 0x51 || op == 0x53 || (0x59 ≤ op && op ≤ 0x5E)
/-- R64: these act only on the package. -/
def needsNoVf (op : Nat) : Bool :=
  op == 0x52 || op == 0x7E || op == 0x7F || (0x70 ≤ op && op ≤ 0x73) || op == 0x68 || op == 0x69 || op == 0x62

/-- The RSVD ranges of an opcode's operands, as offset and length (Tables 03-7 to 03-17, R64). -/
def rsvdRanges (op : Nat) (raw : BitVec 512) : List (Nat × Nat) :=
  match op with
  | 0x01 => [(32, 32)]
  | 0x02 => [(18, 46)]
  | 0x10 => [(16, 4), (20, 1), (22, 14)] ++ (if rawByte raw 21 = 1 then [] else [(36, 12)]) ++ [(48, 16)]
  | 0x11 => [(16, 2), (21, 27)] ++ (if rawByte raw 20 = 1 then [(56, 8)] else [])
  | 0x12 | 0x13 => [(18, 46)]
  | 0x14 => [(18, 4), (23, 1), (29, 3), (36, 28)]
  | 0x15 => [(16, 6), (29, 3), (36, 28)]
  | 0x20 => [(21, 3), (34, 2), (37, 27)]
  | 0x21 => [(21, 3), (24, 40)]
  | 0x22 => [(21, 3), (24, 10), (36, 28)]
  | 0x23 => [(21, 3), (24, 13), (39, 1), (52, 4)]
  | 0x30 | 0x31 => [(21, 43)]
  | 0x32 => [(16, 6), (24, 40)]
  | 0x40 | 0x41 => [(17, 7), (40, 24)]
  | 0x44 => [(16, 8), (32, 32)]
  | 0x45 | 0x49 => [(16, 4), (24, 40)]
  | 0x46 | 0x47 => [(16, 4), (32, 32)]
  | 0x48 => [(16, 1), (18, 6), (40, 24)]
  | 0x53 => [(28, 36)]
  | 0x58 | 0x5C | 0x5E => [(16, 8), (40, 24)]
  | 0x5A | 0x5B => [(18, 6), (48, 16)]
  | 0x60 => [(20, 44)]
  | 0x61 => [(16, 8), (36, 28)]
  | 0x62 => [(16, 4), (22, 42)]
  | 0x68 | 0x70 | 0x71 | 0x72 => [(28, 36)]
  | 0x73 => [(29, 35)]
  | 0x78 => [(20, 44)]
  | 0x79 => [(16, 4), (45, 3), (56, 8)]
  | 0x7A => [(16, 4), (24, 8), (40, 4), (45, 19)]
  | 0x7B => [(16, 4), (32, 12), (45, 19)]
  | 0x7C => [(16, 4), (24, 40)]
  | 0x7E => [(17, 47)]
  | 0x7F => [(16, 2), (32, 32)]
  | _ => [(16, 48)]

/-- R64: the offset of the first header field that offends; RSVD bits inside a field offend as that field. Log entry 167
(DESIGN CHOICE). -/
def headerFault (f : Fn) (raw : BitVec 512) : Option Nat :=
  let op := rawByte raw 0
  let ctx := rawField raw 2 2
  let tv := rawField raw 8 2
  let admin := match f with | .pf => true | .vf _ => false
  if !opcodes.contains op then some 0
  else if 4 ≤ rawByte raw 1 then some 1
  else if 0x03FF < ctx ∧ ctx ≠ 0xFFFF then some 2
  else if !admin && tv != 0 then some 8
  else if admin && tv / 0x1000 % 8 != 0 then some 8
  else if admin && ((needsVf op && tv < 0x8000) || (needsNoVf op && 0x8000 ≤ tv)) then some 8
  else if ctx = 0xFFFF ∧ rawField raw 10 2 ≠ 0 then some 10
  else firstNonZero raw 12 4

/-! ### Stream ids, handles, cursors -/

/-- A stream id: source, destination, class, ordinal (00_scope.md). -/
def streamId (src dst : BitVec 12) (cls ord : BitVec 4) : W32 :=
  BitVec.ofNat 32 (src.toNat * 2 ^ 20 + dst.toNat * 2 ^ 8 + cls.toNat * 2 ^ 4 + ord.toNat)
def sidSrc (sid : W32) : BitVec 12 := sid.extractLsb' 20 12
def sidDst (sid : W32) : BitVec 12 := sid.extractLsb' 8 12
def sidClass (sid : W32) : Nat := (sid.extractLsb' 4 4).toNat
def sidOrd (sid : W32) : BitVec 4 := sid.extractLsb' 0 4

/-- A memory-object or fence handle: reuse count above index (R285). -/
def handleOf (reuse : W16) (idx : Nat) : W32 := BitVec.ofNat 32 (reuse.toNat * 65536 + idx)
/-- A bulk context handle: reuse count above engine and index (R331). -/
def bctxOf (reuse : W16) (k : Nat) : W32 := BitVec.ofNat 32 (reuse.toNat * 65536 + k)

/-- The memory object a handle names in function `f`: its index (R285). -/
def objIdx (s : State) (f : Fn) (h : W32) : Option Nat :=
  let i := h.toNat % 65536
  let x := fnOf s f
  match mapFind x.objs i with
  | some o => if (mapGet 0 x.objReuse i).toNat = h.toNat / 65536 ∧ o.unmapping = false then some i else none
  | none => none
/-- The fence a handle names in function `f`: its index (R285). -/
def fenceIdx (s : State) (f : Fn) (h : W32) : Option Nat :=
  let i := h.toNat % 65536
  let x := fnOf s f
  match mapFind x.fences i with
  | some _ => if (mapGet 0 x.fenceReuse i).toNat = h.toNat / 65536 then some i else none
  | none => none
/-- The open bulk context a handle names for function `f`: engine × 16 + index (R331). -/
def bulkIdx (s : State) (f : Fn) (h : W32) : Option Nat :=
  let i := h.toNat % 65536
  match mapFind s.bulk i with
  | some b => if b.vf = f ∧ (mapGet 0 s.bulkReuse i).toNat = h.toNat / 65536 then some i else none
  | none => none

/-- CURSOR (R323): its SECTION. -/
def cursorSection (c : W64) : Nat := c.toNat / 2 ^ 62
/-- CURSOR (R323): its POSITION. -/
def cursorPos (c : W64) : Nat := c.toNat % 2 ^ 62
/-- The next CURSOR of a complete image. -/
def cursorEnd : W64 := 0xFFFFFFFFFFFFFFFF

end Sys2Proof.Machine
end

