-- ==== Sys2Proof/Machine/Flags.lean ====
section
/-! DEFINITION. The arithmetic of reductions (R273, R274): integer operations that wrap, and the floating-point operations of
IEEE 754-2019 on FP32, BF16 and FP16, computed exactly on integers and rounded once. -/
namespace Sys2Proof.Machine

/-- Element size of a reduction format in bytes; 0 for a reserved code (Table 09-14). -/
def redSize (fmt : Byte) : Nat :=
  if fmt = 0x01 ∨ fmt = 0x08 ∨ fmt = 0x0A then 4
  else if fmt = 0x02 ∨ fmt = 0x03 then 2
  else if fmt = 0x09 ∨ fmt = 0x0B then 8
  else 0

/-- The format is a floating-point one. -/
def redFloat (fmt : Byte) : Bool := fmt == 0x01 || fmt == 0x02 || fmt == 0x03

/-- The operation and format are a combination that Tables 09-13 and 09-14 mark. -/
def redOk (op fmt : Byte) : Bool :=
  decide (redSize fmt ≠ 0) && decide (1 ≤ op.toNat ∧ op.toNat ≤ 6) && !(redFloat fmt && decide (4 ≤ op.toNat))

/-- Significand bits below the leading one, and exponent bits, of a floating-point format. -/
def fracBits (fmt : Byte) : Nat := if fmt = 0x01 then 23 else if fmt = 0x02 then 7 else 10
/-- Exponent bits. -/
def expBits (fmt : Byte) : Nat := if fmt = 0x03 then 5 else 8
/-- The exponent field of infinities and NaNs. -/
def expMax (fmt : Byte) : Nat := 2 ^ expBits fmt - 1
/-- Sign bit's weight. -/
def signBit (fmt : Byte) : Nat := 2 ^ (fracBits fmt + expBits fmt)

/-- The exponent field of an encoding. -/
def fpExp (fmt : Byte) (x : Nat) : Nat := x / 2 ^ fracBits fmt % 2 ^ expBits fmt
/-- The fraction field. -/
def fpFrac (fmt : Byte) (x : Nat) : Nat := x % 2 ^ fracBits fmt
/-- The sign. -/
def fpNeg (fmt : Byte) (x : Nat) : Bool := decide (x / signBit fmt % 2 = 1)
/-- A NaN encoding. -/
def fpNan (fmt : Byte) (x : Nat) : Bool := fpExp fmt x == expMax fmt && fpFrac fmt x != 0
/-- An infinity encoding. -/
def fpInf (fmt : Byte) (x : Nat) : Bool := fpExp fmt x == expMax fmt && fpFrac fmt x == 0
/-- The magnitude of a finite value in units of the smallest subnormal. -/
def fpMag (fmt : Byte) (x : Nat) : Nat :=
  if fpExp fmt x = 0 then fpFrac fmt x else (2 ^ fracBits fmt + fpFrac fmt x) * 2 ^ (fpExp fmt x - 1)
/-- The value of a finite encoding in units of the smallest subnormal. -/
def fpVal (fmt : Byte) (x : Nat) : Int := if fpNeg fmt x then -(fpMag fmt x : Int) else (fpMag fmt x : Int)

/-- The canonical quiet NaN (PRESUMED, log entry 8): sign clear, exponent all ones, top fraction bit set. -/
def fpQnan (fmt : Byte) : Nat := expMax fmt * 2 ^ fracBits fmt + 2 ^ (fracBits fmt - 1)
/-- Infinity of a sign. -/
def fpInfinity (fmt : Byte) (neg : Bool) : Nat := (if neg then signBit fmt else 0) + expMax fmt * 2 ^ fracBits fmt

/-- Round a magnitude in units of the smallest subnormal to an encoding, to nearest, ties to even; overflow gives infinity. -/
def fpRound (fmt : Byte) (n : Nat) : Nat :=
  let m := fracBits fmt
  let k := Nat.log2 n - m
  let q := n / 2 ^ k
  let r := n % 2 ^ k
  let q := if 2 ^ k < 2 * r ∨ (2 * r = 2 ^ k ∧ q % 2 = 1) then q + 1 else q
  let e := k * 2 ^ m + q
  if expMax fmt * 2 ^ m ≤ e then expMax fmt * 2 ^ m else e

/-- Floating-point ADD. -/
def fpAdd (fmt : Byte) (a b : Nat) : Nat :=
  if fpNan fmt a || fpNan fmt b then fpQnan fmt
  else if fpInf fmt a then
    if fpInf fmt b && fpNeg fmt a != fpNeg fmt b then fpQnan fmt else fpInfinity fmt (fpNeg fmt a)
  else if fpInf fmt b then fpInfinity fmt (fpNeg fmt b)
  else
    let v := fpVal fmt a + fpVal fmt b
    if v = 0 then (if fpNeg fmt a && fpNeg fmt b then signBit fmt else 0)
    else (if v < 0 then signBit fmt else 0) + fpRound fmt v.natAbs

/-- The order of IEEE 754-2019 minimum and maximum on encodings that are not NaN: −0 below +0. -/
def fpLess (fmt : Byte) (a b : Nat) : Bool :=
  let key := fun x => if fpNeg fmt x then -(fpExp fmt x * 2 ^ fracBits fmt + fpFrac fmt x : Int) - 1
    else (fpExp fmt x * 2 ^ fracBits fmt + fpFrac fmt x : Int)
  decide (key a < key b)

/-- A signed value of `bits` bits. -/
def toSigned (bits x : Nat) : Int := if x < 2 ^ (bits - 1) then (x : Int) else (x : Int) - 2 ^ bits

/-- One element of a reduction (R274): the stored element first, the incoming element second. -/
def redElem (op fmt : Byte) (a b : Nat) : Nat :=
  let bits := 8 * redSize fmt
  if redFloat fmt then
    if op = 1 then fpAdd fmt a b
    else if fpNan fmt a || fpNan fmt b then fpQnan fmt
    else if op = 2 then (if fpLess fmt b a then b else a)
    else (if fpLess fmt a b then b else a)
  else
    let signed := fmt == 0x08 || fmt == 0x09
    let less := fun x y => if signed then decide (toSigned bits x < toSigned bits y) else decide (x < y)
    if op = 1 then (a + b) % 2 ^ bits
    else if op = 2 then (if less b a then b else a)
    else if op = 3 then (if less a b then b else a)
    else if op = 4 then a &&& b
    else if op = 5 then a ||| b
    else a ^^^ b

/-- The bytes of a line, byte 0 first. -/
def lineBytes (l : Line) : List Byte := le 256 l.toNat
/-- The line of 256 bytes. -/
def lineOfBytes (bs : List Byte) : Line := BitVec.ofNat 2048 (ofLe bs)
/-- Bytes of a line from `off`. -/
def lineSlice (l : Line) (off len : Nat) : List Byte := ((lineBytes l).drop off).take len
/-- The line with bytes replaced from `off`. -/
def linePatch (l : Line) (off : Nat) (bs : List Byte) : Line :=
  let b := lineBytes l
  lineOfBytes (b.take off ++ bs ++ b.drop (off + bs.length))

/-- Combine the elements of two byte strings; the fuel bounds the elements. -/
def redBytes (op fmt : Byte) : Nat → List Byte → List Byte → List Byte
  | 0, _, _ => []
  | n + 1, stored, incoming =>
    let k := redSize fmt
    le k (redElem op fmt (ofLe (stored.take k)) (ofLe (incoming.take k)))
      ++ redBytes op fmt n (stored.drop k) (incoming.drop k)

/-- A line with incoming elements reduced into it from `off`. -/
def lineReduce (op fmt : Byte) (l : Line) (off : Nat) (bs : List Byte) : Line :=
  linePatch l off (redBytes op fmt (bs.length / redSize fmt) (lineSlice l off bs.length) bs)

end Sys2Proof.Machine
end

