-- ==== Sys2Proof/Machine/KeyOps.lean ====
section
/-! DEFINITION. The key store: reserving, placing, retiring and flushing KIDs, and the engines' key caches (05_keys.md). -/
namespace Sys2Proof.Machine

/-- The state code of a KID (Table 05-7); a reserved KID reads as UNALLOCATED (R120). -/
def kidCode : Option KidSt → Nat
  | none => 0
  | some k => match k.st with
    | .reserved _ => 0 | .live => 1 | .suspended => 2 | .retiring => 3 | .quarantined _ => 4

/-- The KID table's entry as function `f` sees it (R122): another owner's KID is treated as UNALLOCATED. -/
def kidView (s : State) (f : Fn) (kid : W16) : Option KidSt :=
  match mapFind s.ks.kids kid.toNat with
  | some k => if k.owner = some f then some k else none
  | none => none

/-- The state code of a KID as function `f` sees it. -/
def kidCodeFor (s : State) (f : Fn) (kid : W16) : W32 := BitVec.ofNat 32 (kidCode (kidView s f kid))

/-- The slot that a KID maps to while it holds its key. -/
def slotOf (s : State) (kid : W16) : Option SlotSt :=
  match mapFind s.ks.kids kid.toNat with
  | some k => match k.st with | .quarantined _ => none | _ => mapFind s.ks.slots k.slot
  | none => none

/-- The key value of a KID, zero where it maps to none: used only inside the block (R106). -/
def keyOf (s : State) (kid : W16) : Key := match slotOf s kid with | some x => x.key | none => 0

/-- The KID is LIVE. -/
def kidLive (s : State) (kid : W16) : Bool := kidCode (mapFind s.ks.kids kid.toNat) == 1
/-- The KID is LIVE or SUSPENDED: engines may cache it (R125). -/
def kidUsable (s : State) (kid : W16) : Bool :=
  let c := kidCode (mapFind s.ks.kids kid.toNat)
  c == 1 || c == 2
/-- The KID is reserved by a command in progress (R120). -/
def kidReserved (s : State) (kid : W16) : Bool :=
  match mapFind s.ks.kids kid.toNat with
  | some k => (match k.st with | .reserved _ => true | _ => false)
  | none => false
/-- R120: a reserved KID whose command has placed its key already, for that command's own purpose. -/
def kidPlaced (s : State) (kid : W16) : Bool := kidReserved s kid && (slotOf s kid).isSome
/-- The KID is RETIRING or QUARANTINED (R137). -/
def kidLeaving (s : State) (kid : W16) : Bool :=
  let c := kidCode (mapFind s.ks.kids kid.toNat)
  c == 3 || c == 4

/-- A slot is taken: filled, or reserved for a KID that is not in quarantine. -/
def slotTaken (s : State) (n : Nat) : Bool :=
  (mapFind s.ks.slots n).isSome ||
    s.ks.kids.any (fun e => e.2.slot == n && (match e.2.st with | .quarantined _ => false | _ => true))

/-- The first of `fuel` numbers from `k` up that `used` does not hold. -/
def firstFree (used : Nat → Bool) : Nat → Nat → Option Nat
  | 0, _ => none
  | fuel + 1, k => if used k then firstFree used fuel (k + 1) else some k

/-- R121: the lowest free slot of the first usable bank with one, in cyclic order after the bank last used. -/
def pickSlot (s : State) : Nat → Nat → Option Nat
  | 0, _ => none
  | n + 1, b =>
    let b := b % 16
    match (if bankUsable s b then firstFree (slotTaken s) Config.bankSlots (b * Config.bankSlots) else none) with
    | some k => some k
    | none => pickSlot s n (b + 1)

/-- A free slot (R121), or none. -/
def freeSlot (s : State) : Option Nat := pickSlot s 16 (s.ks.lastBank + 1)

/-- R121: the first UNALLOCATED KID after `last` in cyclic order within a range. -/
def freeKidIn (s : State) (first last from_ : Nat) : Option Nat :=
  let used := fun k => (mapFind s.ks.kids k).isSome
  match firstFree used (last - from_) (from_ + 1) with
  | some k => some k
  | none => firstFree used (min from_ last + 1 - first) first

/-- The KID a function's next key takes. -/
def freeKid (s : State) : Option Nat := freeKidIn s Config.kidFirst Config.kidLast s.ks.lastKid
/-- The KID Aedvik's next internal key takes. -/
def freeIntKid (s : State) : Option Nat := freeKidIn s Config.kidIntFirst Config.kidIntLast s.ks.lastInt

/-- A slot and a KID are free: the check of NO_SLOT (DETAIL 1 or 2). -/
def slotCheck (s : State) : Check :=
  match freeSlot s with
  | none => some (stNoSlot, 1)
  | some _ => match freeKid s with | none => some (stNoSlot, 2) | some _ => none

/-- R62, R121: reserve a slot and a KID for function `f`: the KID and the state after. -/
def reserveKid (f : Fn) (s : State) : W16 × State :=
  match freeSlot s, freeKid s with
  | some sl, some k =>
    (BitVec.ofNat 16 k,
      { s with ks := { s.ks with kids := mapSet s.ks.kids k { st := .reserved f, slot := sl, owner := some f }
                                 lastKid := k, lastBank := sl / Config.bankSlots } })
  | _, _ => (0, s)

/-- Reserve a slot and a KID of Aedvik's own range. -/
def reserveInt (s : State) : W16 × State :=
  match freeSlot s, freeIntKid s with
  | some sl, some k =>
    (BitVec.ofNat 16 k,
      { s with ks := { s.ks with kids := mapSet s.ks.kids k { st := .reserved .pf, slot := sl, owner := none }
                                 lastInt := k, lastBank := sl / Config.bankSlots } })
  | _, _ => (0, s)

/-- Place a key in the slot that a KID has reserved. -/
def placeKey (kid : W16) (x : SlotSt) (s : State) : State :=
  match mapFind s.ks.kids kid.toNat with
  | some k => { s with ks := { s.ks with slots := mapSet s.ks.slots k.slot { x with kid := kid } } }
  | none => s

/-- R363: a KID's state change, for the PF's trace. -/
def traceKid (kid : W16) (old new : Nat) (s : State) : State :=
  trace .pf 0x41 0xFFFF (BitVec.ofNat 128 (kid.toNat + old * 2 ^ 16 + new * 2 ^ 24)) s

/-- Set a KID's state. -/
def setKid (kid : W16) (st : KidState) (s : State) : State :=
  match mapFind s.ks.kids kid.toNat with
  | some k => { s with ks := { s.ks with kids := mapSet s.ks.kids kid.toNat { k with st := st } } }
  | none => s

/-- A reserved KID becomes LIVE at its command's completion (R120); a KID adopted from KEY_DERIVE is so already. -/
def activateKid (kid : W16) (s : State) : State :=
  if kidReserved s kid then traceKid kid 0 1 (setKid kid .live s) else s

/-- A reserved KID returns to UNALLOCATED, its slot freed and no engine holding its key (R62, R120). -/
def releaseKid (kid : W16) (s : State) : State :=
  match mapFind s.ks.kids kid.toNat with
  | some k => match k.st with
    | .reserved _ => { s with ks := { s.ks with kids := mapErase s.ks.kids kid.toNat, slots := mapErase s.ks.slots k.slot
                                                caches := s.ks.caches.map (fun e => (e.1, e.2.erase kid)) } }
    | _ => s
  | none => s

/-- Engines whose caches hold a KID (CACHED_IN of Table 05-6). -/
def cachedIn (s : State) (kid : W16) : List Nat := (s.ks.caches.filter (fun e => e.2.contains kid)).map (·.1)

/-- Entries of an engine's key cache (Table 05-9): engines 0-33 link, 34-41 pool, 42-43 bulk. -/
def cacheSize (engine : Nat) : Nat := if engine < 34 then 64 else if engine < 42 then 256 else 16

/-- An engine invalidates and zeroises its entry for a KID. -/
def uncacheKid (engine : Nat) (kid : W16) (s : State) : State :=
  { s with ks := { s.ks with caches := mapPut [] s.ks.caches engine ((mapGet [] s.ks.caches engine).erase kid) } }

/-- An engine's whole cache is zeroised. -/
def clearCache (engine : Nat) (s : State) : State := { s with ks := { s.ks with caches := mapErase s.ks.caches engine } }

/-- R136 step 3: once no engine holds the key, its slot is zeroised and freed, and the KID enters QUARANTINED. -/
def finishRetire (kid : W16) (s : State) : State :=
  match mapFind s.ks.kids kid.toNat with
  | some k =>
    if k.st = .retiring ∧ (cachedIn s kid).isEmpty then
      traceKid kid 3 4
        { s with ks := { s.ks with slots := mapErase s.ks.slots k.slot
                                   kids := mapSet s.ks.kids kid.toNat { k with st := .quarantined s.ks.epoch } } }
    else s
  | none => s

/-- A key that an engine may not evict (Table 05-9): a pool engine's of a region with a request in flight, a bulk engine's of an
open context. -/
def keyInUse (s : State) (engine : Nat) (kid : W16) : Bool :=
  if 34 ≤ engine ∧ engine < 42 then
    s.regions.any (fun r => r.2.kid == kid && s.jobs.any (fun j => j.region == r.1 && j.phase != 2))
  else decide (42 ≤ engine) && s.bulk.any (fun b => b.1 / 16 + 42 == engine && b.2.kid == kid)

/-- R125: an engine fills a key into its cache, evicting its least recently used one that is not in use; a key that was RETIRING
there then has one engine less to wait for. While every entry is in use, nothing is filled. Log entry 159 (DEDUCED). -/
def cacheKid (engine : Nat) (kid : W16) (s : State) : State :=
  let c := kid :: (mapGet [] s.ks.caches engine).erase kid
  let put := fun (l : List W16) => { s with ks := { s.ks with caches := mapSet s.ks.caches engine l } }
  if c.length ≤ cacheSize engine then put c
  else match c.reverse.find? (fun k => k != kid && !keyInUse s engine k) with
    | some v => finishRetire v (put (c.erase v))
    | none => s

/-- The key placed under a reserved KID is the next one of a stream that a KEY_ROTATE moves (Table 05-13). -/
def rotateKid (s : State) (kid : W16) : Bool :=
  match slotOf s kid with
  | some x => s.prog.any (fun q => match q.act with | .rotate j d => x.job == j && x.subject == d.setWidth 40 | _ => false)
  | none => false

/-- R136 steps 1 and 2: retirement of a KID begins; it ends at once where no engine caches the key. A KID that its command has only
reserved returns to UNALLOCATED, unless it is the new one of a KEY_ROTATE. -/
def retireKid (kid : W16) (s : State) : State :=
  match mapFind s.ks.kids kid.toNat with
  | some k => match k.st with
    | .live => finishRetire kid (traceKid kid 1 3 (setKid kid .retiring s))
    | .suspended => finishRetire kid (traceKid kid 2 3 (setKid kid .retiring s))
    | .reserved _ => if rotateKid s kid then finishRetire kid (traceKid kid 0 3 (setKid kid .retiring s)) else releaseKid kid s
    | _ => s
  | none => s

/-- Retire every KID of a list. -/
def retireKids : List W16 → State → State
  | [], s => s
  | k :: l, s => retireKids l (retireKid k s)

/-- The KID is not (or no longer) RETIRING. -/
def notRetiring (s : State) (kid : W16) : Bool := !(kidCode (mapFind s.ks.kids kid.toNat) == 3)

/-- Every KID that function `f` owns and that is LIVE or SUSPENDED, in KID order. -/
def kidsOfFn (s : State) (f : Fn) : List W16 :=
  (s.ks.kids.filter (fun e => e.2.owner == some f && (e.2.st == .live || e.2.st == .suspended))).map
    (fun e => BitVec.ofNat 16 e.1)

/-- Every KID of function `f` tagged to a context (R423). -/
def kidsOfCtx (s : State) (f : Fn) (ctx : W16) : List W16 :=
  (kidsOfFn s f).filter (fun k => match slotOf s k with | some x => x.ctx == ctx && x.kind != .job | none => false)

/-- R138: a new quarantine epoch: KIDs that entered two epochs before become UNALLOCATED. -/
def quarantineTick (s : State) : State :=
  let e := s.ks.epoch + 1
  { s with ks :=
    { s.ks with
      epoch := e
      kids := s.ks.kids.filter (fun k => match k.2.st with | .quarantined q => decide (e < q + 2) | _ => true) } }

/-- R142: every slot, the KID table, every cache, the ladder and the KXE's key memory are zeroised. -/
def zeroiseKeys (s : State) : State :=
  { s with ks := { s.ks with slots := [], kids := [], caches := [], bootNonce := 0, traceRoot := none, identity := none } }

/-- The job master key of function `f`. -/
def jmkOf (s : State) (f : Fn) : Key := keyOf s (fnOf s f).jmkKid

/-- A slot for a key of function `f` (R423: tagged to a context or to the function). -/
def mkSlot (key : Key) (kind : KeyKind) (use : Byte) (f : Fn) (job ctx ctxGen : W16) : SlotSt :=
  { key := key, kind := kind, use := use, kid := 0, owner := f, job := job, ctx := ctx, ctxGen := ctxGen, epoch := 0,
    subject := 0, parent := 0 }

/-! ### Wrapped key blobs (Table 05-10) -/

/-- Owner policy in force has DURABLE_PARK set (R129). -/
def durablePark (s : State) : Bool := s.aon.policyFlags.getLsbD 0
/-- R129: WRAP 0x01 without that policy. -/
def wrapAllowed (s : State) (wrap : Byte) : Check := failIf (wrap == 1 && !durablePark s) stNotPermitted 0

/-- A blob as it stands in memory. -/
def blobBytes (b : Blob) : List Byte := le 2 b.format.toNat ++ [b.wrap] ++ le 5 b.rsvd.toNat ++ b.wrapped
/-- A blob as its 56 bytes give it. -/
def blobOf (l : List Byte) : Blob :=
  { format := BitVec.ofNat 16 (ofLe (l.take 2)), wrap := l.getD 2 0, rsvd := BitVec.ofNat 40 (ofLe ((l.drop 3).take 5)), wrapped := l.drop 8 }
/-- The offset in a blob of its first field that is not as Table 05-10 has it. -/
def blobFault (b : Blob) : Option Nat :=
  if b.format ≠ 0x0002 then some 0
  else if 1 < b.wrap.toNat then some 2
  else ((List.range 5).find? (fun k => b.rsvd.toNat / 256 ^ k % 256 != 0)).map (· + 3)
/-- R128: the blob of a TENANT key of function `f`. -/
def makeBlob (s : State) (f : Fn) (durable : Bool) (key : Key) : Blob :=
  { format := 0x0002, wrap := if durable then 1 else 0, rsvd := 0
    wrapped := Config.kwWrap (wrapKey s f durable) (be 32 key.toNat ++ le 2 f.key ++ [0x06] ++ zeros 5) }
/-- R127, R128: the TENANT key that a blob holds for function `f`; none when the unwrap fails or the blob is another VF's or of another
KIND. Log entry 48 (DEDUCED). -/
def blobKey (s : State) (f : Fn) (b : Blob) : Option Key :=
  match Config.kwUnwrap (wrapKey s f (b.wrap == 1)) b.wrapped with
  | none => none
  | some l => if l.drop 32 = le 2 f.key ++ [0x06] ++ zeros 5 then some (BitVec.ofNat 256 (ofBe (l.take 32))) else none

/-- USE bits of Table 05-6, numbered from bit 8. -/
def useSeal : Byte := 0x01
def useOpen : Byte := 0x02
def usePool : Byte := 0x04
def useBulk : Byte := 0x08
def useParent : Byte := 0x10
def useWrap : Byte := 0x20
def useIde : Byte := 0x40
def useSpdm : Byte := 0x80

/-- The LIVE STREAM key that KEY_DERIVE already placed for a stream id and epoch of function `f` (R124). -/
def derivedStream (s : State) (f : Fn) (job : W16) (sid epoch : W32) : Option W16 :=
  (kidsOfFn s f).find? (fun k => match slotOf s k with
    | some x => x.kind == .stream && x.job == job && x.subject == sid.setWidth 40 && x.epoch == epoch
        && !(s.sends.any (fun t => t.kid == k || t.next == some k)) && !(s.recvs.any (fun t => t.kid == k || t.next == some k))
    | none => false)

/-- R187, R124: place the key of a stream's epoch in a fresh KID of function `f`, reserved, or adopt one already derived; it is tagged as
the stream's KID before it (R423). -/
def placeStream (f : Fn) (job ctx ctxGen : W16) (sid epoch : W32) (use : Byte) (s : State) : Option (W16 × State) :=
  match derivedStream s f job sid epoch with
  | some k => some (k, match slotOf s k with | some x => placeKey k { x with ctx := ctx, ctxGen := ctxGen } s | none => s)
  | none =>
    match slotCheck s with
    | some _ => none
    | none =>
      let (k, s1) := reserveKid f s
      some (k, placeKey k
        { mkSlot (streamKey (jmkOf s f) sid epoch) .stream use f job ctx ctxGen with
          epoch := epoch, subject := sid.setWidth 40, parent := (fnOf s f).jmkKid } s1)

/-- R350, R208: a fresh DEBUG KID drawn from the entropy source, in the internal range. -/
def placeDebug (s : State) : W16 × State :=
  let key := drawn s
  let (k, s1) := reserveInt (bumpDraw s)
  (k, activateKid k (placeKey k (mkSlot key .debug (useSeal ||| useOpen ||| usePool) .pf 0 0xFFFF 0) s1))

end Sys2Proof.Machine
end

