-- ==== Sys2Proof/Machine/LinkOps.lean ====
section
/-! DEFINITION. Link ports: hop words, credits, the replay buffer, sealing and sending, routes, and the checks of an arriving
frame up to its routing (07_sealed_links.md, Tables 07-3, 07-8, 07-11 steps 1 to 4). -/
namespace Sys2Proof.Machine

/-- The state of a link port. -/
def portOf (s : State) (p : Fin 32) : PortSt := mapGet {} s.ports p.val
/-- Change a link port. -/
def portMod (p : Fin 32) (g : PortSt → PortSt) (s : State) : State := { s with ports := mapMod {} s.ports p.val g }
/-- All ports, in order. -/
def allPorts : List (Fin 32) := List.finRange 32
/-- Ports that are up and not in loopback. -/
def livePorts (s : State) : List (Fin 32) := allPorts.filter (fun p => (portOf s p).up && (portOf s p).loopDepth == 0)
/-- Run `g` on every port of a list, in order. -/
def eachPort (g : Fin 32 → State → State) : List (Fin 32) → State → State
  | [], s => s
  | p :: l, s => eachPort g l (g p s)

/-- KIND codes (Table 07-1). -/
def kSealed : BitVec 4 := 1
def kHome : BitVec 4 := 2
def kBeat : BitVec 4 := 3
def kKnell : BitVec 4 := 4
def kProxyKnell : BitVec 4 := 5
def kOpenReq : BitVec 4 := 6
def kOpenAck : BitVec 4 := 7
def kCredit : BitVec 4 := 8
def kLoop : BitVec 4 := 9

/-- Wire bytes of a frame (Table 07-1): `units` is 0 for a control frame. -/
def wireBytes (units : Nat) : Nat := if units = 0 then 100 else 52 + 256 * units

/-- Bytes that a frame takes of the replay buffer. -/
def frameSize (f : Frame) : Nat :=
  if f.hop.kind = kSealed ∨ f.hop.kind = kHome ∨ f.hop.kind = kLoop then wireBytes (f.hop.unitsM1.toNat + 1) else wireBytes 0

/-- R193: the replay buffer has room for a further frame. -/
def replayRoom (p : PortSt) (units : Nat) : Bool :=
  decide (p.replay.length < Config.replayFrames) &&
    decide ((p.replay.map frameSize).sum + wireBytes units ≤ Config.replayBytes)

/-- Change entry `v` of a list of 15 per-VC numbers. -/
def vcSet (l : List Nat) (v : Nat) (g : Nat → Nat) : List Nat := l.set v (g (l.getD v 0))

/-! ### Sending -/

/-- VCs on which credits are due to the neighbour, lowest first. -/
def dueVcs (p : PortSt) : List Nat := (List.range 15).filter (fun v => p.due.getD v 0 != 0)
/-- The hop word of the next frame on a port (Table 07-3): the first return that is due and a NAK that is due ride in it (R193, R196). -/
def hopWord (p : PortSt) (kind vc : BitVec 4) (routeSel hopIndex : BitVec 2) (units : Nat) : Hop :=
  let v := (dueVcs p).headD 0
  { kind := kind, vc := vc, routeSel := routeSel, hopIndex := hopIndex, unitsM1 := BitVec.ofNat 5 (units - 1), linkSeq := p.txSeq,
    ackSeq := p.rxSeq - 1, ackValid := p.rxAny, nak := p.nakDue, crdVc := BitVec.ofNat 4 v, crdCount := BitVec.ofNat 12 (p.due.getD v 0) }

/-- The frame of a hop word, routing word and body, with its HOP_CRC (R172, R178). -/
def mkFrame (hop : Hop) (route : W32) (body : Body) : Frame :=
  { hop := hop, route := route, body := body, crc := crc32 (wireImage hop route (bodyBytes body)) }
/-- What a hop word has carried is due no more. -/
def carried (h : Hop) (p : PortSt) : PortSt := { p with due := vcSet p.due h.crdVc.toNat (· - h.crdCount.toNat), nakDue := false }
/-- Packages join a port's through-set (R203). -/
def addThrough (l : List (BitVec 12)) (p : PortSt) : PortSt := { p with through := (p.through ++ l).eraseDups }
/-- Put a frame on the wire: it takes the next LINK_SEQ and stands in the replay buffer until it is acknowledged (R193). -/
def wire (port : Fin 32) (kind vc : BitVec 4) (routeSel hopIndex : BitVec 2) (units : Nat) (route : W32) (body : Body) (s : State) : State :=
  let f := mkFrame (hopWord (portOf s port) kind vc routeSel hopIndex units) route body
  emit (.frame port f) (portMod port (fun p => { carried f.hop p with txSeq := p.txSeq + 1, replay := p.replay ++ [f] }) s)

/-- The routing word of a control frame (Table 07-7); destination 0xFFF means the neighbour. -/
def ctlRoute (s : State) (dst : BitVec 12) : W32 := streamId s.fab.id dst 0 0

/-- A port is up and not in loopback. -/
def portLive (s : State) (port : Fin 32) : Bool := (portOf s port).up && (portOf s port).loopDepth == 0

/-- A return or a NAK is due on a port. -/
def owes (p : PortSt) : Bool := p.nakDue || !(dueVcs p).isEmpty
/-- R193, R196: what no frame has carried goes in a CREDIT frame: one return in its hop word and eight more in its body. -/
def sendCredit (port : Fin 32) (s : State) : State :=
  let p := portOf s port
  let more := ((dueVcs p).drop 1).take 8
  let body := Body.credit (more.map (fun v => (BitVec.ofNat 4 v, BitVec.ofNat 12 (p.due.getD v 0))))
  portMod port (fun p => { p with due := more.foldl (fun l v => vcSet l v (fun _ => 0)) p.due })
    (wire port kCredit 15 0 0 0 (ctlRoute s 0xFFF) body s)
/-- Send the CREDIT frames that are due, while the replay buffer has room; the fuel is the two frames that 15 VCs take. -/
def flushDue : Nat → Fin 32 → State → State
  | 0, _, s => s
  | n + 1, port, s => if portLive s port && owes (portOf s port) && replayRoom (portOf s port) 0 then flushDue n port (sendCredit port s) else s
/-- Send the CREDIT frames that are due on every port. Log entry 10 (DEDUCED). -/
def flushAll (s : State) : State := eachPort (flushDue 2) (allPorts.filter (fun p => owes (portOf s p))) s

/-- A frame leaves our receive buffer: its credits go back once (R196). -/
def returnCredits (port : Fin 32) (vc : BitVec 4) (n : Nat) (s : State) : State :=
  if vc = 15 ∨ !(portOf s port).up then s
  else portMod port (fun p => { p with held := vcSet p.held vc.toNat (fun h => h - n), due := vcSet p.due vc.toNat (· + n) }) s

/-- The flags of our beats on a port (Table 07-7); in A1 every beat carries LENDING (Table 14-6). Log entry 126 (DEDUCED). -/
def beatFlags (a1 : Bool) (p : PortSt) : Byte :=
  (if p.lentSeal || a1 then 1 else 0) ||| (if p.nbrLost then 2 else 0) ||| (if p.lostSeen then 4 else 0)

/-- The stream open for sending under a job and stream id. -/
def findSend (s : State) (job : W16) (sid : W32) : Option SendSt := s.sends.find? (fun t => t.job == job && t.sid == sid)
/-- The stream open for receiving under a job and stream id. -/
def findRecv (s : State) (job : W16) (sid : W32) : Option RecvSt := s.recvs.find? (fun t => t.job == job && t.sid == sid)
/-- Change a sending stream. -/
def modSend (job : W16) (sid : W32) (g : SendSt → SendSt) (s : State) : State :=
  { s with sends := s.sends.map (fun t => if t.job == job && t.sid == sid then g t else t) }
/-- Change a receiving stream. -/
def modRecv (job : W16) (sid : W32) (g : RecvSt → RecvSt) (s : State) : State :=
  { s with recvs := s.recvs.map (fun t => if t.job == job && t.sid == sid then g t else t) }

/-- INDEX of the frame at which each end derives the next epoch's key, and the last INDEX of an epoch (R185, R187). -/
def rollIndex : Nat := 0x40000000
def lastIndex : Nat := 0x7FFFFFFF

/-- R188: the low half of a stream's EPOCH is 0xFFFF: it has no next epoch. -/
def epochSpent (e : W32) : Bool := e.toNat % 65536 == 0xFFFF

/-- R185: a stream whose last INDEX has been used in an epoch without a next takes no further frame. -/
def exhausted (t : SendSt) : Bool := decide (lastIndex < t.index)

/-- R187: the source places the key of the stream's next epoch. -/
def placeNext (t : SendSt) (s : State) : State :=
  if t.next.isSome || epochSpent t.epoch then s
  else match placeStream t.fn t.job t.ctx t.ctxGen t.sid (t.epoch + 1) useSeal s with
    | some (k, s') => modSend t.job t.sid (fun t => { t with next := some k }) s'
    | none => s
/-- The key of a rollover is no command's: its KID is LIVE at once (R120). -/
def prepareSend (t : SendSt) (s : State) : State :=
  let s := placeNext t s
  match findSend s t.job t.sid with
  | some t => (match t.next with | some k => activateKid k s | none => s)
  | none => s

/-- R181: the record of the highest low half of an epoch used for a job and stream id. -/
def sentRec (s : State) (job : W16) (sid : W32) : Option Nat := (s.sent.find? (fun r => r.job == job && r.sid == sid)).map (·.n)
/-- Note an epoch used for sending (R181). -/
def noteSent (job : W16) (sid : W32) (epoch : W32) (s : State) : State :=
  let n := max (epoch.toNat % 65536) ((sentRec s job sid).getD 0)
  { s with sent := s.sent.filter (fun r => !(r.job == job && r.sid == sid)) ++ [{ job := job, sid := sid, n := n }] }

/-- R185, R187: the source goes on in the next epoch, and retires the old epoch's KID. -/
def rollSend (job : W16) (sid : W32) (s : State) : State :=
  match findSend s job sid with
  | none => s
  | some t =>
    match t.next with
    | some k => noteSent job sid (t.epoch + 1)
        (retireKid t.kid (modSend job sid (fun t => { t with epoch := t.epoch + 1, index := 0, kid := k, next := none }) s))
    | none => s

/-- The header of the next frame of a stream (Table 07-4); STREAM_ID is the routing word. -/
def sealHeader (t : SendSt) (units : Nat) (dstCtx dstCtxGen batch batchGen : W16) : SealHdr :=
  { sid := t.sid, seq := BitVec.ofNat 64 (t.epoch.toNat * 2 ^ 32 + t.index), jobId := t.job, units := BitVec.ofNat 8 units,
    dstCtx := dstCtx, dstCtxGen := dstCtxGen, batch := batch, batchGen := batchGen, tagOk := true }

/-- The 96-bit IV: stream id, then SEQ (R175). -/
def frameIv (sid : W32) (seq : W64) : BitVec 96 := BitVec.ofNat 96 (sid.toNat * 2 ^ 64 + seq.toNat)

/-- R189: a stream ends at its source: its sealing KIDs retire. -/
def endSend (job : W16) (sid : W32) (s : State) : State :=
  match findSend s job sid with
  | some t => retireKids (t.kid :: t.next.toList) { s with sends := s.sends.filter (fun x => !(x.job == job && x.sid == sid)) }
  | none => s

/-- Seal a frame of a stream and put it on the wire (R175): SEQ advances, the next epoch's key is placed at INDEX 0x4000_0000,
and the epoch rolls over after its last frame or an EPOCH_END (FTYPE 0x08); a CLOSE (FTYPE 0x09) ends the stream. -/
def sealFrame (t : SendSt) (ctx : W16) (ftype : Byte) (units : Nat) (dstCtx dstCtxGen batch batchGen : W16) (payload : List Byte)
    (s : State) : State :=
  let h := sealHeader t units dstCtx dstCtxGen batch batchGen
  let k := keyOf s t.kid
  let iv := frameIv t.sid h.seq
  let pt := padTo (256 * units) (if ftype = 0x08 then be 8 ((t.epoch.toNat + 1) * 2 ^ 32) else payload)
  let vc := BitVec.ofNat 4 (3 * sidClass t.sid)
  let s := wire t.port kSealed vc t.routeSel 0 units t.sid
    (.sealed h ftype (Config.gcmCipher k iv pt) (Config.gcmTag k iv (headerBytes h ftype) pt)) s
  let s := portMod t.port (fun p =>
    { p with credits := vcSet p.credits vc.toNat (fun c => c - (units + 1))
             through := (p.through ++ [sidSrc t.sid, sidDst t.sid]).eraseDups }) s
  let s := countSealed t.fn ctx units (cacheKid (engineOfPort s t.port.val) t.kid s)
  let s := if t.index = rollIndex ∨ (ftype = 0x08 ∧ t.next = none) then prepareSend t s else s
  let s := modSend t.job t.sid (fun t => { t with index := t.index + 1 }) s
  if ftype = 0x09 then endSend t.job t.sid s
  else if ftype = 0x08 ∨ (t.index = lastIndex ∧ !epochSpent t.epoch) then rollSend t.job t.sid s else s

/-- The VC an item travels on; a SEALED frame starts at HOP_INDEX 0 (R195). -/
def itemVc : TxItem → Nat
  | .seal _ sid _ _ _ _ _ _ _ _ => 3 * sidClass sid
  | .ready vc _ _ _ _ _ _ _ => vc.toNat
/-- Payload units of an item. -/
def itemUnits : TxItem → Nat
  | .seal _ _ _ u _ _ _ _ _ _ => u
  | .ready _ _ _ _ u _ _ _ => u

/-- The member's pending request that a POOL request's payload names by its PTAG (Table 09-10), taken away: no answer will come. -/
def dropMember (payload : List Byte) (s : State) : State :=
  { s with members := mapErase s.members (ofBe ((payload.drop 4).take 4)) }
/-- R188: a frame that its stream has no INDEX left for is not sealed; a requester's is refused with an error completion.
Log entry 157 (DEDUCED). -/
def unsealed (t : SendSt) (ctx : W16) (ftype : Byte) (payload : List Byte) (s : State) : State :=
  if 1 ≤ ftype ∧ ftype ≤ 4 then emit (.fabricError t.fn ctx) s
  else if ftype = 6 ∧ !((payload.headD 0).getLsbD 7) then emit (.fabricError t.fn ctx) (dropMember payload s)
  else s

/-- The return-filter entry of a batch id. -/
def filterOf (s : State) (b : Nat) : FilterSt := mapGet {} s.filter b
/-- Claim an unclaimed entry for a job with GEN 0 (R234). -/
def claimBatch (b : Nat) (job : W16) (s : State) : State :=
  if (filterOf s b).claimed then s
  else { s with filter := mapMod {} s.filter b (fun e => { e with claimed := true, job := job, gen := 0 }) }
/-- The batch id in a TOKEN payload (Table 08-6). -/
def payBatch (payload : List Byte) : Nat := ofBe (payload.take 4) / 2 ^ 20
/-- R230: the seal half writes BATCH_GEN into bytes 4-5 of a token header. -/
def stampToken (gen : W16) (payload : List Byte) : List Byte := payload.take 4 ++ be 2 gen.toNat ++ payload.drop 6
/-- Seal a TOKEN (R230, R234): it claims its batch's entry for the VF's job, where that is unclaimed, and takes the entry's generation; one
whose batch another job has claimed is not sealed, and its requester receives an error completion. -/
def sealToken (t : SendSt) (ctx : W16) (units : Nat) (dc dg : W16) (payload : List Byte) (s : State) : State :=
  let n := payBatch payload
  if (filterOf s n).claimed ∧ (filterOf s n).job ≠ t.job then emit (.fabricError t.fn ctx) (countFn t.fn 0x2B s)
  else
    let s := claimBatch n t.job s
    sealFrame t ctx 0x03 units dc dg 0 0 (stampToken (filterOf s n).gen payload) s
/-- BATCH_GEN of a frame as it is sealed: of a class-2 CHIME Aedvik fills it from the return filter (R218). -/
def fillGen (sid : W32) (ftype : Byte) (b bg : W16) (s : State) : W16 :=
  if ftype = 0x02 ∧ sidClass sid = 2 then (filterOf s (b.toNat / 16)).gen else bg

/-- Send one queued item whose credits and replay space are there. A frame queued for sealing under a leaving KID, or whose
stream is gone, is discarded and counted (R137). -/
def sendItem (port : Fin 32) (i : TxItem) (s : State) : State :=
  match i with
  | .seal job sid ftype units dc dg b bg payload ctx =>
    match findSend s job sid with
    | some t =>
      if !(kidUsable s t.kid || kidPlaced s t.kid) then countPort port 4 s
      else if exhausted t then unsealed t ctx ftype payload s
      else if ftype = 0x03 then sealToken t ctx units dc dg payload s
      else sealFrame t ctx ftype units dc dg b (fillGen sid ftype b bg s) payload s
    | none => countPort port 4 s
  | .ready vc kind rs hi units route body ret =>
    let s := wire port kind vc rs hi units route body s
    let s := if vc = 15 then s
      else portMod port (fun p => { p with credits := vcSet p.credits vc.toNat (fun c => c - (units + 1)) }) s
    match ret with
    | some (ap, avc, n) => returnCredits ap (BitVec.ofNat 4 avc) n s
    | none => s

/-- Whether a queued item may go now: credits of its VC, replay space, and in A2 no sealing (R380). Log entry 32 (DEDUCED). -/
def mayGo (s : State) (port : Fin 32) (i : TxItem) : Bool :=
  let p := portOf s port
  let v := itemVc i
  p.up && p.loopDepth == 0 && replayRoom p (itemUnits i) && (v == 15 || decide (itemUnits i + 1 ≤ p.credits.getD v 0)) &&
    (match i with | .seal .. => !(s.pkg.power == .a2) | _ => true)

/-- The requester of the egress arbiter that an item belongs to: its arrival port, or the seal half of the port's engine (R192). -/
def requester (s : State) (port : Fin 32) (i : TxItem) : Nat :=
  match i with
  | .ready _ _ _ _ _ _ _ (some (ap, _, _)) => ap.val
  | _ => 32 + engineOfPort s port.val
/-- R35: of `n` requesters, the one that asks at the pointer or nearest after it in cyclic order. -/
def roundRobin (n ptr : Nat) (asking : List Nat) : Option Nat :=
  ((List.range n).map (fun k => (ptr + k) % n)).find? (fun r => asking.contains r)
/-- The item of a VC that the egress arbiter grants next: the winner's first (R35, R192). -/
def granted (s : State) (port : Fin 32) (v : Nat) : Option (Nat × TxItem) :=
  let l := (portOf s port).queue.filter (fun i => itemVc i == v)
  match roundRobin 66 ((portOf s port).arb.getD v 0) (l.map (requester s port)) with
  | some r => (l.find? (fun i => requester s port i == r)).map (fun i => (r, i))
  | none => none
/-- An item leaves the queue, and the pointer of its VC moves to one past the winner (R35). -/
def takeItem (v r : Nat) (i : TxItem) (p : PortSt) : PortSt := { p with queue := p.queue.erase i, arb := p.arb.set v ((r + 1) % 66) }

/-- Serve a port's queue: of each VC the arbiter's winner goes, and a winner that cannot go blocks its own VC and no other (R192, R196);
VCs are taken in the order of their oldest item. The fuel bounds the items and VCs. Log entry 169 (DEDUCED). -/
def pumpGo (port : Fin 32) : Nat → List Nat → State → State
  | 0, _, s => s
  | n + 1, blocked, s =>
    match (portOf s port).queue.find? (fun i => !blocked.contains (itemVc i)) with
    | none => s
    | some i0 =>
      match granted s port (itemVc i0) with
      | none => s
      | some (r, i) =>
        if mayGo s port i then pumpGo port n blocked (sendItem port i (portMod port (takeItem (itemVc i0) r i) s))
        else pumpGo port n (itemVc i0 :: blocked) s

/-- Serve a port's queue. -/
def pump (port : Fin 32) (s : State) : State := pumpGo port ((portOf s port).queue.length + 16) [] s

/-- Queue an item on a port and serve the queue. -/
def offer (port : Fin 32) (i : TxItem) (s : State) : State := pump port (portMod port (fun p => { p with queue := p.queue ++ [i] }) s)
/-- Send a control frame on a port that is up; it waits while the replay buffer is full. -/
def sendControl (port : Fin 32) (kind : BitVec 4) (routeSel hopIndex : BitVec 2) (route : W32) (body : Body) (s : State) : State :=
  if portLive s port then offer port (.ready 15 kind routeSel hopIndex 0 route body none) s else s
/-- Send a BEAT (R201). -/
def sendBeat (port : Fin 32) (s : State) : State :=
  sendControl port kBeat 0 0 (ctlRoute s 0xFFF) (.beat (BitVec.ofNat 64 s.pkg.boot) port.val (beatFlags (s.pkg.power == .a1) (portOf s port))) s

/-- R239: a half that is lent restores its upper banks, whose budget is reclaimed from the power manager (Table 02-9); the seal half's
beat then shows LENDING clear. -/
def wakeSeal (port : Fin 32) (s : State) : State :=
  if (portOf s port).lentSeal then
    sendBeat port (emit (.reclaim (engineOfPort s port.val)) (portMod port (fun p => { p with lentSeal := false, restSeal := true }) s))
  else s
/-- R239: the open half's restore. -/
def wakeOpen (port : Fin 32) (s : State) : State :=
  if (portOf s port).lentOpen then
    emit (.reclaim (engineOfPort s port.val)) (portMod port (fun p => { p with lentOpen := false, restOpen := true }) s)
  else s

/-- Queue a frame on a port and serve the queue. A frame of this package wakes the port's seal half (R239), and one queued for sealing
in A2 makes Aedvik ask for A1 (R380). -/
def enqueue (port : Fin 32) (i : TxItem) (s : State) : State :=
  offer port i (match i with
    | .seal .. => wakeSeal port (if s.pkg.power = .a2 then emit (.powerAsk .a1) s else s)
    | .ready _ _ _ _ _ _ _ ret => if ret.isNone then wakeSeal port s else s)

/-! ### Routes (R190, R416) -/

/-- A route-table entry as stored. -/
def routeEntry (s : State) (dest : BitVec 12) (sel : BitVec 2) : W64 × BitVec 60 :=
  mapGet (0, 0) s.fab.routes (dest.toNat * 4 + sel.toNat)
/-- VALID of an entry. -/
def routeValid (e : W64 × BitVec 60) : Bool := e.1.getLsbD 63
/-- EGRESS of an entry. -/
def routeEgress (e : W64 × BitVec 60) : Fin 32 := ⟨(e.1.toNat / 256) % 32, Nat.mod_lt _ (by decide)⟩
/-- The relays of an entry, in path order. -/
def routeRelays (e : W64 × BitVec 60) : List (BitVec 12) :=
  (List.range (min (e.1.toNat % 8) 5)).map (fun i => e.2.extractLsb' (12 * i) 12)

/-- The pod of a package id (R8). -/
def podOf (id : BitVec 12) : BitVec 4 := id.extractLsb' 8 4
/-- R9, Table 01-1: between two packages of one pod a route has at most 2 relays. Log entry 183 (DEDUCED). -/
def withinHops (s : State) (dest : BitVec 12) (relays : List (BitVec 12)) : Bool :=
  podOf dest != podOf s.fab.id || decide (relays.length ≤ 2)

/-- The package is a neighbour that some port has declared lost. -/
def isLost (s : State) (pkg : BitVec 12) : Bool :=
  allPorts.any (fun p => (portOf s p).lostId == some pkg && (portOf s p).nbrLost)

/-- The first selector whose route to `dest` is valid and within R9's limit, its egress port up and its relays not lost (Table 07-9). -/
def routeTo (s : State) (dest : BitVec 12) : Option (BitVec 2 × Fin 32 × List (BitVec 12)) :=
  ([0, 1, 2, 3] : List (BitVec 2)).findSome? (fun sel =>
    let e := routeEntry s dest sel
    let eg := routeEgress e
    if routeValid e && (portOf s eg).up && (portOf s eg).loopDepth == 0 && !(portOf s eg).nbrLost
        && (routeRelays e).all (fun r => !isLost s r) && withinHops s dest (routeRelays e)
    then some (sel, eg, routeRelays e) else none)

/-- The first route to `dest` that avoids package `bad` (R203). -/
def routeAvoiding (s : State) (dest bad : BitVec 12) : Option (BitVec 2 × Fin 32) :=
  ([0, 1, 2, 3] : List (BitVec 2)).findSome? (fun sel =>
    let e := routeEntry s dest sel
    if routeValid e && (portOf s (routeEgress e)).up && !((routeRelays e).contains bad) then some (sel, routeEgress e) else none)

/-- Send a routed control frame along the first usable route. -/
def sendRouted (dest : BitVec 12) (kind : BitVec 4) (body : Body) (s : State) : State :=
  match routeTo s dest with
  | some (sel, port, _) =>
    sendControl port kind sel 0 (ctlRoute s dest) body
      (portMod port (addThrough [s.fab.id, dest]) s)
  | none => s

/-- Send a HOME frame toward package `dest` (R254): class 3, VC 9. -/
def sendHome (dest : BitVec 12) (units : Nat) (body : Body) (s : State) : State :=
  match routeTo s dest with
  | some (sel, port, _) =>
    enqueue port (.ready 9 kHome sel 0 units (streamId s.fab.id dest 3 0) body none)
      (portMod port (addThrough [s.fab.id, dest]) s)
  | none => s

/-! ### Arrival -/

/-- A NAK is set (R193): outstanding until the frame expected next arrives clean. -/
def sendNak (port : Fin 32) (s : State) : State := portMod port (fun p => { p with nak := true, nakDue := true }) s

/-- The frames still unacknowledged once `ack` has been received in order. -/
def dropAcked (ack : BitVec 11) (l : List Frame) : List Frame :=
  l.filter (fun f => decide (1 ≤ (f.hop.linkSeq - ack).toNat ∧ (f.hop.linkSeq - ack).toNat ≤ 1024))

/-- Frames put on the wire again (LINK_RESEND). -/
def resendAll (port : Fin 32) : List Frame → State → State
  | [], s => s
  | f :: l, s => resendAll port l (emit (.frame port f) s)

/-- R193, R194: acknowledgement and NAK of a hop word. The Boolean says that the retry limit has been reached. -/
def takeAck (port : Fin 32) (h : Hop) (s : State) : State × Bool :=
  if !h.ackValid then (s, false)
  else
    let p := portOf s port
    let left := dropAcked h.ackSeq p.replay
    let fresh := decide (left.length < p.replay.length)
    let s := portMod port (fun p => { p with replay := left, resends := if fresh then 0 else p.resends }) s
    if !h.nak || left.isEmpty then (s, false)
    else
      let n := (portOf s port).resends
      if Config.retryLimit ≤ n then (s, true)
      else (resendAll port left (portMod port (fun p => { p with resends := n + 1 }) s), false)

/-- Credits granted to a port's seal side. -/
def grant (port : Fin 32) (vc : Nat) (n : Nat) (s : State) : State :=
  if vc < 15 then portMod port (fun p => { p with credits := vcSet p.credits vc (· + n) }) s else s

/-- What the hop made of a frame: the state, whether this package goes on with the frame, and whether its port has met the
retry limit. -/
structure HopResult where
  st : State
  mine : Bool
  retry : Bool

/-- UNITS + 1, the credits a frame consumes (R195). -/
def frameCredits (h : Hop) : Nat := h.unitsM1.toNat + 2

/-- The kinds that carry credits. -/
def creditKind (k : BitVec 4) : Bool := k == kSealed || k == kHome
/-- The kinds that are routed (Table 07-1). -/
def routedKind (k : BitVec 4) : Bool := k == kSealed || k == kHome || k == kProxyKnell || k == kOpenReq || k == kOpenAck

/-- Table 07-11 step 2: KIND defined; VC and UNITS_M1 agree with it. On VC 15 the reserved HOP_INDEX 3 fails a control frame and passes a
LOOP frame. Log entry 168 (DESIGN CHOICE). -/
def hopOk (a : Arrival) : Bool :=
  let h := a.hop
  if creditKind h.kind then
    decide (h.hopIndex.toNat ≤ 2) && decide (sidClass a.route ≤ 4) && h.vc.toNat == 3 * sidClass a.route + h.hopIndex.toNat
      && (h.kind == kSealed || sidClass a.route == 3)
  else if h.kind == kLoop then h.vc == 15
  else decide (3 ≤ h.kind.toNat ∧ h.kind.toNat ≤ 8) && h.vc == 15 && h.unitsM1 == 0 && decide (h.hopIndex.toNat ≤ 2)

/-- R424: a port learns its neighbour from the origin of a BEAT, KNELL or CREDIT frame. -/
def learn (a : Arrival) (s : State) : State :=
  if (a.hop.kind = kBeat ∨ a.hop.kind = kKnell ∨ a.hop.kind = kCredit) ∧ (portOf s a.port).nbr = none ∧ (portOf s a.port).nbrLost = false then
    portMod a.port (fun p => { p with nbr := some (sidSrc a.route) }) s
  else s

/-- Control frames that came over a port and wait to be forwarded: its control queue (Table 07-8). -/
def ctlWaiting (s : State) (ap : Fin 32) : Nat :=
  (s.ports.map (fun e => (e.2.queue.filter (fun i => match i with | .ready 15 _ _ _ _ _ _ (some (p, _, _)) => p == ap | _ => false)).length)).sum

/-- Forward a routed frame, or drop it as misrouted (R190); its content goes on as it came. -/
def forward (a : Arrival) (s : State) : State :=
  let h := a.hop
  let dst := sidDst a.route
  let e := routeEntry s dst h.routeSel
  let eg := routeEgress e
  let back := fun (s : State) => if creditKind h.kind then returnCredits a.port h.vc (frameCredits h) s else s
  if !routeValid e || !portPresent s eg.val || (h.hopIndex == 2 && !s.fab.bridge) then back (countPort a.port 3 s)
  else if (portOf s eg).nbrLost then back (countPort a.port 4 s)
  else if !portLive s eg then back (countPort a.port 3 s)
  else
    let nextPkg := match routeRelays e with | r :: _ => r | [] => dst
    let hi : BitVec 2 := if s.fab.bridge && nextPkg.extractLsb' 8 4 != s.fab.id.extractLsb' 8 4 then 0 else h.hopIndex + 1
    let s := portMod eg (addThrough [sidSrc a.route, dst]) (portMod a.port (addThrough [sidSrc a.route, dst]) s)
    if creditKind h.kind then
      offer eg (.ready (BitVec.ofNat 4 (3 * sidClass a.route + hi.toNat)) h.kind h.routeSel hi (h.unitsM1.toNat + 1) a.route (.forwarded a.tail)
        (some (a.port, h.vc.toNat, frameCredits h))) s
    else if 64 ≤ ctlWaiting s a.port then countPort a.port 0x0A s
    else offer eg (.ready 15 h.kind h.routeSel hi 0 a.route (.forwarded a.tail) (some (a.port, 15, 0))) s

/-- Steps 1 to 4 of Table 07-11 for an arriving frame of any kind. -/
def hopChecks (a : Arrival) (s : State) : HopResult :=
  let p := portOf s a.port
  let h := a.hop
  if !(serving s && portLive s a.port) then ⟨s, false, false⟩
  else if !crcOk a then ⟨sendNak a.port (countPort a.port 0 s), false, false⟩
  else
    let d := (h.linkSeq - p.rxSeq).toNat
    if 1 ≤ d ∧ d ≤ 1023 then ⟨if p.nak then countPort a.port 1 s else sendNak a.port (countPort a.port 1 s), false, false⟩
    else if d ≠ 0 then ⟨s, false, false⟩
    else
      let s := portMod a.port (fun p => { p with rxSeq := p.rxSeq + 1, rxAny := true, nak := false }) s
      let (s, retry) := takeAck a.port h s
      let s := pump a.port (grant a.port h.crdVc.toNat h.crdCount.toNat s)
      let s := if creditKind h.kind && h.vc.toNat < 15 then
        wakeOpen a.port (portMod a.port (fun p => { p with held := vcSet p.held h.vc.toNat (· + frameCredits h) }) s) else s
      if !hopOk a then ⟨returnCredits a.port h.vc (frameCredits h) (countPort a.port 2 s), false, retry⟩
      else
        let s := learn a s
        if (portOf s a.port).nbrLost && !(h.kind == kBeat || h.kind == kKnell || h.kind == kProxyKnell) then
          let s := countPort a.port 4 s
          ⟨if creditKind h.kind then returnCredits a.port h.vc (frameCredits h) s else s, false, retry⟩
        else if routedKind h.kind && sidDst a.route != s.fab.id then ⟨forward a s, false, retry⟩
        else
          let s := if routedKind h.kind then
            portMod a.port (addThrough [sidSrc a.route, sidDst a.route]) s else s
          ⟨s, true, retry⟩

/-! ### Loopbacks (R170, R208) -/

/-- `8 n` bytes of free content, from open value `k` on. -/
def freeBytes (k n : Nat) : List Byte := (List.range n).flatMap (fun i => be 8 (Config.openWord (k + i)).toNat)
/-- The debug key of a port's loop. -/
def loopKey (s : State) (port : Fin 32) : Key := match mapFind s.ptb.loopKids port.val with | some kid => keyOf s kid | none => 0
/-- The loop of a port sends a LOOP frame: a free 24-byte test header, which is the additional data of the seal, and one unit of free
content sealed under the loop's DEBUG KID. Log entry 170 (DESIGN CHOICE). -/
def sendLoop (port : Fin 32) (s : State) : State :=
  let hdr := freeBytes s.opens 3
  let pt := freeBytes (s.opens + 3) 32
  let iv : BitVec 96 := BitVec.ofNat 96 (ofBe (freeBytes (s.opens + 35) 2))
  let k := loopKey s port
  let body := Body.loop (hdr.drop 4) (Config.gcmCipher k iv pt) (Config.gcmTag k iv hdr pt)
  emit (.loopFrame port (portOf s port).loopDepth (mkFrame (hopWord {} kLoop 15 0 0 1) (BitVec.ofNat 32 (ofBe (hdr.take 4))) body))
    { s with opens := s.opens + 37 }

/-! ### Ports up and down -/

/-- The grants of a port that comes up (R196): every VC's full allotment, in two CREDIT frames. -/
def grantAll (port : Fin 32) (s : State) : State :=
  flushDue 2 port (portMod port (fun p => { p with due := (List.range 15).map Config.vcCredits }) s)

/-- R415: the port comes up once READY and GO are set, its die reports it trained, and the port is present; A3 and OFF keep it
down. -/
def tryUp (port : Fin 32) (s : State) : State :=
  let p := portOf s port
  if serving s && !quiescing s && s.fab.go && p.trained && !p.up && portPresent s port.val then
    grantAll port (portMod port (fun p =>
      { p with up := true, nbr := none, nbrBoot := none, txSeq := 0, rxSeq := 0, rxAny := false, nak := false, replay := [],
               resends := 0, credits := List.replicate 15 0, held := List.replicate 15 0, queue := [], due := List.replicate 15 0,
               nakDue := false, through := [] }) s)
  else s

/-- Frames of other ports that wait on this port's queue return the credits of the hop before (R196). -/
def returnQueued : List TxItem → State → State
  | [], s => s
  | .ready _ _ _ _ _ _ _ (some (ap, avc, n)) :: l, s => returnQueued l (returnCredits ap (BitVec.ofNat 4 avc) n s)
  | _ :: l, s => returnQueued l s

/-- An item that a relay holds in the receive buffer of port `ap`. -/
def cameOver (ap : Fin 32) (i : TxItem) : Bool := match i with | .ready _ _ _ _ _ _ _ (some (p, _, _)) => p == ap | _ => false
/-- R196: a port goes down: the hop's credit state is dropped, and the frames in its buffers with it: those queued to leave by it return
the credits of the hop before, and those that came over it are discarded wherever they wait. -/
def takeDown (port : Fin 32) (s : State) : State :=
  let q := (portOf s port).queue
  let s := portMod port (fun p =>
    { p with up := false, queue := [], replay := [], credits := List.replicate 15 0, held := List.replicate 15 0, due := List.replicate 15 0,
             nak := false, nakDue := false, resends := 0 }) s
  returnQueued q (eachPort (fun p => portMod p (fun x => { x with queue := x.queue.filter (fun i => !cameOver port i) })) allPorts
    { s with waits := s.waits.filter (fun w => w.arr.port != port) })

end Sys2Proof.Machine
end

