-- ==== Sys2Proof/Machine/FenceOps.lean ====
section
/-! DEFINITION. Fences: signals (Table 08-5), waits (R226), errors (R227), references (R289), and the snare's release of chimes
(08_snare_and_chimes.md). -/
namespace Sys2Proof.Machine

/-- The fence with index `i` of function `f`. -/
def fenceOf (s : State) (f : Fn) (i : Nat) : FenceSt := mapGet {} (fnOf s f).fences i
/-- Change a fence. -/
def fenceMod (f : Fn) (i : Nat) (g : FenceSt → FenceSt) (s : State) : State :=
  fnMod f (fun x => { x with fences := mapMod {} x.fences i g }) s
/-- The handle of fence `i` of function `f` (R285). -/
def fenceHandle (s : State) (f : Fn) (i : Nat) : W32 := handleOf (mapGet 0 (fnOf s f).fenceReuse i) i

/-- The status and DETAIL that a fence's ERR gives (R226, Table 03-20). -/
def errStatus (x : FenceSt) : W16 × W32 :=
  match x.err with
  | .none => (stOk, 0)
  | .range => (stFenceRange, 0)
  | .abandoned => (stFenceAbandoned, x.local_.setWidth 32)
  | .peerLost => (stPeerLost, x.lostPeer.setWidth 32)

/-- R226: how a wait for `w` stands: the status and DETAIL it completes with, or none while it waits. -/
def waitOutcome (x : FenceSt) (w : W64) : Option (W16 × W32) :=
  if w ≤ x.value then some (stOk, 0) else if x.err = .none then none else some (errStatus x)

/-- A completion of a wait returns VALUE in RESULT. -/
def valueResult (x : FenceSt) : BitVec 128 := x.value.setWidth 128

/-- Complete the FENCE_WAITs in progress on fence `i` of function `f` whose outcome stands. -/
def endWaits (f : Fn) (i : Nat) : List InProg → State → State
  | [], s => s
  | p :: l, s =>
    match p.act with
    | .fenceWait j w =>
      if p.fn = f ∧ j = i then
        match waitOutcome (fenceOf s f i) w with
        | some (st, d) => endWaits f i l (complete p st d (valueResult (fenceOf s f i)) s)
        | none => endWaits f i l s
      else endWaits f i l s
    | _ => endWaits f i l s

/-- End the waits that the synchronisation unit registered and whose outcome stands. -/
def endUnitWaits (f : Fn) (i : Nat) : List (W16 × W64) → State → State
  | [], s => s
  | (c, w) :: l, s =>
    match waitOutcome (fenceOf s f i) w with
    | some (st, _) =>
      endUnitWaits f i l (emit (.unitWaitEnd f c (fenceHandle s f i) st (fenceOf s f i).value)
        (fenceMod f i (fun x => { x with unitWaits := x.unitWaits.erase (c, w) }) s))
    | none => endUnitWaits f i l s

/-- R228: evaluate every wait of a fence. -/
def evalWaits (f : Fn) (i : Nat) (s : State) : State :=
  endUnitWaits f i (fenceOf s f i).unitWaits (endWaits f i s.prog s)

/-- The fence table forwards a fence's value and ERR to the synchronisation unit. Log entry 151 (DEDUCED). -/
def forwardFence (f : Fn) (i : Nat) (s : State) : State :=
  emit (.fenceForward f (fenceHandle s f i) (fenceOf s f i).value (fenceOf s f i).err) s

/-- A signal's case in Table 08-5. -/
inductive SigCase where
  | error | stale | applied (v : W64) | range
  deriving DecidableEq, Repr

/-- Table 08-5: the case of a signal with OP `add` or SET, carrying `v`, to a fence. -/
def sigCase (x : FenceSt) (add : Bool) (v : W64) : SigCase :=
  if x.err ≠ .none then .error
  else
    let d := if add then v.toNat else v.toNat - x.value.toNat
    if d = 0 then .stale
    else if d ≤ 2 ^ 62 ∧ x.value.toNat + d ≤ 2 ^ 64 - 1 then .applied (BitVec.ofNat 64 (x.value.toNat + d))
    else .range

/-- Set a fence's ERR, once (R227): its waits beyond VALUE complete. -/
def setErr (f : Fn) (i : Nat) (e : FenceErr) (peer : BitVec 12) (s : State) : State :=
  if (fenceOf s f i).err = .none then
    let s := forwardFence f i (fenceMod f i (fun x => { x with err := e, lostPeer := peer }) s)
    traceVf f 0x04 0xFFFF (resAt 0 (fenceHandle s f i).toNat ||| resAt 4 ((fenceOf s f i).value.toNat % 2 ^ 32)) (evalWaits f i s)
  else s

/-- Apply a signal to a live fence (R225), then evaluate its waits (R228). Log entry 152 (DEDUCED). -/
def signalFence (f : Fn) (i : Nat) (add : Bool) (v : W64) (chime : Bool) (s : State) : State :=
  match sigCase (fenceOf s f i) add v with
  | .error => if chime then countFn f 0x27 s else s
  | .stale => countFn f 0x25 s
  | .applied w => evalWaits f i (forwardFence f i (fenceMod f i (fun x => { x with value := w }) s))
  | .range => setErr f i .range 0 (countFn f 0x26 s)

/-- R224: record a chime's package among the fence's remote producers. -/
def recordProducer (f : Fn) (i : Nat) (src : BitVec 12) (s : State) : State :=
  let x := fenceOf s f i
  if x.remotes.contains src then s
  else if x.remotes.length < Config.fenceProducers then fenceMod f i (fun x => { x with remotes := x.remotes ++ [src] }) s
  else countFn f 0x29 (fenceMod f i (fun x => { x with overflow := true }) s)

/-- Apply a released chime's signals in order (R219, R229); `src` is none for a local chime. -/
def applySignals (f : Fn) (src : Option (BitVec 12)) : List ChimeSig → State → State
  | [], s => s
  | g :: l, s =>
    match fenceIdx s f g.fence with
    | none => applySignals f src l (countFn f 0x28 s)
    | some i =>
      let s := match src with | some p => recordProducer f i p s | none => s
      applySignals f src l (signalFence f i (g.op == 2) g.value true s)

/-- End every wait still pending on a fence with BAD_STATE (R289). -/
def abortWaits (f : Fn) (i : Nat) (only : InProg → Bool) : List InProg → State → State
  | [], s => s
  | p :: l, s =>
    match p.act with
    | .fenceWait j _ =>
      if p.fn = f ∧ j = i ∧ only p then abortWaits f i only l (complete p stBadState 0 (valueResult (fenceOf s f i)) s)
      else abortWaits f i only l s
    | _ => abortWaits f i only l s

/-- End the registered waits of a context (or of all, when `c` is none) with BAD_STATE. -/
def abortUnitWaits (f : Fn) (i : Nat) (c : Option W16) : List (W16 × W64) → State → State
  | [], s => s
  | (d, w) :: l, s =>
    if c = none ∨ c = some d then
      abortUnitWaits f i c l (emit (.unitWaitEnd f d (fenceHandle s f i) stBadState (fenceOf s f i).value)
        (fenceMod f i (fun x => { x with unitWaits := x.unitWaits.erase (d, w) }) s))
    else abortUnitWaits f i c l s

/-- Free a fence (R289): pending waits end with BAD_STATE, the synchronisation unit drops its copy, the reuse count advances. -/
def freeFence (f : Fn) (i : Nat) (s : State) : State :=
  let s := abortUnitWaits f i none (fenceOf s f i).unitWaits (abortWaits f i (fun _ => true) s.prog s)
  let s := emit (.fenceDrop f (fenceHandle s f i)) s
  fnMod f (fun x => { x with fences := mapErase x.fences i, fenceReuse := mapMod 0 x.fenceReuse i (· + 1) }) s

/-- Remove a reference holder from a fence, freeing it when none is left (R289). -/
def dropRef (f : Fn) (i : Nat) (holder : W16) (s : State) : State :=
  if (fenceOf s f i).refs.contains holder then
    let s := fenceMod f i (fun x => { x with refs := x.refs.erase holder }) s
    if (fenceOf s f i).refs.isEmpty then freeFence f i s else s
  else s

/-- R289: enter a reference holder. -/
def addRef (f : Fn) (i : Nat) (holder : W16) (s : State) : State :=
  if (fenceOf s f i).refs.contains holder then s else fenceMod f i (fun x => { x with refs := x.refs ++ [holder] }) s

/-- R289: whether entering `holder` would make a 17th context. -/
def refsFull (s : State) (f : Fn) (i : Nat) (holder : W16) : Bool :=
  let r := (fenceOf s f i).refs
  holder != 0xFFFF && !(r.contains holder) && decide (Config.fenceRefs ≤ (r.filter (· != 0xFFFF)).length)

/-- Do `g` on each index of a list. -/
def eachIdx (g : Nat → State → State) : List Nat → State → State
  | [], s => s
  | i :: l, s => eachIdx g l (g i s)

/-- R300 step 4: abandonment of a context as local producer and as reference holder. -/
def abandonFences (f : Fn) (ctx : W16) (s : State) : State :=
  let idx := (fnOf s f).fences.map (·.1)
  let s := eachIdx (fun i s => if (fenceOf s f i).local_ = ctx then setErr f i .abandoned 0 s else s) idx s
  eachIdx (fun i s => dropRef f i ctx s) idx s

/-- Every fence of function `f` is freed (R164 step 2). -/
def freeAllFences (f : Fn) (s : State) : State := eachIdx (fun i s => freeFence f i s) ((fnOf s f).fences.map (·.1)) s

/-! ### The snare -/

/-- Entries whose conditions of R220 have just come to hold take their place in that order (R221). -/
def stampGo : Nat → List SnareSt → List SnareSt
  | _, [] => []
  | n, e :: l => if e.met.isNone && e.writes.isEmpty && e.jobs.isEmpty then { e with met := some n } :: stampGo (n + 1) l else e :: stampGo n l
/-- Stamp the snares' entries. -/
def stampMet (s : State) : State := { s with snare := stampGo ((s.snare.filterMap (·.met)).foldl max 0 + 1) s.snare }

/-- The entry's conditions of R220 hold, and no earlier entry of its stream is in the snare (R221). -/
def snareFree (before : List SnareSt) (e : SnareSt) : Bool :=
  e.met.isSome && !(before.any (fun b => b.port == e.port && b.job == e.job && b.sid == e.sid))

/-- Every entry of a list with the entries before and after it. -/
def splits {α : Type} : List α → List α → List (List α × α × List α)
  | _, [] => []
  | before, e :: l => (before, e, l) :: splits (before ++ [e]) l
/-- The entry of a port's snare that is released next, with the entries before and after it: of those that may be released, the one whose
conditions were met first (R221). -/
def snareNext (port : Fin 32) (l : List SnareSt) : Option (List SnareSt × SnareSt × List SnareSt) :=
  ((splits [] l).filter (fun x => x.2.1.port == port && snareFree x.1 x.2.1)).foldl (fun a x => match a with
    | none => some x
    | some y => if x.2.1.met.getD 0 < y.2.1.met.getD 0 then some x else some y) none
/-- That entry, where it is for function `f`. -/
def snarePick (f : Fn) (port : Fin 32) (l : List SnareSt) : Option (List SnareSt × SnareSt × List SnareSt) :=
  match snareNext port l with
  | some x => if x.2.1.fn = f then some x else none
  | none => none

/-- DATA of a released chime's trace record: the first signal's fence handle and the low 32 bits of its value. -/
def chimeData (l : List ChimeSig) : BitVec 128 :=
  match l with | g :: _ => resAt 0 g.fence.toNat ||| resAt 4 (g.value.toNat % 2 ^ 32) | [] => 0

/-- Release one chime of an open half (CHIME_RELEASE). -/
def releaseChime (f : Fn) (port : Fin 32) (s : State) : State :=
  match snarePick f port s.snare with
  | none => s
  | some (b, e, l) =>
    traceVf f 0x03 e.dstCtx (chimeData e.sigs) (applySignals f (some e.src) e.sigs { s with snare := b ++ l })

/-- A local chime waits for nothing: its requester's earlier pool operations have ended (R223). -/
def localFree (s : State) (e : LocalChime) : Bool := e.jobs.isEmpty && e.tags.all (fun g => (mapFind s.members g.toNat).isNone)

/-- The first local chime of function `f` that waits for nothing. -/
def localPick (s : State) (f : Fn) : List LocalChime → List LocalChime → Option (List LocalChime × LocalChime × List LocalChime)
  | _, [] => none
  | before, e :: l => if e.fn = f ∧ localFree s e then some (before, e, l) else localPick s f (before ++ [e]) l

/-- Release one local chime (R223). -/
def releaseLocal (f : Fn) (s : State) : State :=
  match localPick s f [] s.localSnare with
  | none => s
  | some (b, e, l) => traceVf f 0x03 e.ctx (chimeData e.sigs) (applySignals f none e.sigs { s with localSnare := b ++ l })

end Sys2Proof.Machine
end

