-- ==== Sys2Proof/Machine/Halt.lean ====
section
/-! DEFINITION. The gong halt and Tocsin (Table 14-3), the halt record (Table 14-4) and the burns of OTP bits. The steps of one
halt come in one step of the model (log entry 7). -/
namespace Sys2Proof.Machine

/-- The power state's code in the halt record. -/
def powerCode (p : Power) : Byte :=
  match p with | .a0 => 0 | .a1 => 1 | .a2 => 2 | .a3 => 3 | .off => 4

/-- What a failed check names in the halt record. -/
structure HaltInfo where
  cause : Byte
  unit : W16 := 0xFFFF
  job : W16 := 0
  sid : W32 := 0
  whereF : W64 := 0
  rid : BitVec 40 := 0
  kid : W16 := 0

/-- Halts logged so far: HALT_COUNT of the newest logged record. -/
def haltsLogged (s : State) : W32 := match s.flash.haltLog.getLast? with | some (r, _) => r.haltCount | none => 0
/-- A saturating count of 32 bits. -/
def satInc (n : W32) : W32 := if n = 0xFFFFFFFF then n else n + 1

/-- The halt record of a halt now (Table 14-4). -/
def haltRecord (i : HaltInfo) (level : Byte) (sources : W32) (s : State) : HaltRec :=
  { format := 0x0009, cause := i.cause, level := level, sources := sources, boot := BitVec.ofNat 64 s.pkg.boot,
    tick := Config.tick s.opens, unit := i.unit, jobId := i.job, streamId := i.sid, whereF := i.whereF, regionId := i.rid,
    lcState := lcState s, kid := i.kid, powerState := powerCode s.pkg.power,
    haltCount := if level = 0 then haltsLogged s else satInc (haltsLogged s) }

/-- Append a record to the halt log, a ring of 16 (R375). -/
def logHalt (r : HaltRec) (s : State) : State :=
  let l := s.flash.haltLog ++ [(r, false)]
  emit (.flashLog r) { s with flash := { s.flash with haltLog := l.drop (l.length - Config.haltLog) } }

/-- Write the newest log record again (R377). -/
def relogHalt (r : HaltRec) (s : State) : State :=
  emit (.flashLog r) { s with flash := { s.flash with haltLog := s.flash.haltLog.dropLast ++ [(r, false)] } }

/-- The record of a standing halt of level 1 or 2 has changed: its log record holds the change, where the flash port has power. -/
def relog (s : State) : State :=
  if s.pkg.phase = .halted ∧ s.pkg.power ≠ .off then relogHalt s.aon.halt s else s

/-- Bits set in exactly one copy of three. -/
def weakOf {n : Nat} (a b c : BitVec n) : BitVec n := (a ||| b ||| c) &&& ~~~(maj3 a b c)
/-- The three copies of a word held in a list. -/
def copy (l : List W64) (k : Nat) : W64 := l.getD k 0
/-- Copy `k` of a byte field of word 7 whose copies stand from bit `base`. -/
def byteCopy (w : W64) (base k : Nat) : Byte := BitVec.ofNat 8 (w.toNat / 2 ^ (base + 8 * k))
/-- A token whose copies at bits 3i to 3i + 2 hold exactly one 1. -/
def tokenWeak (w : W64) (i : Nat) : Bool := ([3 * i, 3 * i + 1, 3 * i + 2].filter (fun b => w.getLsbD b)).length == 1

/-- WEAK_BITS (R81): some logical bit of the life-cycle words stands in exactly one copy. -/
def weakBits (o : OtpSt) : Bool :=
  weakOf (copy o.state 0) (copy o.state 1) (copy o.state 2) != 0
    || weakOf (copy o.progress 0) (copy o.progress 1) (copy o.progress 2) != 0
    || (List.range 16).any (tokenWeak o.tansy)
    || weakOf (byteCopy o.owner 0 0) (byteCopy o.owner 0 1) (byteCopy o.owner 0 2) != 0
    || weakOf (byteCopy o.owner 24 0) (byteCopy o.owner 24 1) (byteCopy o.owner 24 2) != 0

/-- Burn all 24 DRS_KILL bits (R143); the life-cycle shadow follows (R81). -/
def burnKill (s : State) : State :=
  let o := { s.otp with owner := s.otp.owner ||| (0xFFFFFF000000 : W64) }
  emit .killBurn { s with otp := o, aon := { s.aon with kill := killed o, weak := weakBits o } }

/-- KNELL on every live port, ahead of the frames not started, which are discarded (R207). -/
def knellAll (reason : Byte) (s : State) : State :=
  eachPort (fun p s =>
    portMod p (fun x => { x with queue := [] })
      (sendControl p kKnell 0 0 (ctlRoute s 0xFFF) (.knell (BitVec.ofNat 64 s.pkg.boot) reason)
        (portMod p (fun x => { x with queue := [], replay := [], due := List.replicate 15 0, nakDue := false }) s))) (livePorts s) s

/-- Every TDI of the package goes to ERROR without the cleanup sequence (R164, R165). -/
def tdisError (s : State) : State :=
  { s with fns := s.fns.map (fun e =>
      if e.2.enabled then (e.1, { e.2 with tdi := { e.2.tdi with state := .error, nonce := none, stopOwed := [] } }) else e) }

/-- R366: every perturbation setting returns to zero, every loop ends. -/
def endPerturb (s : State) : State :=
  let s := retireKids (s.ptb.loopKids.map (·.2)) s
  eachPort (fun p s =>
    if (portOf s p).loopDepth ≠ 0 then portMod p (fun x => { x with loopDepth := 0, loopPartner := 0 }) s else s) allPorts
    { s with ptb := {}, loops := [], regions := s.regions.filter (fun r => !r.2.loop) }

/-- R142: what a Tocsin of either level zeroises. -/
def zeroiseAll (s : State) : State :=
  let s := zeroiseKeys s
  { s with regions := [], jobs := [], exch := [], members := [], bulk := [], prog := [], sends := [], recvs := [], gone := [], waits := [],
           snare := [], localSnare := [], reads := [], late := [], tapRevoke := none, loops := [], parked := [], openReqs := [], grant := none, ptb := {}
           mail0 := {}, mail1 := {}
           fns := s.fns.map (fun e => (e.1, { e.2 with job := none, jmkKid := 0, save := none, restore := none, nonceS := none,
                                                        heldFilter := none, migKids := [] })) }

/-- R28: the host sees surprise down on both ports: the links are gone, and with them the ports' IDE keys and sessions (R159, R168). -/
def hostLost (s : State) : State := emit (.linkDisable 1) (emit (.linkDisable 0) { s with ide := {}, mail0 := {}, mail1 := {} })
/-- Both PCIe ports report an uncorrectable error, then their links are disabled (R169). -/
def dropHost (s : State) : State := hostLost (emit (.pcieUncorrectable 1) (emit (.pcieUncorrectable 0) s))

/-- Table 14-3, from step 1: Tocsin at `level`, the record latched, keys zeroised, knells, the host links lost. In A3 and OFF no
knell is sent, and in OFF the flash port has no power for the log (R382). Log entries 83 (DESIGN CHOICE), 84 (DEDUCED). -/
def tocsin (i : HaltInfo) (level : Byte) (sources : W32) (reason : Byte) (s : State) : State :=
  let r := haltRecord i level sources s
  let s := if s.pkg.power = .a3 ∨ s.pkg.power = .off then s else knellAll reason s
  let s := zeroiseAll (tdisError s)
  let s := { s with opens := s.opens + 1
                    aon := { s.aon with halt := r, haltPin := true, tocsin := level.toNat, nonce := none }
                    pkg := { s.pkg with phase := .halted } }
  let s := dropHost (if level = 2 then burnKill s else s)
  if s.pkg.power = .off then s else logHalt r s

/-- A failed check (R18, R119, R374): a gong halt at level 1; a further one in a standing halt only sets SOURCES bit 31; whether
the log's write still comes after it is open. Log entry 83 (DESIGN CHOICE). -/
def gongHalt (i : HaltInfo) (s : State) : State :=
  match s.pkg.phase with
  | .halted =>
    let t := { s with aon := { s.aon with halt := { s.aon.halt with sources := s.aon.halt.sources ||| 0x80000000 } } }
    if (opened s).getLsbD 0 then bumpOpen (relog t) else bumpOpen t
  | .off => s
  | .romHalt => if lcState s = lcScrap ∨ lcState s = lcBroken then s else tocsin i 1 0 0x01 s
  | _ => tocsin i 1 0 0x01 s

/-- A halt of ROM or firmware at TOCSIN_LEVEL 0 during a start (Table 14-5). -/
def romHalt (i : HaltInfo) (s : State) : State :=
  let r := haltRecord i 0 0 s
  { s with opens := s.opens + 1, aon := { s.aon with halt := r, haltPin := true }, pkg := { s.pkg with phase := .romHalt } }

end Sys2Proof.Machine
end

