-- ==== Sys2Proof/Machine/PoolOps.lean ====
section
/-! DEFINITION. The keeper of the encrypted pool: the region table, the counter cache and its walk, HOME exchanges, reads, writes,
reductions, sweeps and FENCED ranges (09_encrypted_pool.md). -/
namespace Sys2Proof.Machine

/-! ### Regions and nodes -/

/-- Region number `k` of the region tables. -/
def regionAt (s : State) (k : Nat) : Option RegionSt := mapFind s.regions k
/-- Change region `k`, if there is one. -/
def regionMod (k : Nat) (g : RegionSt → RegionSt) (s : State) : State :=
  match regionAt s k with
  | some r => { s with regions := mapSet s.regions k (g r) }
  | none => s
/-- The number of a job's region by its region id (check 2 of Table 09-11). -/
def regionKeyOf (s : State) (job : W16) (rid : BitVec 40) : Option Nat :=
  (s.regions.find? (fun e => e.2.job == job && e.2.rid == rid && !e.2.loop)).map (·.1)
/-- The id of every directory at the VF ring (R280). -/
def dirRid : BitVec 40 := 0xFFFFFFFFFF
/-- The id of this package's directory in HOME frames (R280). -/
def dirHomeRid (s : State) : BitVec 40 := BitVec.ofNat 40 (0xFFFFFFF000 + s.fab.id.toNat)
/-- A region is a directory. -/
def RegionSt.isDir (r : RegionSt) : Bool := r.rid == dirRid

/-- A command that holds a region ends without its effect: the region is LIVE again, but for one that is LOST or being freed (Table
09-2). -/
def RegionSt.backLive (r : RegionSt) : RegionSt :=
  if r.state = .freeing ∨ r.state = .lost then r else { r with state := .live, opcode := 0 }

/-- Table 09-2: the state code of a region. -/
def regCode (r : RegState) : W32 :=
  match r with
  | .creating => 0x10 | .live => 0x11 | .parking => 0x12 | .handover => 0x13 | .lost => 0x14 | .freeing => 0x15

/-- Lines of a region, and the depth of its tree (R248). -/
def RegionSt.lineCount (r : RegionSt) : Nat := r.size / 256
def RegionSt.depth (r : RegionSt) : Nat := treeDepth r.lineCount
/-- Nodes of a level. -/
def RegionSt.nodesAt (r : RegionSt) (level : Nat) : Nat := (r.lineCount + 64 ^ level - 1) / 64 ^ level

/-- Key of a node in a table. -/
def nodeKey (level idx : Nat) : Nat := level * 2 ^ 40 + idx
def keyLevel (k : Nat) : Nat := k / 2 ^ 40
def keyIdx (k : Nat) : Nat := k % 2 ^ 40

/-- A node in hand: cached, or the root above the top level. -/
def RegionSt.nodeAt (r : RegionSt) (level idx : Nat) : Option Node :=
  if r.depth < level then some r.root else (mapFind r.cache (nodeKey level idx)).map (·.node)
/-- The sweep under way over a node's children. -/
def RegionSt.sweepOf (r : RegionSt) (level idx : Nat) : Option SweepSt :=
  r.sweeps.find? (fun w => w.level == level && w.idx == idx)
/-- The counter that node `idx` of a level holds for child `k`, as a reader meets it: while the node is swept, the counter before
(R267). -/
def RegionSt.ctrOf (r : RegionSt) (level idx k : Nat) : Option Ctr :=
  match r.sweepOf level idx with
  | some w => some (childCtr w.old k)
  | none => (r.nodeAt level idx).map (fun n => childCtr n k)
/-- The counter of a node, in its parent or in the root's minor 0 (R248). -/
def RegionSt.nodeCtr (r : RegionSt) (level idx : Nat) : Option Ctr :=
  if level = r.depth then r.ctrOf (level + 1) 0 0 else r.ctrOf (level + 1) (idx / 64) (idx % 64)
/-- The counter of a line. -/
def RegionSt.lineCtr (r : RegionSt) (i : Nat) : Option Ctr := r.ctrOf 1 (i / 64) (i % 64)

/-- FENCED lines of the region's ranges that meet the range of `n` lines from `lo`: the first of them. -/
def RegionSt.firstFenced (r : RegionSt) (lo n : Nat) : Option Nat :=
  let hits := r.fenced.filterMap (fun f => if f.1 < lo + n ∧ lo < f.1 + f.2 then some (max f.1 lo) else none)
  hits.foldl (fun a x => match a with | none => some x | some y => some (min x y)) none

/-- One FENCED range covers all of `n` lines from `lo`. -/
def RegionSt.allFenced (r : RegionSt) (lo n : Nat) : Bool := r.fenced.any (fun f => decide (f.1 ≤ lo ∧ lo + n ≤ f.1 + f.2))

/-- R270: add a range to sorted FENCED ranges, merging what overlaps or adjoins. -/
def mergeFence (l : List (Nat × Nat)) (lo n : Nat) : List (Nat × Nat) :=
  let touch := fun (f : Nat × Nat) => decide (f.1 ≤ lo + n ∧ lo ≤ f.1 + f.2)
  let near := l.filter touch
  let a := near.foldl (fun x f => min x f.1) lo
  let b := near.foldl (fun x f => max x (f.1 + f.2)) (lo + n)
  (l.filter (fun f => !touch f)) ++ [(a, b - a)]

/-- R270: record a FENCED range the moment its error is seen; the owning VF receives the Range fenced record. -/
def addFence (k lo n : Nat) (s : State) : State :=
  match regionAt s k with
  | none => s
  | some r =>
    if r.allFenced lo n then s
    else
      let l := mergeFence r.fenced lo n
      let whole := decide (Config.fencedRanges < l.length)
      let l := if whole then [(0, r.lineCount)] else l
      let (a, m) := if whole then (0, r.lineCount) else (lo, n)
      asyncRecord r.fn { kind := 2, status := stPoolFenced, result := resAt 0 r.rid.toNat ||| resAt 8 (a % 2 ^ 32) ||| resAt 12 (m % 2 ^ 32) }
        (regionMod k (fun r => { r with fenced := l }) s)

/-- R269: fence the lines below node `idx` of `level`, as far as the region has lines. -/
def fenceBelow (k level idx : Nat) (s : State) : State :=
  match regionAt s k with
  | none => s
  | some r => addFence k (idx * 64 ^ level) (min (64 ^ level) (r.lineCount - idx * 64 ^ level)) s

/-! ### The lines of a request -/

/-- First line and number of lines of a job. -/
def PoolJob.first (j : PoolJob) : Nat := j.offset / 256
def PoolJob.lineCount (j : PoolJob) : Nat := (j.offset + j.length + 255) / 256 - j.offset / 256
/-- Its lines. -/
def PoolJob.lineList (j : PoolJob) : List Nat := (List.range j.lineCount).map (· + j.first)
/-- Line `i` is covered whole. -/
def PoolJob.whole (j : PoolJob) (i : Nat) : Bool := decide (j.offset ≤ 256 * i ∧ 256 * i + 256 ≤ j.offset + j.length)
/-- The job writes. -/
def PoolJob.writes (j : PoolJob) : Bool := match j.kind with | .read => false | _ => true
/-- The ranges of two jobs share a line. -/
def overlap (a b : PoolJob) : Bool := decide (a.first < b.first + b.lineCount ∧ b.first < a.first + a.lineCount)
/-- The job changes line `i` by read-modify-write (R265, R275). -/
def PoolJob.rmw (j : PoolJob) (i : Nat) : Bool :=
  decide (j.first ≤ i ∧ i < j.first + j.lineCount) && (match j.kind with | .read => false | .write => !j.whole i | .reduce .. => true)

/-- The leaves a job needs. -/
def leavesOf (j : PoolJob) : List Nat := (j.lineList.map (· / 64)).eraseDups

/-! ### The counter cache (R252) -/

/-- Cached nodes of an engine. -/
def engineNodes (s : State) (e : Nat) : Nat := ((s.regions.filter (fun r => r.2.engine == e)).map (fun r => r.2.cache.length)).sum

/-- The node with a key lies on the path of lines below leaf `leaf`. -/
def onPath (key leaf : Nat) : Bool := keyIdx key == leaf / 64 ^ (keyLevel key - 1)

/-- R252: a cached node may be evicted: no cached child, and no request in flight: no request or held line below it waits, nothing sweeps
its children, and it is on its way to the home in no WRITE_NODES (R283). -/
def evictable (s : State) (rk : Nat) (r : RegionSt) (key : Nat) : Bool :=
  !(r.cache.any (fun e => keyLevel e.1 + 1 == keyLevel key && keyIdx e.1 / 64 == keyIdx key))
    && !(s.jobs.any (fun j => j.region == rk && j.phase == 0 && (leavesOf j).any (onPath key)))
    && !(r.deferred.any (fun i => onPath key (i / 64))) && (r.sweepOf (keyLevel key) (keyIdx key)).isNone
    && !(s.exch.any (fun e => e.2.region == rk && e.2.op == 0x13 && e.2.items.contains key))

/-- The counter of a node in its parent: the parent's level and index, and the minor; the root stands above the top node. -/
def parentOf (r : RegionSt) (key : Nat) : Nat × Nat × Nat :=
  (keyLevel key + 1, if keyLevel key = r.depth then (0, 0) else (keyIdx key / 64, keyIdx key % 64))

/-- The least recently used of candidates: time of use, region, key. -/
def oldest (l : List (Nat × Nat × Nat)) : Option (Nat × Nat) :=
  (l.foldl (fun a x => match a with | none => some x | some y => if x.1 < y.1 then some x else some y) none).map (·.2)
/-- The nodes that an engine caches, as candidates: those that a predicate names. -/
def cachedBy (s : State) (e : Nat) (p : Nat → RegionSt → Nat → CacheNode → Bool) : List (Nat × Nat × Nat) :=
  (s.regions.filter (fun r => r.2.engine == e)).flatMap (fun r =>
    (r.2.cache.filter (fun c => p r.1 r.2 c.1 c.2)).map (fun c => (c.2.used, r.1, c.1)))

/-- Replace a node in hand: a cached node becomes dirty, the root is changed. -/
def putNode (k level idx : Nat) (n : Node) (s : State) : State :=
  match regionAt s k with
  | none => s
  | some r =>
    if r.depth < level then regionMod k (fun r => { r with root := n }) s
    else { regionMod k (fun r => { r with cache := mapSet r.cache (nodeKey level idx) { node := n, dirty := true, used := s.poolClock } }) s with
      poolClock := s.poolClock + 1 }

/-- Halt information of a failed node check. -/
def nodeFault (r : RegionSt) (level idx : Nat) : HaltInfo :=
  { cause := 0x06, unit := BitVec.ofNat 16 r.engine, job := r.job, rid := r.rid, kid := r.kid,
    whereF := BitVec.ofNat 64 (level * 2 ^ 36 + idx) }
/-- Halt information of a failed line check. -/
def lineFault (r : RegionSt) (i : Nat) : HaltInfo :=
  { cause := 0x05, unit := BitVec.ofNat 16 r.engine, job := r.job, rid := r.rid, kid := r.kid, whereF := BitVec.ofNat 64 i }

/-- The nodes of a leaf's path that are neither cached nor arrived, top first. -/
def missingNodes (r : RegionSt) (leaf : Nat) : Nat → List Nat
  | 0 => []
  | level + 1 =>
    let key := nodeKey (level + 1) (leaf / 64 ^ level)
    (if (mapFind r.cache key).isSome || (mapFind r.arrived key).isSome then [] else [key]) ++ missingNodes r leaf level

/-! ### HOME exchanges (R254, R255) -/

/-- The header of a request. -/
def homeHdr (x : ExchSt) (xid : W32) : HomeHdr :=
  let lines := x.op == 0x10 || x.op == 0x11 || x.op == 0x14
  let nodes := x.op == 0x12 || x.op == 0x13
  { xid := xid, hop := x.op, hstat := 0, count := if lines || nodes then BitVec.ofNat 8 x.items.length else 1,
    hflags := (if x.lease then 1 else 0) ||| (if x.release then 2 else 0), jobId := x.job, regionId := x.rid,
    baseItem := BitVec.ofNat 40 (if nodes then 2 ^ 39 else if lines then x.items.headD 0 else 0) }

/-- Payload units of a request (Table 09-8). -/
def homeUnits (x : ExchSt) : Nat :=
  if x.op = 0x11 then x.items.length + 1 else if x.op = 0x13 then 1 + (x.items.length + 2) / 3 else 1

/-- Node addresses of an exchange's items. -/
def itemAddrs (x : ExchSt) : List W64 := x.items.map (fun k => nodeAddr (keyLevel k) (keyIdx k))

/-- Payload of a request (Table 09-8). -/
def homePayload (x : ExchSt) (cipher : List Line) (macs : List W64) (nodes : List (W64 × Node × W64)) : List Byte :=
  if x.op = 0x01 then padTo 256 (be 8 x.arg.toNat ++ be 1 (treeDepth (x.arg.toNat / 256)))
  else if x.op = 0x03 then padTo 256 (be 2 x.arg.toNat)
  else if x.op = 0x11 then lineUnits cipher macs
  else if x.op = 0x12 then addrUnit (itemAddrs x)
  else if x.op = 0x13 then addrUnit (itemAddrs x) ++ nodeUnits nodes.length (nodes.map (fun e => nodeRecBytes e.2.1 e.2.2 false))
  else zeros 256
/-- Put values under the numbers of a list. -/
def putAll {α : Type} (m : FMap α) (is : List Nat) (vs : List α) : FMap α := (is.zip vs).foldl (fun m e => mapSet m e.1 e.2) m
/-- R282: the loop buffer takes what an exchange writes. -/
def loopStore (x : ExchSt) (cipher : List Line) (macs : List W64) (nodes : List (W64 × Node × W64)) (b : LoopBuf) : LoopBuf :=
  if x.op = 0x11 then { b with lines := putAll b.lines x.items cipher, lineMacs := putAll b.lineMacs x.items macs }
  else if x.op = 0x13 then
    { b with nodes := putAll b.nodes x.items (nodes.map (·.2.1)), nodeMacs := putAll b.nodeMacs x.items (nodes.map (·.2.2)) }
  else b
/-- The engine whose local loop a region belongs to. -/
def loopEngine (s : State) (k : Nat) : Option Nat := match regionAt s k with | some r => if r.loop then some r.engine else none | none => none
/-- Send an exchange under its XID: to its home, or to the loop buffer that takes the home's place (R282). -/
def sendExch (xid : W32) (x : ExchSt) (cipher : List Line) (macs : List W64) (nodes : List (W64 × Node × W64)) (s : State) : State :=
  match loopEngine s x.region with
  | some e => { s with loops := mapMod {} s.loops e (loopStore x cipher macs nodes) }
  | none => sendHome x.home (homeUnits x) (.home (homeHdr x xid) (homePayload x cipher macs nodes) 0 0 0) s

/-- Begin an exchange: it takes the next XID. -/
def newExch (x : ExchSt) (cipher : List Line) (macs : List W64) (nodes : List (W64 × Node × W64)) (s : State) : W32 × State :=
  let xid := s.nextXid
  (xid, sendExch xid x cipher macs nodes { s with exch := mapSet s.exch xid.toNat x, nextXid := s.nextXid + 1 })

/-- An exchange of a region. -/
def exchFor (k : Nat) (r : RegionSt) (op : Byte) (items : List Nat) : ExchSt :=
  { op := op, region := k, job := r.job, rid := r.homeRid, home := r.home, items := items, lease := false, release := false,
    held := false, arg := 0, cmd := none }

/-- Cut a rising list of line numbers into runs of neighbours, each of at most `m`. -/
def lineRuns (m : Nat) : List Nat → List Nat → List (List Nat)
  | [], [] => []
  | cur, [] => [cur]
  | [], i :: l => lineRuns m [i] l
  | j :: c, i :: l =>
    if i = (j :: c).getLastD 0 + 1 ∧ (j :: c).length < m then lineRuns m (j :: c ++ [i]) l else (j :: c) :: lineRuns m [i] l

/-- Cut a list into pieces of at most `m + 1`; the fuel bounds the pieces. -/
def pieces {α : Type} (m : Nat) : Nat → List α → List (List α)
  | 0, _ => []
  | n + 1, l => if l.isEmpty then [] else l.take (m + 1) :: pieces m n (l.drop (m + 1))

/-- Send a list of exchanges of one operation, collecting their XIDs. -/
def sendAll (mk : List Nat → ExchSt) : List (List Nat) → List W32 → State → List W32 × State
  | [], xs, s => (xs, s)
  | l :: ls, xs, s =>
    let (x, s) := newExch (mk l) [] [] [] s
    sendAll mk ls (xs ++ [x]) s

/-- The ciphertext and MACs of lines under the counters their leaves hold now (R245, R246). -/
def sealLine (r : RegionSt) (key : Key) (i : Nat) (plain : Line) : Line × W64 :=
  let c := match r.nodeAt 1 (i / 64) with | some n => childCtr n (i % 64) | none => (0, 0)
  let e := cryptLine key i c plain
  (e, lineMac key i c e)

/-- Send lines in WRITE_LINES exchanges; the plaintext stands in the write buffer until they are acknowledged (R266). -/
def writeLinesOut (k : Nat) (release : Bool) : List (List Nat) → List W32 → State → List W32 × State
  | [], xs, s => (xs, s)
  | run :: rest, xs, s =>
    match regionAt s k with
    | none => (xs, s)
    | some r =>
      let key := keyOf s r.kid
      let out := run.map (fun i => sealLine r key i (mapGet 0 r.writeBuf i))
      let (x, s) := newExch { exchFor k r 0x11 run with release := release } (out.map (·.1)) (out.map (·.2)) [] s
      writeLinesOut k release rest (xs ++ [x]) s

/-- The record of a node as it is written: address, node, MAC under the counter its parent holds for it (R247). -/
def nodeRecord (r : RegionSt) (key : Key) (level idx : Nat) (n : Node) : W64 × Node × W64 :=
  let p := if level = r.depth then r.nodeAt (level + 1) 0 else r.nodeAt (level + 1) (idx / 64)
  let c := match p with | some x => childCtr x (if level = r.depth then 0 else idx % 64) | none => (0, 0)
  (nodeAddr level idx, n, nodeMac key level idx c n)

/-- Send nodes in WRITE_NODES exchanges of at most 28. -/
def writeNodesOut (k : Nat) : List (List (Nat × Node)) → List W32 → State → List W32 × State
  | [], xs, s => (xs, s)
  | run :: rest, xs, s =>
    match regionAt s k with
    | none => (xs, s)
    | some r =>
      let key := keyOf s r.kid
      let recs := run.map (fun e => nodeRecord r key (keyLevel e.1) (keyIdx e.1) e.2)
      let (x, s) := newExch (exchFor k r 0x13 (run.map (·.1))) [] [] recs s
      writeNodesOut k rest (xs ++ [x]) s

/-! ### Advancing a counter (R250, R267) -/

/-- What the advance of a counter meets. -/
inductive Advance where
  | ready | wait | limit
  deriving DecidableEq, Repr

/-- Whether minor `j` of node `idx` may advance now. -/
def advanceCase (r : RegionSt) (level idx j : Nat) : Advance :=
  match r.nodeAt level idx with
  | none => .wait
  | some n =>
    if (r.sweepOf level idx).isSome || major n < r.base then .wait
    else if minor n j < 127 then .ready
    else if r.base ≠ 0 ∧ r.base + 2 ^ 40 ≤ major n + 1 then .limit
    else .wait

/-- Begin what a counter waits for: a bump to BASE begins at once; a minor overflow leaves the sweep to the walker
(OVERFLOW_SWEEP). -/
def beginSweep (k level idx j : Nat) (s : State) : State :=
  match regionAt s k with
  | none => s
  | some r =>
    match r.nodeAt level idx with
    | none => s
    | some n =>
      if (r.sweepOf level idx).isSome then s
      else
        let sw := fun (started : Bool) => ({ level := level, idx := idx, old := n, started := started, xids := [], lines := [], nodes := [] } : SweepSt)
        if major n < r.base then
          putNode k level idx (flatNode r.base 0) (regionMod k (fun r => { r with sweeps := r.sweeps ++ [sw true] }) s)
        else if minor n j = 127 ∧ ¬(r.base ≠ 0 ∧ r.base + 2 ^ 40 ≤ major n + 1) then
          putNode k level idx (flatNode (major n + 1) 0) (regionMod k (fun r => { r with sweeps := r.sweeps ++ [sw false] }) s)
        else s

/-- Advance minor `j` of a node that may advance. -/
def advance (k level idx j : Nat) (s : State) : State :=
  match regionAt s k with
  | none => s
  | some r =>
    match r.nodeAt level idx with
    | none => s
    | some n => putNode k level idx (setMinor n j (minor n j + 1)) s

/-- Advance the counters of lines. -/
def advanceLines (k : Nat) : List Nat → State → State
  | [], s => s
  | i :: l, s => advanceLines k l (advance k 1 (i / 64) (i % 64) s)

/-- R252: write back one dirty node whose parent's counter may advance; a counter that waits begins its sweep. -/
def writeBack (k level idx : Nat) (s : State) : State :=
  match regionAt s k with
  | none => s
  | some r =>
    match mapFind r.cache (nodeKey level idx) with
    | none => s
    | some c =>
      let (pl, pi, pj) := parentOf r (nodeKey level idx)
      if !c.dirty then s
      else match advanceCase r pl pi pj with
        | .limit => s
        | .wait => beginSweep k pl pi pj s
        | .ready =>
          let s := advance k pl pi pj s
          let s := regionMod k (fun r => { r with cache := mapSet r.cache (nodeKey level idx) { c with dirty := false } }) s
          (writeNodesOut k [[(nodeKey level idx, c.node)]] [] s).2

/-! ### The walk (R252, R253) -/

/-- A dirty node's counter in its parent may advance, at once or after a sweep that has not begun. -/
def mayWriteBack (r : RegionSt) (key : Nat) : Bool :=
  let (pl, pi, pj) := parentOf r key
  advanceCase r pl pi pj != .limit && (r.sweepOf pl pi).isNone

/-- R252: make room for one node in a full cache: the least recently used node that may be evicted goes; a dirty one is written back first,
and its place is free once the home has acknowledged it. -/
def makeRoom (e : Nat) (s : State) : State :=
  if engineNodes s e < Config.cacheNodes then s
  else match oldest (cachedBy s e (fun rk r key c => evictable s rk r key && (!c.dirty || mayWriteBack r key))) with
    | none => s
    | some (rk, key) =>
      match (regionAt s rk).bind (fun r => mapFind r.cache key) with
      | some c =>
        if c.dirty then writeBack rk (keyLevel key) (keyIdx key) s
        else regionMod rk (fun r => { r with cache := mapErase r.cache key }) s
      | none => s

/-- Place a verified node in the cache; without a free place it waits. Log entry 159 (DEDUCED). -/
def cacheNode (k level idx : Nat) (n : Node) (s : State) : State :=
  match regionAt s k with
  | none => s
  | some r =>
    let s := makeRoom r.engine s
    if engineNodes s r.engine < Config.cacheNodes then
      { regionMod k (fun r => { r with cache := mapSet r.cache (nodeKey level idx) { node := n, dirty := false, used := s.poolClock }
                                       arrived := mapErase r.arrived (nodeKey level idx) }) s with poolClock := s.poolClock + 1 }
    else s

/-- One node of a walk: a never-written node is all zero (R250); one that has arrived is verified now that its parent is in
hand (R253, R269). -/
def walkNode (k level idx : Nat) (s : State) : State :=
  match regionAt s k with
  | none => s
  | some r =>
    if (mapFind r.cache (nodeKey level idx)).isSome then s
    else match r.nodeCtr level idx with
      | none => s
      | some c =>
        if c = (0, 0) then cacheNode k level idx 0 s
        else match mapFind r.arrived (nodeKey level idx) with
          | none => s
          | some it => if it.macOk then cacheNode k level idx it.node s else gongHalt (nodeFault r level idx) s

/-- Walk from the top node down to the leaf of lines 64·leaf to 64·leaf + 63. -/
def walk (k leaf : Nat) : Nat → State → State
  | 0, s => s
  | level + 1, s => walk k leaf level (walkNode k (level + 1) (leaf / 64 ^ level) s)

/-- A request uses the nodes of a leaf's path. -/
def touchPath (k leaf : Nat) (s : State) : State :=
  { regionMod k (fun r => { r with cache := r.cache.map (fun e => if onPath e.1 leaf then (e.1, { e.2 with used := s.poolClock }) else e) }) s with
    poolClock := s.poolClock + 1 }

/-! ### The requests -/

/-- Change a pool job. -/
def jobMod (id : Nat) (g : PoolJob → PoolJob) (s : State) : State :=
  { s with jobs := s.jobs.map (fun j => if j.id = id then g j else j) }
/-- The pool job with a number. -/
def jobAt (s : State) (id : Nat) : Option PoolJob := s.jobs.find? (fun j => j.id == id)

/-- The engine, and so the fabric port, of a request's region. -/
def engineAt (s : State) (j : PoolJob) : Option Nat := (regionAt s j.region).map (·.engine)
/-- Two requests are of one source, whose requests keep their order (R262): one stream, or one requester and fabric port. -/
def sameSource (s : State) (a b : PoolJob) : Bool :=
  match a.from_, b.from_ with
  | .localReq f c _, .localReq g d _ => f == g && c == d && engineAt s a == engineAt s b
  | .member x _ i .., .member y _ j .. => x == y && i == j
  | .command f i, .command g j => f == g && i == j
  | .loop _ o, .loop _ p => o == p && a.region == b.region
  | _, _ => false
/-- A request waits behind an earlier one of its source, or behind an earlier write to a line of its own. -/
def behindJob (s : State) (j : PoolJob) : Bool :=
  s.jobs.any (fun e => e.phase == 0 && decide (e.id < j.id) && (sameSource s e j || (e.region == j.region && e.writes && overlap e j)))

/-- Earlier requests that still wait for their fetches. -/
def earlierJobs (s : State) (j : PoolJob) : List PoolJob := s.jobs.filter (fun e => e.region == j.region && e.phase == 0 && decide (e.id < j.id))

/-- Line `i` of a job is in hand: fetched, in the write buffer, or never written. -/
def lineInHand (r : RegionSt) (j : PoolJob) (i : Nat) : Bool :=
  (mapFind j.lines i).isSome || (mapFind r.writeBuf i).isSome || r.lineCtr i == some (0, 0)

/-- Leases held or asked for in an engine (Table 09-16). -/
def engineLeases (s : State) (e : Nat) : Nat :=
  ((s.regions.filter (fun r => r.2.engine == e)).map (fun r => r.2.leases.length)).sum

/-- The lines a job still has to ask its home for. -/
def linesToAsk (s : State) (r : RegionSt) (j : PoolJob) : List Nat :=
  let busy := (earlierJobs s j).filter (·.writes)
  let asked := s.exch.flatMap (fun e => if j.xids.contains (BitVec.ofNat 32 e.1) && e.2.op == 0x10 then e.2.items else [])
  j.lineList.filter (fun i =>
    !(lineInHand r j i) && !(asked.contains i) && (match j.kind with | .write => !j.whole i | _ => true)
      && !(busy.any (fun b => decide (b.first ≤ i ∧ i < b.first + b.lineCount))))

/-- Walk every leaf of a list. -/
def walkAll (k h : Nat) : List Nat → State → State
  | [], s => s
  | l :: ls, s => walkAll k h ls (walk k l h s)

/-- Node fetches in flight of an engine. -/
def engineFetches (s : State) (e : Nat) : Nat :=
  (s.exch.map (fun x => if x.2.op = 0x12 ∧ (regionAt s x.2.region).map (·.engine) = some e then x.2.items.length else 0)).sum
/-- Node fetches that an engine may still begin (R253). -/
def fetchRoom (s : State) (e : Nat) : Nat := Config.nodeFetches - engineFetches s e

/-- Issue the fetches that a waiting job still needs (R253): every uncached ancestor that nobody fetches yet in one READ_NODES, once the
walker has room for them, and the lines beside them. -/
def issueFetches (id : Nat) (s : State) : State :=
  match jobAt s id with
  | none => s
  | some j =>
    match regionAt s j.region with
    | none => s
    | some r =>
      let miss := ((leavesOf j).flatMap (fun l => missingNodes r l r.depth)).eraseDups
      let flying := (s.exch.filter (fun e => e.2.region == j.region && e.2.op == 0x12)).flatMap (fun e => e.2.items)
      let joined := (s.exch.filter (fun e => e.2.region == j.region && e.2.op == 0x12 && e.2.items.any (miss.contains ·))).map
        (fun e => BitVec.ofNat 32 e.1)
      let ask := miss.filter (fun k => !flying.contains k)
      if fetchRoom s r.engine < ask.length then s
      else
      let (xs, s) := sendAll (fun l => exchFor j.region r 0x12 l) (pieces 30 ask.length ask) [] s
      let lines := linesToAsk s r j
      let leases := lines.filter (fun i => j.rmw i)
      let room := 128 - engineLeases s r.engine
      let leases := leases.take room
      let plain := lines.filter (fun i => !j.rmw i)
      let s := regionMod j.region (fun r => { r with leases := r.leases ++ leases }) s
      let (ys, s) := sendAll (fun l => exchFor j.region r 0x10 l) (lineRuns 31 [] plain) [] s
      let (zs, s) := sendAll (fun l => { exchFor j.region r 0x10 l with lease := true }) (lineRuns 31 [] leases) [] s
      jobMod id (fun j => { j with xids := (j.xids ++ joined ++ xs ++ ys ++ zs).eraseDups }) s

/-- The plaintext of line `i` for a job. -/
def lineFor (r : RegionSt) (j : PoolJob) (i : Nat) : Line :=
  match mapFind j.lines i with
  | some l => if r.lineCtr i = some (0, 0) then 0 else l
  | none => mapGet 0 r.writeBuf i

/-! ### Ending a request -/

/-- The bytes of a POOL response (Table 09-10). -/
def poolResponse (pop : Byte) (ret : BitVec 4) (ptag : W32) (rid : BitVec 40) (offset length : Nat) (status : W16) (data : List Byte) :
    List Byte :=
  [pop ||| 0x80, 0, 0, ret.setWidth 8] ++ be 4 ptag.toNat ++ be 8 rid.toNat ++ be 8 offset ++ be 4 length ++ be 2 status.toNat ++ [0, 0]
    ++ data

/-- Payload units of `n` bytes. -/
def unitsFor (n : Nat) : Nat := max 1 ((n + 255) / 256)

/-- Answer a member (R261, R262): on the class-3 stream it named; a member whose stream is not open is answered by nobody.
Log entry 36 (DEDUCED). -/
def answerMember (member : BitVec 12) (job : W16) (ret : BitVec 4) (ptag : W32) (pop : Byte) (rid : BitVec 40)
    (offset length : Nat) (status : W16) (data : List Byte) (s : State) : State :=
  let out := streamId s.fab.id member 3 ret
  match findSend s job out with
  | none => s
  | some t =>
    let bytes := poolResponse pop ret ptag rid offset length status data
    if t.closing then s
    else enqueue t.port (.seal job out 0x06 (unitsFor bytes.length) 0xFFFF 0 0 0 bytes 0xFFFF) s

/-- Seal a MGMT frame on the class-4 stream of ordinal 0 or the first open one toward a package. -/
def sendMgmt (f : Fn) (dst : BitVec 12) (bytes : List Byte) (s : State) : State :=
  match s.sends.find? (fun t => t.fn == f && sidDst t.sid == dst && sidClass t.sid == 4 && !t.closing) with
  | some t => enqueue t.port (.seal t.job t.sid 0x07 (unitsFor bytes.length) 0xFFFF 0 0 0 bytes 0xFFFF) s
  | none => s

/-- A MGMT answer (R279 step 3): kind, region id, status, DETAIL (the layout is the model's own). Log entry 30 (DESIGN CHOICE). -/
def answerBytes (rid : BitVec 40) (st : W16) (d : W32) : List Byte := [0x02] ++ be 5 rid.toNat ++ be 2 st.toNat ++ be 4 d.toNat
/-- A handover ends between its offer and its commit: the old keeper tells the new one, which releases its reservations (R259, R283).
Log entry 188 (DESIGN CHOICE). -/
def cancelOffer (k : Nat) (nk : BitVec 12) (step : Nat) (st : W16) (d : W32) (s : State) : State :=
  match regionAt s k with
  | some r => if step = 1 ∨ step = 2 then sendMgmt r.fn nk (answerBytes r.rid st d) s else s
  | none => s

/-- Snares stop waiting on a finished pool request (R220 condition 4, R223). -/
def clearJobWaits (id : Nat) (s : State) : State :=
  stampMet { s with
    snare := s.snare.map (fun e => { e with jobs := e.jobs.erase id })
    localSnare := s.localSnare.map (fun e => { e with jobs := e.jobs.erase id }) }

/-- A local request completes at its requester; one of a VF that has since been reset is counted. -/
def doneLocal (f : Fn) (ctx gen status : W16) (s : State) : State :=
  if gen = genOf s f then emit (.fabricDone f ctx status []) s else countFn f 0x2F s
/-- A verified local read hands its plaintext to the requester through the fabric port `fport`; its completion waits in that port's snare
until the write has completed (R216). Log entry 187 (DEDUCED). -/
def holdRead (fport : Nat) (f : Fn) (ctx gen : W16) (job : Nat) (data : List Byte) (s : State) : State :=
  emit (.readPlain s.nextWrite f ctx data)
    { s with reads := s.reads ++ [{ id := s.nextWrite, fport := fport, fn := f, ctx := ctx, gen := gen, job := job }], nextWrite := s.nextWrite + 1 }
/-- End a pool request: its answer (R262, R266), and its place in the snares' waits. -/
def finishJob (id : Nat) (status : W16) (detail : W32) (data : List Byte) (s : State) : State :=
  match jobAt s id with
  | none => s
  | some j =>
    let drop := fun (s : State) => { s with jobs := s.jobs.filter (fun x => x.id != id) }
    match j.from_ with
    | .localReq f c g =>
      if data.isEmpty ∨ g ≠ genOf s f then doneLocal f c g status (clearJobWaits id (drop s))
      else holdRead (match regionAt s j.region with | some r => r.engine | none => 0) f c g id data (drop s)
    | .member _ m job ret ptag pop _ =>
      let s := clearJobWaits id s
      let rid := match regionAt s j.region with | some r => r.rid | none => 0
      answerMember m job ret ptag pop rid j.offset j.length status data (drop s)
    | .loop kid own => if own then drop s else emit (.debugPool kid status data) (drop s)
    | .command f i =>
      let s := clearJobWaits id s
      if (findProg s f i).isNone then drop s else jobMod id (fun j => { j with phase := 2, xids := [], status := status, detail := detail, data := data }) s

/-- End every request of a region that the predicate names. -/
def finishJobs (p : PoolJob → Bool) (status : W16) (detail : W32) : List PoolJob → State → State
  | [], s => s
  | j :: l, s => finishJobs p status detail l (if p j then finishJob j.id status detail [] s else s)

/-- A write's job is done once its exchanges are acknowledged and it owes no line. -/
def settleJob (id : Nat) (s : State) : State :=
  match jobAt s id with
  | none => s
  | some j => if j.phase = 1 ∧ j.xids.isEmpty ∧ j.owes.isEmpty then finishJob id j.status j.detail [] s else s

/-! ### Running a request -/

/-- The bytes of a job's data that fall on line `i`, and where they begin in it. -/
def PoolJob.part (j : PoolJob) (i : Nat) : Nat × List Byte :=
  let lo := max j.offset (256 * i)
  let hi := min (j.offset + j.length) (256 * i + 256)
  (lo - 256 * i, (j.data.drop (lo - j.offset)).take (hi - lo))

/-- Line `i` after the job's own change. -/
def PoolJob.apply (r : RegionSt) (j : PoolJob) (i : Nat) : Line :=
  let (off, bs) := j.part i
  match j.kind with
  | .reduce op fmt => lineReduce op fmt (lineFor r j i) off bs
  | _ => if j.whole i then lineOfBytes bs else linePatch (lineFor r j i) off bs

/-- The bytes a read returns. -/
def readBytes (r : RegionSt) (j : PoolJob) : List Byte :=
  j.lineList.flatMap (fun i =>
    let lo := max j.offset (256 * i)
    let hi := min (j.offset + j.length) (256 * i + 256)
    lineSlice (lineFor r j i) (lo - 256 * i) (hi - lo))

/-- Begin the sweeps that the lines of a write wait for. -/
def beginSweeps (k : Nat) : List Nat → State → State
  | [], s => s
  | i :: l, s => beginSweeps k l (beginSweep k 1 (i / 64) (i % 64) s)

/-- Put plaintexts into the write buffer. -/
def bufferLines (k : Nat) (l : List (Nat × Line)) (s : State) : State :=
  regionMod k (fun r => { r with writeBuf := l.foldl (fun m e => mapSet m e.1 e.2) r.writeBuf }) s

/-- Apply a write or reduction whose lines and leaves are in hand: whole lines go out at once; lines of the read-modify-write unit
are held until no later update is queued (R275). -/
def runWrite (id : Nat) (j : PoolJob) (r : RegionSt) (s : State) : State :=
  let cases_ := j.lineList.map (fun i => advanceCase r 1 (i / 64) (i % 64))
  if cases_.any (· == .limit) then finishJob id stLimits 0x407 [] s
  else if cases_.any (· == .wait) then beginSweeps j.region j.lineList s
  else
    let s := bufferLines j.region (j.lineList.map (fun i => (i, j.apply r i))) s
    let whole := j.lineList.filter (fun i => !j.rmw i)
    let held := j.lineList.filter (fun i => j.rmw i)
    let s := advanceLines j.region whole s
    let (xs, s) := writeLinesOut j.region false (lineRuns 31 [] whole) [] s
    let s := regionMod j.region (fun r => { r with deferred := (r.deferred ++ held).eraseDups }) s
    jobMod id (fun j => { j with phase := 1, xids := xs, owes := held, lines := [] }) s

/-- R263: lines of a local read whose plaintext is released now, ahead of its check: fetched clean, the counter in hand, not FENCED. -/
def showable (r : RegionSt) (j : PoolJob) : List Nat :=
  match j.from_, j.kind with
  | .localReq .., .read => (j.lines.map (·.1)).filter (fun i =>
      !j.shown.contains i && (r.lineCtr i).isSome && r.lineCtr i != some (0, 0) && (r.firstFenced i 1).isNone)
  | _, _ => []
/-- Early release of plaintext to a local requester (R211, Table 08-1, Table 09-12): at the arrival of the lines where the counter is in
hand, and otherwise once the nodes have come and been checked. -/
def showLines (id : Nat) (s : State) : State :=
  match jobAt s id with
  | none => s
  | some j =>
    match j.from_, regionAt s j.region with
    | .localReq f c _, some r =>
      let now := showable r j
      now.foldl (fun s i => emit (.earlyPlain f c i (mapGet 0 j.lines i)) s) (jobMod id (fun j => { j with shown := j.shown ++ now }) s)
    | _, _ => s

/-- Run a request whose fetches are all in hand; a line whose MAC failed halts the device (R269). -/
def runJob (id : Nat) (s : State) : State :=
  match jobAt s id with
  | none => s
  | some j =>
    match regionAt s j.region with
    | none => s
    | some r =>
      let leaves := (leavesOf j).all (fun l => (mapFind r.cache (nodeKey 1 l)).isSome)
      let need := j.lineList.filter (fun i => match j.kind with | .write => !j.whole i | _ => true)
      match need.find? (fun i => j.bad.contains i && (r.lineCtr i).isSome && r.lineCtr i != some (0, 0)) with
      | some i => gongHalt (lineFault r i) s
      | none =>
        match r.firstFenced j.first j.lineCount with
        | some i =>
          if j.bad.any (fun b => (r.lineCtr b).isNone && (r.firstFenced b 1).isNone) then s else finishJob id stPoolFenced (BitVec.ofNat 32 i) [] s
        | none =>
          if !leaves || !(need.all (lineInHand r j)) then s
          else
            let s := eachIdx (touchPath j.region) (leavesOf j) s
            match j.kind with
            | .read => finishJob id stOk 0 (readBytes r j) s
            | _ => runWrite id j r s

/-- Take a waiting request as far as it goes: with its key in the engine's cache (R125), it walks, asks its home, and runs when its turn
has come (R262). -/
def advanceJob (id : Nat) (s : State) : State :=
  match jobAt s id with
  | none => s
  | some j =>
    if j.phase ≠ 0 then settleJob id s
    else match regionAt s j.region with
      | none => s
      | some r =>
        let s := cacheKid (34 + r.engine) r.kid s
        if !(mapGet [] s.ks.caches (34 + r.engine)).contains r.kid then s
        else
          let s := issueFetches id (walkAll j.region r.depth (leavesOf j) s)
          if behindJob s j then showLines id s else runJob id (showLines id s)

/-- Take every request of a list as far as it goes, oldest first. -/
def advanceJobs : List Nat → State → State
  | [], s => s
  | i :: l, s => advanceJobs l (advanceJob i s)

/-- Write out the held lines of a region to which no further update is queued (R275); a held line that is FENCED goes out no more
(R270). -/
def flushHeld (k : Nat) (s : State) : State :=
  match regionAt s k with
  | none => s
  | some r =>
    let shut := r.deferred.filter (fun i => (r.firstFenced i 1).isSome)
    let s := finishJobs (fun j => j.region == k && j.phase == 1 && j.owes.any (shut.contains ·)) stPoolFenced (BitVec.ofNat 32 (shut.headD 0)) s.jobs s
    let free := r.deferred.filter (fun i => !shut.contains i && !(s.jobs.any (fun j => j.region == k && j.phase == 0 && j.rmw i)))
    let limit := free.filter (fun i => advanceCase r 1 (i / 64) (i % 64) == .limit)
    let s := finishJobs (fun j => j.region == k && j.phase == 1 && j.owes.any (limit.contains ·)) stLimits 0x407 s.jobs s
    let s := beginSweeps k (free.filter (fun i => advanceCase r 1 (i / 64) (i % 64) == .wait)) s
    let go := free.filter (fun i => advanceCase r 1 (i / 64) (i % 64) == .ready)
    let s := advanceLines k go s
    let runs := lineRuns 31 [] (go.mergeSort (· ≤ ·))
    let (xs, s) := writeLinesOut k true runs [] s
    let owner := fun i => ((runs.zip xs).find? (fun e => e.1.contains i)).map (·.2)
    let s := regionMod k (fun r => { r with deferred := r.deferred.filter (fun i => !(go.contains i || limit.contains i || shut.contains i)) }) s
    { s with jobs := s.jobs.map (fun j =>
        if j.region = k ∧ j.phase = 1 then
          { j with xids := j.xids ++ (j.owes.filterMap owner).eraseDups, owes := j.owes.filter (fun i => !go.contains i) }
        else j) }

/-! ### Sweeps (R267) -/

/-- The children of a swept node that exist: for a leaf its lines, above it the nodes of the level below, under the root the top
node. -/
def sweepChildren (r : RegionSt) (w : SweepSt) : List Nat :=
  let n := if w.level = 1 then r.lineCount else r.nodesAt (w.level - 1)
  if r.depth < w.level then [0] else ((List.range 64).map (· + 64 * w.idx)).filter (· < n)

/-- Change a sweep. -/
def sweepMod (k level idx : Nat) (g : SweepSt → SweepSt) (s : State) : State :=
  regionMod k (fun r => { r with sweeps := r.sweeps.map (fun w => if w.level = level ∧ w.idx = idx then g w else w) }) s

/-- Sweep a leaf: once every line that is not FENCED is in hand, all go out under the new counters. -/
def sweepLeaf (k : Nat) (r : RegionSt) (w : SweepSt) (s : State) : State :=
  let live := (sweepChildren r w).filter (fun i => (r.firstFenced i 1).isNone)
  let inHand := fun i => (mapFind w.lines i).isSome || (mapFind r.writeBuf i).isSome || childCtr w.old (i % 64) == (0, 0)
  let miss := live.filter (fun i => !inHand i)
  if miss.isEmpty then
    let s := bufferLines k (live.map (fun i => (i, match mapFind r.writeBuf i with | some l => l | none => mapGet 0 w.lines i))) s
    let (_, s) := writeLinesOut k false (lineRuns 31 [] live) [] s
    regionMod k (fun r => { r with sweeps := r.sweeps.filter (fun v => !(v.level == w.level && v.idx == w.idx)) }) s
  else if w.xids.isEmpty then
    let (xs, s) := sendAll (fun l => exchFor k r 0x10 l) (lineRuns 31 [] miss) [] s
    sweepMod k w.level w.idx (fun w => { w with xids := xs }) s
  else s

/-- Sweep an interior node or the root: once every child node with a line that is not FENCED is in hand, all go out with MACs under the new
counters; a cached child is then clean. -/
def sweepInner (k : Nat) (r : RegionSt) (w : SweepSt) (s : State) : State :=
  let lv := w.level - 1
  let live := (sweepChildren r w).filter (fun i => !r.allFenced (i * 64 ^ lv) (min (64 ^ lv) (r.lineCount - i * 64 ^ lv)))
  let got := fun i => (mapFind r.arrived (nodeKey lv i)).isSome
  let inHand := fun i => (mapFind r.cache (nodeKey lv i)).isSome || (mapFind w.nodes i).isSome || got i
    || childCtr w.old (if r.depth < w.level then 0 else i % 64) == (0, 0)
  let miss := live.filter (fun i => !inHand i)
  let flying := (s.exch.filter (fun e => e.2.region == k && e.2.op == 0x12)).flatMap (fun e => e.2.items)
  let ask := (miss.filter (fun i => !flying.contains (nodeKey lv i))).take (fetchRoom s r.engine)
  match live.find? (fun i => match mapFind r.arrived (nodeKey lv i) with | some it => !it.macOk | none => false) with
  | some i => gongHalt (nodeFault r lv i) s
  | none =>
  if miss.isEmpty then
    let val := fun i => match mapFind r.cache (nodeKey lv i), mapFind r.arrived (nodeKey lv i) with
      | some c, _ => c.node
      | none, some it => it.node
      | none, none => mapGet 0 w.nodes i
    let (_, s) := writeNodesOut k (pieces 27 live.length (live.map (fun i => (nodeKey lv i, val i)))) [] s
    regionMod k (fun r =>
      { r with sweeps := r.sweeps.filter (fun v => !(v.level == w.level && v.idx == w.idx))
               cache := r.cache.map (fun e => if keyLevel e.1 = lv ∧ live.contains (keyIdx e.1) then (e.1, { e.2 with dirty := false }) else e) }) s
  else if w.xids.isEmpty then
    let (xs, s) := sendAll (fun l => exchFor k r 0x12 (l.map (nodeKey lv))) (pieces 30 ask.length ask) [] s
    sweepMod k w.level w.idx (fun w => { w with xids := xs }) s
  else s

/-- Take the begun sweeps of a region as far as they go. Log entry 21 (DEDUCED). -/
def sweepAll (k : Nat) : List SweepSt → State → State
  | [], s => s
  | w :: l, s =>
    sweepAll k l (if w.started then
      match regionAt s k with
      | some r => if w.level = 1 then sweepLeaf k r w s else sweepInner k r w s
      | none => s
      else s)

/-- Held lines and sweeps of every region. -/
def eachRegion : List Nat → State → State
  | [], s => s
  | k :: l, s =>
    let s := flushHeld k s
    eachRegion l (match regionAt s k with | some r => sweepAll k r.sweeps s | none => s)

/-- Take the pool's work as far as it goes; the fuel bounds the rounds. -/
def poolRounds : Nat → State → State
  | 0, s => s
  | n + 1, s => poolRounds n (eachRegion (s.regions.map (·.1)) (advanceJobs (s.jobs.map (·.id)) s))
/-- Dirty nodes of an engine's counter cache. -/
def dirtyCount (s : State) (e : Nat) : Nat := (cachedBy s e (fun _ _ _ c => c.dirty)).length
/-- R252: while an eighth of the counter cache is dirty, the least recently used dirty node is written back; the fuel bounds the nodes. -/
def trimDirty (e : Nat) : Nat → State → State
  | 0, s => s
  | n + 1, s =>
    if dirtyCount s e < Config.dirtyNodes then s
    else match oldest (cachedBy s e (fun _ r key c => c.dirty && mayWriteBack r key)) with
      | none => s
      | some (rk, key) => trimDirty e n (writeBack rk (keyLevel key) (keyIdx key) s)
/-- The pool's work after something has changed; in A2 the walkers are off (Table 14-6). -/
def poolPump (s : State) : State :=
  if s.pkg.power == .a2 then s else eachIdx (fun e s => trimDirty e (dirtyCount s e) s) (List.range 8) (poolRounds (s.jobs.length + 3) s)

/-! ### Admission (R262) -/

/-- Table 09-2: what a new request meets at a region that is not LIVE. -/
def regRefusal (r : RegState) : W16 :=
  match r with
  | .creating | .parking | .handover => stBusy
  | .lost => stPeerLost
  | .freeing => stBadState
  | .live => stOk

/-- Checks 2 to 5 of Table 09-11: the region's number, or the status and DETAIL of the refusal. -/
def admitRegion (s : State) (job : W16) (rid : BitVec 40) (offset length : Nat) : (W16 × W32) ⊕ Nat :=
  match (if rid = dirRid then none else regionKeyOf s job rid) with
  | none => .inl (stBadState, openDetail s)
  | some k =>
    match regionAt s k with
    | none => .inl (stBadState, openDetail s)
    | some r =>
      if r.state ≠ .live then .inl (regRefusal r.state, regCode r.state)
      else if !kidLive s r.kid then .inl (stBadState, BitVec.ofNat 32 (kidCode (mapFind s.ks.kids r.kid.toNat)))
      else if r.size < offset + length then .inl (stLimits, 0x402)
      else match r.firstFenced (offset / 256) ((offset + length + 255) / 256 - offset / 256) with
        | some i => .inl (stPoolFenced, BitVec.ofNat 32 i)
        | none => .inr k

/-- Check 1 of Table 09-11. -/
def poolShapeOk (pop redOp redFormat : Byte) (rsvdOk : Bool) (offset length : Nat) : Bool :=
  rsvdOk && decide (1 ≤ length ∧ length ≤ 8160) &&
    (if pop = 3 then redOk redOp redFormat && decide (offset % redSize redFormat = 0) && decide (length % redSize redFormat = 0)
     else (pop == 1 || pop == 2) && redOp == 0 && redFormat == 0)

/-- What a request's operation does to its lines. -/
def poolKind (pop redOp redFormat : Byte) : PoolKind := if pop = 1 then .read else if pop = 2 then .write else .reduce redOp redFormat

/-- Admit a request to region `k`; answers its number. -/
def addJob (k : Nat) (from_ : PoolFrom) (kind : PoolKind) (offset length : Nat) (data : List Byte) (s : State) : Nat × State :=
  (s.nextJob, { s with nextJob := s.nextJob + 1
                       jobs := s.jobs ++ [{ id := s.nextJob, region := k, from_ := from_, kind := kind, offset := offset, length := length,
                                            data := data, phase := 0, xids := [], lines := [], bad := [], shown := [], owes := [], status := 0,
                                            detail := 0 }] })

/-! ### Write-back and the end of a region -/

/-- Write back the dirty nodes of a region from level 1 up, as far as their parents' counters advance; nodes of a level go in
exchanges of 28 at most. -/
def writeBackLevel (k level : Nat) (s : State) : State :=
  match regionAt s k with
  | none => s
  | some r =>
    let dirty := (r.cache.filter (fun e => keyLevel e.1 == level && e.2.dirty)).map (·.1)
    let par := fun (key : Nat) => (parentOf r key).2
    let s := eachIdx (fun key s => beginSweep k (level + 1) (par key).1 (par key).2 s)
      (dirty.filter (fun key => advanceCase r (level + 1) (par key).1 (par key).2 == .wait)) s
    let go := dirty.filter (fun key => advanceCase r (level + 1) (par key).1 (par key).2 == .ready)
    let s := eachIdx (fun key s => advance k (level + 1) (par key).1 (par key).2 s) go s
    let vals := go.map (fun key => (key, match mapFind r.cache key with | some c => c.node | none => 0))
    let s := regionMod k (fun r =>
      { r with cache := r.cache.map (fun e => if go.contains e.1 then (e.1, { e.2 with dirty := false }) else e) }) s
    (writeNodesOut k (pieces 27 go.length vals) [] s).2

/-- Write back a region's dirty nodes, level by level. -/
def writeBackAll (k : Nat) : Nat → Nat → State → State
  | 0, _, s => s
  | n + 1, level, s => writeBackAll k n (level + 1) (writeBackLevel k level s)

/-- The region's tree stands at its home: nothing dirty, swept, held, in flight or admitted. -/
def regionClean (s : State) (k : Nat) : Bool :=
  match regionAt s k with
  | none => true
  | some r => r.cache.all (fun e => !e.2.dirty) && r.sweeps.isEmpty && r.deferred.isEmpty
      && !(s.exch.any (fun e => e.2.region == k)) && !(s.jobs.any (fun j => j.region == k))

/-- Drop a region's entry, with the exchanges of its node and line traffic. -/
def dropRegion (k : Nat) (s : State) : State :=
  { s with regions := mapErase s.regions k, exch := s.exch.filter (fun e => e.2.region != k || e.2.op == 0x02) }

/-- A region is parked: its entry goes, and what of it is FENCED stays so (R270). Log entry 190 (DEDUCED). -/
def parkRegion (k : Nat) (s : State) : State :=
  match regionAt s k with
  | none => s
  | some r =>
    if r.fenced.isEmpty then dropRegion k s
    else dropRegion k { s with parked := s.parked ++ [{ job := r.job, rid := r.rid, epoch := r.epoch, ranges := r.fenced }] }
/-- A region that has been resumed has the FENCED ranges that it was parked with. -/
def unparkFences (k : Nat) (s : State) : State :=
  match regionAt s k with
  | none => s
  | some r =>
    let mine := fun (f : ParkedFence) => f.job == r.job && f.rid == r.rid && f.epoch == r.epoch
    match s.parked.find? mine with
    | some f => regionMod k (fun r => { r with fenced := f.ranges }) { s with parked := s.parked.filter (fun f => !mine f) }
    | none => s

/-- A region's table entry, new. -/
def newRegion (f : Fn) (job : W16) (rid homeRid : BitVec 40) (ctx ctxGen : W16) (epoch : W32) (creator : BitVec 12) (size : Nat)
    (home : BitVec 12) (engine : Nat) (kid : W16) (state : RegState) (base : Nat) (root : Node) (opcode : Byte) : RegionSt :=
  { fn := f, job := job, rid := rid, homeRid := homeRid, oldKeeper := none, ctx := ctx, ctxGen := ctxGen, epoch := epoch, creator := creator,
    size := size, home := home, engine := engine, kid := kid, state := state, root := root, base := base, cache := [], arrived := [],
    fenced := [], leases := [], sweeps := [], writeBuf := [], deferred := [], opcode := opcode, gone := false, loop := false }

/-- Regions bound to an engine. -/
def engineRegions (s : State) (e : Nat) : Nat := (s.regions.filter (fun r => r.2.engine == e && !r.2.loop)).length

/-- R277, R394: the usable engine permitted by the profile, and not under SELF_TEST, that holds the fewest regions; which of several,
the manual leaves open (a free value). -/
def fewestEngine (s : State) : Option Nat :=
  let ok := (List.range 8).filter (fun k => poolPresent s k && !poolTesting s k)
  match ok with
  | [] => none
  | e :: _ =>
    let m := ok.foldl (fun a x => min a (engineRegions s x)) (engineRegions s e)
    let ties := ok.filter (fun x => engineRegions s x == m)
    ties[Config.engineTie s.opens % ties.length]?

/-- R272: a region enters LOST: the requests that wait on its home complete with PEER_LOST, and its exchanges are forgotten. One that
is FREEING stays so until it is freed (Table 09-2). -/
def loseRegion (k : Nat) (s : State) : State :=
  match regionAt s k with
  | none => s
  | some r =>
    let s := { s with exch := s.exch.filter (fun e => e.2.region != k || e.2.cmd.isSome) }
    let s := regionMod k (fun r => { r with state := if r.state = .freeing then .freeing else .lost, gone := true, cache := [], sweeps := [], leases := [], deferred := [], writeBuf := [], arrived := [] }) s
    finishJobs (fun j => j.region == k) stPeerLost (r.home.setWidth 32) s.jobs s

/-- Free a region at its end (R278): its entry goes and, unless it has been LOST, FREE is sent to its home. -/
def freeRegion (k : Nat) (s : State) : State :=
  match regionAt s k with
  | none => s
  | some r =>
    let s := dropRegion k s
    if r.gone then s else (newExch (exchFor k r 0x02 r.leases) [] [] [] s).2

end Sys2Proof.Machine
end

