-- ==== Sys2Proof/Machine/Peer.lean ====
section
/-! DEFINITION. The loss of a peer (Table 01-8), of a neighbour (R202 to R206, R424) and of a region's home (R272), and what the
commands in progress make of them. -/
namespace Sys2Proof.Machine

/-- Complete a command with PEER_LOST, naming the peer. -/
def endPeerLost (pkg : BitVec 12) (p : InProg) (s : State) : State := complete p stPeerLost (pkg.setWidth 32) 0 s

/-- R283: the home of a region is lost while its PARK runs: no entry is written. A write of the entry that is still queued goes; one that
has gone out is followed by one of an empty entry. -/
def undoEntry (p : InProg) (dir : Nat) (dirIndex : W32) (step jobId : Nat) (s : State) : State :=
  let queued := s.jobs.any (fun j => j.id == jobId && j.phase == 0)
  let s := { s with jobs := s.jobs.filter (fun j => !(j.id == jobId && j.phase == 0)) }
  match regionAt s dir with
  | some d =>
    if step < 2 ∨ (step = 2 ∧ queued) ∨ d.state ≠ .live then s
    else (addJob dir (.command p.fn p.idx) .write (dirIndex.toNat * 256) 256 (zeros 256) s).2
  | none => s

/-- R272, R283: a region is lost with its home: commands that hold it complete with PEER_LOST. -/
def failRegionCmds (k : Nat) (home : BitVec 12) : List InProg → State → State
  | [], s => s
  | p :: l, s =>
    let hit := match p.act with
      | .park key dir .. => key == k || dir == k
      | .resume _ dir .. => dir == k
      | .handover key .. => key == k
      | .regionCreate key _ => key == k
      | _ => false
    let s := if !hit then s
      else match p.act with
        | .resume key _ kid .. => endPeerLost home p (releaseKid kid { s with regions := mapErase s.regions key })
        | .regionCreate key kid => endPeerLost home p (releaseKid kid { s with regions := mapErase s.regions key })
        | .park key dir _ di _ step id =>
          if key = k then endPeerLost home p (undoEntry p dir di step id s)
          else if step < 4 then endPeerLost home p (regionMod key RegionSt.backLive s) else s
        | .handover key nk step => if step < 3 then endPeerLost home p (cancelOffer key nk step stPeerLost (home.setWidth 32) s) else s
        | _ => s
    failRegionCmds k home l s

/-- R272: a region enters LOST and its owner receives the Peer lost record; commands that hold it end. -/
def regionLost (k : Nat) (s : State) : State :=
  match regionAt s k with
  | none => s
  | some r =>
    let s := failRegionCmds k r.home s.prog (loseRegion k s)
    asyncRecord r.fn { kind := 1, status := stPeerLost, result := resAt 0 r.home.toNat } s

/-- Every region of a list is lost with its home, without a record of its own. -/
def regionsLost : List Nat → State → State
  | [], s => s
  | k :: l, s =>
    match regionAt s k with
    | none => regionsLost l s
    | some r => regionsLost l (failRegionCmds k r.home s.prog (loseRegion k s))

/-- The stream is toward, from, or pinned to a route through the package. -/
def throughPkg (pkg : BitVec 12) (sid : W32) (relays : List (BitVec 12)) : Bool :=
  sidSrc sid == pkg || sidDst sid == pkg || relays.contains pkg

/-- Frames of streams that have gone, queued for sealing on a port, are discarded and counted (R137). -/
def purgeQueue (gone : W16 → W32 → Bool) (port : Fin 32) (s : State) : State :=
  let q := (portOf s port).queue
  let dead := fun (i : TxItem) => match i with | .seal job sid .. => gone job sid | _ => false
  let s := portMod port (fun p => { p with queue := q.filter (fun i => !dead i) }) s
  (q.filter dead).foldl (fun s _ => countPort port 4 s) s

/-- Waiting frames of streams that have gone are discarded as retired-key discards, their credits returned (R26). -/
def purgeWaits (gone : W16 → W32 → Bool) : List WaitSt → State → State
  | [], s => s
  | w :: l, s =>
    if gone w.hdr.jobId w.hdr.sid then
      purgeWaits gone l (returnCredits w.arr.port w.arr.hop.vc (frameCredits w.arr.hop) (countPort w.arr.port 4
        { s with waits := s.waits.erase w }))
    else purgeWaits gone l s

/-- Commands of streams with a lost peer (Table 07-18): STREAM_OPEN, KEY_ROTATE and STREAM_CLOSE complete with PEER_LOST. -/
def failStreamCmds (pkg : BitVec 12) : List InProg → State → State
  | [], s => s
  | p :: l, s =>
    let s := match p.act with
      | .openSend _ peer kid => if peer = pkg then endPeerLost pkg p (releaseKid kid s) else s
      | .openRecv _ peer kid _ _ _ _ _ sendKid =>
        if peer = pkg then endPeerLost pkg p (releaseKid kid (releaseKid sendKid s)) else s
      | .rotate _ sid => if sidDst sid = pkg then endPeerLost pkg p s else s
      | .close sid .. => if sidDst sid = pkg ∨ sidSrc sid = pkg then endPeerLost pkg p s else s
      | .handover key nk step =>
        if nk = pkg ∧ step < 3 then
          endPeerLost pkg p (regionMod key RegionSt.backLive s)
        else s
      | _ => s
    failStreamCmds pkg l s

/-- Fences of function `f` that break with the loss (Table 01-8 row 3). -/
def breakFences (pkg : BitVec 12) (shared : Bool) (f : Fn) : List Nat → State → State
  | [], s => s
  | i :: l, s =>
    let x := fenceOf s f i
    breakFences pkg shared f l (if x.remotes.contains pkg || (shared && x.overflow) then setErr f i .peerLost pkg s else s)

/-- Table 01-8 row 3, over every function. -/
def breakAll (pkg : BitVec 12) (sharing : List Fn) : List Fn → State → State
  | [], s => s
  | f :: l, s => breakAll pkg sharing l (breakFences pkg (sharing.contains f) f ((fnOf s f).fences.map (·.1)) s)

/-- Table 01-8 row 5: the peer-lost record. -/
def reportLost (pkg : BitVec 12) : List Fn → State → State
  | [], s => s
  | f :: l, s => reportLost pkg l (asyncRecord f { kind := 1, status := stPeerLost, result := resAt 0 pkg.toNat } s)

/-- A member's pending pool requests at a lost keeper complete with PEER_LOST. -/
def failMembers (pkg : BitVec 12) (s : State) : State :=
  let hit := s.members.filter (fun e => e.2.keeper == pkg)
  hit.foldl (fun s e => emit (.fabricDone e.2.fn e.2.ctx stPeerLost []) s)
    { s with members := s.members.filter (fun e => e.2.keeper != pkg) }

/-- A pool request works on a region homed at the package. -/
def homedJob (pkg : BitVec 12) (s : State) (j : Nat) : Bool :=
  s.jobs.any (fun q => q.id == j && (match regionAt s q.region with | some r => r.home == pkg | none => false))
/-- Table 01-8 row 2: an open half's snare entry that awaits data from the package. -/
def snareAwaits (pkg : BitVec 12) (s : State) (e : SnareSt) : Bool := e.src == pkg || e.jobs.any (homedJob pkg s)
/-- The same for a local chime: pool data of a keeper or of a home. -/
def chimeAwaits (pkg : BitVec 12) (s : State) (e : LocalChime) : Bool :=
  e.jobs.any (homedJob pkg s) || e.tags.any (fun g => match mapFind s.members g.toNat with | some m => m.keeper == pkg | none => false)

/-- R25: the actions of Table 01-8 toward a lost package, in order, with the pool's (R256, R272, R279). -/
def peerLoss (pkg : BitVec 12) (s : State) : State :=
  let outs := s.sends.filter (fun t => throughPkg pkg t.sid t.relays)
  let ins := s.recvs.filter (fun t => throughPkg pkg t.sid t.relays)
  let sharing := ((outs.filter (fun t => sidDst t.sid == pkg)).map (·.fn) ++ (ins.filter (fun t => sidSrc t.sid == pkg)).map (·.fn)).eraseDups
  let gone := fun (job : W16) (sid : W32) =>
    outs.any (fun t => t.job == job && t.sid == sid) || ins.any (fun t => t.job == job && t.sid == sid)
  let s := { s with sends := s.sends.filter (fun t => !throughPkg pkg t.sid t.relays)
                    recvs := s.recvs.filter (fun t => !throughPkg pkg t.sid t.relays)
                    gone := (s.gone ++ ins.map (fun t => (t.job, t.sid))).eraseDups }
  let s := retireKids (outs.flatMap (fun t => t.kid :: t.next.toList) ++ ins.flatMap (fun t => t.kid :: t.next.toList)) s
  let s := failStreamCmds pkg s.prog s
  let s := { s with snare := s.snare.filter (fun e => !snareAwaits pkg s e), localSnare := s.localSnare.filter (fun e => !chimeAwaits pkg s e) }
  let s := breakAll pkg sharing (listedFns s) s
  let s := purgeWaits gone s.waits (eachPort (purgeQueue gone) allPorts s)
  let homed := (s.regions.filter (fun r => r.2.home == pkg && r.2.size != 0 && r.2.oldKeeper.isNone && r.2.state != .lost)).map (·.1)
  let owners := ((s.regions.filter (fun r => homed.contains r.1)).map (fun r => r.2.fn)).eraseDups
  let s := failMembers pkg (regionsLost homed s)
  let offered := (s.regions.filter (fun r => r.2.state == .creating && (r.2.oldKeeper == some pkg || (r.2.oldKeeper.isSome && r.2.home == pkg))))
  let s := offered.foldl (fun s r => releaseKid r.2.kid { s with regions := mapErase s.regions r.1 }) s
  let s := { s with homes := s.homes.map (fun h => if h.keeper = pkg then { h with leases := [], waiting := [] } else h) }
  let s := trace .pf 0x40 0xFFFF (resAt 0 pkg.toNat) s
  poolPump (reportLost pkg ([Fn.pf] ++ (sharing ++ owners).eraseDups.filter (· != .pf)) s)

/-- Forwarded frames queued toward a lost neighbour return the credits of the hop before (Table 07-10). -/
def purgeForwards (port : Fin 32) (s : State) : State :=
  let q := (portOf s port).queue
  let fwd := fun (i : TxItem) => match i with | .ready _ _ _ _ _ _ _ (some _) => true | _ => false
  let s := portMod port (fun p => { p with queue := q.filter (fun i => !fwd i) }) s
  returnQueued (q.filter fwd) ((q.filter fwd).foldl (fun s i => match i with
    | .ready _ _ _ _ _ _ _ (some (ap, _, _)) => countPort ap 4 s | _ => s) s)

/-- R203: send the PROXY_KNELLs of a loss. Log entry 146 (DEDUCED). -/
def proxyKnells (port : Fin 32) (pkg : BitVec 12) (cause : Byte) (lostBoot : W64) : List (BitVec 12) → State → State
  | [], s => s
  | d :: l, s =>
    let s := match routeAvoiding s d pkg with
      | some (sel, eg) => sendControl eg kProxyKnell sel 0 (ctlRoute s d) (.proxyKnell pkg cause lostBoot) (portMod eg (addThrough [s.fab.id, d]) s)
      | none => countPort port 0x0D s
    proxyKnells port pkg cause lostBoot l s

/-- R202, R203, R205, R424: declare the neighbour on a port lost. -/
def neighbourLost (port : Fin 32) (cause : Byte) (s : State) : State :=
  let p := portOf s port
  if p.nbrLost then s
  else
    let s := portMod port (fun p => { p with nbrLost := true, lostId := p.nbr, nbr := none }) s
    let s := purgeForwards port s
    match p.nbr with
    | none => s
    | some pkg =>
      let lostBoot := p.nbrBoot.getD 0
      let s := if p.up then sendControl port kProxyKnell 0 0 (ctlRoute s pkg) (.proxyKnell pkg cause lostBoot) (portMod port (addThrough [s.fab.id, pkg]) s)
        else s
      let s := proxyKnells port pkg cause lostBoot ((p.through.filter (fun d => d != pkg && d != s.fab.id))) s
      peerLoss pkg s

/-- A port goes down (R196, R202): its neighbour is lost, and told nothing over it (R203); its credit state and buffers are dropped. -/
def portLost (port : Fin 32) (cause : Byte) (s : State) : State :=
  takeDown port (neighbourLost port cause (portMod port (fun p => { p with up := false }) s))

end Sys2Proof.Machine
end

