-- ==== Sys2Proof/Machine/Windows.lean ====
section
/-! DEFINITION. Views of the Tabor gate and their windows (R356 to R359): the counts a view latches, the closing of a window, and
what a cleanup does to a VF's views. -/
namespace Sys2Proof.Machine

/-- A view's state. -/
def viewOf (s : State) (v : ViewId) : ViewSt :=
  match v with
  | .vf i => mapGet {} s.tabor.vfViews i.toNat
  | .pfOf i => mapGet {} s.tabor.pfViews i.toNat
  | .package => s.tabor.pkgView

/-- Change a view's state. -/
def viewMod (v : ViewId) (g : ViewSt → ViewSt) (s : State) : State :=
  match v with
  | .vf i => { s with tabor := { s.tabor with vfViews := mapMod {} s.tabor.vfViews i.toNat g } }
  | .pfOf i => { s with tabor := { s.tabor with pfViews := mapMod {} s.tabor.pfViews i.toNat g } }
  | .package => { s with tabor := { s.tabor with pkgView := g s.tabor.pkgView } }

/-- Ticks of a window of `us` microseconds (R357). -/
def windowTicks (us : Nat) : Nat := us * 1050

/-- The running counters of a function: codes 0-95 its operations, 96-127 the VF-scope counters 0x20-0x3F. -/
def fnCounts (s : State) (f : Fn) : FMap Nat :=
  (s.tabor.counts.filter (fun e => e.1 / 128 == f.key)).map (fun e => (e.1 % 128, e.2))

/-- Number of a package-view counter, in the order of PKG (Table 13-9). -/
def pkgIdx (code : Nat) : Nat := 512 + (code - 0x10)

/-- VF-scope counters summed over every function (R361). -/
def sumFns : FMap Nat → FMap Nat → FMap Nat
  | [], m => m
  | (k, n) :: l, m => sumFns l (if 96 ≤ k % 128 then bump m (528 + (k % 128 - 96)) n else m)

/-- The counters of the package view, by number: port × 16 + code, package counters from 512, VF-scope sums from 528, FW_REFUSED of
the PF at 560. -/
def pkgCounts (s : State) : FMap Nat :=
  let m := s.tabor.pkg.foldl (fun m e => bump m (pkgIdx e.1) e.2) s.tabor.ports
  mapPut 0 (sumFns s.tabor.counts m) 560 (mapGet 0 s.tabor.counts (4096 * 128 + 64 + 0x2D))

/-- What a view latches. -/
def latch (s : State) (v : ViewId) : FMap Nat :=
  match v with
  | .vf i => fnCounts s (.vf i)
  | .pfOf i => fnCounts s (.vf i)
  | .package => pkgCounts s

/-- End latch less start latch, modulo 2^48 (R357). -/
def latchDiff (start e : FMap Nat) : FMap Nat :=
  (e.map (·.1) ++ start.map (·.1)).foldr (fun k m => mapPut 0 m k ((mapGet 0 e k + 2 ^ 48 - mapGet 0 start k) % 2 ^ 48)) []

/-- The tick at which a view's current window ends (R357). -/
def endTick (w : ViewSt) : Nat := w.t0 + (w.index + 1) * windowTicks w.window

/-- Insert an event in stamp order (R356). -/
def insertEvent (e : TaborEv) : List TaborEv → List TaborEv
  | [] => [e]
  | x :: l => if e.tick < x.tick then e :: x :: l else x :: insertEvent e l

/-- Apply events to the running counters. Log entry 20 (DEDUCED). -/
def applyEvents : List TaborEv → State → State
  | [], s => s
  | e :: l, s => applyEvents l (countOp (fnAt e.fn) e.counter e.units s)

/-- Apply a function's events stamped before a tick, or all of them. -/
def applyBefore (fn : Nat) (tick : Option Nat) (s : State) : State :=
  let due := fun (e : TaborEv) => e.fn == fn && (match tick with | some t => decide (e.tick < t) | none => true)
  let l := s.tabor.events
  applyEvents (l.filter due) { s with tabor := { s.tabor with events := l.filter (fun e => !due e) } }

/-- The function a view counts. -/
def viewFn (v : ViewId) : Nat := match v with | .vf i => i.toNat | .pfOf i => i.toNat | .package => 4096

/-- Close the window now open: its counts are kept as the most recently closed one. Log entry 87 (DEDUCED). -/
def closeWindow (v : ViewId) (s : State) : State :=
  let e := latch s v
  viewMod v (fun w => { w with closed := some (w.index, w.t0 + w.index * windowTicks w.window, w.window, latchDiff w.start e),
                               start := e }) s

/-- R359: the window after the one just closed: a pending setting takes effect at the end tick, which becomes T0. -/
def nextWindow (w : ViewSt) : ViewSt :=
  match w.pending with
  | some us => { w with window := us, t0 := endTick w, index := 0, pending := none }
  | none => { w with index := w.index + 1 }

/-- WINDOW_END (R357): at the end tick the view latches its counters. -/
def windowEnd (v : ViewId) (s : State) : State :=
  let s := applyBefore (viewFn v) (some (endTick (viewOf s v))) s
  let s := viewMod v nextWindow (closeWindow v s)
  match v with | .vf i => traceVf (.vf i) 0x06 0xFFFF 0 s | _ => s

/-- R359: RESET_VF and TDISP cleanup close a VF's windows at the cleanup's tick, zero its counters and discard its trace slice. -/
def resetViews (f : Fn) (s : State) : State :=
  match f with
  | .pf => s
  | .vf i =>
    let s := closeWindow (.pfOf i) (applyBefore f.key none s)
    let t := (Config.tick s.opens).toNat
    let s := viewMod (.pfOf i) (fun w => { closed := w.closed, t0 := t }) (viewMod (.vf i) (fun _ => { t0 := t }) s)
    let r := mapGet {} s.tabor.trace f.key
    { s with opens := s.opens + 1
             tabor := { s.tabor with counts := s.tabor.counts.filter (fun e => e.1 / 128 != f.key)
                                     sets := s.tabor.sets.filter (fun c => c.fn != f.key)
                                     trace := mapPut {} s.tabor.trace f.key { r with queue := [], blocks := [] } } }

/-- R321: a freeze closes the current windows of a VF's views; the next ones begin there. Log entry 85 (DEDUCED). -/
def freezeViews (f : Fn) (s : State) : State :=
  match f with
  | .pf => s
  | .vf i =>
    let t := (Config.tick s.opens).toNat
    let restart := fun (w : ViewSt) => { w with t0 := t, index := 0 }
    let s := closeWindow (.vf i) (closeWindow (.pfOf i) (applyBefore f.key none s))
    viewMod (.vf i) restart (viewMod (.pfOf i) restart { s with opens := s.opens + 1 })

end Sys2Proof.Machine
end

