-- ==== Sys2Proof/Machine/Cleanup.lean ====
section
/-! DEFINITION. The end of contexts, jobs and VFs: clearing a context's state (Table 10-5), aborting commands, unmapping objects,
the steps of CONTEXT_ABANDON (R300) and LEAVE_JOB (R117), and the TDISP cleanup sequence (R164). -/
namespace Sys2Proof.Machine

/-! ### Streams, members, objects -/

/-- Close the streams that a predicate names at this end: queued frames are discarded and counted, KIDs retired (R299). -/
def closeStreams (p : Fn → W16 → Bool) (s : State) : State :=
  let outs := s.sends.filter (fun t => p t.fn t.ctx)
  let ins := s.recvs.filter (fun t => p t.fn t.ctx)
  let gone := fun (job : W16) (sid : W32) =>
    outs.any (fun t => t.job == job && t.sid == sid) || ins.any (fun t => t.job == job && t.sid == sid)
  let s := { s with sends := s.sends.filter (fun t => !p t.fn t.ctx), recvs := s.recvs.filter (fun t => !p t.fn t.ctx) }
  let s := purgeWaits gone s.waits (eachPort (purgeQueue gone) allPorts s)
  retireKids (outs.flatMap (fun t => t.kid :: t.next.toList) ++ ins.flatMap (fun t => t.kid :: t.next.toList)) s

/-- Count a VF counter several times. -/
def countFnN (f : Fn) (code : Nat) : Nat → State → State
  | 0, s => s
  | n + 1, s => countFnN f code n (countFn f code s)

/-- Cache entries tagged to a context are invalidated in every engine (R126). -/
def uncacheCtx (f : Fn) (ctx : W16) (s : State) : State :=
  let ks := kidsOfCtx s f ctx ++ (s.ks.kids.filter (fun e => e.2.owner == some f && e.2.st == .retiring
    && (match mapFind s.ks.slots e.2.slot with | some x => x.ctx == ctx | none => false))).map (fun e => BitVec.ofNat 16 e.1)
  let s := { s with ks := { s.ks with caches := (s.ks.caches.map (fun e => (e.1, e.2.filter (fun k => !ks.contains k)))).filter (fun e => !e.2.isEmpty) } }
  ks.foldl (fun s k => finishRetire k s) s

/-- R360: the per-command set of a context is snapshotted and dropped. -/
def foldSet (f : Fn) (ctx : W16) (s : State) : State :=
  match s.tabor.sets.find? (fun c => c.fn == f.key && c.ctx == ctx) with
  | none => s
  | some c =>
    emit (.snapshot f ctx c.counts c.sat false)
      { s with tabor := { s.tabor with sets := s.tabor.sets.filter (fun c => !(c.fn == f.key && c.ctx == ctx)) } }

/-- R298: clear the state of Table 10-5 tagged to a context. -/
def clearCtx (f : Fn) (ctx : W16) (s : State) : State :=
  let a := (s.snare.filter (fun e => e.fn == f && e.dstCtx == ctx)).length
  let b := (s.localSnare.filter (fun e => e.fn == f && e.ctx == ctx)).length
  let s := { s with snare := s.snare.filter (fun e => !(e.fn == f && e.dstCtx == ctx))
                    localSnare := s.localSnare.filter (fun e => !(e.fn == f && e.ctx == ctx)) }
  let s := countFnN f 0x24 (a + b) s
  let s := closeStreams (fun g c => g == f && c == ctx) s
  let s := uncacheCtx f ctx s
  foldSet f ctx { s with members := s.members.filter (fun e => !(e.2.fn == f && e.2.ctx == ctx)) }

/-- The parts of a range outside the ranges of a list. -/
def minusRanges : List (Nat × Nat) → List (Nat × Nat) → List (Nat × Nat)
  | l, [] => l
  | l, (a, b) :: rs =>
    minusRanges (l.flatMap (fun x =>
      (if x.1 < min x.2 a then [(x.1, min x.2 a)] else []) ++ (if max x.1 b < x.2 then [(max x.1 b, x.2)] else []))) rs

/-- Hand ranges to the scrubber (R297). -/
def toScrubber (opcode : W32) (carve : Option Nat) (l : List (Nat × Nat)) (s : State) : State :=
  { s with scrub := s.scrub ++ l.map (fun r => { lo := r.1, hi := r.2, opcode := opcode, carve := carve }) }

/-- Traffic admitted to an object has not all completed (R288 step 2). -/
def objBusy (s : State) (f : Fn) (i : Nat) (o : ObjSt) : Bool :=
  s.writes.any (fun w => w.2.obj == some (f.key, i)) || s.accesses.any (fun a => a.2.obj == some (f.key, i))
    || s.prog.any (fun p =>
        let inside := fun (a : W64) => a.getLsbD 63 && decide (o.base ≤ a.toNat % 2 ^ 63 ∧ a.toNat % 2 ^ 63 < o.base + o.size)
        p.fn == f && (bulkTouches p.act).any inside)

/-- R288 step 3: free an object's index; parts that no live object maps go to the scrubber where the unmapping asks for it. -/
def freeObj (f : Fn) (i : Nat) (o : ObjSt) (s : State) : State :=
  let s := fnMod f (fun x => { x with objs := mapErase x.objs i, objReuse := mapMod 0 x.objReuse i (· + 1) }) s
  if o.scrub then
    toScrubber 0x43 none (minusRanges [(o.base, o.base + o.size)]
      (((fnOf s f).objs.filter (fun e => !e.2.unmapping)).map (fun e => (e.2.base, e.2.base + e.2.size)))) s
  else s

/-- Free the unmapping objects of a function whose traffic has ended. -/
def settleObjs (f : Fn) : FMap ObjSt → State → State
  | [], s => s
  | (i, o) :: l, s => settleObjs f l (if o.unmapping && !objBusy s f i o then freeObj f i o s else s)

/-- Objects of every function. -/
def settleAllObjs : List Fn → State → State
  | [], s => s
  | f :: l, s => settleAllObjs l (settleObjs f (fnOf s f).objs s)

/-- Objects enter UNMAPPING (R288 step 1). -/
def unmapObjs (f : Fn) (p : ObjSt → Bool) (scrub : Bool) (s : State) : State :=
  fnMod f (fun x => { x with objs := x.objs.map (fun e => if p e.2 then (e.1, { e.2 with unmapping := true, scrub := scrub }) else e) }) s

/-- Close a bulk context (R343): its state is zeroised, its index freed, the reuse count advanced. -/
def closeBulk (k : Nat) (s : State) : State :=
  match mapFind s.bulk k with
  | none => s
  | some b =>
    let s := { s with bulk := mapErase s.bulk k, bulkReuse := mapMod 0 s.bulkReuse k (· + 1) }
    if s.bulk.any (fun e => e.1 / 16 == k / 16 && e.2.kid == b.kid) then s else finishRetire b.kid (uncacheKid (42 + k / 16) b.kid s)

/-- Close the bulk contexts that a predicate names. -/
def closeBulks (p : BulkCtx → Bool) (s : State) : State := eachIdx closeBulk ((s.bulk.filter (fun e => p e.2)).map (·.1)) s

/-- A unit reset of bulk engine `e` (R310, R343): its key cache and context registers are zeroised, its contexts lose their state. -/
def resetEngine (e : Nat) (s : State) : State :=
  let kids := mapGet [] s.ks.caches (42 + e)
  let s := { s with bulk := s.bulk.map (fun (b : Nat × BulkCtx) => if b.1 / 16 = e then (b.1, { b.2 with state := .lost, key := none, tweak := none, chain := {} }) else b) }
  let s := { s with late := s.late.filter (fun x => x.engine != some e) }
  kids.foldl (fun s k => finishRetire k s) (clearCache (42 + e) s)

/-- R312: a replay that is ended without completion: its engine is reset again. -/
def endReplay (s : State) : State :=
  match s.replayEngine with
  | some e => resetEngine e { s with replayEngine := none }
  | none => s

/-! ### Aborting commands -/

/-- Release what a command in progress holds (R62, R300 step 3). -/
def releaseHolds (p : InProg) (s : State) : State :=
  match p.act with
  | .join _ kid _ _ => releaseKid kid s
  | .resume key _ kid .. => releaseKid kid { s with regions := mapErase s.regions key }
  | .regionCreate key kid => releaseKid kid { s with regions := mapErase s.regions key }
  | .park key _ _ _ _ step _ =>
    if step < 2 then regionMod key RegionSt.backLive s else parkRegion key s
  | .handover key nk step => if step < 3 then regionMod key RegionSt.backLive (cancelOffer key nk step stAborted 0 s) else dropRegion key s
  | .regionFree key => freeRegion key s
  | .openSend _ _ kid => releaseKid kid s
  | .openRecv sid _ kid _ _ sendDone recvDone _ sendKid =>
    let s := if recvDone then retireKid kid { s with recvs := s.recvs.filter (fun t => !(t.sid == sid && t.kid == kid)) } else releaseKid kid s
    if sendDone then
      retireKids ((s.sends.filter (fun t => t.kid == sendKid)).flatMap (fun t => t.kid :: t.next.toList))
        { s with sends := s.sends.filter (fun t => t.kid != sendKid) }
    else releaseKid sendKid s
  | .migrateKey kid .. => releaseKid kid s
  | .debugGrant _ kid => releaseKid kid s
  | .replay .. => endReplay s
  | _ => s

/-- The bulk engine that a command's request is at. -/
def atEngine (s : State) (q : InProg) : Option Nat :=
  if !q.hold.engine then none
  else match q.act with
    | .replay .. => s.replayEngine
    | a => (bulkOf a).map (fun b => b.toNat / 16 % 2)

/-- R306: a request or host transfer of a command that ends is still out. -/
def leaveOut (q : InProg) (s : State) : State :=
  if q.hold.dma || q.hold.kxe || q.hold.engine then
    { s with late := s.late ++ [{ fn := q.fn, idx := q.idx, target := q.target, engine := atEngine s q, gen := genOf s q.target }] }
  else s

/-- Abort a command in progress: what it holds is released and its record carries the reset generation in force. -/
def abortCmd (p : InProg) (s : State) : State :=
  match findProg s p.fn p.idx with
  | none => s
  | some q => complete q stAborted ((genOf s q.target).setWidth 32) 0 (releaseHolds q (leaveOut q s))

/-- Abort the commands of a list. -/
def abortCmds : List InProg → State → State
  | [], s => s
  | p :: l, s => abortCmds l (abortCmd p s)

/-- R343, Table 12-8: a switch of the context that bulk contexts are tagged to: a request that runs on one is aborted; an IDLE context
that is not detached stays IDLE, every other one loses its state. -/
def switchBulk (f : Fn) (ctx : W16) (s : State) : State :=
  let mine := fun (b : BulkCtx) => b.vf == f && b.ctx == ctx
  let runs := s.prog.filter (fun p => p.fn == f && p.hold.engine && (match bulkOf p.act with
    | some b => (match mapFind s.bulk (b.toNat % 65536) with | some c => mine c | none => false)
    | none => false))
  let s := abortCmds runs s
  let others := fun (e : Nat) (kid : W16) => s.bulk.any (fun b => b.1 / 16 == e && b.2.kid == kid && !mine b.2)
  let s := ((s.bulk.filter (fun b => mine b.2 && b.2.kid != 0 && !others (b.1 / 16) b.2.kid)).map (fun b => (b.1 / 16, b.2.kid))).foldl
    (fun s x => finishRetire x.2 (uncacheKid (42 + x.1) x.2 s)) s
  { s with bulk := s.bulk.map (fun e => if mine e.2 then
      (e.1, { e.2 with chain := {}, key := none, tweak := none, state := if e.2.state = .idle ∧ e.2.key = none then .idle else .lost }) else e) }

/-! ### Regions and keys of a job -/

/-- R135: the root that a checkpoint's wrap gives back; none when it does not verify under the PF's durable wrap key. -/
def checkpointRoot (s : State) (c : Checkpoint) : Option Node :=
  (Config.kwUnwrap (wrapKey s .pf true) c.wrapped).map (fun l => BitVec.ofNat 512 (ofLe l))
/-- A durable checkpoint covers a directory (R135): the root of the one with the highest sequence number whose wrap verifies. -/
def covered (s : State) (r : RegionSt) : Option Node :=
  if !r.isDir then none
  else
    let c := s.flash.checkpoints.filter (fun c => c.job == r.job && c.keeper == s.fab.id && c.home == r.home && (checkpointRoot s c).isSome)
    (c.foldl (fun a x => match a with | none => some x | some y => if y.seq < x.seq then some x else some y) none).bind (checkpointRoot s)

/-- A region enters FREEING and its KID is retired (R117, R278, R300). -/
def beginFree (opcode : Byte) (k : Nat) (s : State) : State :=
  match regionAt s k with
  | none => s
  | some r =>
    let s := regionMod k (fun r => { r with state := .freeing, opcode := opcode, gone := r.gone || r.state == .lost }) s
    if (mapFind s.ks.kids r.kid.toNat).isSome then retireKid r.kid s else s

/-- R117: free a region of a job that ends; a directory that a checkpoint covers keeps its storage. Log entry 33 (DEDUCED). -/
def endRegion (k : Nat) (s : State) : State :=
  match regionAt s k with
  | none => s
  | some r => if (covered s r).isSome then dropRegion k s else freeRegion k s

/-- Free the regions of a list. -/
def endRegions : List Nat → State → State
  | [], s => s
  | k :: l, s => endRegions l (endRegion k s)

/-- Regions kept for a function. -/
def regionsOf (s : State) (f : Fn) : List Nat := (s.regions.filter (fun e => e.2.fn == f)).map (·.1)

/-- Every KID of function `f` that is not reserved, quarantined or gone. -/
def activeKids (s : State) (f : Fn) : List W16 :=
  (s.ks.kids.filter (fun e => e.2.owner == some f && (e.2.st == .live || e.2.st == .suspended || e.2.st == .retiring))).map
    (fun e => BitVec.ofNat 16 e.1)

/-- R117: every KID of the VF retires, its streams end, its regions enter FREEING. -/
def beginEnd (f : Fn) (s : State) : State :=
  let s := closeStreams (fun g _ => g == f) s
  let s := eachIdx (beginFree 0x02) (regionsOf s f) s
  retireKids (kidsOfFn s f) s

/-- The VF is unbound and its return-filter entries are released (R117, R234). -/
def unbind (f : Fn) (s : State) : State :=
  match (fnOf s f).job with
  | none => s
  | some job =>
    { fnMod f (fun x => { x with job := none, jmkKid := 0 }) s with filter := s.filter.filter (fun e => !(e.2.claimed && e.2.job == job)) }

/-! ### CONTEXT_ABANDON (R300) -/

/-- Commands of a context in progress on the function that acts, other than the abandonment itself. -/
def ctxCmds (s : State) (f : Fn) (ctx : W16) (self : Fn × W32) : List InProg :=
  s.prog.filter (fun p => p.target == f && p.ctx == ctx && !((p.fn, p.idx) == self))

/-- Steps 1 to 6 of an abandonment, as far as they need no wait: the KIDs and regions it then waits for, and the state. -/
def abandonCtx (f : Fn) (ctx : W16) (self : Fn × W32) (s : State) : List W16 × List Nat × State :=
  let s := fnMod f (fun x => { x with ctxs := mapMod {} x.ctxs ctx.toNat (fun c => { c with gen := c.gen + 1, live := false, suspect := false }) }) s
  let s := clearCtx f ctx s
  let s := abortCmds (ctxCmds s f ctx self) s
  let s := abandonFences f ctx s
  let s := unmapObjs f (fun o => o.ctx == ctx && !o.unmapping) true s
  let rs := (s.regions.filter (fun e => e.2.fn == f && e.2.ctx == ctx && e.2.state != .freeing)).map (·.1)
  let kids := kidsOfCtx s f ctx
  let s := closeBulks (fun b => b.vf == f && b.ctx == ctx) s
  let s := eachIdx (beginFree 0x43) rs s
  let s := retireKids kids s
  (kids, rs, s)

/-- Abandon the contexts of a list (cleanup step 2). -/
def abandonAll (f : Fn) (self : Fn × W32) : List Nat → State → State
  | [], s => s
  | c :: l, s => abandonAll f self l (abandonCtx f (BitVec.ofNat 16 c) self s).2.2

/-! ### The cleanup sequence (R164) -/

/-- Step 4: the block of one carve-out entry is staged for the next boundary (R293); an entry that is empty and stays so needs none. -/
def blockCarve (k : Nat) (s : State) : State :=
  let c := mapGet {} s.carves k
  if c.base = c.limit && !s.staged.any (fun x => match x with | .setEntry j _ _ => j == k | _ => false) then s
  else { s with carves := mapSet s.carves k { c with blockNext := true }, staged := s.staged ++ [.block k] }

/-- The carve-out entries of a function: one per stack set. -/
def carveKeys (f : Fn) : List Nat := [f.key * 3, f.key * 3 + 1, f.key * 3 + 2]

/-- R306: the generation after `g`. Log entry 26 (DEDUCED). -/
def nextGen (g : W16) : W16 := if g = 0xFFFF then 1 else g + 1

/-- Start the cleanup sequence of a VF: steps 1 and 2, and step 3 as far as it needs no wait. `byReset` names the RESET_VF that runs
it. -/
def startCleanup (f : Fn) (byReset : Option (Fn × W32)) (s : State) : State :=
  if (fnOf s f).cleaning.isSome then
    match byReset with
    | some c => fnMod f (fun x => { x with ctxs := [], cleaning := x.cleaning.map (fun k => { k with byReset := some c }) }) s
    | none => s
  else
    let self := byReset.getD (f, 0)
    let s := ringMod f (fun r => { r with closing := true }) s
    let s := abortCmds ((progOf s f).filter (fun p => !((p.fn, p.idx) == self))) s
    let live := ((fnOf s f).ctxs.filter (fun e => e.2.live)).map (·.1)
    let s := abandonAll f self live s
    let s := unmapObjs f (fun o => !o.unmapping) false s
    let s := freeAllFences f s
    let s := closeBulks (fun b => b.vf == f) (beginEnd f s)
    let s := retireKids (fnOf s f).migKids s
    let kids := activeKids s f
    resetViews f (fnMod f (fun x =>
      { x with ctxs := if byReset.isSome then [] else x.ctxs, quiesced := false, quiesceSet := [], frozen := false, migKids := [], save := none,
               restore := none, heldFilter := none, fabHeld := [], cleaning := some { kids := kids, byReset := byReset } }) s)

/-- A TDI moves to ERROR with its cleanup (R165); `any` says that CONFIG_UNLOCKED moves too. -/
def tdiError (any : Bool) (f : Fn) (s : State) : State :=
  let t := (fnOf s f).tdi
  if t.state = .locked ∨ t.state = .run ∨ (any ∧ t.state = .unlocked) then
    startCleanup f none (fnMod f (fun x => { x with tdi := { x.tdi with state := .error, nonce := none } }) s)
  else s

/-- Several TDIs move to ERROR. -/
def tdisErrorClean (any : Bool) : List Fn → State → State
  | [], s => s
  | f :: l, s => tdisErrorClean any l (tdiError any f s)

/-- Answer the STOPs that a cleanup owed (R164). -/
def answerStops (f : Fn) : List (BitVec 1) → State → State
  | [], s => s
  | p :: l, s => answerStops f l (emit (.respond p .stopResponse) s)

/-- Disable a function's ring: it reads disabled once nothing is in progress (R411). -/
def disableRing (f : Fn) (s : State) : State :=
  settleRing f (ringMod f (fun r => { r with ctrl := false }) s)

/-- R60, Table 11-2: a reset of a function reads its doorbell record, to flush the function's earlier DMA writes. -/
def flushFn (f : Fn) (s : State) : State :=
  if (ringOf s f).enabled || (ringOf s f).enabling then emit (.flushRead (viaOf s f)) s else s
/-- Flush the functions of a list. -/
def flushFns : List Fn → State → State
  | [], s => s
  | f :: l, s => flushFns l (flushFn f s)

/-- The end of steps 3 and 4: the regions are freed, the VF is unbound, the block of its carve-outs is staged. -/
def blockCarves (f : Fn) (s : State) : State :=
  let s := unbind f (endRegions (regionsOf s f) s)
  fnMod f (fun x => { x with cleaning := x.cleaning.map (fun c => { c with blocking := true }) }) (eachIdx blockCarve (carveKeys f) s)

/-- The rest of a cleanup sequence once the checkers have applied step 4: step 5 advances the generation; then the RESET_VF record and
completion, step 6 and the answers to STOPs. -/
def endCleanup (f : Fn) (c : CleanSt) (s : State) : State :=
  let s := fnMod f (fun x => { x with gen := nextGen x.gen, cleaning := none }) s
  let gen := (fnOf s f).gen
  let s := match c.byReset with
    | some (rf, ri) =>
      let s := flushFn f s
      let s := trace .pf 0x42 0xFFFF (resAt 0 f.key) (asyncRecord f { kind := 3, status := stOk, result := resAt 0 gen.toNat } s)
      let s := disableRing f s
      match findProg s rf ri with
      | some p => complete p stOk 0 (resAt 0 gen.toNat) s
      | none => s
    | none => disableRing f s
  let owed := (fnOf s f).tdi.stopOwed
  let s := if owed.isEmpty then s
    else fnMod f (fun x => { x with tdi := { x.tdi with state := .unlocked, stopOwed := [], nonce := none } }) s
  answerStops f owed s

/-- The waits of a cleanup sequence are over: its KIDs have left RETIRING and its objects are free. -/
def cleanupDone (s : State) (f : Fn) (c : CleanSt) : Bool :=
  c.kids.all (notRetiring s) && (fnOf s f).objs.isEmpty && !(s.jobs.any (fun j => (regionsOf s f).contains j.region))

/-- A block of one of the function's entries has not been applied by the checkers (R293). -/
def blockWaits (s : State) (f : Fn) : Bool := (carveKeys f).any (fun k => (mapGet {} s.carves k).blockNext)

/-- A cleanup sequence goes on as far as its waits let it. -/
def settleCleanup (f : Fn) (c : CleanSt) (s : State) : State :=
  if !(c.blocking || cleanupDone s f c) then s
  else
    let s := if c.blocking then s else blockCarves f s
    if blockWaits s f then s else endCleanup f c s

/-- Cleanup sequences whose waits are over go on. -/
def settleCleanups : List Fn → State → State
  | [], s => s
  | f :: l, s =>
    settleCleanups l (match (fnOf s f).cleaning with
      | some c => settleCleanup f c s
      | none => s)

end Sys2Proof.Machine
end

