-- ==== Sys2Proof/Machine/ActsPool.lean ====
section
/-! DEFINITION. The last parts of commands on keys, regions, streams and partitions, run when what they wait for has come: JOIN_JOB,
LEAVE_JOB, PARK, RESUME, REGION_FREE, KEEPER_HANDOVER, REDUCE, KEY_ROTATE, STREAM_CLOSE, CARVE_*, CONTEXT_ABANDON, QUIESCE_VF,
RESET_VF, MIGRATE_FREEZE. -/
namespace Sys2Proof.Machine

/-- Change what a started command waits for and does next. -/
def goOn (p : InProg) (hold : Hold) (act : Act) (s : State) : State := holdCmd p hold act s

/-- Claim return-filter entries for a job (R325): an entry claimed elsewhere is counted as MIG_FILTER_SKIP. -/
def claimAll (f : Fn) (job : W16) : List (BitVec 12 × W16) → State → State
  | [], s => s
  | (b, g) :: l, s =>
    let e := mapGet {} s.filter b.toNat
    claimAll f job l (if e.claimed then countFn f 0x30 s
      else { s with filter := mapPut {} s.filter b.toNat { e with claimed := true, job := job, gen := g } })

/-- The HMAC of a return filter under BATCH-FILTER of its source package (R322). -/
def filterMac (jmk : Key) (source : BitVec 12) (job : W16) (entries : List (BitVec 12 × W16)) : BitVec 128 :=
  BitVec.ofNat 128 (ofBe ((be 48 (Config.hmacSha384 (be 32 (filterKey jmk source).toNat) (Config.filterImage job entries)).toNat).take 16))
/-- R325: apply a return-filter chunk to a VF bound to its job; a failed HMAC discards it. -/
def applyFilter (f : Fn) (x : FilterImage) (s : State) : State :=
  if filterMac (keyOf s (fnOf s f).jmkKid) (Config.sourcePackage x.device) x.job x.entries = x.mac then claimAll f x.job x.entries s
  else countFn f 0x31 s

/-- A 16-byte byte string as RESULT holds it, first byte at the lowest offset. Log entry 164 (PRESUMED). -/
def resBytes (x : BitVec 128) : BitVec 128 := BitVec.ofNat 128 (ofLe (be 16 x.toNat))
/-- JOIN_JOB after the KXE (R116): the key is placed, the VF bound, the confirmation returned; or AUTH_FAILED. -/
def actJoin (p : InProg) (jobId kid : W16) (key : Key) (ok : Bool) (s : State) : State :=
  if !ok then complete p stAuthFailed 0 0 (releaseKid kid s)
  else
    let s := activateKid kid (placeKey kid (mkSlot key .job useParent p.fn jobId 0xFFFF 0) s)
    let s := fnMod p.fn (fun x => { x with job := some jobId, jmkKid := kid }) s
    let s := match (fnOf s p.fn).heldFilter with
      | some x => if x.job = jobId then applyFilter p.fn x (fnMod p.fn (fun y => { y with heldFilter := none }) s) else s
      | none => s
    complete p stOk 0 (resBytes (confirmation key jobId (s.fab.id.setWidth 16) s.ks.keHash)) s

/-- LEAVE_JOB once the job's pool commands have completed (R117). -/
def actLeave (p : InProg) (jobId : W16) (s : State) : State :=
  let s := beginEnd p.fn s
  goOn p { kids := activeKids s p.fn } (.leaveDone jobId (regionsOf s p.fn)) s

/-- LEAVE_JOB once every KID has left RETIRING: regions are freed, the VF is unbound. -/
def actLeaveDone (p : InProg) (keys : List Nat) (s : State) : State :=
  complete p stOk 0 0 (unbind p.fn (endRegions keys s))

/-! ### The directory (R131 to R135) -/

/-- The 112 bytes under a directory entry's wrap (Table 05-11). -/
def entryPlain (key : Key) (root : Node) (rid : BitVec 40) (epoch dirIndex : W32) : List Byte :=
  be 32 key.toNat ++ le 64 root.toNat ++ le 8 rid.toNat ++ le 4 epoch.toNat ++ le 4 dirIndex.toNat

/-- A parked region's directory entry (Table 05-11). -/
def entryLine (r : RegionSt) (durable : Bool) (boot base : Nat) (wrapped : List Byte) : List Byte :=
  le 8 r.rid.toNat ++ le 4 r.epoch.toNat ++ le 2 r.home.toNat ++ [if durable then 2 else 1, 0] ++ le 8 r.size ++ le 8 boot ++ le 8 base
    ++ wrapped ++ zeros 96

/-- Fields of an entry as read. -/
def entryField (d : List Byte) (off n : Nat) : Nat := ofLe ((d.drop off).take n)
/-- ENTRY_STATE. -/
def entryState (d : List Byte) : Nat := entryField d 14 1
/-- R132: the entry is free: empty, or volatile of an earlier creation of the directory. -/
def entryFree (d : List Byte) (base : Nat) : Bool := entryState d == 0 || (entryState d == 1 && decide (entryField d 32 8 < base))

/-- Begin a command's own pool request on region `k`. -/
def cmdJob (p : InProg) (k : Nat) (kind : PoolKind) (offset length : Nat) (data : List Byte) (s : State) : Nat × State :=
  addJob k (.command p.fn p.idx) kind offset length data s

/-- Take a command's finished pool request away: its status, DETAIL and data. -/
def takeJob (id : Nat) (s : State) : W16 × W32 × List Byte × State :=
  match jobAt s id with
  | some j => (j.status, j.detail, j.data, { s with jobs := s.jobs.filter (fun x => x.id != id) })
  | none => (stPeerLost, 0, [], s)

/-- PARK (R132): the entry read, the region written back, the entry written, the checkpoint, the KID retired. Log entry 34 (DEDUCED). -/
def actPark (p : InProg) (key dir : Nat) (kid : W16) (dirIndex : W32) (durable : Bool) (step jobId : Nat) (s : State) : State :=
  let live := regionMod key RegionSt.backLive
  match regionAt s key, regionAt s dir with
  | some r, some d =>
    match step with
    | 0 =>
      let (st, dt, data, s) := takeJob jobId s
      if st ≠ stOk then complete p st dt 0 (live s)
      else if !entryFree data d.base then complete p stBadState (BitVec.ofNat 32 (entryState data)) 0 (live s)
      else goOn p {} (.park key dir kid dirIndex durable 1 0) s
    | 1 =>
      if regionClean s key then
        let w := Config.kwWrap (wrapKey s p.fn durable) (entryPlain (keyOf s kid) r.root r.rid r.epoch dirIndex)
        let (id, s) := cmdJob p dir .write (dirIndex.toNat * 256) 256 (entryLine r durable s.pkg.boot d.base w) s
        poolPump (goOn p { jobs := [id] } (.park key dir kid dirIndex durable 2 id) s)
      else poolPump (writeBackAll key r.depth 1 s)
    | 2 =>
      let (st, dt, _, s) := takeJob jobId s
      if st ≠ stOk then complete p st dt 0 (live s)
      else if durable then goOn p { checkpoint := true } (.park key dir kid dirIndex durable 3 0) s
      else goOn p { kids := [kid] } (.park key dir kid dirIndex durable 4 0) (retireKid kid s)
    | 3 => goOn p { kids := [kid] } (.park key dir kid dirIndex durable 4 0) (retireKid kid s)
    | _ => complete p stOk 0 0 (parkRegion key s)
  | _, _ => complete p stPeerLost 0 0 (live s)

/-- A RESUME that fails leaves the entry as it was and releases its reservation. -/
def failResume (p : InProg) (key : Nat) (kid st : W16) (dt : W32) (s : State) : State :=
  complete p st dt 0 (releaseKid kid { s with regions := mapErase s.regions key })

/-- RESUME (R133): the entry read and checked, unwrapped, the region loaded, the entry written empty, the checkpoint.
Log entry 29 (DEDUCED). -/
def actResume (p : InProg) (key dir : Nat) (kid : W16) (dirIndex : W32) (durable : Bool) (step jobId : Nat) (s : State) : State :=
  match regionAt s key, regionAt s dir with
  | some r, some d =>
    match step with
    | 0 =>
      let (st, dt, data, s) := takeJob jobId s
      if st ≠ stOk then failResume p key kid st dt s
      else if entryState data ≠ (if durable then 2 else 1) ∨ entryField data 0 8 ≠ r.rid.toNat ∨ (!durable ∧ entryField data 32 8 ≠ d.base) then
        failResume p key kid stBadState (BitVec.ofNat 32 (entryState data)) s
      else match Config.kwUnwrap (wrapKey s p.fn durable) ((data.drop 40).take 120) with
        | none => failResume p key kid stAuthFailed 0 s
        | some bytes =>
          if entryField bytes 96 8 ≠ r.rid.toNat ∨ entryField bytes 108 4 ≠ dirIndex.toNat then failResume p key kid stAuthFailed 0 s
          else
            let epoch : W32 := BitVec.ofNat 32 (entryField bytes 104 4)
            let s := placeKey kid { mkSlot (BitVec.ofNat 256 (ofBe (bytes.take 32))) .region usePool p.fn r.job p.ctx p.ctxGen with
              epoch := epoch, subject := r.rid, parent := (fnOf s p.fn).jmkKid } s
            let s := regionMod key (fun r =>
              { r with root := BitVec.ofNat 512 (entryField bytes 32 64), size := entryField data 16 8,
                       home := BitVec.ofNat 12 (entryField data 12 2), epoch := epoch, base := d.base }) s
            let (id, s) := cmdJob p dir .write (dirIndex.toNat * 256) 256 (List.replicate 256 0) s
            poolPump (goOn p { jobs := [id] } (.resume key dir kid dirIndex durable 1 id) s)
    | 1 =>
      let (st, dt, _, s) := takeJob jobId s
      if st ≠ stOk then failResume p key kid st dt s
      else goOn p { checkpoint := durable } (.resume key dir kid dirIndex durable 2 0) s
    | _ =>
      let s := regionMod key RegionSt.backLive (activateKid kid (unparkFences key s))
      complete p stOk 0 (kid.setWidth 128) s
  | _, _ => failResume p key kid stPeerLost 0 s

/-! ### Handover and reductions -/

/-- The bytes of a MGMT handover message: kind, region id, then the offer's fields (R279; the layout is the model's own).
Log entry 30 (DESIGN CHOICE). -/
def offerBytes (r : RegionSt) (key : Key) : List Byte :=
  [0x01] ++ be 5 r.rid.toNat ++ be 4 r.epoch.toNat ++ be 2 r.creator.toNat ++ be 8 r.size ++ be 2 r.home.toNat ++ be 8 r.base
    ++ be 32 key.toNat ++ be 64 r.root.toNat

/-- KEEPER_HANDOVER before its offer and after its commit (R279). -/
def actHandover (p : InProg) (key : Nat) (newKeeper : BitVec 12) (step : Nat) (s : State) : State :=
  match regionAt s key with
  | none => complete p stPeerLost (newKeeper.setWidth 32) 0 s
  | some r =>
    if step = 0 then
      if regionClean s key then
        goOn p { peer := true } (.handover key newKeeper 1) (sendMgmt r.fn newKeeper (offerBytes r (keyOf s r.kid)) s)
      else poolPump (writeBackAll key r.depth 1 s)
    else complete p stOk 0 0 (dropRegion key s)

/-- REDUCE once all its parts have ended: the first part that failed gives the status. -/
def actReduce (p : InProg) (ids : List Nat) (s : State) : State :=
  let js := s.jobs.filter (fun j => ids.contains j.id)
  let lines := ((js.filter (fun j => j.status == stOk)).map (·.lineCount)).sum
  let s := { s with jobs := s.jobs.filter (fun j => !ids.contains j.id) }
  match js.find? (fun j => j.status != stOk) with
  | some j => complete p j.status j.detail (BitVec.ofNat 128 lines) s
  | none => complete p stOk 0 (BitVec.ofNat 128 lines) s

/-! ### Streams -/

/-- The stream id of the other direction. -/
def swapSid (sid : W32) : W32 := streamId (sidDst sid) (sidSrc sid) (BitVec.ofNat 4 (sidClass sid)) (sidOrd sid)

/-- KEY_ROTATE once its EPOCH_END is sealed (R188): RESULT the stream's new KID. -/
def actRotate (p : InProg) (job : W16) (sid : W32) (s : State) : State :=
  match findSend s job sid with
  | some t => complete p stOk 0 (t.kid.setWidth 128) (activateKid t.kid s)
  | none => complete p stBadState 0 0 s

/-- KIDs of a stream that are RETIRING. -/
def leavingKids (s : State) (job : W16) (sid : W32) : List W16 :=
  (s.ks.kids.filter (fun e => e.2.st == .retiring && (match slotOf s (BitVec.ofNat 16 e.1) with
    | some x => x.kind == .stream && x.job == job && x.subject == sid.setWidth 40
    | none => false))).map (fun e => BitVec.ofNat 16 e.1)

/-- STREAM_CLOSE (R189): once its CLOSE has left the queue, the sealing KIDs are awaited; the receiving direction waits for the peer's
CLOSE. Log entry 38 (DEDUCED). -/
def actClose (p : InProg) (sid : W32) (job : W16) (sending receiving : Bool) (s : State) : State :=
  if sending then
    let s := endSend job sid s
    goOn p { kids := leavingKids s job sid } (.close sid job false receiving) s
  else if receiving ∧ (findRecv s job (swapSid sid)).isSome then s
  else complete p stOk 0 0 s

/-! ### Partitions -/

/-- CARVE_GROW and CARVE_SHRINK after a boundary (R294, R295): a shrink drains the released range, then stages its end. -/
def actCarve (p : InProg) (key base limit step : Nat) (s : State) : State :=
  if step = 1 then
    match mapFind s.carves key with
    | some c =>
      let inFlight := (s.accesses.filter (fun a => decide
        ((a.2.addr < base ∨ limit < a.2.addr + a.2.len) ∧ c.base ≤ a.2.addr ∧ a.2.addr + a.2.len ≤ c.limit))).map (·.1)
      let landing := (s.writes.filter (fun w => decide
        ((w.2.addr < base ∨ limit < w.2.addr + w.2.len) ∧ c.base ≤ w.2.addr ∧ w.2.addr + w.2.len ≤ c.limit))).map (·.1)
      let f := fnAt (key / 3)
      let ending := ((fnOf s f).objs.filter (fun o => o.2.unmapping && decide (c.base < o.2.base + o.2.size ∧ o.2.base < c.limit)
        && decide (o.2.base < base ∨ limit < o.2.base + o.2.size))).map (fun o => (f.key, o.1))
      goOn p { accesses := inFlight, writes := landing, objs := ending } (.carve key base limit 2) s
    | none => complete p stOk 0 0 s
  else if step = 2 then
    goOn p { boundary := true } (.carve key base limit 3) { s with staged := s.staged ++ [.shrinkEnd key base limit] }
  else complete p stOk 0 0 s

/-- CONTEXT_ABANDON's step 7 (R300). Log entry 49 (DEDUCED). -/
def actAbandon (p : InProg) (newGen : W16) (regions : List Nat) (s : State) : State :=
  complete p stOk 0 (newGen.setWidth 128) (eachIdx freeRegion regions s)

/-- RESET_VF once what had to be drained has ended: the cleanup sequence runs; it completes the command (R314). -/
def actReset (p : InProg) (vf : Fn) (s : State) : State :=
  let s := goOn p { signal := true } (.reset vf 1) s
  let t := (fnOf s vf).tdi
  let s := if t.state = .locked ∨ t.state = .run then fnMod vf (fun x => { x with tdi := { x.tdi with state := .error, nonce := none } }) s else s
  startCleanup vf (some (p.fn, p.idx)) s

/-- MIGRATE_FREEZE (R321): nothing in progress, then streams closed and the carve-outs restricted at the next boundary, then the
window of the VF's views closed. Log entry 107 (DEDUCED). -/
def actFreeze (p : InProg) (vf : Fn) (step : Nat) (s : State) : State :=
  if step = 0 then
    let s := fnMod vf (fun x => { x with frozen := true }) s
    let kids := (s.sends.filter (fun t => t.fn == vf)).flatMap (fun t => t.kid :: t.next.toList)
      ++ (s.recvs.filter (fun t => t.fn == vf)).flatMap (fun t => t.kid :: t.next.toList)
    let s := closeStreams (fun g _ => g == vf) s
    goOn p { boundary := true, kids := kids } (.freeze 1) { s with staged := s.staged ++ [.freeze vf.key true] }
  else complete p stOk 0 0 (freezeViews vf s)

end Sys2Proof.Machine
end

