-- ==== Sys2Proof/Machine/Firewall.lean ====
section
/-! DEFINITION. The memory firewall: stack sets, carve-outs, the permissions of Table 10-3, the reach of the debug master's data
rights (R354), dirty marks (R36), and changes of the carve-out table at fabric epoch boundaries (10_partitions.md). -/
namespace Sys2Proof.Machine

/-! ### Stack sets and carve-outs (R290, R291) -/

/-- First fabric address of a stack set's window (Table 10-2). -/
def setBase (set : Nat) : Nat := set * 2 ^ 38
/-- Bytes of a window: 192 GiB. -/
def setSize : Nat := 192 * 2 ^ 30
/-- The stack set of a fabric address; none outside the three windows. -/
def setOf (addr : Nat) : Option Nat := if addr / 2 ^ 38 < 3 ∧ addr % 2 ^ 38 < setSize then some (addr / 2 ^ 38) else none
/-- The carve-out granularity, and that of dirty segments: 2 MiB. -/
def segSize : Nat := 2 ^ 21
/-- The number of a function's carve-out entry in a stack set. -/
def carveKey (f : Fn) (set : Nat) : Nat := f.key * 3 + set
/-- A carve-out entry. -/
def carveAt (s : State) (k : Nat) : CarveSt := mapGet {} s.carves k

/-- A range of `n` bytes from `a` lies inside lo to hi. -/
def inside (lo hi a n : Nat) : Bool := decide (lo ≤ a ∧ a + max n 1 ≤ hi)
/-- Two ranges, limits exclusive, meet. -/
def meets (lo hi a b : Nat) : Bool := decide (max lo a < min hi b)

/-- R301: the trace carve-out, at the top of stack set 0x02's window. -/
def traceLo (s : State) : Nat := setBase 2 + setSize - s.tabor.gib * 2 ^ 30
/-- End of the trace carve-out, exclusive. -/
def traceHi : Nat := setBase 2 + setSize

/-- Table 10-3: the entry admits accesses to the range: OPEN, or SHRINKING outside the released range. Log entry 58 (DEDUCED). -/
def carveAdmits (c : CarveSt) (a n : Nat) : Bool :=
  match c.state with
  | .open_ => inside c.base c.limit a n
  | .shrinking => inside c.keepLo c.keepHi a n
  | .blocked => false

/-- The range meets a range that is being scrubbed or waits to be (R297). -/
def scrubbing (s : State) (a n : Nat) : Bool := s.scrub.any (fun r => meets r.lo r.hi a (a + max n 1))

/-- The carve-out of function `f` in the address's stack set admits the range. A freeze leaves only the engines' reads (R321). -/
def carveOk (s : State) (f : Fn) (a n : Nat) (engineRead : Bool) : Bool :=
  match setOf a with
  | none => false
  | some k =>
    let c := carveAt s (carveKey f k)
    carveAdmits c a n && (!c.frozen || engineRead) && !scrubbing s a n

/-! ### The debug master (R346, R354) -/

/-- All rights are in force without a certificate (R346). -/
def openRights (s : State) : Bool := rightsInForce s == allRights && s.grant.isNone
/-- SCOPE of the grant in force covers a VF; without a certificate every VF is in reach (DEDUCED, log entry 24). -/
def inScope (s : State) (v : BitVec 12) : Bool :=
  match s.grant with
  | some g => g.scope.getLsbD 15 || (g.scope.getLsbD 13 && g.scope.setWidth 12 == v)
  | none => openRights s
/-- SCOPE covers the PF. -/
def pfScope (s : State) : Bool := match s.grant with | some g => g.scope.getLsbD 14 | none => openRights s
/-- R354: the data rights reach a VF: in scope, bound to no job, its TDI unlocked. -/
def dataReach (s : State) (v : BitVec 12) : Bool :=
  inScope s v && (fnOf s (.vf v)).job.isNone && (fnOf s (.vf v)).tdi.state == .unlocked

/-- R354: the debug master's access to in-package memory of function `f`. -/
def debugOk (s : State) (f : Fn) (a n : Nat) (write : Bool) : Bool :=
  match f with
  | .vf v => hasRight s (if write then 6 else 5) && dataReach s v && carveOk s f a n false
  | .pf => !write && hasRight s 5 && pfScope s && carveOk s .pf a n false

/-! ### The check (R292) -/

/-- Table 10-3: what a requester class may reach. -/
def fwAllows (s : State) (cls : ReqClass) (f : Fn) (a n : Nat) (write : Bool) : Bool :=
  match cls with
  | .compute => f != .pf && carveOk s f a n false
  | .engine => f != .pf && carveOk s f a n (!write)
  | .homeResponder => carveOk s .pf a n false
  | .traceWriter => write && inside (traceLo s) traceHi a n
  | .scrubber => write && (match s.scrub with | r :: _ => inside r.lo r.hi a n | [] => false)
  | .debugMaster => debugOk s f a n write

/-- The firewall checker that an address meets: one per stack, by the hash (R290). -/
def checkerOf (a : Nat) : Nat :=
  match setOf a with | some k => k * 4 + Config.stackHash (a / 256) % 4 | none => Config.stackHash (a / 256) % 12

/-- The access lies in a range that a shrink of the function's carve-out releases (R295). -/
def closing (s : State) (f : Fn) (a n : Nat) : Bool :=
  match setOf a with
  | none => false
  | some k =>
    let c := carveAt s (carveKey f k)
    c.state == .shrinking && inside c.base c.limit a n && !inside c.keepLo c.keepHi a n

/-- R292, R295: count a refusal for the function and the checker. -/
def countRefused (f : Fn) (a n : Nat) (s : State) : State :=
  let s := countFn f (if closing s f a n then 0x2E else 0x2D) s
  { s with tabor := { s.tabor with checkers := bump s.tabor.checkers (f.key * 16 + checkerOf a) 1 } }

/-- The 2 MiB segments that a range of `n` bytes from `a` touches. -/
def segments (a n : Nat) : List Nat := (List.range ((a + max n 1 - 1) / segSize - a / segSize + 1)).map (· + a / segSize)

/-- The sizes, in segments, of a function's carve-outs in stack-set order, with their bases. -/
def carveSegs (s : State) (f : Fn) : List (Nat × Nat) :=
  [0, 1, 2].map (fun k => let c := carveAt s (carveKey f k); (c.base / segSize, (c.limit - c.base) / segSize))
/-- Segments of a function's carve-outs. -/
def segCount (s : State) (f : Fn) : Nat := ((carveSegs s f).map (·.2)).sum
/-- R322: the number, within the carve-outs, of the segment at address segment `a`. -/
def segIndexIn (a : Nat) : List (Nat × Nat) → Nat → Option Nat
  | [], _ => none
  | (b, n) :: l, off => if b ≤ a ∧ a < b + n then some (off + (a - b)) else segIndexIn a l (off + n)

/-- The first address of segment `k` within the carve-outs (R322). -/
def segAddr : List (Nat × Nat) → Nat → Option Nat
  | [], _ => none
  | (b, n) :: l, k => if k < n then some ((b + k) * segSize) else segAddr l (k - n)

/-- R36: a permitted write marks its segments while dirty logging of the VF is on; a segment already saved needs saving again. -/
def markWrite (f : Fn) (a n : Nat) (s : State) : State :=
  let x := fnOf s f
  let ks := if x.dirty.isSome || x.save.isSome then (segments a n).filterMap (fun g => segIndexIn g (carveSegs s f) 0) else []
  let s := if x.dirty.isSome then fnMod f (fun x => { x with marks := (x.marks ++ ks).eraseDups }) s else s
  if x.save.isSome then
    fnMod f (fun x => { x with save := x.save.map (fun v => { v with segments := v.segments.filter (fun e => !ks.contains e.1) }) }) s
  else s

/-- The first live object of a function that an Aedvik engine's access may belong to (R288). Log entry 52 (DEDUCED). -/
def objCovering (s : State) (f : Fn) (a n : Nat) : Option (Nat × Nat) :=
  ((fnOf s f).objs.find? (fun o => !o.2.unmapping && inside o.2.base (o.2.base + o.2.size) a n)).map (fun o => (f.key, o.1))

/-- FIREWALL_ACCESS (R292): an access that reaches a checker. -/
def firewallAccess (m : MemAccess) (s : State) : State :=
  let a := m.addr.toNat
  if !serving s || (mapFind s.accesses m.id).isSome then s
  else if fwAllows s m.cls m.fn a m.len m.write then
    let s := if m.write then markWrite m.fn a m.len s else s
    let x : AccSt := { fn := m.fn.key, addr := a, len := m.len, obj := if m.cls = .engine then objCovering s m.fn a m.len else none }
    emit (.accessOk m.id) { s with accesses := mapSet s.accesses m.id x }
  else emit (.accessRefused m.id) (countRefused (if m.cls = .debugMaster then .pf else m.fn) a m.len s)

/-! ### Fabric epochs (R293) -/

/-- Change a carve-out entry. -/
def carveMod (k : Nat) (g : CarveSt → CarveSt) (s : State) : State := { s with carves := mapPut {} s.carves k (g (carveAt s k)) }

/-- The three entries of a function number. -/
def entriesOf (fn : Nat) : List Nat := [fn * 3, fn * 3 + 1, fn * 3 + 2]

/-- R164 step 4: the entry enters BLOCKED and its range goes to the scrubber. -/
def enterBlocked (k : Nat) (s : State) : State :=
  let c := carveAt s k
  let s := carveMod k (fun c => { c with state := if c.base = c.limit then .open_ else .blocked, frozen := false, blockNext := false }) s
  if c.base = c.limit then s else toScrubber 0 (some k) [(c.base, c.limit)] s

/-- R295 step 3: a shrink ends: the entry takes the new range, the rest goes to the scrubber; an entry that the cleanup wants
blocked is blocked over its new range (Table 10-8). -/
def endShrink (k base limit : Nat) (s : State) : State :=
  let c := carveAt s k
  let s := toScrubber 0x41 none (minusRanges [(c.base, c.limit)] [(base, limit)]) s
  let s := carveMod k (fun c => { c with base := base, limit := limit, state := .open_, keepLo := 0, keepHi := 0 }) s
  if c.blockNext then enterBlocked k s else s

/-- R327: hand the segment marks of a VF to the DIRTY_LOG_SYNC that takes them, and clear them. -/
def takeMarks (fn : Nat) (cmd : Fn × W32) (s : State) : State :=
  match findProg s cmd.1 cmd.2 with
  | none => s
  | some p =>
    match p.act with
    | .dirtySync addr bits _ =>
      let m := (fnOf s (fnAt fn)).marks
      let s := fnMod (fnAt fn) (fun x => { x with marks := [] }) s
      let s := sendHost .pf addr (.segmentMap ((segCount s (fnAt fn) + 7) / 8) m) s
      modProg cmd.1 cmd.2 (fun q => { q with hold := { q.hold with boundary := false, dma := true }, act := .dirtySync addr (bits + m.length) 1 }) s
    | _ => s

/-- Apply one staged change. -/
def applyStaged (c : Staged) (s : State) : State :=
  match c with
  | .setEntry k base limit => carveMod k (fun c => { c with base := base, limit := limit }) s
  | .shrinkStart k lo hi => carveMod k (fun c => { c with state := .shrinking, keepLo := lo, keepHi := hi }) s
  | .shrinkEnd k base limit => endShrink k base limit s
  | .block k => if (carveAt s k).state = .shrinking then s else enterBlocked k s
  | .reopen k => carveMod k (fun c => if c.state = .blocked && !s.scrub.any (fun r => r.carve == some k) then { c with state := .open_ } else c) s
  | .freeze fn on => eachIdx (fun k s => carveMod k (fun c => if c.base = c.limit then c else { c with frozen := on }) s) (entriesOf fn) s
  | .clearMarks fn => fnMod (fnAt fn) (fun x => { x with marks := [] }) s
  | .takeMarks fn cmd => takeMarks fn cmd s

/-- Apply the staged changes in order. -/
def applyAll : List Staged → State → State
  | [], s => s
  | c :: l, s => applyAll l (applyStaged c s)

/-- Commands that waited for the boundary wait for it no more. -/
def passBoundary (s : State) : State :=
  { s with prog := s.prog.map (fun p => { p with hold := { p.hold with boundary := false } }) }

/-- FABRIC_EPOCH_BOUNDARY (R293): every checker has applied what was staged. -/
def epochBoundary (s : State) : State := passBoundary (applyAll s.staged { s with staged := [], fabEpoch := s.fabEpoch + 1 })

/-! ### The home carve-out (R302) -/

/-- Bytes that a region's items take at its home (Table 09-5). -/
def homeBytes (size : Nat) : Nat :=
  let l := size / 256
  l * 264 + ((List.range (treeDepth l)).map (fun k => (l + 64 ^ (k + 1) - 1) / 64 ^ (k + 1) * 72)).sum

/-- A stored region has items in the range. -/
def homeItems (s : State) (lo hi : Nat) : Bool := s.homes.any (fun h => meets lo hi h.base (h.base + homeBytes h.size))

/-- Ranges of the home carve-outs that no stored region's items take. -/
def homeGaps (s : State) : List (Nat × Nat) :=
  minusRanges ((entriesOf 4096).filterMap (fun k =>
      let c := carveAt s k
      if c.base = c.limit then none else if c.state = .shrinking then some (c.keepLo, c.keepHi) else some (c.base, c.limit)))
    (s.homes.map (fun h => (h.base, h.base + homeBytes h.size)))

/-- The place that number `n` names among the starts of `need` bytes in ranges. -/
def placeIn (need : Nat) : List (Nat × Nat) → Nat → Option Nat
  | [], _ => none
  | (lo, hi) :: l, n =>
    let k := if lo + need ≤ hi then hi - lo - need + 1 else 0
    if n < k then some (lo + n) else placeIn need l (n - k)

/-- Starts of `need` bytes in ranges. -/
def placesFor (need : Nat) (l : List (Nat × Nat)) : Nat := (l.map (fun r => if r.1 + need ≤ r.2 then r.2 - r.1 - need + 1 else 0)).sum

/-- R302: a place for a region's items wholly inside one home carve-out; which of them, the manual leaves open (a free value). -/
def homePlace (s : State) (size : Nat) : Option Nat :=
  let need := homeBytes size
  let n := placesFor need (homeGaps s)
  if n = 0 then none else placeIn need (homeGaps s) (Config.homePlace s.opens % n)

/-- The package holds a home carve-out (R258). -/
def hasHome (s : State) : Bool := (entriesOf 4096).any (fun k => (carveAt s k).base != (carveAt s k).limit)

end Sys2Proof.Machine
end

