-- ==== Sys2Proof/Machine/ActsBulk.lean ====
section
/-! DEFINITION. Bulk contexts (12_bulk_cipher.md): the checks of the bulk commands, their turn on a context (R339), what they ask of an
engine and what its report leaves. -/
namespace Sys2Proof.Machine

/-! ### Modes and addresses -/

/-- SHA-384 and SHA-512: modes without a key (Table 12-1). -/
def unkeyed (mode : Byte) : Bool := mode == 4 || mode == 5
/-- The hash modes, HMAC among them. -/
def hashMode (mode : Byte) : Bool := 4 ≤ mode.toNat
/-- HMAC modes. -/
def hmacMode (mode : Byte) : Bool := mode == 6 || mode == 7
/-- Modes whose FINAL op with DECRYPT verifies something. -/
def verifies (mode : Byte) : Bool := mode == 1 || hashMode mode

/-- FINAL, DECRYPT and WRAPPED of OP_FLAGS (Table 03-16). -/
def opFinal (flags : Byte) : Bool := flags.getLsbD 0
def opDecrypt (flags : Byte) : Bool := flags.getLsbD 1
def opWrapped (flags : Byte) : Bool := flags.getLsbD 2

/-- R334: SPACE encodings: bits 62:48 of a fabric address are zero. -/
def spaceOk (a : W64) : Bool := !a.getLsbD 63 || a.toNat / 2 ^ 48 % 2 ^ 15 == 0
/-- R334: a fabric range lies inside one live memory object of the VF with the right needed. -/
def rangeOk (s : State) (f : Fn) (a : W64) (n : Nat) (write : Bool) : Bool :=
  let lo := a.toNat % 2 ^ 48
  !a.getLsbD 63 || (fnOf s f).objs.any (fun o => !o.2.unmapping && o.2.rights.getLsbD (if write then 1 else 0)
    && decide (o.2.base ≤ lo ∧ lo + n ≤ o.2.base + o.2.size))

/-- Mark what a bulk command writes at an address of either space (R36, R326, R334): host pages, or segments. -/
def markSpace (f : Fn) (a : W64) (n : Nat) (s : State) : State :=
  if a.getLsbD 63 then markWrite f (a.toNat % 2 ^ 48) n s else markHost f a.toNat n s
/-- Data that a bulk command writes at an address of either space. Log entry 160 (DEDUCED). -/
def sendSpace (f : Fn) (a : W64) (d : HostData) (s : State) : State :=
  emit (.hostWrite (viaOf s f) a d (hostBytes d)) (markSpace f a (hostBytes d).length s)

/-- The bulk context that a handle names for function `f`, when the command's CONTEXT may use it (R331, R332). -/
def bulkFor (s : State) (f : Fn) (ctx : W16) (bctx : W32) : Option (Nat × BulkCtx) :=
  match bulkIdx s f bctx with
  | none => none
  | some k =>
    match mapFind s.bulk k with
    | none => none
    | some b => if b.ctx = 0xFFFF ∨ b.ctx = ctx then some (k, b) else none
/-- The engine that a handle names is absent (R54). -/
def bctxUnit (s : State) (bctx : W32) : Check :=
  let e := bctx.toNat / 16 % 2
  failIf (!bulkPresent s e) stUnitAbsent (BitVec.ofNat 32 (0x40 + e))
/-- The handle names no context that this command may use. -/
def bctxCheck (s : State) (f : Fn) (ctx : W16) (bctx : W32) : Check := failIf (bulkFor s f ctx bctx).isNone stBadState 0
/-- The context has lost its state (Table 12-2). -/
def lostCheck (b : BulkCtx) : Check := failIf (b.state == .lost) stBadState 0x32
/-- A KID that a bulk command may work under: a LIVE one, in a replay a SUSPENDED one too (R311). -/
def kidServes (s : State) (replay : Bool) (kid : W16) : Bool := if replay then kidUsable s kid else kidLive s kid
/-- The context's KID is leaving, or is suspended with a suspect (Tables 05-7, 05-12). -/
def bulkKidCheck (s : State) (replay : Bool) (b : BulkCtx) : Check :=
  failIf (b.kid != 0 && b.key.isNone && !kidServes s replay b.kid) stBadState (BitVec.ofNat 32 (kidCode (mapFind s.ks.kids b.kid.toNat)))
/-- Earlier commands on the same context (R339). -/
def bulkAhead (s : State) (p : Fn × W32) (bctx : W32) : List (Fn × W32) :=
  ((s.prog.takeWhile (fun q => !((q.fn, q.idx) == p))).filter (fun q => q.started && bulkOf q.act == some bctx)).map (fun q => (q.fn, q.idx))
/-- The key that a context works under. -/
def bulkKey (s : State) (b : BulkCtx) : Key := b.key.getD (keyOf s b.kid)
/-- R330: the tweak key that the engine's ladder path derives from an XTS context's key. -/
def tweakOf (mode : Byte) (key : Key) : Option Key := if mode = 2 then some (kdf key lblXtsTweak []) else none
/-- Requests that an engine holds, those that wait for their context's turn among them (R339). -/
def engineLoad (s : State) (e : Nat) : Nat :=
  (s.prog.filter (fun q => q.started && q.hold.room.isNone && (match bulkOf q.act with | some b => b.toNat / 16 % 2 == e | none => false))).length
/-- A bulk command goes to its engine's queue: it waits while the queue is full or an earlier command on its context is in progress, and
runs otherwise (R339). Log entry 101 (DEDUCED). -/
def takeTurn (bctx : W32) (wait : Act) (run : InProg → State → State) (p : InProg) (s : State) : State :=
  let e := bctx.toNat / 16 % 2
  let ahead := bulkAhead s (p.fn, p.idx) bctx
  if !(p.started && p.hold.room.isNone) && decide (Config.bulkQueue ≤ engineLoad s e) then goOn p { room := some e } wait s
  else if ahead.isEmpty then run p s else goOn p { cmds := ahead } wait s

/-! ### BULK_OP -/

/-- An XTS op inside a message whose LENGTH is no multiple of the message's data unit (R336). -/
def unitsBroken (b : BulkCtx) (op : BulkOperands) : Bool :=
  b.state == .message && b.mode == 2 && op.length.toNat % 2 ^ b.duLog2.toNat != 0
/-- DECRYPT differs from the message's (Table 12-4). -/
def decryptChanged (b : BulkCtx) (op : BulkOperands) : Bool := b.state == .message && opDecrypt op.flags != b.decrypt

/-- The descriptor's fields (check 1 of Table 12-4) in the order of their offsets (R421); `now` is the context whose message the op
joins, none while the op waits its turn. -/
def opFields (mode : Option Byte) (now : Option BulkCtx) (op : BulkOperands) : List Check :=
  let n := op.length.toNat
  let short := match mode with
    | some m => !opFinal op.flags && (n == 0 || (m != 2 && n % (if hashMode m then 128 else 16) != 0))
    | none => false
  let hash := match mode with | some m => hashMode m | none => false
  [badField (!spaceOk op.src) 24, badField (!spaceOk op.dst || (hash && op.dst != 0)) 32,
   badField (2 ^ 26 < n || short || now.any (unitsBroken · op)) 40,
   badField (4 ≤ op.flags.toNat || now.any (decryptChanged · op)) 44, badField (!spaceOk op.aux) 48]

/-- A digest in the auxiliary area is zero outside the mode's bytes (Table 12-3). -/
def digestShape (mode : Byte) (d : BitVec 512) : Bool :=
  let n := if mode = 1 then 16 else if mode = 4 ∨ mode = 6 then 48 else if mode = 5 ∨ mode = 7 then 64 else 0
  d.toNat / 2 ^ (8 * n) == 0
/-- The auxiliary area's fields are valid for the mode (Table 12-3). Log entry 99 (DEDUCED). -/
def auxOk (mode : Byte) (verify : Bool) (a : Aux) : Bool :=
  a.rsvdOk && (mode != 1 || a.iv.toNat / 2 ^ 96 == 0) && (!hashMode mode || a.iv == 0)
    && (if mode = 1 then decide (a.aadLen.toNat ≤ 2 ^ 20) else a.aadLen == 0)
    && (if mode = 2 then decide (9 ≤ a.duLog2.toNat ∧ a.duLog2.toNat ≤ 14) else a.duLog2 == 0)
    && (if a.aadLen = 0 then a.aadAddr == 0 else spaceOk a.aadAddr) && (!verify || digestShape mode a.digest)

/-- R335: the op reads the auxiliary area: it starts a message, or verifies one. -/
def readsAux (b : BulkCtx) (op : BulkOperands) : Bool := b.state == .idle || (opFinal op.flags && opDecrypt op.flags)
/-- R335: the op writes the digest field of the auxiliary area. -/
def writesAux (op : BulkOperands) : Bool := opFinal op.flags && !opDecrypt op.flags

/-- The checks of the auxiliary area, where the op reads it; the data unit that it gives a new XTS message comes into LENGTH's check. -/
def auxTurn (b : BulkCtx) (op : BulkOperands) (aux : Fetched Aux) : List Check :=
  if b.state = .lost ∨ !readsAux b op then []
  else
    bufChecks aux (fun a =>
      let unit := decide (9 ≤ a.duLog2.toNat ∧ a.duLog2.toNat ≤ 14)
      [badField (b.state == .idle && b.mode == 2 && unit && op.length.toNat % 2 ^ a.duLog2.toNat != 0) 40,
       badField (!auxOk b.mode (opFinal op.flags && opDecrypt op.flags) a) 48])
/-- The part of check 1 of Table 12-4 that an op which waited meets at its turn. -/
def opTurn (b : BulkCtx) (op : BulkOperands) (aux : Fetched Aux) : List Check :=
  [badField (unitsBroken b op) 40, badField (decryptChanged b op) 44] ++ auxTurn b op aux

/-- The op's source and destination lie in memory objects of the VF (R334). -/
def opSpan (s : State) (f : Fn) (b : BulkCtx) (op : BulkOperands) : Bool :=
  rangeOk s f op.src op.length.toNat false && (hashMode b.mode || rangeOk s f op.dst op.length.toNat true)
/-- The ranges of an op lie in memory objects of the VF (R334), the additional data's where the op starts a message. -/
def opRanges (s : State) (f : Fn) (b : BulkCtx) (op : BulkOperands) (aux : Fetched Aux) : Check :=
  let aad := match aux with | .ok a => b.state != .idle || a.aadLen == 0 || rangeOk s f a.aadAddr a.aadLen.toNat false | .failed => true
  failIf (!(opSpan s f b op && (!readsAux b op || rangeOk s f op.aux 128 false)
    && (!writesAux op || rangeOk s f op.aux 128 true) && aad)) stBadState 0

/-- Check 6 of Table 12-4. -/
def opLimit (b : BulkCtx) (op : BulkOperands) : Check :=
  let past := if b.state = .message then b.chain.msgBytes.toNat else 0
  failIf (b.mode == 1 && decide (2 ^ 36 - 32 < past + op.length.toNat)) stLimits 0x701

/-- Table 12-4 for an op of function `f` under `ctx` whose turn has come, or that must wait for it. -/
def opChecksOn (s : State) (f : Fn) (ctx : W16) (waits replay : Bool) (bctx : W32) (op : BulkOperands) (aux : Fetched Aux) : Checks :=
  match bulkFor s f ctx bctx with
  | none => { malformed := opFields none none op, unit := [bctxUnit s bctx], state := [some (stBadState, 0)] }
  | some (_, b) =>
    if waits then
      { malformed := opFields (some b.mode) none op, unit := [bctxUnit s bctx], state := [bulkKidCheck s replay b, failIf (!opSpan s f b op) stBadState 0] }
    else
      { malformed := opFields (some b.mode) (some b) op, buffer := auxTurn b op aux, unit := [bctxUnit s bctx],
        state := [lostCheck b, bulkKidCheck s replay b, opRanges s f b op aux], limits := [opLimit b op] }
/-- BULK_OP's checks. -/
def opChecks (h : CmdHdr) (bctx : W32) (op : BulkOperands) (aux : Fetched Aux) (s : State) : Checks :=
  opChecksOn s h.fn h.ctx (!(bulkAhead s (h.fn, h.idx) bctx).isEmpty) false bctx op aux

/-- The request goes to its engine; the key, and an XTS context's tweak key, are filled into the engine's cache. -/
def toEngine (p : InProg) (k : Nat) (b : BulkCtx) (act : Act) (s : State) : State :=
  let s := if b.kid = 0 then s
    else { cacheKid (42 + k / 16) b.kid s with bulk := mapMod b s.bulk k (fun c => { c with tweak := tweakOf b.mode (bulkKey s b) }) }
  emit (.engineRequest (k / 16) p.fn p.idx) (goOn p { engine := true } act s)

/-- The byte-reversed value: a counter block as one big-endian integer (R336). -/
def flip128 (x : BitVec 128) : BitVec 128 := BitVec.ofNat 128 (ofBe (le 16 x.toNat))
/-- COUNTER of Table 12-6 at the start of a message: GCM's first data block, CTR's and XTS's IV. -/
def counterAt (mode : Byte) (iv : BitVec 128) : BitVec 128 :=
  if mode = 1 then flip128 (flip128 iv + 2) else if mode = 2 ∨ mode = 3 then iv else 0
/-- COUNTER after `n` further bytes (R336): one more for each block, or for each data unit. -/
def counterAfter (mode duLog2 : Byte) (c : BitVec 128) (n : Nat) : BitVec 128 :=
  if mode = 1 ∨ mode = 3 then flip128 (flip128 c + BitVec.ofNat 128 ((n + 15) / 16))
  else if mode = 2 then c + BitVec.ofNat 128 (n / 2 ^ duLog2.toNat) else 0

/-- An op begins: a message starts where none is in progress. -/
def beginOp (k : Nat) (b : BulkCtx) (op : BulkOperands) (aux : Fetched Aux) (s : State) : State :=
  match b.state, aux with
  | .idle, .ok a =>
    { s with bulk := mapSet s.bulk k { b with
        state := .message, decrypt := opDecrypt op.flags, duLog2 := a.duLog2
        chain := { chain := if b.mode = 2 ∨ b.mode = 3 then 0 else Config.bulkInit b.mode (bulkKey s b), counter := counterAt b.mode a.iv
                   iv := if b.mode = 1 then a.iv else 0, aadBytes := a.aadLen.setWidth 64 } } }
  | _, _ => s
/-- The op goes to its engine. -/
def startOp (p : InProg) (k : Nat) (b : BulkCtx) (bctx : W32) (op : BulkOperands) (aux : Fetched Aux) (s : State) : State :=
  toEngine p k b (.bulkOp bctx op aux false) (beginOp k b op aux s)

/-- The op's turn has come after a wait (R339). -/
def opNow (bctx : W32) (op : BulkOperands) (aux : Fetched Aux) (p : InProg) (s : State) : State :=
  match bulkFor s p.fn p.ctx bctx with
  | none => complete p stBadState 0 0 s
  | some (k, b) =>
    match firstFail (opTurn b op aux ++ [lostCheck b, opRanges s p.fn b op aux, opLimit b op]) with
    | some (st, d) => complete p st d 0 s
    | none => startOp p k b bctx op aux s

/-- A BULK_OP whose wait is over. -/
def actBulkOp (p : InProg) (bctx : W32) (op : BulkOperands) (aux : Fetched Aux) (s : State) : State :=
  takeTurn bctx (.bulkOp bctx op aux true) (opNow bctx op aux) p s

/-- The digest that Aedvik writes, zero beyond the mode's bytes. -/
def digestOut (mode : Byte) (d : BitVec 512) : BitVec 512 :=
  let n := if mode = 1 then 128 else if mode = 4 ∨ mode = 6 then 384 else if mode = 5 ∨ mode = 7 then 512 else 0
  BitVec.ofNat 512 (d.toNat % 2 ^ n)

/-- Bytes that an op has processed: all of LENGTH, or those before a failed transfer. -/
def opBytes (op : BulkOperands) (r : BulkDone) : Nat := if r.dmaOk then op.length.toNat else min r.data.length op.length.toNat
/-- What a cipher mode writes for an op (R336); the hash modes write nothing. -/
def opOut (s : State) (b : BulkCtx) (op : BulkOperands) (r : BulkDone) : List Byte :=
  if hashMode b.mode then []
  else fitTo (opBytes op r)
    (Config.bulkCipher b.mode (bulkKey s b) (b.tweak.getD 0) b.chain.counter b.duLog2 b.decrypt (fitTo (opBytes op r) r.data))
/-- The bytes of an op that its authentication covers: ciphertext in GCM, the data in the hash modes. -/
def opAuthed (s : State) (b : BulkCtx) (op : BulkOperands) (r : BulkDone) : List Byte :=
  if b.mode = 1 ∧ !b.decrypt then opOut s b op r else fitTo (opBytes op r) r.data
/-- The chaining value that an op continues: after the additional data where it starts a GCM message. -/
def opChain (s : State) (b : BulkCtx) (r : BulkDone) : BitVec 512 :=
  if b.mode = 1 ∧ !r.aad.isEmpty then Config.bulkAbsorb b.mode (bulkKey s b) b.chain.chain (fitTo b.chain.aadBytes.toNat r.aad) else b.chain.chain
/-- The tag, digest or MAC at a FINAL op. -/
def opDigest (s : State) (b : BulkCtx) (op : BulkOperands) (r : BulkDone) : BitVec 512 :=
  if b.mode = 2 ∨ b.mode = 3 then 0
  else digestOut b.mode (Config.bulkDigest b.mode (bulkKey s b) b.chain.iv (opChain s b r) b.chain.aadBytes.toNat
    (b.chain.msgBytes.toNat + opBytes op r) (opAuthed s b op r))
/-- The context after an op (R333): FINAL returns it to IDLE whatever the status. -/
def opLeaves (s : State) (b : BulkCtx) (op : BulkOperands) (r : BulkDone) : BulkCtx :=
  if opFinal op.flags then { b with state := .idle, chain := {} }
  else { b with chain := { b.chain with
    chain := if b.mode = 2 ∨ b.mode = 3 then 0 else Config.bulkAbsorb b.mode (bulkKey s b) (opChain s b r) (opAuthed s b op r)
    counter := counterAfter b.mode b.duLog2 b.chain.counter (opBytes op r)
    msgBytes := b.chain.msgBytes + BitVec.ofNat 64 (opBytes op r) } }
/-- R338: the verification of a FINAL op fails. -/
def opRejects (s : State) (b : BulkCtx) (op : BulkOperands) (aux : Fetched Aux) (r : BulkDone) : Bool :=
  opFinal op.flags && opDecrypt op.flags && verifies b.mode && (match aux with | .ok a => opDigest s b op r != a.digest | .failed => true)

/-- The engine's report on an op of function `f` (R335, R336, R338), as status, bytes processed and state: what it processed is written
whatever its end, and a FINAL op without DECRYPT writes the digest. -/
def opFinish (f : Fn) (bctx : W32) (op : BulkOperands) (aux : Fetched Aux) (r : BulkDone) (s : State) : W16 × W32 × State :=
  let k := bctx.toNat % 65536
  match mapFind s.bulk k with
  | none => (stBadState, 0, s)
  | some b =>
    let out := opOut s b op r
    let t := { s with bulk := mapSet s.bulk k (opLeaves s b op r) }
    let t := if hashMode b.mode ∨ opBytes op r = 0 then t else sendSpace f op.dst (.plain out) t
    if !r.dmaOk then (stDmaError, BitVec.ofNat 32 (opBytes op r), t)
    else
      (if opRejects s b op aux r then stAuthFailed else stOk, op.length,
       if writesAux op then sendSpace f (op.aux + 32) (.digest (opDigest s b op r)) t else t)
/-- A BULK_OP completes. -/
def opDone (p : InProg) (bctx : W32) (op : BulkOperands) (aux : Fetched Aux) (r : BulkDone) (s : State) : State :=
  let x := opFinish p.fn bctx op aux r s
  complete p x.1 0 (x.2.1.setWidth 128) x.2.2

/-! ### BULK_CTX_OPEN -/

/-- Open contexts of an engine. -/
def openBulk (s : State) (e : Nat) : Nat := (s.bulk.filter (fun b => b.1 / 16 == e)).length
/-- R332: the engine that an ENGINE operand chooses. Log entry 101 (DEDUCED). -/
def bulkEngine (s : State) (engine : Byte) : Option Nat :=
  if engine = 0xFF then
    match bulkPresent s 0 && !bulkTesting s 0, bulkPresent s 1 && !bulkTesting s 1 with
    | true, true => some (if openBulk s 1 < openBulk s 0 then 1 else 0)
    | true, false => some 0
    | false, true => some 1
    | false, false => none
  else if bulkPresent s engine.toNat then some engine.toNat else none
/-- The lowest free index of an engine. -/
def freeBulk (s : State) (e : Nat) : Option Nat := firstFree (fun k => (mapFind s.bulk k).isSome) Config.bulkContexts (16 * e)

/-- BULK_CTX_OPEN's checks. -/
def openBulkChecks (h : CmdHdr) (engine mode : Byte) (kid : W16) (s : State) : Checks :=
  let code := kidCodeFor s h.fn kid
  let tenant := match slotOf s kid with | some x => x.kind == .tenant && (x.use &&& useBulk) != 0 | none => false
  { malformed := [badField (1 < engine.toNat && engine != 0xFF) 16, badField (mode == 0 || 7 < mode.toNat) 17, badField (unkeyed mode && kid != 0) 18]
    unit := [failIf (if engine = 0xFF then !(bulkPresent s 0 || bulkPresent s 1) else !bulkPresent s engine.toNat) stUnitAbsent
      (if engine = 0xFF then openDetail s else BitVec.ofNat 32 (0x40 + engine.toNat))]
    state := [failIf (kid != 0 && (code != 1 || !tenant)) stBadState code]
    busy := [failIf (if engine = 0xFF then (bulkEngine s engine).isNone else bulkTesting s engine.toNat) stBusy 0x7F]
    slots := [match bulkEngine s engine with | some e => failIf (freeBulk s e).isNone stNoSlot 6 | none => none] }

/-- BULK_CTX_OPEN: IDLE with a TENANT KID or without the need of one, LOST otherwise (R333). -/
def startBulkOpen (engine mode : Byte) (kid : W16) (p : InProg) (s : State) : State :=
  match bulkEngine s engine with
  | none => s
  | some e =>
    match freeBulk s e with
    | none => s
    | some k =>
      let b : BulkCtx :=
        { vf := p.fn, mode := mode, ctx := p.ctx, ctxGen := p.ctxGen, kid := kid, key := none
          tweak := if kid = 0 then none else tweakOf mode (keyOf s kid)
          state := if kid ≠ 0 ∨ unkeyed mode then .idle else .lost, decrypt := false, duLog2 := 0, chain := {} }
      let s := if kid = 0 then s else cacheKid (42 + e) kid s
      complete p stOk 0 ((bctxOf (mapGet 0 s.bulkReuse k) k).setWidth 128) { s with bulk := mapSet s.bulk k b }

/-! ### Save, restore, close -/

/-- The checks of a save's turn. -/
def saveTurn (s : State) (f : Fn) (b : BulkCtx) (dst : W64) (wrapped : Bool) : List Check :=
  [lostCheck b, failIf (!rangeOk s f dst 384 true) stBadState 0,
   if wrapped then failIf (!drsUsable s) stBadState ((lcState s).setWidth 32) else none]

/-- The checks of a save of function `f` under `ctx` (R340, R341). -/
def saveChecksOn (s : State) (f : Fn) (ctx : W16) (waits replay : Bool) (bctx : W32) (dst : W64) (flags : Byte) : Checks :=
  let own := [badField (!spaceOk dst) 32, badField (flags &&& 0xFB != 0) 44]
  match bulkFor s f ctx bctx with
  | none => { malformed := own, unit := [bctxUnit s bctx], state := [some (stBadState, 0)] }
  | some (_, b) =>
    { malformed := own, permitted := [failIf (!opWrapped flags && hmacMode b.mode) stNotPermitted 0], unit := [bctxUnit s bctx]
      state := bulkKidCheck s replay b :: (if waits then [] else saveTurn s f b dst (opWrapped flags)) }
/-- BULK_CTX_SAVE's checks. -/
def saveBulkChecks (h : CmdHdr) (bctx : W32) (dst : W64) (flags : Byte) (s : State) : Checks :=
  saveChecksOn s h.fn h.ctx (!(bulkAhead s (h.fn, h.idx) bctx).isEmpty) false bctx dst flags

/-- The save goes to its engine. -/
def startSave (p : InProg) (k : Nat) (b : BulkCtx) (bctx : W32) (dst : W64) (wrapped : Bool) (s : State) : State :=
  toEngine p k b (.bulkSave bctx dst wrapped false) s

/-- The save's turn has come. -/
def saveNow (bctx : W32) (dst : W64) (wrapped : Bool) (p : InProg) (s : State) : State :=
  match bulkFor s p.fn p.ctx bctx with
  | none => complete p stBadState 0 0 s
  | some (k, b) =>
    match firstFail (saveTurn s p.fn b dst wrapped) with
    | some (st, d) => complete p st d 0 s
    | none => startSave p k b bctx dst wrapped s

/-- A BULK_CTX_SAVE whose wait is over. -/
def actSave (p : InProg) (bctx : W32) (dst : W64) (wrapped : Bool) (s : State) : State :=
  takeTurn bctx (.bulkSave bctx dst wrapped true) (saveNow bctx dst wrapped) p s

/-- The record that a save writes (Table 12-5); a wrapped one holds its state and its key under the VF's wrap key (R341). -/
def bulkRecord (s : State) (f : Fn) (b : BulkCtx) (wrapped : Bool) : BulkRec :=
  let rf : Byte := (if b.state = .message then 1 else 0) ||| (if b.state = .message ∧ b.decrypt then 2 else 0)
    ||| (if b.mode = 2 ∧ b.state = .message then 4 else 0)
  let r : BulkRec :=
    { format := if wrapped then 0x0006 else 0x0005, mode := b.mode, rflags := rf, vf := BitVec.ofNat 16 f.key
      duLog2 := if b.mode = 2 then b.duLog2 else 0, rsvd7 := 0, kid := if wrapped then 0 else b.kid, rsvd10 := 0
      state := padTo 296 (chainBytes b.chain), blob := zeros 56 }
  if wrapped then
    { r with state := padTo 296 (Config.kwWrap (wrapKey s f (durablePark s)) (recordHead r ++ chainBytes b.chain))
             blob := blobBytes (makeBlob s f (durablePark s) (bulkKey s b)) }
  else r

/-- The engine has finished a save of function `f`: the record is written. -/
def saveFinish (f : Fn) (bctx : W32) (dst : W64) (wrapped : Bool) (r : BulkDone) (s : State) : W16 × W32 × State :=
  match mapFind s.bulk (bctx.toNat % 65536) with
  | none => (stBadState, 0, s)
  | some b => if r.dmaOk then (stOk, 384, sendSpace f dst (.bulkRecord (bulkRecord s f b wrapped)) s) else (stDmaError, 0, s)
/-- A BULK_CTX_SAVE completes. -/
def saveDone (p : InProg) (bctx : W32) (dst : W64) (wrapped : Bool) (r : BulkDone) (s : State) : State :=
  let x := saveFinish p.fn bctx dst wrapped r s
  complete p x.1 0 (x.2.1.setWidth 128) x.2.2

/-- The offset of the first byte that is not zero in a field of a buffer at offset `o`. -/
def strayByte (o : Nat) (l : List Byte) : Check := (l.findIdx? (· != 0)).map (fun k => (stMalformed, bufDetail (o + k)))
/-- The fields of a record that MALFORMED answers (R342, R421), in the order of their offsets; `mode` is the context's. Log entry 100
(DEDUCED). -/
def recordFields (mode : Option Byte) (wrapped : Bool) (x : BulkRec) : List Check :=
  [firstField
    ([badBuf (x.format != (if wrapped then 0x0006 else 0x0005)) 0, badBuf (mode.any (x.mode != ·)) 2, badBuf (8 ≤ x.rflags.toNat) 3,
      badBuf (x.rsvd7 != 0) 7, badBuf (wrapped && x.kid != 0) 8, strayByte 10 (le 22 x.rsvd10.toNat)]
      ++ (if wrapped then [strayByte 200 (x.state.drop 168), (blobFault (blobOf x.blob)).map (fun o => (stMalformed, bufDetail (328 + o)))]
          else [strayByte 144 (x.state.drop 112), strayByte 328 x.blob]))]
/-- R342: the key and the chaining state of a wrapped record; none when an unwrap fails or the record is not what was wrapped. -/
def recordBody (s : State) (f : Fn) (x : BulkRec) : Option (Key × Chain) := do
  let key ← blobKey s f (blobOf x.blob)
  let l ← Config.kwUnwrap (wrapKey s f ((blobOf x.blob).wrap == 1)) (x.state.take 168)
  if l.take 32 = recordHead x then some (key, chainOf (l.drop 32)) else none

/-- The checks of a restore's turn (R342). -/
def restoreTurn (s : State) (f : Fn) (replay : Bool) (b : BulkCtx) (wrapped : Bool) (rec : Fetched BulkRec) : List Check :=
  bufChecks rec (fun x =>
    [failIf (x.vf != BitVec.ofNat 16 f.key) stBadState 0,
     if wrapped then failIf (!drsUsable s) stBadState ((lcState s).setWidth 32)
     else failIf (x.kid != b.kid || (!unkeyed b.mode && (b.kid == 0 || !kidServes s replay b.kid))) stBadState 0,
     if wrapped then failIf (recordBody s f x).isNone stAuthFailed 0 else none])

/-- The checks of a restore of function `f` under `ctx`: the record is read, and its fields are checked, at dispatch (R422), a range that no object of the VF
covers being no source to read; what the context's state decides waits for the command's turn. -/
def restoreChecksOn (s : State) (f : Fn) (ctx : W16) (waits replay : Bool) (bctx : W32) (src : W64) (flags : Byte) (rec : Fetched BulkRec) :
    Checks :=
  let ctx := bulkFor s f ctx bctx
  let inRange := rangeOk s f src 384 false
  { malformed := [badField (!spaceOk src) 24, badField (flags &&& 0xFB != 0) 44]
    buffer := if inRange then bufChecks rec (recordFields (ctx.map (·.2.mode)) (opWrapped flags)) else []
    permitted := [match rec with | .ok x => (if opWrapped flags then wrapAllowed s (blobOf x.blob).wrap else none) | .failed => none]
    unit := [bctxUnit s bctx]
    state := failIf (!inRange) stBadState 0 :: (match ctx with
      | none => [some (stBadState, 0)]
      | some (_, b) => if waits then [] else restoreTurn s f replay b (opWrapped flags) rec) }
/-- BULK_CTX_RESTORE's checks. -/
def restoreBulkChecks (h : CmdHdr) (bctx : W32) (src : W64) (flags : Byte) (rec : Fetched BulkRec) (s : State) : Checks :=
  restoreChecksOn s h.fn h.ctx (!(bulkAhead s (h.fn, h.idx) bctx).isEmpty) false bctx src flags rec

/-- The restore goes to its engine; a wrapped one uses no key of the context's KID. -/
def startRestore (p : InProg) (k : Nat) (b : BulkCtx) (bctx : W32) (wrapped : Bool) (rec : Fetched BulkRec) (s : State) : State :=
  toEngine p k (if wrapped then { b with kid := 0 } else b) (.bulkRestore bctx wrapped rec false) s

/-- The restore's turn has come. -/
def restoreNow (bctx : W32) (wrapped : Bool) (rec : Fetched BulkRec) (p : InProg) (s : State) : State :=
  match bulkFor s p.fn p.ctx bctx with
  | none => complete p stBadState 0 0 s
  | some (k, b) =>
    match firstFail (restoreTurn s p.fn false b wrapped rec) with
    | some (st, d) => complete p st d 0 s
    | none => startRestore p k b bctx wrapped rec s

/-- A BULK_CTX_RESTORE whose wait is over. -/
def actRestore (p : InProg) (bctx : W32) (wrapped : Bool) (rec : Fetched BulkRec) (s : State) : State :=
  takeTurn bctx (.bulkRestore bctx wrapped rec true) (restoreNow bctx wrapped rec) p s

/-- The context that a record restores: MESSAGE or IDLE; a wrapped record's key is detached. -/
def restored (s : State) (f : Fn) (b : BulkCtx) (wrapped : Bool) (x : BulkRec) : BulkCtx :=
  let b : BulkCtx := { b with state := if x.rflags.getLsbD 0 then .message else .idle, decrypt := x.rflags.getLsbD 1, duLog2 := x.duLog2 }
  if wrapped then
    let body := recordBody s f x
    { b with key := body.map (·.1), tweak := body.bind (fun x => tweakOf b.mode x.1), kid := 0, chain := (body.map (·.2)).getD {} }
  else { b with chain := chainOf x.state }

/-- The engine has finished a restore of function `f`. -/
def restoreFinish (f : Fn) (bctx : W32) (wrapped : Bool) (rec : Fetched BulkRec) (r : BulkDone) (s : State) : W16 × W32 × State :=
  let k := bctx.toNat % 65536
  match mapFind s.bulk k, rec with
  | some b, .ok x =>
    if !r.dmaOk then (stDmaError, 0, s)
    else
      let s := { s with bulk := mapSet s.bulk k (restored s f b wrapped x) }
      let shared := s.bulk.any (fun e => e.1 / 16 == k / 16 && e.2.kid == b.kid)
      (stOk, 0, if wrapped && !shared then finishRetire b.kid (uncacheKid (42 + k / 16) b.kid s) else s)
  | _, _ => (stBadState, 0, s)
/-- A BULK_CTX_RESTORE completes. -/
def restoreDone (p : InProg) (bctx : W32) (wrapped : Bool) (rec : Fetched BulkRec) (r : BulkDone) (s : State) : State :=
  let x := restoreFinish p.fn bctx wrapped rec r s
  complete p x.1 0 (x.2.1.setWidth 128) x.2.2

/-- BULK_CTX_CLOSE at its turn (R343). -/
def closeNow (bctx : W32) (p : InProg) (s : State) : State :=
  match bulkFor s p.fn p.ctx bctx with
  | none => complete p stBadState 0 0 s
  | some (k, _) => complete p stOk 0 0 (closeBulk k s)
/-- A BULK_CTX_CLOSE whose wait is over. -/
def actBulkClose (p : InProg) (bctx : W32) (s : State) : State := takeTurn bctx (.bulkClose bctx) (closeNow bctx) p s

/-! ### The engine's report -/

/-- An engine has finished a request of a bulk command. While a replay holds the engine, no other request of it is served (R311). -/
def engineDone (p : InProg) (r : BulkDone) (s : State) : State :=
  let held := match bulkOf p.act with | some b => s.replayEngine == some (b.toNat / 16 % 2) | none => false
  if !p.hold.engine || held then s
  else match p.act with
    | .bulkOp b op aux false => opDone p b op aux r s
    | .bulkSave b dst w false => saveDone p b dst w r s
    | .bulkRestore b w rec false => restoreDone p b w rec r s
    | _ => s

end Sys2Proof.Machine
end

