-- ==== Sys2Proof/Machine/Boot.lean ====
section
/-! DEFINITION. Tamper sources (Tables 14-1, 14-8, 14-11), burns of life-cycle words, and the start of the package from the rise of
AVK_PWROK to ready (Table 15-1), with resumption of field transitions (Table 04-12) and provisioning (R100). -/
namespace Sys2Proof.Machine

/-! ### Burning life-cycle words (R80, R81, R90) -/

/-- Burn the third copy of every bit that reads 1 in two copies of a word. -/
def repairWord (l : List W64) : List W64 :=
  let m := maj3 (copy l 0) (copy l 1) (copy l 2)
  [copy l 0 ||| m, copy l 1 ||| m, copy l 2 ||| m]
/-- Three copies of a byte, from bit `base`. -/
def spread (base : Nat) (b : Byte) : W64 :=
  BitVec.ofNat 64 (b.toNat * 2 ^ base + b.toNat * 2 ^ (base + 8) + b.toNat * 2 ^ (base + 16))
/-- The same for the byte fields of word 7. -/
def repairBytes (base : Nat) (w : W64) : W64 := w ||| spread base (maj3 (byteCopy w base 0) (byteCopy w base 1) (byteCopy w base 2))
/-- The same for the tokens of word 6. -/
def repairTokens (w : W64) : W64 :=
  (List.range 16).foldl (fun w i => if tokenUsed w i then w ||| BitVec.ofNat 64 (7 * 2 ^ (3 * i)) else w) w
/-- R81: ROM's repairs of the eight words. -/
def repairOtp (o : OtpSt) : OtpSt :=
  { o with state := repairWord o.state, progress := repairWord o.progress, tansy := repairTokens o.tansy,
           owner := repairBytes 24 (repairBytes 0 o.owner) }

/-- Thermometer marks from bit `base` of the progress word (Table 04-3). -/
def marksAt (pw : W64) (base : Nat) : Nat :=
  if pw.getLsbD (base + 2) then 3 else if pw.getLsbD (base + 1) then 2 else if pw.getLsbD base then 1 else 0
/-- The highest owner slot below `n` that has a mark. -/
def markedSlot (pw : W64) : Nat → Option Nat
  | 0 => none
  | n + 1 => if 0 < marksAt pw (6 + 3 * n) then some n else markedSlot pw n
/-- R91: the progress byte of the most recent field transition. -/
def progressByte (pw : W64) : Byte :=
  if 0 < marksAt pw 3 then BitVec.ofNat 8 (0x80 + marksAt pw 3)
  else if 0 < marksAt pw 0 then BitVec.ofNat 8 (0x70 + marksAt pw 0)
  else match markedSlot pw 8 with
    | none => 0
    | some k => BitVec.ofNat 8 ((if k = 0 then 0x50 else 0x60) + marksAt pw (6 + 3 * k))

/-- The life-cycle shadow follows the words (R81): at the read of a start, and at every burn. -/
def shadow (s : State) : State :=
  let st := s.otp.state
  let pr := s.otp.progress
  let pw := maj3 (copy pr 0) (copy pr 1) (copy pr 2)
  { s with aon := { s.aon with stateWord := maj3 (copy st 0) (copy st 1) (copy st 2), progressWord := pw, weak := weakBits s.otp,
                               tansy := tokenMajority s.otp, owners := ownerMajority s.otp, kill := killed s.otp, progress := progressByte pw } }

/-- Burn bits of the state word in three copies. -/
def burnState (bits : W64) (s : State) : State := shadow { s with otp := { s.otp with state := s.otp.state.map (· ||| bits) } }
/-- Burn mark `m` (1 to 3) of the thermometer at `base` in three copies of the progress word (R90). -/
def burnMark (base m : Nat) (s : State) : State :=
  shadow { s with otp := { s.otp with progress := s.otp.progress.map (· ||| BitVec.ofNat 64 (2 ^ (base + m - 1))) } }
/-- Burn a hash into an owner slot: bits move from 0 to 1 only. -/
def burnOwner (k : Nat) (h : Hash) (s : State) : State :=
  { s with otp := { s.otp with owners := s.otp.owners.set k (s.otp.owners.getD k 0 ||| h) } }
/-- Step d of CLAIM and TRANSFER (Table 04-11): OWNER_COUNT bit k, for CLAIM also CLAIMED; the journal is cleared (R92). -/
def installOwner (k : Nat) (s : State) : State :=
  let s := { s with otp := { s.otp with owner := s.otp.owner ||| spread 0 (BitVec.ofNat 8 (2 ^ k)) }
                    flash := { s.flash with journal := [] } }
  if k = 0 then burnState 0x10 s else shadow s
/-- Erase the user flash area (R93): owner policy and chain, durable checkpoints. -/
def eraseUser (s : State) : State := emit .flashWrite { s with flash := { s.flash with policy := none, chain := none, checkpoints := [] } }

/-! ### Tamper sources -/

/-- CAUSE of a source (Table 14-1). -/
def srcCause (t : TamperSrc) : Byte :=
  match t with
  | .pin _ => 0x10 | .lowVolt _ => 0x11 | .highVolt _ => 0x12 | .clock => 0x13 | .thermal _ => 0x14 | .mesh => 0x15
/-- SOURCES and SEEN bit of a source. -/
def srcBit (t : TamperSrc) : Nat := (srcCause t).toNat - 0x10
/-- UNIT of a source (Table 14-4). -/
def srcUnit (t : TamperSrc) : W16 :=
  match t with
  | .pin k => k.setWidth 16 | .lowVolt d => BitVec.ofNat 16 d.val | .highVolt d => BitVec.ofNat 16 d.val
  | .thermal n => n.setWidth 16 | .clock => 0xFFFF | .mesh => 0xFFFF
/-- WHERE of a source: V_LL, T_T and T_W for cause 0x11. -/
def srcWhere (t : TamperSrc) (s : State) : W64 :=
  match t with
  | .lowVolt d => let x := s.aon.trims.getD d.val (0, 0, 0); BitVec.ofNat 64 (x.1 + x.2.1 * 2 ^ 16 + x.2.2 * 2 ^ 32)
  | _ => 0
/-- The bit of L2_SOURCES of a source; none for the thermal monitor (R370). -/
def l2Bit (t : TamperSrc) : Option Nat :=
  match t with
  | .pin k => some k.toNat | .lowVolt _ => some 4 | .highVolt _ => some 4 | .clock => some 5 | .mesh => some 6 | .thermal _ => none
/-- R143, R370: the level a firing source has. -/
def srcLevel (t : TamperSrc) (s : State) : Byte :=
  if s.aon.l2Armed && (match l2Bit t with | some b => s.aon.l2Sources.getLsbD b | none => false) then 2 else 1
/-- States in which sources are armed: T1 and T2 of Table 14-8. -/
def armedState (s : State) : Bool := lcState s == lcProvisioned || lcState s == lcDeployed || lcState s == lcAnalysis
/-- R370: the source fires: a pin only while it is armed and not masked. -/
def srcArmed (t : TamperSrc) (s : State) : Bool :=
  armedState s && (match t with | .pin k => s.aon.armed.getLsbD k.toNat && !hasRight s 16 | _ => true)
/-- Note a source in SEEN of AVK_TAMPER_STATUS. -/
def noteSeen (t : TamperSrc) (s : State) : State := { s with aon := { s.aon with seen := s.aon.seen ||| BitVec.ofNat 6 (2 ^ srcBit t) } }
/-- Set a source's bit in SOURCES of the halt record. -/
def setSource (t : TamperSrc) (s : State) : State :=
  { s with aon := { s.aon with halt := { s.aon.halt with sources := s.aon.halt.sources ||| BitVec.ofNat 32 (2 ^ srcBit t) } } }
/-- R377: a source seen within 1 µs of a halt, before its record reaches the log. -/
def noteSource (t : TamperSrc) (s : State) : State := relog (setSource t s)

/-- R377: a level-2 source raises a standing halt of level 1: the level in the record, the kill bits, the log record. -/
def raiseLevel (t : TamperSrc) (s : State) : State :=
  let s := setSource t s
  let s := burnKill { s with aon := { s.aon with tocsin := 2, halt := { s.aon.halt with level := 2 } } }
  relog s

/-- A source fires a Tocsin of its own (R374). -/
def fireSource (t : TamperSrc) (s : State) : State :=
  tocsin { cause := srcCause t, unit := srcUnit t, whereF := srcWhere t s } (srcLevel t s) (BitVec.ofNat 32 (2 ^ srcBit t)) 0x02 s

/-- A source has met its condition for its dwell (R369, Table 14-11). A later cause of a standing halt that does not raise its level
sets SOURCES where it comes within 1 µs of step 1, which only time tells (an open value). -/
def tamperSource (t : TamperSrc) (s : State) : State :=
  if s.pkg.phase = .off then s
  else if lcState s = lcScrap ∨ lcState s = lcBroken then noteSource t s
  else if !srcArmed t s then noteSeen t s
  else if s.pkg.phase = .halted then
    if srcLevel t s = 2 ∧ s.aon.tocsin = 1 then raiseLevel t s
    else if (opened s).getLsbD 0 then noteSource t (bumpOpen s) else bumpOpen s
  else fireSource t s

/-! ### Step 2: OTP, resumption, boot count, boot nonce -/

/-- Run a step of the start unless an earlier one has halted. -/
def unlessHalted (f : State → State) (s : State) : State := if s.pkg.phase = .romHalt ∨ s.pkg.phase = .halted then s else f s

/-- What a reset leaves of a function: a VF stays enabled, its TDI in ERROR (R28). Log entry 81 (DEDUCED). -/
def fnAfterReset (x : FnSt) : FnSt := { enabled := x.enabled, place := x.place, tdi := { state := .error } }

/-- The host still has its links to the package. -/
def hostUp (s : State) : Bool := s.pkg.phase != .off && s.pkg.phase != .halted && s.pkg.power != .off

/-- The block as a start finds it: OTP, flash and the AON island kept, everything else at its reset value; a cold reset clears the
AON island too (R45, R50). A host that still had its links loses them (R28). -/
def afterReset (warm : Bool) (s : State) : State :=
  let keep := State.reset
  let aon : AonSt := if warm then { profile := s.aon.profile, strap := s.aon.strap, pendingProfile := s.aon.pendingProfile,
                                    recoveryReq := s.aon.recoveryReq, halt := s.aon.halt } else {}
  { keep with
    pending := s.pending, out := if hostUp s then (hostLost s).out else s.out, draws := s.draws, opens := s.opens, k3s := s.k3s, otp := s.otp, flash := s.flash, aon := aon
    fns := (s.fns.filter (fun e => e.2.enabled)).map (fun e => (e.1, fnAfterReset e.2)) }

/-- R375: ROM reloads the newest logged halt record into an empty one, unless it has been cleared. -/
def reloadHalt (s : State) : State :=
  match s.flash.haltLog.getLast? with
  | some (r, false) => if s.aon.halt.format = 0 then { s with aon := { s.aon with halt := r } } else s
  | _ => s

/-- R50: the profile that a reset selects. -/
def selectProfile (warm : Bool) (env : StartEnv) (s : State) : State :=
  if warm then
    { s with aon := { s.aon with profile := s.aon.pendingProfile.getD s.aon.profile, pendingProfile := none } }
  else { s with aon := { s.aon with profile := env.strap, strap := env.strap } }

/-- R81, R82: the majority read, its repairs, and BROKEN burned where the words are inconsistent. -/
def readOtp (s : State) : State :=
  let s := shadow { s with otp := repairOtp s.otp }
  if lcState s = lcBroken ∧ s.aon.stateWord.getLsbD 10 = false then burnState 0x400 s else s

/-- The hash that the signer of a request must have (Table 04-8). -/
def expectedSigner (s : State) (r : LcReq) : Hash :=
  if r.kind = 5 then r.newOwnerHash
  else if r.kind = 6 then ownerHash s
  else if r.kind = 8 ∧ lcState s = lcDeployed then ownerHash s
  else s.otp.authority
/-- R85: the signer's key hash is the expected one and both signatures verify. -/
def signerOk (s : State) (r : LcReq) : Bool := r.signerHash == expectedSigner s r && r.ecOk && r.pqOk

/-- R92: the request of a journal copy that ROM may use for owner slot `k`. -/
def journalReq (s : State) (k : Nat) : Option LcReq :=
  ((s.flash.journal.filter (fun c => c.digestOk && c.req.kind == (if k = 0 then 5 else 6) && c.req.ownerSlot.toNat == k && signerOk s c.req)).map
    (·.req)).head?

/-- A CLAIM or TRANSFER whose mark 1 is set and whose step d has not reached majority: its owner slot (R91). -/
def pendingOwner (s : State) : Option Nat :=
  (List.range 8).find? (fun k => decide (0 < marksAt s.aon.progressWord (6 + 3 * k))
    && (!s.aon.owners.getLsbD k || (k == 0 && !s.aon.stateWord.getLsbD 4)))

/-- Steps c and d of CLAIM or TRANSFER with a hash to install. -/
def finishOwner (k : Nat) (h : Hash) (s : State) : State := installOwner k (burnMark (6 + 3 * k) 3 (burnOwner k h s))

/-- R91: resume a CLAIM or TRANSFER; without a usable journal ROM waits for a resubmission (R92). Log entry 76 (DEDUCED). -/
def resumeOwner (k : Nat) (s : State) : State :=
  let m := marksAt s.aon.progressWord (6 + 3 * k)
  let s := if m ≤ 1 then burnMark (6 + 3 * k) 2 (eraseUser s) else s
  if m = 3 then installOwner k s
  else match journalReq s k with
    | some r => finishOwner k r.newOwnerHash s
    | none => { s with aon := { s.aon with journalWait := true } }

/-- R91: resume an ANALYSIS (base 0, state bit 8) or a SCRAP (base 3, state bit 9). -/
def resumeDestroy (base bit : Nat) (s : State) : State :=
  let m := marksAt s.aon.progressWord base
  let s := if m ≤ 1 then burnMark base 2 (burnKill s) else s
  let s := if m ≤ 2 then burnMark base 3 (eraseUser s) else s
  burnState (BitVec.ofNat 64 (2 ^ bit)) s

/-- R91: the field transition that a start resumes, if any. -/
def resume (s : State) : State :=
  if lcState s = lcScrap ∨ lcState s = lcBroken then s
  else match pendingOwner s with
    | some k => resumeOwner k s
    | none =>
      let s := if 0 < marksAt s.aon.progressWord 0 ∧ s.aon.stateWord.getLsbD 8 = false then resumeDestroy 0 8 s else s
      if 0 < marksAt s.aon.progressWord 3 ∧ s.aon.stateWord.getLsbD 9 = false then resumeDestroy 3 9 s else s

/-- R100: provisioning is pending. -/
def provPending (s : State) : Bool := lcState s == lcAssembled && s.aon.stateWord.getLsbD 2

/-- R100: ROM burns the DRS and PROV_DONE; or BROKEN where any DRS bit already reads 1; or halts where the entropy source fails. -/
def provision (env : StartEnv) (s : State) : State :=
  if !provPending s then s
  else if s.otp.drs ≠ 0 then burnState 0x400 s
  else if !env.entropyOk then romHalt { cause := 0x21 } s
  else burnState 0x8 (bumpDraw { s with otp := { s.otp with drs := drawn s } })

/-- R79: in SCRAP and BROKEN, ROM halts. -/
def terminal (s : State) : State := if lcState s = lcScrap ∨ lcState s = lcBroken then romHalt { cause := 0x23 } s else s

/-- Fuse pairs of the boot count. -/
def bootPairs : Nat := 65536
/-- R385: the boot count advances past pairs that do not read back, at most 8 attempts; none is burned once no pair is left.
Log entries 25 (DEDUCED), 77 (DEDUCED). -/
def advanceBoot (env : StartEnv) (s : State) : State :=
  let n := s.otp.bootPairs
  if bootPairs ≤ n then s
  else if 8 ≤ env.weakPairs ∨ bootPairs ≤ n + env.weakPairs then romHalt { cause := 0x24 } s
  else
    let m := n + env.weakPairs + 1
    { s with otp := { s.otp with bootPairs := m }, pkg := { s.pkg with boot := m } }

/-- R108, R109, R386: the boot nonce, and the trace root where the DRS cannot be used. -/
def drawNonce (env : StartEnv) (s : State) : State :=
  if !env.entropyOk then romHalt { cause := 0x21 } s
  else
    let s := bumpDraw { s with ks := { s.ks with bootNonce := drawn s } }
    if drsUsable s then s else bumpDraw { s with ks := { s.ks with traceRoot := some (drawn s) } }

/-- The count that the fuses hold, which is the start's own until step 2 advances it (R385). -/
def heldBoot (s : State) : State := { s with pkg := { s.pkg with boot := min bootPairs s.otp.bootPairs } }

/-- Step 2 of Table 15-1. -/
def bootStep2 (env : StartEnv) (s : State) : State :=
  unlessHalted (drawNonce env) (unlessHalted (advanceBoot env) (unlessHalted terminal (unlessHalted (provision env) (resume (heldBoot (readOtp s))))))

/-! ### Steps 3 and 4: self-test -/

/-- A unit code that the variant carries (Tables 02-12, 15-2). -/
def unitPresent (k3s : Bool) (u : Nat) : Bool :=
  if u < 0x22 then (!k3s || decide (u < 16) || u == 32)
  else if 0x30 ≤ u ∧ u < 0x38 then !k3s
  else if 0x40 ≤ u ∧ u < 0x42 then !k3s
  else if 0x70 ≤ u ∧ u < 0x78 then (!k3s || decide (u < 0x74))
  else decide ((0x50 ≤ u ∧ u < 0x58) ∨ (0x60 ≤ u ∧ u < 0x70) ∨ (0x80 ≤ u ∧ u < 0x8C) ∨ (0x90 ≤ u ∧ u < 0x94) ∨ u = 0xA0 ∨ u = 0xA1)

/-- Codes of every unit of Table 15-2. -/
def allUnits : List Nat :=
  List.range 0x22 ++ (List.range 8).map (· + 0x30) ++ [0x40, 0x41] ++ (List.range 8).map (· + 0x50) ++ (List.range 16).map (· + 0x60)
    ++ (List.range 8).map (· + 0x70) ++ (List.range 12).map (· + 0x80) ++ (List.range 4).map (· + 0x90) ++ [0xA0, 0xA1]
/-- The units that a start tests: those the variant carries. -/
def startUnits (k3s : Bool) : List Nat := allUnits.filter (unitPresent k3s)

/-! #### Logic BIST (R388) and the lines of Table 15-3 -/

/-- A clock of a Fibonacci LFSR with feedback polynomial x^64 + x^63 + x^61 + x^60 + 1. -/
def lfsr (x : W64) : W64 := (x <<< 1) ||| BitVec.ofNat 64 (x.getLsbD 63 ^^ x.getLsbD 62 ^^ x.getLsbD 60 ^^ x.getLsbD 59).toNat
/-- The words of a PRPG over `n` clocks, and where it then stands. -/
def prpgWords : Nat → W64 → List W64 × W64
  | 0, x => ([], x)
  | n + 1, x => let r := prpgWords n (lfsr x); (x :: r.1, r.2)
/-- A response shifted out into the MISR, a word a clock. -/
def misrIn (m : W64) (l : List W64) : W64 := l.foldl (fun m w => lfsr m ^^^ w) m
/-- The MISR of a unit without fault, of class `cls`, after `n` further patterns: load, capture, shift out. -/
def misrRun (cls : Nat) : Nat → W64 → W64 → W64
  | 0, _, m => m
  | n + 1, prpg, m => let r := prpgWords (Config.scanLength cls) prpg; misrRun cls n r.2 (misrIn m (Config.response cls r.1))

/-- The class of a unit: the first code of its row of Table 15-2. -/
def unitClass (u : Nat) : Nat :=
  if u < 0x22 then 0 else if u < 0x40 then 0x30 else if u < 0x50 then 0x40 else if u < 0x54 then 0x50 else if u < 0x60 then 0x54
  else if u < 0x70 then 0x60 else if u < 0x80 then 0x70 else if u < 0x90 then 0x80 else if u < 0xA0 then 0x90 else u
/-- What the run finds of a unit's final MISR. -/
def deltaOf (runs : List UnitRun) (u : Nat) : W64 := ((runs.find? (fun r => r.unit.toNat == u)).map (·.delta)).getD 0
/-- Table 15-3, line by line: the class of the unit that fails, KXE cores being one. -/
def memoryClasses : List Nat := [0xA0, 0x60, 0x30, 0x30, 0x00, 0x00, 0x40, 0x50, 0x70, 0x80, 0x90]
/-- Table 15-3, line by line: spare rows per instance. -/
def spareRows : List Nat := [32, 4, 64, 4, 2, 16, 1, 2, 4, 4, 8]
/-- The class of a unit in Table 15-3. -/
def memoryClass (u : Nat) : Nat := if unitClass u = 0x54 then 0x50 else unitClass u

/-- Table 14-2: V_LL, T_T and T_W of a detector, in mV; the thresholds of R372 where BIST refused to run. -/
def trim (met : Bool) (vll floor : Nat) : Nat × Nat × Nat :=
  let t := if met then max (vll - 35 - 70) floor else max 600 floor
  (if met then vll else 0, t, max (if met then vll - 35 - 25 else 640) (t + 10))

/-- The detectors' thresholds (R371, R372). Log entry 79 (DEDUCED). -/
def trimAll (met : Bool) (env : StartEnv) (s : State) : State :=
  { s with aon := { s.aon with trims := (List.range 24).map (fun d => trim met (env.vll.getD d 0) (s.otp.floor.getD d 0)) } }

/-- R372: a detector whose BIST failed is treated as having fired, once the matrix arms it. Log entry 80 (DEDUCED). -/
def failedDetectors (env : StartEnv) (s : State) : State :=
  match (List.finRange 24).find? (fun d => env.badDetectors.contains d.val) with
  | some d => tamperSource (.lowVolt d) s
  | none => s

/-- A failed unit whose failure stops the start (Table 02-14). -/
def stopsStart (bad : List W16) (u : W16) : Bool :=
  let n := u.toNat
  let all := fun (base : Nat) => (List.range 4).all (fun k => bad.contains (BitVec.ofNat 16 (base + k)))
  decide ((0x80 ≤ n ∧ n < 0x8C) ∨ (0x90 ≤ n ∧ n < 0x94) ∨ n = 0xA0 ∨ n = 0xA1)
    || (decide (0x50 ≤ n ∧ n < 0x54) && all 0x50) || (decide (0x54 ≤ n ∧ n < 0x58) && all 0x54)

/-- The lowest code of a list. -/
def lowestCode : List W16 → Option W16
  | [] => none
  | u :: l => match lowestCode l with | some v => if v < u then some v else some u | none => some u

/-- The units of a class that a run tests, by the class's first code. -/
def classUnits (units : List Nat) (u : Nat) : List Nat := units.filter (fun v => unitClass v == unitClass u)
/-- R389: a unit passes logic BIST: against the golden signature for the fixed seed with 8,192 or 2^20 patterns, else against the
signature that more than half of its class share. A unit with fewer than two others of its class in the run passes. Log entry 193
(DEDUCED). -/
def logicPass (runs : List UnitRun) (units : List Nat) (seed : W64) (patterns : Nat) (u : Nat) : Bool :=
  let mine := deltaOf runs u
  if seed = Config.bootSeed ∧ (patterns = Config.bootPatterns ∨ patterns = 2 ^ 20) then mine == 0
  else
    let cls := classUnits units u
    decide (cls.length < 3) || decide (cls.length < 2 * (cls.filter (fun v => deltaOf runs v == mine)).length)
/-- R392: a memory of the unit has more failing rows than spares. -/
def memoryFails (runs : List UnitRun) (u : Nat) : Bool :=
  runs.any (fun r => r.unit.toNat == u && r.rows.any (fun x => memoryClasses.getD x.1 0x100 == memoryClass u && decide (spareRows.getD x.1 0 < x.2)))
/-- The units that fail a run: logic BIST where it runs, and memory BIST. -/
def failing (logic : Bool) (runs : List UnitRun) (units : List Nat) (seed : W64) (patterns : Nat) : List W16 :=
  (units.filter (fun u => memoryFails runs u || (logic && !logicPass runs units seed patterns u))).map (BitVec.ofNat 16)
/-- The MISRs that a run leaves: those of its units, each with its own. -/
def keepMisrs (runs : List UnitRun) (units : List Nat) (seed : W64) (patterns : Nat) (s : State) : State :=
  { s with pkg := { s.pkg with misr := units.foldl (fun m u => mapSet m u (seed, patterns, deltaOf runs u)) s.pkg.misr } }
/-- The MISRs of units whose run has not ended, or did not run: open values. -/
def openMisrs (units : List Nat) (seed : W64) (patterns : Nat) (s : State) : State :=
  { s with opens := s.opens + 1
           pkg := { s.pkg with misr := units.foldl (fun m u => mapSet m u (seed, patterns, Config.openWord (s.opens + 2 ^ 64 * u))) s.pkg.misr } }

/-- R55, R393: the start stops where a failure stops it; the halt record names the lowest such unit. -/
def selfTestStop (logic : Bool) (env : StartEnv) (s : State) : State :=
  let bad := failing logic env.units (startUnits s.k3s) Config.bootSeed Config.bootPatterns
  let s := { s with pkg := { s.pkg with bad := bad } }
  match lowestCode (bad.filter (stopsStart bad)) with
  | some u => romHalt { cause := 0x20, unit := u } s
  | none => s

/-! ### Step 5: the image, recovery mode -/

/-- R396: the longest code of an image, and check 1 of R397: FORMAT, SVN, CODE_LEN, ENTRY and the RSVD fields. Log entry 194 (DEDUCED). -/
def codeMax : Nat := 1564672
def imageHeaderOk (i : FwImage) : Bool :=
  i.format == 0x000A && decide (i.svn.toNat ≤ 64) && decide (0 < i.codeLen.toNat) && i.codeLen.toNat % 4096 == 0
    && decide (i.codeLen.toNat ≤ codeMax) && decide (i.entry.toNat < i.codeLen.toNat) && i.rsvdOk
/-- R397: REASON of an image that fails a check, 0 for one that passes. -/
def imageReason (s : State) (i : Option FwImage) : Byte :=
  match i with
  | none => 0x01
  | some i => if !imageHeaderOk i then 0x01 else if i.signerHash != s.otp.authority || !i.ecOk || !i.pqOk then 0x02
    else if i.svn.toNat < s.otp.svn then 0x03 else if i.codeHash != i.codeSha then 0x04 else 0

/-- R399: the REASON for which ROM enters recovery mode after step 5; 0 for none. -/
def recoveryReason (s : State) : Byte :=
  if s.aon.journalWait then 0x06
  else if imageReason s s.flash.image ≠ 0 then imageReason s s.flash.image
  else if s.aon.recoveryReq then 0x05 else 0

/-- ROM enters recovery mode (R399); a journal wait is latched in the halt record (R92). -/
def enterRecovery (reason : Byte) (s : State) : State :=
  let s := if reason = 0x06 then
      { s with opens := s.opens + 1
               aon := { s.aon with halt := haltRecord { cause := 0x22, whereF := s.aon.progress.setWidth 64 } 0 0 s } }
    else s
  { s with aon := { s.aon with recoveryReq := false }, pkg := { s.pkg with phase := .recovery, reason := reason } }

/-! ### Steps 6 and 7: pairing, firmware -/

/-- Optical dies of the variant. -/
def dieCount (k3s : Bool) : Nat := if k3s then 2 else 4
/-- "AVK1-PAIR-D" and "AVK1-PAIR-A" (R395). -/
def lblPairD : List Byte := [0x41, 0x56, 0x4B, 0x31, 0x2D, 0x50, 0x41, 0x49, 0x52, 0x2D, 0x44]
def lblPairA : List Byte := [0x41, 0x56, 0x4B, 0x31, 0x2D, 0x50, 0x41, 0x49, 0x52, 0x2D, 0x41]
/-- M_D or M_A (R395): the first 256 bits of HMAC-SHA-384 under the die's key over the label, both nonces and the die's index. -/
def pairMac (label : List Byte) (k na nd : Key) (d : Nat) : Key :=
  BitVec.ofNat 256 (ofBe ((be 48 (Config.hmacSha384 (be 32 k.toNat)
    (label ++ be 32 na.toNat ++ be 32 nd.toNat ++ [BitVec.ofNat 8 d])).toNat).take 32))
/-- R395: the exchanges with die `d`, up to `n`, each under a fresh N_A; a die that gives no answer fails one. -/
def pairDie (d : Nat) : Nat → List PairTry → State → State
  | 0, _, s => s
  | n + 1, tries, s =>
    let k := s.otp.pairing.getD d 0
    let na := drawn s
    let t := emit (.pairNonce d na) (bumpDraw s)
    match tries with
    | x :: l =>
      if x.mac = pairMac lblPairD k na x.nonce d then
        emit (.pairProof d (pairMac lblPairA k na x.nonce d)) { t with pkg := { t.pkg with paired := t.pkg.paired ||| BitVec.ofNat 4 (2 ^ d) } }
      else pairDie d n l t
    | [] => pairDie d n [] t
/-- R395: step 6: each die of the variant whose key is not zero pairs; a failed exchange is tried twice more. -/
def pairDies (env : StartEnv) (s : State) : State :=
  (List.range (dieCount s.k3s)).foldl (fun s d => if s.otp.pairing.getD d 0 = 0 then s else pairDie d 3 (env.dies.getD d []) s) s
/-- R395: die `d` is present: paired, or in BLANK, TEST_LOCKED and TEST_OPEN with an empty key slot. -/
def diePresent (s : State) (d : Nat) : Bool :=
  s.pkg.paired.getLsbD d || (decide (d < dieCount s.k3s) && s.otp.pairing.getD d 0 == 0
    && (lcState s == lcBlank || lcState s == lcTestLocked || lcState s == lcTestOpen))

/-- The number whose bits below `n` are those that `p` names. -/
def maskOf (n : Nat) (p : Nat → Bool) : Nat := ((List.range n).map (fun k => if p k then 2 ^ k else 0)).sum

/-- Table 02-11: profile `k` is valid in a life-cycle state. -/
def profileValid (k : Nat) (st : Byte) : Bool :=
  if k = 3 then st == lcTestLocked || st == lcTestOpen || st == lcAnalysis
  else st == lcProvisioned || st == lcDeployed || st == lcTestOpen || st == lcAssembled || st == lcAnalysis
/-- R51: NULL_REASON of the selected profile, 0 where it starts. -/
def nullReason (s : State) : BitVec 4 :=
  let k := s.aon.profile.toNat
  match s.flash.profileBad.find? (fun e => e.1 == k) with
  | some (_, r) => if r = 0 then (if profileValid k (lcState s) then 0 else 2) else r
  | none => if profileValid k (lcState s) then 0 else 2

/-- A unit has passed this start's self-test. -/
def unitOk (s : State) (u : Nat) : Bool := unitPresent s.k3s u && !s.pkg.bad.contains (BitVec.ofNat 16 u)
/-- R393: the engine that spare LE32 (base 0) or LE33 (base 16) takes. -/
def spareFor (s : State) (spare base : Nat) : Option Nat :=
  if unitOk s spare then (List.range 16).map (· + base) |>.find? (fun n => unitPresent s.k3s n && !unitOk s n) else none

/-- Pool engines that a profile permits to keep regions (Table 02-11). -/
def profilePools (nullP : Bool) (k : Nat) : Nat := if nullP then 0 else if k = 0 then 0x03 else if k = 1 then 0 else 0xFF
/-- The profile enables link ports. -/
def profilePorts (nullP : Bool) (k : Nat) : Bool := !nullP && k != 1

/-- Tables 16-12 to 16-15: the capability registers of this start (R53). -/
def publish (s : State) : State :=
  let k := s.aon.profile.toNat
  let nul := s.pkg.nullProfile
  let sp0 := spareFor s 32 0
  let sp1 := spareFor s 33 16
  let served := fun n => unitOk s n || sp0 == some n || sp1 == some n
  let port := fun n => decide (n < (if s.k3s then 16 else 32)) && served n && diePresent s (n / 8) && unitOk s (0x70 + n / 4)
    && profilePorts nul k
  let left := (if unitOk s 32 && sp0.isNone then 1 else 0) + (if unitOk s 33 && sp1.isNone then 1 else 0)
  let perm := if s.k3s then 0 else profilePools nul k
  let be := fun e => unitOk s (0x40 + e) && unitOk s (0x70 + e) && !nul
  let keeper := (List.range 8).any (fun p => unitOk s (0x30 + p) && unitOk s (0x70 + p) && decide (perm / 2 ^ p % 2 = 1))
  let banks := maskOf 16 (fun b => unitOk s (0x60 + b))
  let slots := ((List.range 16).filter (fun b => unitOk s (0x60 + b))).length * 1024
  let c0 := maskOf 32 port * 2 ^ 32 + (if nul then 7 else k) * 2 ^ 8 + maskOf 4 (diePresent s) * 2 ^ 4 + (if s.k3s then 1 else 0)
  let c1 := left * 2 ^ 56 + (match sp1 with | some n => 2 ^ 53 + n * 2 ^ 48 | none => 0)
    + (match sp0 with | some n => 2 ^ 45 + n * 2 ^ 40 | none => 0) + maskOf 34 (unitOk s)
  let c2 := (if keeper then 2 ^ 40 else 0) + maskOf 4 (fun c => unitOk s (0x54 + c)) * 2 ^ 36 + maskOf 4 (fun c => unitOk s (0x50 + c)) * 2 ^ 32
    + maskOf 2 be * 2 ^ 26 + (if s.k3s then 0 else 3) * 2 ^ 24 + perm * 2 ^ 16 + maskOf 8 (fun p => unitOk s (0x30 + p)) * 2 ^ 8
    + (if s.k3s then 0 else 0xFF)
  let c3 := maskOf 4 (fun t => unitOk s (0x90 + t)) * 2 ^ 52 + maskOf 12 (fun c => unitOk s (0x80 + c)) * 2 ^ 40
    + maskOf 8 (fun f => unitOk s (0x70 + f)) * 2 ^ 32 + slots * 2 ^ 16 + banks
  { s with pkg := { s.pkg with cap0 := BitVec.ofNat 64 c0, cap1 := BitVec.ofNat 64 c1, cap2 := BitVec.ofNat 64 c2, cap3 := BitVec.ofNat 64 c3 } }

/-- R96: the stored owner policy is accepted. -/
def policyOk (s : State) (p : Policy) : Bool :=
  p.format == 0x000B && p.deviceId == s.otp.deviceId && (match ownerSlot s with | some k => p.ownerSlot.toNat == k | none => false)
    && p.signerHash == ownerHash s && p.sigsOk
/-- The owner policy in force: verified in DEPLOYED only. -/
def acceptedPolicy (s : State) : Option Policy :=
  match s.flash.policy with
  | some p => if lcState s = lcDeployed ∧ policyOk s p then some p else none
  | none => none

/-- R96, R370, R143: the policy in force, the armed pins and level 2; pins low until then are noted in SEEN. -/
def armPins (env : StartEnv) (s : State) : State :=
  let pol := acceptedPolicy s
  let flags : Byte := match pol with | some p => p.flags | none => 0
  let pins : BitVec 4 := match pol with | some p => p.tamperPins.setWidth 4 | none => 0xF
  let armed : BitVec 4 := if lcState s = lcDeployed then pins else if armedState s then 0xF else 0
  let l2 : Byte := match pol with | some p => p.l2Sources | none => 0
  { s with aon := { s.aon with policyFlags := flags, armed := armed, l2Sources := l2, l2Armed := flags.getLsbD 1, pinsLow := env.pinsLow
                               seen := if env.pinsLow = 0 then s.aon.seen else s.aon.seen ||| 1 } }

/-- R370: a pin still low when it is armed fires at once, before any derivation under the DRS. -/
def firePins (s : State) : State :=
  match (List.range 4).filter (fun k => s.aon.armed.getLsbD k && s.aon.pinsLow.getLsbD k) with
  | [] => s
  | k :: l =>
    let level : Byte := if (k :: l).any (fun j => srcLevel (.pin (BitVec.ofNat 2 j)) s == 2) then 2 else 1
    tocsin { cause := 0x10, unit := BitVec.ofNat 16 k } level 1 0x02 s

/-- R112: the identity and key-establishment pairs, the first derivations under the DRS. Log entry 78 (DEDUCED). -/
def deriveIdentity (s : State) : State :=
  if drsUsable s then
    { s with ks := { s.ks with identity := some (identityPairs s), keHash := keHashOf (identityPairs s) } }
  else s

/-- Power that the active profile reserves, in W (Table 02-11); open for the null profile. -/
def reservedPower (s : State) : Nat :=
  if s.pkg.nullProfile then Config.nullPower
  else if s.aon.profile = 0 then 66 else if s.aon.profile = 1 then 20 else 72

/-- Ready (Table 15-1 step 7): the profile's power is reserved (R49), the dies reported trained, the package view's window begun, the profile's trace settings (R301).
The null profile's are those of profiles 0 to 2. Log entry 185 (DESIGN CHOICE). -/
def makeReady (env : StartEnv) (s : State) : State :=
  let lab := s.aon.profile == 3 && !s.pkg.nullProfile
  let vfs := (s.fns.filter (fun e => e.2.enabled)).map (·.1)
  let ports := (List.finRange 32).filter (fun p => env.trained.getLsbD p.val && capBit s.pkg.cap0 (32 + p.val))
  emit (.reserve (reservedPower s))
  { s with pkg := { s.pkg with phase := .ready, reserved := reservedPower s }
           ports := ports.map (fun p => (p.val, { trained := true }))
           opens := s.opens + 1
           tabor := { s.tabor with pkgView := { t0 := (Config.tick s.opens).toNat }
                                   vfViews := vfs.map (fun k => (k, { t0 := (Config.tick s.opens).toNat }))
                                   pfViews := vfs.map (fun k => (k, { t0 := (Config.tick s.opens).toNat }))
                                   share := if lab then 30 else 5, gib := if lab then 16 else 1 } }

/-- Steps 6 and 7, under an image that has verified. -/
def bootFirmware (env : StartEnv) (s : State) : State :=
  match s.flash.image with
  | none => s
  | some i =>
    let r := nullReason s
    let s := { s with pkg := { s.pkg with measurement := i.measurement, svn := i.svn.toNat, version := i.version, nullReason := r, nullProfile := r != 0 } }
    unlessHalted (makeReady env) (unlessHalted deriveIdentity (firePins (armPins env (publish (pairDies env s)))))

/-- Logic BIST runs on every unit while the limits are met (R390). Log entry 89 (DEDUCED). -/
def bootBist (met : Bool) (env : StartEnv) (s : State) : State :=
  let s := { s with pkg := { s.pkg with bistLimits := !met } }
  if met then keepMisrs env.units (startUnits s.k3s) Config.bootSeed Config.bootPatterns s
  else openMisrs (startUnits s.k3s) Config.bootSeed Config.bootPatterns s

/-- Steps 3 to 7; `met` says that the BIST limits are met. -/
def bootFrom3 (met : Bool) (env : StartEnv) (s : State) : State :=
  let s := unlessHalted (selfTestStop met env) (failedDetectors env (trimAll met env (bootBist met env s)))
  unlessHalted (fun s =>
    let r := recoveryReason s
    if r = 0 then bootFirmware env s else enterRecovery r s) s

/-- A start (R384): after a warm or a cold reset. Flash is as the surroundings left it. -/
def start (warm : Bool) (env : StartEnv) (s : State) : State :=
  let s := afterReset warm s
  let s := match env.flash with | some f => { s with flash := f } | none => s
  let s := bootStep2 env (selectProfile warm env (reloadHalt s))
  unlessHalted (fun s =>
    if env.bistLimitsOk then bootFrom3 true env s else { s with pkg := { s.pkg with phase := .bistWait 0 env } }) s

/-- BIST_LIMIT_RECHECK (R390): ROM checks the limits again every 1 ms for 3 ms; still unmet, the start goes on without logic BIST. -/
def bistRecheck (met : Bool) (s : State) : State :=
  match s.pkg.phase with
  | .bistWait n env =>
    if met then bootFrom3 true env s
    else if 2 ≤ n then bootFrom3 false env s
    else { s with pkg := { s.pkg with phase := .bistWait (n + 1) env } }
  | _ => s

end Sys2Proof.Machine
end

