-- ==== Sys2Proof/Machine/ActsLc.lean ====
section
/-! DEFINITION. Life-cycle transitions from their checks to their ends (R83 to R101), the status block (R103), the owner's items
(R96, R97), and debug grants (R347 to R352). -/
namespace Sys2Proof.Machine

/-! ### Status -/

/-- The unit's identity key hash; zero while the DRS is not usable (R83). -/
def unitIdentity (s : State) : Hash := if drsUsable s then identityHashOf (identityPairs s) else 0

/-- LC_FLAGS (Table 04-16). -/
def lcFlags (s : State) : Byte :=
  (if s.aon.session then 1 else 0) ||| (if drsUsable s then 2 else 0) ||| (if s.aon.weak then 4 else 0)
    ||| (if s.aon.journalWait then 8 else 0) ||| (if provPending s then 16 else 0)

/-- The life-cycle status block (Table 04-16). Log entry 88 (DEDUCED). -/
def lcStatusOf (s : State) : LcStatus :=
  { state := lcState s, progress := s.aon.progress, tokensLeft := BitVec.ofNat 8 (tokensLeft s), flags := lcFlags s
    ownerSlot := match ownerSlot s with | some k => BitVec.ofNat 8 k | none => 0xFF
    ownerSlotsLeft := BitVec.ofNat 8 (8 - slotsInstalled s), deviceId := s.otp.deviceId, identityHash := unitIdentity s
    ownerHash := ownerHash s, stateWord := s.aon.stateWord, progressWord := s.aon.progressWord }

/-- RESULT of LC_TRANSITION: the state code and the progress byte. -/
def lcResult (s : State) : BitVec 128 := resAt 0 (lcState s).toNat ||| resAt 1 s.aon.progress.toNat

/-! ### Checks of a transition (Table 04-10) -/

/-- TARGET that a KIND asks for (Tables 04-7, 04-9). -/
def lcTarget (s : State) (kind : Byte) : Byte :=
  if kind = 1 then lcTestLocked
  else if kind = 2 then (if lcState s = lcAnalysis then lcAnalysis else lcTestOpen)
  else if kind = 3 then lcAssembled
  else if kind = 4 then lcProvisioned
  else if kind = 5 ∨ kind = 6 then lcDeployed
  else if kind = 7 then lcAnalysis
  else lcScrap
/-- SIGNER that a KIND asks for (Table 04-8). -/
def lcSigner (s : State) (kind : Byte) : Byte :=
  if kind = 5 ∨ kind = 6 ∨ (kind = 8 ∧ lcState s = lcDeployed) then 0x02 else 0x01

/-- Check 1: the fields of the request. Log entry 95 (DEDUCED). -/
def lcFields (s : State) (r : LcReq) : List Check :=
  [firstField
    [badBuf (r.format != 0x0001) 0, badBuf (r.kind == 0 || 8 < r.kind.toNat) 2, badBuf (r.target != lcTarget s r.kind) 3,
     badBuf (r.signer != lcSigner s r.kind) 4, rsvdBuf r.rsvd6.toNat 2 6, rsvdBuf r.rsvd144.toNat 16 144]]

/-- Another life-cycle transition is in progress (R88). -/
def lcBusy (s : State) : Check := failIf (s.prog.any (fun q => q.started && q.opcode == 0x71)) stBusy 0x71

/-- KIND is allowed from the current state (Table 04-9). -/
def lcAllowed (s : State) (kind : Byte) : Bool :=
  let l := lcState s
  if kind = 1 then l == lcBlank
  else if kind = 2 then l == lcTestLocked || l == lcAnalysis
  else if kind = 3 then l == lcTestLocked || l == lcTestOpen
  else if kind = 4 then l == lcAssembled && !provPending s
  else if kind = 5 then l == lcProvisioned
  else if kind = 6 then l == lcDeployed
  else if kind = 7 then l == lcProvisioned || l == lcDeployed
  else l != lcScrap && l != lcBroken

/-- Check 4. -/
def lcStateCheck (s : State) (r : LcReq) : Check :=
  let slot := if r.kind = 6 then slotsInstalled s else 0
  failIf (!lcAllowed s r.kind || r.ownerSlot != BitVec.ofNat 8 slot || s.aon.nonce.isNone
    || (r.kind == 3 && s.otp.pairing.any (· != 0)) || (r.kind == 2 && s.aon.session)) stBadState ((lcState s).setWidth 32)

/-- Check 5. -/
def lcLimits (s : State) (r : LcReq) : Check :=
  if r.kind = 2 ∧ tokensLeft s = 0 then some (stLimits, 0x101)
  else failIf (r.kind == 6 && slotsInstalled s == 8) stLimits 0x102

/-- Check 6: the request names this unit and its nonce, and its signer is the expected one (R85). -/
def lcAuth (s : State) (r : LcReq) : Bool :=
  r.deviceId == s.otp.deviceId && r.identityHash == unitIdentity s && s.aon.nonce == some r.nonce && signerOk s r

/-! ### Execution of a transition -/

/-- R89: knells on every live port, every TDI in ERROR, every key zeroised, what the VFs had in progress ended; ports go down.
Log entry 93 (DEDUCED). -/
def quiescePackage (s : State) : State :=
  let mine := s.prog.filter (fun p => p.fn == .pf)
  let s := zeroiseAll (tdisError (knellAll 0x04 (endPerturb s)))
  let s := eachPort takeDown allPorts s
  { s with prog := mine
           fns := s.fns.map (fun e => if e.1 = 4096 then e else
             (e.1, { enabled := e.2.enabled, place := e.2.place, gen := e.2.gen, tdi := e.2.tdi, dirty := e.2.dirty })) }

/-- R101: the lowest token that is not consumed is consumed. -/
def useToken (s : State) : State :=
  match (List.range 16).find? (fun i => !s.aon.tansy.getLsbD i) with
  | some i => shadow { s with otp := { s.otp with tansy := s.otp.tansy ||| BitVec.ofNat 64 (7 * 2 ^ (3 * i)) } }
  | none => s

/-- R99: a pairing key for each companion die present, from the entropy source, burned here and into the die's fuses, each read back.
Log entry 27 (DEDUCED). -/
def drawPairing : List Nat → State → State
  | [], s => s
  | d :: l, s =>
    drawPairing l (if capBit s.pkg.cap0 (4 + d) then
      emit (.dieFuse d (drawn s)) (bumpDraw { s with otp := { s.otp with pairing := s.otp.pairing.set d (s.otp.pairing.getD d 0 ||| drawn s) } }) else s)

/-- Base of the marks of ANALYSIS and SCRAP (Table 04-3) and the state bit of step d. -/
def destroyBits (kind : Byte) : Nat × Nat := if kind = 7 then (0, 8) else (3, 9)

/-- The part of a transition that follows authentication and waits for no flash: a factory transition whole; the quiescing of a field
transition, and for ANALYSIS and SCRAP mark 1, the kill bits and mark 2 (Table 04-11). -/
def lcBegin (r : LcReq) (s : State) : State :=
  let quiet := fun (s : State) => if lcState s = lcProvisioned ∨ lcState s = lcDeployed then quiescePackage s else s
  if r.kind = 1 then burnState 0x1 s
  else if r.kind = 2 then let s := useToken s; { s with aon := { s.aon with session := true } }
  else if r.kind = 3 then burnState 0x2 (drawPairing (List.range 4) s)
  else if r.kind = 4 then burnState 0x4 s
  else if r.kind = 5 ∨ r.kind = 6 then emit .flashWrite (quiet s)
  else
    let b := (destroyBits r.kind).1
    burnMark b 2 (burnKill (burnMark b 1 (quiet s)))

/-- The journal has been written and read back (step a): mark 1. -/
def lcJournal (r : LcReq) (s : State) : State :=
  let c : JournalCopy := { req := r, digestOk := true }
  burnMark (6 + 3 * r.ownerSlot.toNat) 1 { s with flash := { s.flash with journal := [c, c] } }

/-- The user flash area has been erased: the steps after it. -/
def lcErased (r : LcReq) (s : State) : State :=
  if r.kind = 5 ∨ r.kind = 6 then
    finishOwner r.ownerSlot.toNat r.newOwnerHash (burnMark (6 + 3 * r.ownerSlot.toNat) 2 (eraseUser s))
  else
    let (b, n) := destroyBits r.kind
    burnState (BitVec.ofNat 64 (2 ^ n)) (burnMark b 3 (eraseUser s))

/-- R95: what follows a transition's completion: none for TEST_UNLOCK, the ROM halt of R79 for SCRAP, else a warm reset.
Log entry 92 (DEDUCED). -/
def lcEnd (r : LcReq) (env : StartEnv) (s : State) : State :=
  let s := if r.kind = 2 then s else knellAll 0x04 s
  if r.kind = 2 then s
  else if r.kind = 8 then
    let t := readOtp (afterReset true s)
    terminal { t with pkg := { t.pkg with boot := s.pkg.boot } }
  else start true env s

/-- LC_TRANSITION on the ring once a wait is over: step 0 after authentication, 9 after its failure, 1 after the journal, 2 after the
erase. Log entry 90 (DEDUCED). -/
def actLc (p : InProg) (r : LcReq) (env : StartEnv) (step : Nat) (s : State) : State :=
  let finish := fun (s : State) => lcEnd r env (complete p stOk 0 (lcResult s) s)
  if step = 9 then complete p stAuthFailed 0 0 s
  else if step = 0 then
    let s := lcBegin r s
    if r.kind.toNat ≤ 4 then finish s
    else if r.kind.toNat ≤ 6 then goOn p { flash := true } (.lcTransition r env 1) s
    else goOn p { flash := true } (.lcTransition r env 2) s
  else if step = 1 then goOn p { flash := true } (.lcTransition r env 2) (lcJournal r s)
  else finish (lcErased r s)

/-! ### Owner items (R96, R97) -/

/-- The item passes its checks. -/
def itemOk (s : State) (it : OwnerItem) : Bool :=
  match it with
  | .policy p => policyOk s p
  | .chain c => c.rootHash == ownerHash s && c.certsOk && c.leafIsIdentity

/-- OWNER_STORE after its flash write has been read back. -/
def actOwnerStore (p : InProg) (it : OwnerItem) (s : State) : State :=
  match it with
  | .policy q => complete p stOk 0 (q.seq.setWidth 128) { s with flash := { s.flash with policy := some q } }
  | .chain c => complete p stOk 0 0 { s with flash := { s.flash with chain := some c } }

/-! ### Debug grants (R346 to R352) -/

/-- Rights that a certificate of `issuer` may grant in a state (Table 13-2, R348). -/
def grantable (l : Byte) (issuer : Byte) : W64 :=
  if l = lcProvisioned then (if issuer = 1 then 0xDFFE else 0)
  else if l = lcDeployed then 0x1FFE
  else if l = lcAnalysis then (if issuer = 1 then allRights else 0)
  else 0
/-- The lowest right of a mask (R349). -/
def lowestRight (m : W64) : Option Nat := (List.range 64).find? (fun n => m.getLsbD n)

/-- SCOPE is a valid encoding (Table 13-1). -/
def scopeOk (w : W16) : Bool :=
  !w.getLsbD 12 && !(w.getLsbD 15 && w.getLsbD 13) && (w.getLsbD 13 || w.toNat % 4096 == 0)

/-- Check 1 of Table 13-3. -/
def certFields (c : Cert) : List Check :=
  [firstField
    [badBuf (c.format != 0x0007) 0, badBuf (c.issuer != 1 && c.issuer != 2) 2, rsvdBuf c.rsvd3.toNat 1 3, badBuf (!scopeOk c.scope) 4,
     rsvdBuf c.rsvd6.toNat 2 6, badBuf (c.rights == 0 || c.rights &&& ~~~allRights != 0) 64, badBuf (c.bootLast < c.bootFirst) 72,
     rsvdBuf c.rsvd144.toNat 16 144]]

/-- Checks 2 and 3 of Table 13-3. -/
def certPermitted (s : State) (c : Cert) : List Check :=
  let l := lcState s
  [failIf (!(l == lcProvisioned || l == lcDeployed || (l == lcAnalysis && !s.aon.session))) stNotPermitted 0,
   (lowestRight (c.rights &&& ~~~(grantable l c.issuer))).map (fun n => (stNotPermitted, BitVec.ofNat 32 n))]

/-- Check 4 of Table 13-3. -/
def certState (s : State) (c : Cert) : Check :=
  failIf (!decide (c.bootFirst.toNat ≤ s.pkg.boot ∧ s.pkg.boot ≤ c.bootLast.toNat)
    || (c.issuer == 1 && lcState s == lcDeployed && !s.aon.policyFlags.getLsbD 2)) stBadState ((lcState s).setWidth 32)

/-- Check 5 of Table 13-3: DETAIL is the holder's opcode, an LC_TRANSITION's before any other's (R88). -/
def certBusy (s : State) : Check :=
  let held := fun (o : Byte) => failIf (s.prog.any (fun q => q.started && q.opcode == o)) stBusy (o.setWidth 32)
  held 0x71 <|> held 0x68 <|> held 0x69 <|> failIf s.tapRevoke.isSome stBusy 0x69

/-- Check 6 of Table 13-3. -/
def certAuth (s : State) (c : Cert) : Bool :=
  c.deviceId == s.otp.deviceId && c.identityHash == unitIdentity s && c.ownerHash == ownerHash s
    && c.signerHash == (if c.issuer = 1 then s.otp.authority else ownerHash s) && c.ecOk && c.pqOk

/-- The levels of the debug grant in force (R346). -/
inductive GrantLevel where
  | none_ | owner | vendor
  deriving DecidableEq, Repr
/-- R346: the level of the debug grant in force; where the state itself opens every right, the vendor's. -/
def grantLevel (s : State) : GrantLevel :=
  match s.grant with
  | some g => if g.owner then .owner else .vendor
  | none => if rightsInForce s = 0 then .none_ else .vendor

/-- A scope reaches what another does not. -/
def scopeWider (old new : W16) : Bool :=
  (new.getLsbD 14 && !old.getLsbD 14) || (new.getLsbD 15 && !old.getLsbD 15)
    || (new.getLsbD 13 && !old.getLsbD 15 && !(old.getLsbD 13 && old.toNat % 4096 == new.toNat % 4096))
/-- R350 step 1: the new grant adds a right, or widens the scope of a data right in force. -/
def grantWidens (s : State) (c : Cert) : Bool :=
  let old := rightsInForce s
  c.rights &&& ~~~old != 0
    || (match s.grant with
        | some g => (c.rights &&& old &&& (0x3E0 : W64)) != 0 && scopeWider g.scope c.scope
        | none => false)

/-- R365: the perturbation registers act. -/
def perturbActs (s : State) : Bool :=
  lcState s == lcTestOpen || lcState s == lcAssembled || lcState s == lcAnalysis || hasRight s 4

/-- Table 03-19: the Debug rights changed record to the PF and every VF, and its trace record. -/
def rightsChanged (s : State) : State :=
  let r := rightsInForce s
  let go := fun (s : State) (f : Fn) => asyncRecord f { kind := 4, status := stOk, result := r.setWidth 128 } s
  (listedFns s).foldl go (trace .pf 0x43 0xFFFF (r.setWidth 128) s)

/-- R350: a grant that has passed its checks takes effect; `kid` has been reserved for its debug key. -/
def applyGrant (c : Cert) (kid : W16) (s : State) : State :=
  let s := if grantWidens s c then tdisErrorClean false (listedFns s) s else s
  let s := match s.grant with | some g => retireKid g.kid s | none => s
  let key := drawn s
  let s := activateKid kid (placeKey kid (mkSlot key .debug (useSeal ||| useOpen ||| usePool) .pf 0 0xFFFF 0) (bumpDraw s))
  let s := { s with grant := some { rights := c.rights, scope := c.scope, owner := c.issuer == 2, kid := kid } }
  rightsChanged (if perturbActs s then s else endPerturb s)

/-- DEBUG_GRANT after the KXE has checked the signatures. -/
def actGrant (p : InProg) (c : Cert) (kid : W16) (s : State) : State :=
  if certAuth s c then
    let s := applyGrant c kid s
    complete p stOk 0 ((rightsInForce s).setWidth 128) s
  else complete p stAuthFailed 0 0 (releaseKid kid s)

/-- R352: the grant in force ends; its debug KID. Log entry 97 (DEDUCED). -/
def revokeGrant (g : GrantSt) (s : State) : State := rightsChanged (retireKid g.kid (endPerturb { s with grant := none }))

/-- A slot and an internal KID are free. -/
def intSlotCheck (s : State) : Check :=
  match freeSlot s with
  | none => some (stNoSlot, 1)
  | some _ => failIf (freeIntKid s).isNone stNoSlot 2

end Sys2Proof.Machine
end

