-- ==== Sys2Proof/Machine/Requests.lean ====
section
/-! DEFINITION. What compute requesters ask for at the fabric ports: sealed frames, tokens, refusals, chimes, pool requests
(R175, R218 to R223, R230, R231, R234, R261, R262), and their wait while a VF is quiesced (R309). -/
namespace Sys2Proof.Machine

/-- The fabric port refuses a request with an error completion to its requester. -/
def refuse (f : Fn) (ctx : W16) (s : State) : State := emit (.fabricError f ctx) s

/-- The stream that a request of function `f` names, open for sending and not exhausted or closing (R188). -/
def streamFor (s : State) (f : Fn) (peer : BitVec 12) (cls ord : BitVec 4) : Option SendSt :=
  match (fnOf s f).job with
  | none => none
  | some job =>
    match findSend s job (streamId s.fab.id peer cls ord) with
    | some t => if t.closing || exhausted t then none else some t
    | none => none

/-- BATCH as the header carries it: the batch id in bits 15:4 (Table 07-4). Log entry 54 (DEDUCED). -/
def batchField (b : BitVec 12) : W16 := BitVec.ofNat 16 (b.toNat * 16)

/-- Queue a frame for sealing behind every frame of its stream. Log entry 53 (DEDUCED). -/
def queueSeal (t : SendSt) (ftype : Byte) (units : Nat) (q : SealReq) (batch batchGen : W16) (payload : List Byte) (s : State) : State :=
  enqueue t.port (.seal t.job t.sid ftype units q.dstCtx (if q.dstCtx = 0xFFFF then 0 else q.dstCtxGen) batch batchGen payload q.ctx) s

/-- SEAL_REQUEST: a DATA or RETURN frame (Table 07-5) whose payload fills its units. -/
def sealRequest (q : SealReq) (s : State) : State :=
  let kindOk := (q.ftype == 0x01 && (q.cls == 0 || q.cls == 4)) || (q.ftype == 0x04 && q.cls == 2)
  let sizeOk := decide (1 ≤ q.units.toNat ∧ q.units.toNat ≤ 32 ∧ q.payload.length ≤ 256 * q.units.toNat)
  match streamFor s q.fn q.peer q.cls q.ordinal with
  | none => refuse q.fn q.ctx s
  | some t =>
    if !kindOk || !sizeOk then refuse q.fn q.ctx s
    else if q.cls = 2 then queueSeal t q.ftype q.units.toNat q (batchField q.batch) q.batchGen q.payload s
    else queueSeal t q.ftype q.units.toNat q 0 0 q.payload s

/-- A TOKEN payload: the 32 bytes of its header (Table 08-6) and its data. -/
def tokenBytes (t : TokenPay) : List Byte :=
  be 4 t.tokenTag.toNat ++ be 2 t.batchGen.toNat ++ [t.nchoice, t.retOrdinal] ++ be 8 t.expert.toNat ++ be 4 t.length.toNat
    ++ be 4 t.retObject.toNat ++ be 8 t.retOffset.toNat ++ t.data

/-- The batch id of a token (Table 08-6). -/
def tokenBatch (t : TokenPay) : BitVec 12 := t.tokenTag.extractLsb' 20 12

/-- TOKEN_REQUEST (R230): queued on its class-1 stream; the seal half claims or checks the batch's entry and writes bytes 4-5
(`sealToken`). Log entry 195 (DEDUCED). -/
def tokenRequest (q : SealReq) (t : TokenPay) (s : State) : State :=
  match streamFor s q.fn q.peer 1 q.ordinal with
  | none => refuse q.fn q.ctx s
  | some st =>
    if decide (1 ≤ q.units.toNat ∧ q.units.toNat ≤ 32 ∧ 32 + t.data.length ≤ 256 * q.units.toNat) then
      queueSeal st 0x03 q.units.toNat q 0 0 (tokenBytes t) s
    else refuse q.fn q.ctx s

/-- The payload of a REFUSAL (Table 08-7). -/
def refusalBytes (t : TokenPay) (choice reason : Byte) (expert : W16) : List Byte :=
  be 4 t.tokenTag.toNat ++ [choice, reason] ++ be 2 expert.toNat

/-- REFUSAL_REQUEST (R231): sealed on the class-2 stream that the token names, or discarded where none is open. -/
def refusalRequest (job : W16) (source : BitVec 12) (t : TokenPay) (choice reason : Byte) (expert : W16) (s : State) : State :=
  let sid := streamId s.fab.id source 2 (t.retOrdinal.setWidth 4)
  match findSend s job sid with
  | none => match vfOfJob s job with | some f => countFn f 0x2A s | none => s
  | some st =>
    if st.closing || exhausted st then countFn st.fn 0x2A s
    else enqueue st.port (.seal job sid 0x05 1 0xFFFF 0 (batchField (tokenBatch t)) t.batchGen (refusalBytes t choice reason expert) 0xFFFF) s

/-- R218, R219: COUNT and OPs of a chime are in range. -/
def chimeOk (p : ChimePay) : Bool :=
  decide (1 ≤ p.count.toNat ∧ p.count.toNat ≤ 15) && p.sigs.length == p.count.toNat && p.sigs.all (fun g => g.op == 1 || g.op == 2)

/-- The payload of a CHIME (Table 08-3). -/
def chimeBytes (p : ChimePay) : List Byte :=
  [p.count] ++ List.replicate 15 0 ++ p.sigs.flatMap (fun g => be 4 g.fence.toNat ++ [g.op, 0, 0, 0] ++ be 8 g.value.toNat)

/-- Entries of a fabric port's snare: local chimes, and completions of local pool reads; those beyond the 512 are held in the pool
engine (R212). Log entry 187 (DEDUCED). -/
def fabricEntries (s : State) (fport : Nat) : Nat :=
  (s.localSnare.filter (fun e => e.fport.toNat == fport)).length + (s.reads.filter (fun e => e.fport == fport)).length

/-- LOCAL_CHIME_REQUEST (R223): it waits in the fabric port's snare behind its requester's earlier pool operations. -/
def localChime (f : Fn) (ctx : W16) (cls : BitVec 4) (fport : BitVec 3) (p : ChimePay) (s : State) : State :=
  if !(cls == 0 || cls == 2 || cls == 3) || !chimeOk p then refuse f ctx s
  else if Config.fabricSnare ≤ fabricEntries s fport.toNat then refuse f ctx (countPkg 0x10 s)
  else
    let mine := fun (j : PoolJob) => (match j.from_ with | .localReq g c _ => g == f && c == ctx | _ => false)
      && (match regionAt s j.region with | some r => r.engine == fport.toNat | none => false)
    let tags := (s.members.filter (fun e => e.2.fn == f && e.2.ctx == ctx && e.2.fp == fport.toNat)).map (fun e => BitVec.ofNat 32 e.1)
    { s with localSnare := s.localSnare ++
        [{ fn := f, ctx := ctx, fport := fport, sigs := p.sigs, tags := tags
           jobs := (s.jobs.filter mine).map (·.id) ++ (s.reads.filter (fun e => e.fn == f && e.ctx == ctx && e.fport == fport.toNat)).map (·.job) }] }

/-- CHIME_REQUEST (R218). -/
def chimeRequest (q : SealReq) (p : ChimePay) (s : State) : State :=
  if q.peer = s.fab.id then localChime q.fn q.ctx q.cls q.fport p s
  else if !(q.cls == 0 || q.cls == 2 || q.cls == 3) || !chimeOk p then refuse q.fn q.ctx s
  else match streamFor s q.fn q.peer q.cls q.ordinal with
    | none => refuse q.fn q.ctx s
    | some t =>
      if q.cls = 2 then queueSeal t 0x02 1 q (batchField q.batch) 0 (chimeBytes p) s
      else queueSeal t 0x02 1 q 0 0 (chimeBytes p) s

/-- A POOL request's payload (Table 09-10). -/
def poolBytes (q : PoolReq) (ret : BitVec 4) (tag : W32) : List Byte :=
  [q.pop, q.redOp, q.redFormat, ret.setWidth 8] ++ be 4 tag.toNat ++ be 8 q.regionId.toNat ++ be 8 q.offset.toNat ++ be 4 q.length.toNat
    ++ [0, 0, 0, 0] ++ (if q.pop = 0x01 then [] else q.data)

/-- The next PTAG that no pending request has. -/
def freeTag (s : State) : W32 :=
  BitVec.ofNat 32 ((firstFree (fun k => (mapFind s.members (k % 2 ^ 32)).isSome) (s.members.length + 1) s.nextTag.toNat).getD 0)

/-- MEMBER_POOL_REQUEST (R261): recorded as pending and sealed toward the keeper. -/
def memberPool (q : PoolReq) (keeper : BitVec 12) (ordinal ret : BitVec 4) (s : State) : State :=
  match streamFor s q.fn keeper 3 ordinal with
  | none => refuse q.fn q.ctx s
  | some t =>
    let fp := t.port.val / 4
    let tag := freeTag s
    let bytes := poolBytes q ret tag
    if Config.memberTable ≤ (s.members.filter (fun e => e.2.fp == fp)).length || decide (32 < unitsFor bytes.length) then refuse q.fn q.ctx s
    else
      let m : MemberSt := { fn := q.fn, ctx := q.ctx, keeper := keeper, read := q.pop == 0x01, buffer := q.buffer, gen := genOf s q.fn, fp := fp }
      enqueue t.port (.seal t.job t.sid 0x06 (unitsFor bytes.length) 0xFFFF 0 0 0 bytes q.ctx)
        { s with members := mapSet s.members tag.toNat m, nextTag := tag + 1 }

/-- LOCAL_POOL_REQUEST (R262): checked in the order of Table 09-11 and admitted to its region's pool engine. -/
def localPool (q : PoolReq) (s : State) : State :=
  let done := fun (st : W16) => emit (.fabricDone q.fn q.ctx st []) s
  if !poolShapeOk q.pop q.redOp q.redFormat true q.offset.toNat q.length.toNat then done stMalformed
  else match (fnOf s q.fn).job with
    | none => done stBadState
    | some job =>
      match admitRegion s job q.regionId q.offset.toNat q.length.toNat with
      | .inl (st, _) => done st
      | .inr k =>
        poolPump (addJob k (.localReq q.fn q.ctx (genOf s q.fn)) (poolKind q.pop q.redOp q.redFormat) q.offset.toNat q.length.toNat
          (padTo q.length.toNat (q.data.take q.length.toNat)) s).2

/-- The requests of a quiesced or frozen VF's contexts wait at the fabric ports (R309, R321). -/
def holding (s : State) (f : Fn) : Bool := (fnOf s f).quiesced || (fnOf s f).frozen

/-- The context that a request at a fabric port comes from. -/
def reqCtx (c : Instr) : W16 :=
  match c with
  | .sealRequest q => q.ctx
  | .tokenRequest q _ => q.ctx
  | .chimeRequest q _ => q.ctx
  | .localChimeRequest _ ctx _ _ _ => ctx
  | .memberPoolRequest q _ _ _ => q.ctx
  | .localPoolRequest q => q.ctx
  | _ => 0xFFFF

/-- Run a request of function `f` at a fabric port: refused once a field transition has quiesced the package (R89), held while the VF
is quiesced. -/
def atPort (f : Fn) (c : Instr) (g : State → State) (s : State) : State :=
  if !serving s then s
  else if quiescing s then refuse f (reqCtx c) s
  else if holding s f then fnMod f (fun x => { x with fabHeld := x.fabHeld ++ [c] }) s
  else g s

/-- A held request, run. -/
def runHeld (c : Instr) (s : State) : State :=
  match c with
  | .sealRequest q => sealRequest q s
  | .tokenRequest q t => tokenRequest q t s
  | .chimeRequest q p => chimeRequest q p s
  | .localChimeRequest f ctx cls fp p => localChime f ctx cls fp p s
  | .memberPoolRequest q k o r => memberPool q k o r s
  | .localPoolRequest q => localPool q s
  | _ => s

/-- Run held requests in their order. -/
def runAllHeld : List Instr → State → State
  | [], s => s
  | c :: l, s => runAllHeld l (runHeld c s)

/-- The VF's held requests run once its quiescence ends. -/
def releaseHeld (f : Fn) (s : State) : State :=
  runAllHeld (fnOf s f).fabHeld (fnMod f (fun x => { x with fabHeld := [] }) s)

end Sys2Proof.Machine
end

