-- ==== Sys2Proof/Machine/ActsVf.lean ====
section
/-! DEFINITION. Quiescence, unit resets, RESET_VF, RESET_PACKAGE, replays, and the waits of migration and dirty logging
(11_recovery_migration.md), run when what they wait for has come. -/
namespace Sys2Proof.Machine

/-! ### Quiescence (R309) -/

/-- A frame of the VF's job is still queued for sealing. -/
def sealsQueued (s : State) (f : Fn) : Bool :=
  match (fnOf s f).job with
  | none => false
  | some job => s.ports.any (fun e => e.2.queue.any (fun i => match i with | .seal j .. => j == job | _ => false))

/-- A pool request of the VF's own contexts is at an engine. -/
def localJob (f : Fn) (j : PoolJob) : Bool := match j.from_ with | .localReq g _ _ => g == f | _ => false

/-- No request of the VF is in progress. Log entry 103 (DEDUCED). -/
def vfIdle (s : State) (f : Fn) : Bool :=
  (progOf s f).isEmpty && !s.jobs.any (localJob f) && !s.reads.any (fun e => e.fn == f) && !s.members.any (fun m => m.2.fn == f) && !sealsQueued s f

/-- Steps 1 and 2 of R309: dispatch stops, the fabric ports hold, the quiescence set is recorded. -/
def quiesceVf (f : Fn) (s : State) : State :=
  if (fnOf s f).quiesced then s
  else fnMod f (fun x => { x with quiesced := true, quiesceSet := (progOf s f).map (·.idx) }) s

/-- QUIESCE_VF, or the first step of MIGRATE_FREEZE, once the VF is idle. -/
def actQuiesce (p : InProg) (s : State) : State := if vfIdle s p.target then complete p stOk 0 0 s else s
/-- MIGRATE_FREEZE's steps (R321); the first waits until nothing is in progress. -/
def actFreezeVf (p : InProg) (step : Nat) (s : State) : State :=
  if step = 0 ∧ !vfIdle s p.target then s else actFreeze p p.target step s

/-! ### Unit resets (R310) -/

/-- A command that the quiescence set of its function holds. -/
def inQuiesceSet (s : State) (f : Fn) (q : InProg) : Bool := q.fn == f && (fnOf s f).quiesceSet.contains q.idx
/-- Bulk engines that are faulting for a VF. -/
def faultyEngines (s : State) (f : Fn) : List Nat :=
  [0, 1].filter (fun e => s.prog.any (fun q => inQuiesceSet s f q && atEngine s q == some e))
/-- Requests of the VF's quiescence set that a KXE core still holds; a core holds one request. -/
def faultyKxe (s : State) (f : Fn) : List InProg := s.prog.filter (fun q => inQuiesceSet s f q && q.hold.kxe)

/-- The KID that a bulk request names, where it is LIVE. -/
def namedKid (s : State) (q : InProg) : Option W16 :=
  match bulkOf q.act with
  | none => none
  | some b => match mapFind s.bulk (b.toNat % 65536) with
    | some c => if c.kid != 0 && kidLive s c.kid then some c.kid else none
    | none => none

/-- A squashed request of another function makes its context a suspect and suspends its KID. Log entry 105 (DEDUCED). -/
def markSuspect (f : Fn) (q : InProg) (s : State) : State :=
  match namedKid s q with
  | none => s
  | some kid =>
    if q.fn = f ∨ q.ctx = 0xFFFF then s
    else traceKid kid 1 2 (setKid kid .suspended
      (fnMod q.fn (fun x => { x with ctxs := mapMod {} x.ctxs q.ctx.toNat (fun c => { c with suspect := true }) }) s))

/-- Mark the suspects among squashed requests. -/
def markSuspects (f : Fn) : List InProg → State → State
  | [], s => s
  | q :: l, s => markSuspects f l (markSuspect f q s)

/-- Reset one faulting engine: every request it holds is squashed. -/
def squashEngine (f : Fn) (e : Nat) (s : State) : State :=
  let reqs := s.prog.filter (fun q => atEngine s q == some e)
  resetEngine e (abortCmds reqs (markSuspects f reqs s))

/-- Reset the KXE cores that hold requests: the requests are squashed, and no result of theirs comes. -/
def resetCores (l : List InProg) (s : State) : State :=
  let s := abortCmds l s
  { s with late := s.late.filter (fun x => !l.any (fun q => q.fn == x.fn && q.idx == x.idx)) }

/-- Reset every unit that is faulting for a VF, each once. Log entry 102 (DEDUCED). -/
def resetUnits (f : Fn) (s : State) : State := resetCores (faultyKxe s f) (eachIdx (squashEngine f) (faultyEngines s f) s)

/-! ### Outstanding transfers (R307, R308) -/

/-- R307: the function is privileged. -/
def privileged (s : State) (f : Fn) : Bool :=
  f == .pf || s.prog.any (fun q => (q.opcode == 0x01 || q.opcode == 0x58) && q.target == f)
    || s.regions.any (fun r => r.2.fn == f && r.2.state != .freeing)

/-- The command awaits only a signal from another party (Table 11-2). -/
def awaitsSignal (q : InProg) : Bool :=
  match q.act with
  | .fenceWait _ _ => true
  | .openSend _ _ _ => true
  | .openRecv .. => true
  | .handover _ _ 1 => true
  | .close _ _ false true => true
  | _ => false

/-- R310: a pool engine, a link engine or the controller still holds a request of the VF's quiescence set. Behind another RESET_VF of
the VF a reset waits and finds none (Table 11-8). -/
def stuckElsewhere (s : State) (f : Fn) : Bool :=
  (fnOf s f).quiesced && !(s.prog.any (fun q => match q.act with | .reset g _ => g == f | _ => false)) && (s.jobs.any (fun j => localJob f j && j.phase != 2)
    || s.prog.any (fun q => inQuiesceSet s f q && !q.hold.engine && !q.hold.kxe && !awaitsSignal q))

/-- What a reset of privileged functions waits for: their commands, HOME writes and leases; a MIGRATE_KEY that names them. -/
def drainHold (s : State) (fs : List Fn) (cmds : List InProg) : Hold :=
  let ks := (s.regions.filter (fun r => fs.contains r.2.fn)).map (·.1)
  { cmds := cmds.map (fun q => (q.fn, q.idx))
    jobs := (s.jobs.filter (fun j => ks.contains j.region && j.kind != .read)).map (·.id)
    xids := (s.exch.filter (fun e => ks.contains e.2.region && (e.2.op == 0x11 || e.2.op == 0x13 || e.2.op == 0x14))).map
      (fun e => BitVec.ofNat 32 e.1) }

/-- Pool reads of a privileged function's contexts are squashed: nothing is released. -/
def squashReads (fs : List Fn) (s : State) : State :=
  { s with jobs := s.jobs.filter (fun j => !(j.kind == .read && fs.any (fun f => localJob f j)))
           members := s.members.filter (fun m => !(m.2.read && fs.contains m.2.fn)) }

/-! ### RESET_VF (R314) -/

/-- Commands of the admin ring that a reset of VF `f` ends: QUIESCE_VF, MIGRATE_FREEZE and REPLAY_CONTEXT naming it.
Log entry 104 (DEDUCED). -/
def endedByReset (f : Fn) (q : InProg) : Bool := q.target == f && (q.opcode == 0x50 || q.opcode == 0x53 || q.opcode == 0x59)

/-- Step 1 of R314: faulting units are reset, what is only waited for is aborted, and a privileged VF's transfers drain. -/
def beginReset (p : InProg) (f : Fn) (s : State) : State :=
  let priv := privileged s f
  let s := resetUnits f (abortCmds (s.prog.filter (endedByReset f)) s)
  if !priv then actReset p f s
  else
    let s := ringMod f (fun r => { r with closing := true }) (quiesceVf f s)
    let s := squashReads [f] (abortCmds ((progOf s f).filter awaitsSignal) s)
    let cmds := s.prog.filter (fun q => q.fn == f || (q.opcode == 0x58 && q.target == f))
    goOn p (drainHold s [f] cmds) (.reset f 0) s

/-- RESET_VF after a wait: 9 behind another RESET_VF of the VF, 0 once its transfers have drained. -/
def actResetVf (p : InProg) (f : Fn) (step : Nat) (s : State) : State :=
  if step = 9 then beginReset p f s else if step = 0 then actReset p f s else s

/-! ### RESET_PACKAGE (R316) -/

/-- The functions that are privileged now. -/
def privilegedFns (s : State) : List Fn := .pf :: (listedFns s).filter (fun f => f != .pf && privileged s f)

/-- Step 1 of R316. -/
def beginPackageReset (p : InProg) (env : StartEnv) (s : State) : State :=
  let ended := fun (q : InProg) => q.fn == .pf && (q.opcode == 0x50 || q.opcode == 0x51 || q.opcode == 0x53 || q.opcode == 0x59)
  let fs := privilegedFns s
  let s := (listedFns s).foldl (fun s f => resetUnits f s) (abortCmds (s.prog.filter ended) s)
  let s := squashReads fs (abortCmds (s.prog.filter (fun q => fs.contains q.fn && awaitsSignal q)) s)
  let cmds := s.prog.filter (fun q => fs.contains q.fn && q.opcode != 0x52)
  goOn p (drainHold s fs cmds) (.resetPackage env) s

/-- Steps 2 to 6 of R316: knells, the completion (R75), the TDIs in ERROR, keys and roots zeroised, the warm reset, the scrub. -/
def actResetPackage (p : InProg) (env : StartEnv) (s : State) : State :=
  let s := complete p stOk 0 0 (flushFns (listedFns s) (knellAll 0x03 s))
  emit .scrubAll (start true env (zeroiseAll (tdisError s)))

/-! ### Replays (R311, R312) -/

/-- The VF has a suspect context. -/
def hasSuspect (s : State) (f : Fn) : Bool := (fnOf s f).ctxs.any (fun c => c.2.suspect)

/-- KIDs of a context that are SUSPENDED: those tagged to it, and those its bulk contexts name. -/
def suspendedKids (s : State) (f : Fn) (ctx : W16) : List W16 :=
  let named := (s.bulk.filter (fun b => b.2.vf == f && (b.2.ctx == ctx || b.2.ctx == 0xFFFF))).map (·.2.kid)
  (s.ks.kids.filter (fun e => e.2.owner == some f && e.2.st == .suspended
    && (named.contains (BitVec.ofNat 16 e.1) || (match mapFind s.ks.slots e.2.slot with | some x => x.ctx == ctx | none => false)))).map
    (fun e => BitVec.ofNat 16 e.1)

/-- SUSPENDED KIDs return to LIVE. -/
def liveAgain : List W16 → State → State
  | [], s => s
  | k :: l, s => liveAgain l (traceKid k 2 1 (setKid k .live s))

/-- R309: quiescence ends once no context of the VF is a suspect; its held requests run. -/
def endQuiesce (f : Fn) (s : State) : State :=
  if hasSuspect s f then s
  else
    let s := fnMod f (fun x => { x with quiesced := false, quiesceSet := [] }) s
    if (fnOf s f).frozen then s else releaseHeld f s

/-- A replay that has run every descriptor: the context is no suspect any more. -/
def finishReplay (p : InProg) (f : Fn) (ctx : W16) (total : W32) (s : State) : State :=
  let s := { s with replayEngine := none }
  let s := if ctx = 0xFFFF then fnMod f (fun x => { x with frozen := false }) s
    else
      let kids := suspendedKids s f ctx
      liveAgain kids (fnMod f (fun x => { x with ctxs := mapMod {} x.ctxs ctx.toNat (fun c => { c with suspect := false }) }) s)
  complete p stOk 0 (total.setWidth 128) (endQuiesce f s)

/-- A replay stops at a descriptor that did not complete with OK; the context stays a suspect. -/
def stopReplay (p : InProg) (st : W16) (d : W32) (done : Nat) (s : State) : State :=
  complete p st d (BitVec.ofNat 128 done) { s with replayEngine := none }

/-- The bulk context that a saved descriptor names (Table 03-16). -/
def descBctx (d : ReplayDesc) : W32 := BitVec.ofNat 32 (rawField d.raw 20 4)
/-- The operands of a saved bulk descriptor (Table 03-16). -/
def descOp (d : ReplayDesc) : BulkOperands :=
  { src := BitVec.ofNat 64 (rawField d.raw 24 8), dst := BitVec.ofNat 64 (rawField d.raw 32 8), length := BitVec.ofNat 32 (rawField d.raw 40 4)
    flags := BitVec.ofNat 8 (rawByte d.raw 44), aux := BitVec.ofNat 64 (rawField d.raw 48 8) }
/-- The checks of a saved bulk descriptor's own opcode, nothing being ahead of it on its context (R311). -/
def descOwn (s : State) (f : Fn) (ctx : W16) (d : ReplayDesc) : Checks :=
  let op := descOp d
  if rawByte d.raw 0 = 0x79 then opChecksOn s f ctx false true (descBctx d) op d.aux
  else if rawByte d.raw 0 = 0x7A then saveChecksOn s f ctx false true (descBctx d) op.dst op.flags
  else if rawByte d.raw 0 = 0x7B then restoreChecksOn s f ctx false true (descBctx d) op.src op.flags d.record
  else {}
/-- The first check that a saved descriptor fails when its turn comes, in the order of R73. Log entry 106 (DEDUCED). -/
def descFault (s : State) (f : Fn) (ctx : W16) (d : ReplayDesc) : Check :=
  let c := descOwn s f ctx d
  let at_ := fun (o : Option Nat) => (o.map (fun o => (stMalformed, BitVec.ofNat 32 o)) : Check)
  firstFail (at_ (headerFault f d.raw) :: firstField (at_ (rsvdFault d.raw (rsvdRanges (rawByte d.raw 0) d.raw)) :: c.malformed)
    :: (c.buffer ++ c.permitted ++ c.unit ++ c.state ++ c.limits))
/-- A saved bulk descriptor's request goes to its engine, which serves nothing else while the replay runs (R311). -/
def descStart (p : InProg) (k : Nat) (b : BulkCtx) (d : ReplayDesc) (act : Act) (s : State) : State :=
  let s := { s with replayEngine := some (k / 16) }
  if rawByte d.raw 0 = 0x79 then toEngine p k b act (beginOp k b (descOp d) d.aux s)
  else toEngine p k (if rawByte d.raw 0 = 0x7B ∧ opWrapped (descOp d).flags then { b with kid := 0 } else b) act s
/-- The engine's report on a saved descriptor: its results go to the destinations it names (R313). -/
def descFinish (f : Fn) (d : ReplayDesc) (r : BulkDone) (s : State) : W16 × W32 × State :=
  let op := descOp d
  if rawByte d.raw 0 = 0x79 then opFinish f (descBctx d) op d.aux r s
  else if rawByte d.raw 0 = 0x7A then saveFinish f (descBctx d) op.dst (opWrapped op.flags) r s
  else restoreFinish f (descBctx d) (opWrapped op.flags) d.record r s

/-- Run the descriptors that are left: NOPs at once, a bulk descriptor alone on its engine (R311, R312). -/
def runReplay (p : InProg) (f : Fn) (ctx : W16) (total : W32) : List ReplayDesc → Nat → State → State
  | [], _, s => finishReplay p f ctx total s
  | d :: l, done, s =>
    match descFault s f ctx d with
    | some (st, x) => stopReplay p st x done s
    | none =>
      if rawByte d.raw 0 = 0x0F then runReplay p f ctx total l (done + 1) s
      else match bulkFor s f ctx (descBctx d) with
        | some (k, b) => descStart p k b d (.replay ctx (d :: l) total (BitVec.ofNat 32 done)) s
        | none => stopReplay p stBadState 0 done s

/-- The engine has finished a replay's request. -/
def replayDone (p : InProg) (r : BulkDone) (s : State) : State :=
  match p.act with
  | .replay ctx (d :: l) total done =>
    let x := descFinish p.target d r s
    if x.1 ≠ stOk then stopReplay p x.1 0 done.toNat x.2.2 else runReplay p p.target ctx total l (done.toNat + 1) x.2.2
  | _ => s

/-- A replay without descriptors, once the carve-outs it reopens are open again. -/
def actReplay (p : InProg) (ctx : W16) (total : W32) (s : State) : State := finishReplay p p.target ctx total s

/-! ### Migration and dirty logging -/

/-- MIGRATE_KEY after the KXE (R318, R320): the migration KID is LIVE, the reply is written. -/
def actMigrateKey (p : InProg) (kid : W16) (addr : W64) (reply : Option HostData) (s : State) : State :=
  let s := if kid = 0 then s else activateKid kid (fnMod p.target (fun x => { x with migKids := x.migKids ++ [kid] }) s)
  match reply with
  | some d => goOn p { dma := true } (.done stOk 0 (kid.setWidth 128)) (sendHost .pf addr d s)
  | none => complete p stOk 0 (kid.setWidth 128) s

/-- DIRTY_LOG_SYNC once the segment marks are written (R327): the overflow flag gives LIMITS and is cleared. -/
def actDirtySync (p : InProg) (bits : Nat) (step : Nat) (s : State) : State :=
  if step = 0 then s
  else match (fnOf s p.target).dirty with
    | some d =>
      if d.overflow then complete p stLimits 0x604 (BitVec.ofNat 128 bits) (fnMod p.target (fun x => { x with dirty := some { d with overflow := false } }) s)
      else complete p stOk 0 (BitVec.ofNat 128 bits) s
    | none => complete p stOk 0 (BitVec.ofNat 128 bits) s

end Sys2Proof.Machine
end

