-- ==== Sys2Proof/Machine/Settle.lean ====
section
/-! DEFINITION. Started commands whose waits are over: their last parts run, cleanup sequences and unmappings end, rings that have
been disabled read so. Every command's own row ends with this. -/
namespace Sys2Proof.Machine

/-- A frame with a given FTYPE is still queued for sealing on a stream. -/
def queuedSeal (s : State) (job : W16) (sid : W32) : Bool :=
  s.ports.any (fun e => e.2.queue.any (fun i => match i with
    | .seal j d ft _ _ _ _ _ _ _ => j == job && d == sid && (ft == 0x08 || ft == 0x09)
    | _ => false))

/-- Every part of a hold is satisfied. -/
def holdOver (s : State) (h : Hold) : Bool :=
  h.kids.all (notRetiring s) && h.writes.all (fun w => (mapFind s.writes w).isNone)
    && h.cmds.all (fun c => (findProg s c.1 c.2).isNone) && h.xids.all (fun x => (mapFind s.exch x.toNat).isNone)
    && h.jobs.all (fun i => match jobAt s i with | some j => j.phase == 2 | none => true)
    && h.objs.all (fun o => (mapFind (fnOf s (fnAt o.1)).objs o.2).isNone)
    && h.accesses.all (fun a => (mapFind s.accesses a).isNone)
    && h.batches.all (fun b => (mapGet {} s.filter b).inFlight == 0)
    && h.seals.all (fun x => !queuedSeal s x.1 x.2)
    && h.room.all (fun e => decide (engineLoad s e < Config.bulkQueue))
    && !(h.dma || h.kxe || h.flash || h.boundary || h.checkpoint || h.peer || h.signal || h.engine)

/-- Run the last part of a command whose hold is over. -/
def runAct (p : InProg) (s : State) : State :=
  match p.act with
  | .none => s
  | .done st d r => complete p st d r s
  | .join jobId kid key ok => actJoin p jobId kid key ok s
  | .leave jobId => actLeave p jobId s
  | .leaveDone _ keys => actLeaveDone p keys s
  | .park key dir kid di du step id => actPark p key dir kid di du step id s
  | .resume key dir kid di du step id => actResume p key dir kid di du step id s
  | .regionCreate _ _ => s
  | .regionFree key => complete p stOk 0 0 (freeRegion key s)
  | .handover key nk step => actHandover p key nk step s
  | .reduce ids => actReduce p ids s
  | .rotate job sid => actRotate p job sid s
  | .openSend _ _ _ => s
  | .openRecv _ _ _ _ _ _ _ _ _ => s
  | .close sid job a b => actClose p sid job a b s
  | .carve key base limit step => actCarve p key base limit step s
  | .unmap _ _ => complete p stOk 0 0 s
  | .abandon _ _ g _ rs => actAbandon p g rs s
  | .fenceWait _ _ => s
  | .quiesce => actQuiesce p s
  | .reset vf step => actResetVf p vf step s
  | .resetPackage env => actResetPackage p env s
  | .replay ctx [] total _ => actReplay p ctx total s
  | .replay _ (_ :: _) _ _ => s
  | .migrateKey kid addr reply => actMigrateKey p kid addr reply s
  | .freeze step => actFreezeVf p step s
  | .dirtySync _ bits step => actDirtySync p bits step s
  | .debugGrant c kid => actGrant p c kid s
  | .lcTransition r env step => actLc p r env step s
  | .ownerStore it => actOwnerStore p it s
  | .bulkOp b op aux queued => if queued then actBulkOp p b op aux s else s
  | .bulkSave b dst w queued => if queued then actSave p b dst w s else s
  | .bulkRestore b w rec queued => if queued then actRestore p b w rec s else s
  | .bulkClose b => actBulkClose p b s
  | .selfTest _ _ _ => s

/-- One pass over the commands in progress. -/
def settlePass : List InProg → State → State
  | [], s => s
  | p :: l, s =>
    settlePass l (match findProg s p.fn p.idx with
      | some q => if q.started && holdOver s q.hold then runAct q s else s
      | none => s)

/-- Rings that wait to read disabled. -/
def settleRings : List Fn → State → State
  | [], s => s
  | f :: l, s => settleRings l (settleRing f s)

/-- Several passes; the fuel bounds them. -/
def settleGo : Nat → State → State
  | 0, s => s
  | n + 1, s => settleGo n (settleRings (listedFns s) (settleCleanups (listedFns s) (settlePass s.prog (settleAllObjs (listedFns s) s))))

/-- R352: the debug mailbox answers its DEBUG_REVOKE once the debug KID's retirement is done. -/
def tapSettle (s : State) : State :=
  match s.tapRevoke with
  | some k => if notRetiring s k then emit (.tapDbg stOk 0 (rightsInForce s)) { s with tapRevoke := none } else s
  | none => s

/-- Run everything whose waits are over; credits and NAKs that no frame has carried go last (R193, R196). Log entry 154 (DESIGN CHOICE). -/
def settle (s : State) : State :=
  flushAll (tapSettle (if s.prog.isEmpty && (s.fns.all (fun e => e.2.cleaning.isNone && e.2.objs.all (fun o => !o.2.unmapping))) then
    settleRings (listedFns s) s
  else settleGo (s.prog.length + 4) s))

/-- A command's own row: it runs when the scan has dispatched it (R73), and then whatever its end lets run. -/
def runRow (r : Row) (f : InProg → State → State) (s : State) : State := settle (runCmd r f s)

end Sys2Proof.Machine
end

