-- ==== Sys2Proof/Machine/Bulk.lean ====
section
/-! DEFINITION. The bulk cipher commands and an engine's report (12_bulk_cipher.md). -/
namespace Sys2Proof.Machine

/-- The row of BULK_CTX_OPEN (Table 03-6). -/
def bulkCtxOpenRow (h : CmdHdr) (engine mode : Byte) (kid : W16) : Row :=
  { hdr := h, opcode := 0x78, fields := [(16, 1, engine.toNat), (17, 1, mode.toNat), (18, 2, kid.toNat)],
    checks := openBulkChecks h engine mode kid }
/-- The effect of BULK_CTX_OPEN (R332). -/
def execBulkCtxOpen (h : CmdHdr) (engine mode : Byte) (kid : W16) (s : State) : Host.Outcome State Fault Refusal :=
  .next (runRow (bulkCtxOpenRow h engine mode kid) (startBulkOpen engine mode kid) s)

/-- The row of BULK_OP (Table 03-6). -/
def bulkOpRow (h : CmdHdr) (bctx : W32) (op : BulkOperands) (aux : Fetched Aux) : Row :=
  { hdr := h, opcode := 0x79, fields := [(20, 4, bctx.toNat), (24, 8, op.src.toNat), (32, 8, op.dst.toNat), (40, 4, op.length.toNat), (44, 1, op.flags.toNat), (48, 8, op.aux.toNat)],
    checks := opChecks h bctx op aux }
/-- The effect of BULK_OP (R336 to R338). -/
def execBulkOp (h : CmdHdr) (bctx : W32) (op : BulkOperands) (aux : Fetched Aux) (s : State) : Host.Outcome State Fault Refusal :=
  .next (runRow (bulkOpRow h bctx op aux) (takeTurn bctx (.bulkOp bctx op aux true) (fun p s =>
      match bulkFor s p.fn p.ctx bctx with | some (k, b) => startOp p k b bctx op aux s | none => s)) s)

/-- The row of BULK_CTX_SAVE (Table 03-6). -/
def bulkCtxSaveRow (h : CmdHdr) (bctx : W32) (dst : W64) (flags : Byte) : Row :=
  { hdr := h, opcode := 0x7A, fields := [(20, 4, bctx.toNat), (32, 8, dst.toNat), (44, 1, flags.toNat)],
    checks := saveBulkChecks h bctx dst flags }
/-- The effect of BULK_CTX_SAVE (R340, R341). -/
def execBulkCtxSave (h : CmdHdr) (bctx : W32) (dst : W64) (flags : Byte) (s : State) : Host.Outcome State Fault Refusal :=
  .next (runRow (bulkCtxSaveRow h bctx dst flags) (takeTurn bctx (.bulkSave bctx dst (opWrapped flags) true) (fun p s =>
      match bulkFor s p.fn p.ctx bctx with | some (k, b) => startSave p k b bctx dst (opWrapped flags) s | none => s)) s)

/-- The row of BULK_CTX_RESTORE (Table 03-6). -/
def bulkCtxRestoreRow (h : CmdHdr) (bctx : W32) (src : W64) (flags : Byte) (rec : Fetched BulkRec) : Row :=
  { hdr := h, opcode := 0x7B, fields := [(20, 4, bctx.toNat), (24, 8, src.toNat), (44, 1, flags.toNat)],
    checks := restoreBulkChecks h bctx src flags rec }
/-- The effect of BULK_CTX_RESTORE (R342). -/
def execBulkCtxRestore (h : CmdHdr) (bctx : W32) (src : W64) (flags : Byte) (rec : Fetched BulkRec) (s : State) :
    Host.Outcome State Fault Refusal :=
  .next (runRow (bulkCtxRestoreRow h bctx src flags rec) (takeTurn bctx (.bulkRestore bctx (opWrapped flags) rec true) (fun p s =>
      match bulkFor s p.fn p.ctx bctx with
      | some (k, b) => startRestore p k b bctx (opWrapped flags) rec s
      | none => s)) s)

/-- BULK_CTX_CLOSE's checks. -/
def closeBulkChecks (h : CmdHdr) (bctx : W32) (s : State) : Checks :=
  { unit := [bctxUnit s bctx], state := [bctxCheck s h.fn h.ctx bctx] }

/-- The row of BULK_CTX_CLOSE (Table 03-6). -/
def bulkCtxCloseRow (h : CmdHdr) (bctx : W32) : Row :=
  { hdr := h, opcode := 0x7C, fields := [(20, 4, bctx.toNat)],
    checks := closeBulkChecks h bctx }
/-- The effect of BULK_CTX_CLOSE (R343): the ops queued before it complete first. -/
def execBulkCtxClose (h : CmdHdr) (bctx : W32) (s : State) : Host.Outcome State Fault Refusal :=
  .next (runRow (bulkCtxCloseRow h bctx) (takeTurn bctx (.bulkClose bctx) (closeNow bctx)) s)

/-- BULK_REQUEST_DONE: an engine reports a request of a bulk command or of a replay. -/
def bulkRequestDone (fn : Fn) (idx : W32) (r : BulkDone) (s : State) : State :=
  match findProg s fn idx with
  | none => lateDone fn idx s
  | some p =>
    if !p.hold.engine then lateDone fn idx s
    else match p.act with
      | .replay _ _ _ _ => settle (replayDone p r s)
      | _ => settle (engineDone p r s)
/-- The effect of BULK_REQUEST_DONE. -/
def execBulkRequestDone (fn : Fn) (idx : W32) (r : BulkDone) (s : State) : Host.Outcome State Fault Refusal :=
  .next (whenLive (bulkRequestDone fn idx r) s)

end Sys2Proof.Machine
end

