-- ==== Sys2Proof/Machine/Keys.lean ====
section
/-! DEFINITION. Commands on jobs and keys (05_keys.md): JOIN_JOB, LEAVE_JOB, KEY_ALLOC, KEY_DERIVE, KEY_ROTATE, KEY_RETIRE, PARK,
RESUME, with FLUSH_CONFIRM, CHECKPOINT_WRITE and QUARANTINE_EPOCH. -/
namespace Sys2Proof.Machine

/-! ### Shared checks -/

/-- The life-cycle state as a DETAIL. -/
def lcDetail (s : State) : W32 := (lcState s).setWidth 32
/-- R107: a command that derives under the DRS. -/
def drsCheck (s : State) : Check := failIf (!drsUsable s) stBadState (lcDetail s)
/-- The VF is bound to a job (Table 07-9), whose master key is LIVE. Log entry 43 (DEDUCED). -/
def jobCheck (s : State) (f : Fn) : Check :=
  match (fnOf s f).job with
  | none => some (stBadState, lcDetail s)
  | some _ => failIf (!kidLive s (fnOf s f).jmkKid) stBadState (kidCodeFor s f (fnOf s f).jmkKid)
/-- The job of a function, zero for none. -/
def jobOf (s : State) (f : Fn) : W16 := (fnOf s f).job.getD 0

/-- Another command in progress on function `f` that the predicate names. -/
def otherCmd (s : State) (f : Fn) (p : InProg → Bool) : Bool := s.prog.any (fun q => q.target == f && q.started && p q)

/-! ### JOIN_JOB and LEAVE_JOB (R114 to R117) -/

/-- A JOIN_JOB in progress: the job it joins. -/
def joining (p : InProg) : Option W16 := match p.act with | .join j _ _ _ => some j | _ => none

/-- Check 3 of Table 05-4. -/
def joinState (s : State) (f : Fn) (jobId packageId : W16) : Check :=
  if lcState s ≠ lcDeployed ∨ !drsUsable s then some (stBadState, lcDetail s)
  else if (fnOf s f).job.isSome || s.prog.any (fun q => q.fn == f && (joining q).isSome) then some (stBadState, 0x101)
  else if (vfOfJob s jobId).isSome || s.prog.any (fun q => joining q == some jobId) then some (stBadState, 0x102)
  else if (fnOf s f).tdi.state ≠ .run then some (stBadState, 0x103)
  else failIf (packageId != s.fab.id.setWidth 16) stBadState 0x104

/-- The fields of Table 05-3 that check 1 looks at. -/
def encapChecks (jobId packageId : W16) (e : Encap) : List Check :=
  [firstField
    [badBuf (e.format != 0x0001) 0, badBuf (e.jobId != jobId) 2, badBuf (e.packageId != packageId) 4,
     badBuf (e.rsvd6 != 0) (if e.rsvd6.toNat % 256 = 0 then 7 else 6),
     badBuf (e.rsvd1721 != 0) (if e.rsvd1721.toNat % 256 ≠ 0 then 1721 else if e.rsvd1721.toNat / 256 % 256 ≠ 0 then 1722 else 1723)]]

/-- Checks 1 to 4 of Table 05-4. -/
def joinChecks (h : CmdHdr) (jobId packageId : W16) (encapLen : W32) (buf : Fetched Encap) (s : State) : Checks :=
  { malformed := [badField (0xFFF < packageId.toNat) 18, badField (encapLen != 1764) 20],
    buffer := bufChecks buf (encapChecks jobId packageId),
    state := [joinState s h.fn jobId packageId], slots := [slotCheck s] }

/-- R115, R127: the job master key that an encapsulation yields; none when a step fails. -/
def joinKey (s : State) (e : Encap) : Option Key := do
  let secret ← hybridSecret (← s.ks.identity) e.mlkemCt e.ecdhEph
  let jmk ← Config.kwUnwrap (jobKek secret e.jobId e.packageId e.keHash e.mlkemCt e.ecdhEph) e.wrappedJmk
  return BitVec.ofNat 256 (ofBe jmk)

/-- JOIN_JOB: the slot and KID are reserved and the KXE begins; check 5 of Table 05-4 is its outcome. -/
def startJoin (jobId : W16) (buf : Fetched Encap) (p : InProg) (s : State) : State :=
  let (kid, s1) := reserveKid p.fn s
  match buf with
  | .failed => s
  | .ok e => goOn p { kxe := true } (.join jobId kid ((joinKey s e).getD 0) (e.keHash == s.ks.keHash && (joinKey s e).isSome)) s1

/-- The row of JOIN_JOB (Table 03-6). -/
def joinJobRow (h : CmdHdr) (jobId packageId : W16) (encapLen : W32) (buf : Fetched Encap) : Row :=
  { hdr := h, opcode := 0x01, fields := [(16, 2, jobId.toNat), (18, 2, packageId.toNat), (20, 4, encapLen.toNat)],
    checks := joinChecks h jobId packageId encapLen buf }
/-- The effect of JOIN_JOB. -/
def execJoinJob (h : CmdHdr) (jobId packageId : W16) (encapLen : W32) (buf : Fetched Encap) (s : State) :
    Host.Outcome State Fault Refusal :=
  .next (runRow (joinJobRow h jobId packageId encapLen buf) (startJoin jobId buf) s)

/-- LEAVE_JOB's checks (R117). -/
def leaveChecks (h : CmdHdr) (jobId : W16) (s : State) : Checks :=
  { state := [failIf ((fnOf s h.fn).job != some jobId) stBadState 0],
    busy := [failIf (otherCmd s h.fn (fun q => q.opcode == 0x02)) stBusy 0x02] }

/-- LEAVE_JOB waits for every PARK, RESUME, KEEPER_HANDOVER and REDUCE of the job (R117). -/
def startLeave (jobId : W16) (p : InProg) (s : State) : State :=
  let ops : List Byte := [0x14, 0x15, 0x22, 0x23]
  goOn p { cmds := ((progOf s p.fn).filter (fun q => ops.contains q.opcode)).map (fun q => (q.fn, q.idx)) } (.leave jobId) s

/-- The row of LEAVE_JOB (Table 03-6). -/
def leaveJobRow (h : CmdHdr) (jobId : W16) : Row :=
  { hdr := h, opcode := 0x02, fields := [(16, 2, jobId.toNat)],
    checks := leaveChecks h jobId }
/-- The effect of LEAVE_JOB. -/
def execLeaveJob (h : CmdHdr) (jobId : W16) (s : State) : Host.Outcome State Fault Refusal :=
  .next (runRow (leaveJobRow h jobId) (startLeave jobId) s)

/-! ### KEY_ALLOC and KEY_DERIVE (R123, R124) -/

/-- The fields of a wrapped key blob (Table 05-10). -/
def blobChecks (b : Blob) : List Check := [(blobFault b).map (fun o => (stMalformed, bufDetail o))]

/-- KEY_ALLOC's checks. -/
def allocChecks (source : Byte) (importLen : W32) (buf : Fetched Blob) (s : State) : Checks :=
  if source = 1 then
    { malformed := [badField (importLen != 56) 36],
      buffer := bufChecks buf blobChecks,
      permitted := [match buf with | .ok b => wrapAllowed s b.wrap | .failed => none],
      state := [drsCheck s], slots := [slotCheck s] }
  else { malformed := [badField (source != 0) 21], slots := [slotCheck s] }

/-- Place a key for a completing command: it is LIVE with the completion record, RESULT its KID. -/
def completeKey (p : InProg) (x : SlotSt) (s : State) : State :=
  let (kid, s) := reserveKid p.fn s
  complete p stOk 0 (kid.setWidth 128) (activateKid kid (placeKey kid x s))

/-- KEY_ALLOC: a TENANT key of the entropy source or of a blob that unwraps for this VF (R123, R128). -/
def startAlloc (source : Byte) (buf : Fetched Blob) (p : InProg) (s : State) : State :=
  let slot := fun (k : Key) => mkSlot k .tenant useBulk p.fn 0 p.ctx p.ctxGen
  if source = 0 then completeKey p (slot (drawn s)) (bumpDraw s)
  else match (match buf with | .ok b => blobKey s p.fn b | .failed => none) with
    | some k => completeKey p (slot k) s
    | none => complete p stAuthFailed 0 0 s

/-- The row of KEY_ALLOC (Table 03-6). -/
def keyAllocRow (h : CmdHdr) (source : Byte) (importLen : W32) (buf : Fetched Blob) : Row :=
  { hdr := h, opcode := 0x10, fields := [(21, 1, source.toNat), (36, 4, importLen.toNat)],
    checks := allocChecks source importLen buf }
/-- The effect of KEY_ALLOC. -/
def execKeyAlloc (h : CmdHdr) (source : Byte) (importLen : W32) (buf : Fetched Blob) (s : State) : Host.Outcome State Fault Refusal :=
  .next (runRow (keyAllocRow h source importLen buf) (startAlloc source buf) s)

/-- The stream id and epoch of LABEL_ARGS (Table 05-8). -/
def argSid (args : BitVec 128) : W32 := args.extractLsb' 0 32
def argEpoch (args : BitVec 128) : W32 := args.extractLsb' 32 32

/-- KEY_DERIVE's checks (R124). -/
def deriveChecks (h : CmdHdr) (parent : W16) (label : Byte) (args : BitVec 128) (s : State) : Checks :=
  let me := s.fab.id
  { malformed := [badField (label != 1 && label != 2) 20,
      badField ((label == 1 && parent != 0xFFFF) || (label == 2 && parent == 0xFFFF)) 18],
    permitted := [failIf (label == 1 && sidSrc (argSid args) != me && sidDst (argSid args) != me) stNotPermitted 0],
    state := [if label = 1 then
        failIf ((fnOf s h.fn).job.isNone || !kidLive s (fnOf s h.fn).jmkKid) stBadState
          (if (fnOf s h.fn).job.isNone then 0 else kidCodeFor s h.fn (fnOf s h.fn).jmkKid)
      else
        let code := kidCodeFor s h.fn parent
        failIf (code != 1 || (match slotOf s parent with | some x => x.kind != .tenant | none => true)) stBadState code],
    slots := [slotCheck s] }

/-- KEY_DERIVE: the ladder reads the parent and the derived key takes a slot of its own. -/
def startDerive (parent : W16) (label : Byte) (args : BitVec 128) (p : InProg) (s : State) : State :=
  if label = 1 then
    let sid := argSid args
    let use := (if sidSrc sid = s.fab.id then useSeal else 0) ||| (if sidDst sid = s.fab.id then useOpen else 0)
    completeKey p { mkSlot (streamKey (jmkOf s p.fn) sid (argEpoch args)) .stream use p.fn (jobOf s p.fn) p.ctx p.ctxGen with
      epoch := argEpoch args, subject := sid.setWidth 40, parent := (fnOf s p.fn).jmkKid } s
  else
    let job := match slotOf s parent with | some x => x.job | none => 0
    completeKey p { mkSlot (tenantKey (keyOf s parent) args) .tenant useBulk p.fn job p.ctx p.ctxGen with parent := parent } s

/-- The row of KEY_DERIVE (Table 03-6). -/
def keyDeriveRow (h : CmdHdr) (parentKid : W16) (label : Byte) (args : BitVec 128) : Row :=
  { hdr := h, opcode := 0x11, fields := [(18, 2, parentKid.toNat), (20, 1, label.toNat), (48, 16, args.toNat)],
    checks := deriveChecks h parentKid label args }
/-- The effect of KEY_DERIVE. -/
def execKeyDerive (h : CmdHdr) (parentKid : W16) (label : Byte) (args : BitVec 128) (s : State) : Host.Outcome State Fault Refusal :=
  .next (runRow (keyDeriveRow h parentKid label args) (startDerive parentKid label args) s)

/-! ### KEY_ROTATE and KEY_RETIRE (R136 to R140, R188) -/

/-- The stream open for sending whose key a KID is. -/
def sendOfKid (s : State) (f : Fn) (kid : W16) : Option SendSt := s.sends.find? (fun t => t.fn == f && t.kid == kid)

/-- The opcode of a command in progress that holds a stream for a rotation or a close; zero for none (Table 07-18). -/
def streamHolder (s : State) (job : W16) (sid : W32) : W32 :=
  match s.prog.find? (fun q => match q.act with
    | .rotate j d => j == job && d == sid
    | .close d j a _ => a && j == job && d == sid
    | _ => false) with
  | some q => q.opcode.setWidth 32
  | none => 0

/-- KEY_ROTATE's checks (R139, R188). Log entry 47 (DEDUCED). -/
def rotateChecks (h : CmdHdr) (kid : W16) (s : State) : Checks :=
  let code := kidCodeFor s h.fn kid
  match sendOfKid s h.fn kid with
  | none => { state := [some (stBadState, code)] }
  | some t =>
    { state := [failIf (code != 1) stBadState code],
      limits := [failIf (epochSpent t.epoch) stLimits 0x203],
      busy := [failIf (streamHolder s t.job t.sid != 0) stBusy (streamHolder s t.job t.sid)],
      slots := [if t.next.isSome || (derivedStream s t.fn t.job t.sid (t.epoch + 1)).isSome then none else slotCheck s] }

/-- KEY_ROTATE: the next epoch's key in a fresh KID, an EPOCH_END behind every queued frame. -/
def startRotate (kid : W16) (p : InProg) (s : State) : State :=
  match sendOfKid s p.fn kid with
  | none => s
  | some t =>
    enqueue t.port (.seal t.job t.sid 0x08 1 0xFFFF 0 0 0 [] 0xFFFF)
      (goOn p { seals := [(t.job, t.sid)] } (.rotate t.job t.sid) (placeNext t s))

/-- The row of KEY_ROTATE (Table 03-6). -/
def keyRotateRow (h : CmdHdr) (kid : W16) : Row :=
  { hdr := h, opcode := 0x12, fields := [(16, 2, kid.toNat)],
    checks := rotateChecks h kid }
/-- The effect of KEY_ROTATE. -/
def execKeyRotate (h : CmdHdr) (kid : W16) (s : State) : Host.Outcome State Fault Refusal :=
  .next (runRow (keyRotateRow h kid) (startRotate kid) s)

/-- The opcode of the command in progress that holds a KID (Table 05-13); zero for none. -/
def kidHolder (s : State) (kid : W16) : W32 :=
  match s.prog.find? (fun q => match q.act with
    | .park _ _ k _ _ _ _ => k == kid
    | .resume _ _ k _ _ _ _ => k == kid
    | .handover key _ _ => (match regionAt s key with | some r => r.kid == kid | none => false)
    | .rotate j d => (match findSend s j d with | some t => t.kid == kid || t.next == some kid | none => false)
    | _ => false) with
  | some q => q.opcode.setWidth 32
  | none => 0

/-- KEY_RETIRE's checks (Table 05-13, R130). -/
def retireChecks (h : CmdHdr) (kid : W16) (s : State) : Checks :=
  let code := kidCodeFor s h.fn kid
  { malformed := [badField (kid == 0xFFFF) 16],
    state := [failIf (code != 1 && code != 2) stBadState code,
      failIf (match slotOf s kid with | some x => x.kind == .job || x.kind == .directory | none => false) stBadState code],
    busy := [failIf (kidHolder s kid != 0) stBusy (kidHolder s kid)] }

/-- KEY_RETIRE: retirement begins and the command completes with it (R136). -/
def startRetire (kid : W16) (p : InProg) (s : State) : State := goOn p { kids := [kid] } (.done stOk 0 0) (retireKid kid s)

/-- The row of KEY_RETIRE (Table 03-6). -/
def keyRetireRow (h : CmdHdr) (kid : W16) : Row :=
  { hdr := h, opcode := 0x13, fields := [(16, 2, kid.toNat)],
    checks := retireChecks h kid }
/-- The effect of KEY_RETIRE. -/
def execKeyRetire (h : CmdHdr) (kid : W16) (s : State) : Host.Outcome State Fault Refusal :=
  .next (runRow (keyRetireRow h kid) (startRetire kid) s)

/-- The engine has completed every request it admitted under the KID (R136 step 2). -/
def engineIdle (s : State) (kid : W16) (engine : Nat) : Bool :=
  if 34 ≤ engine ∧ engine < 42 then
    let ks := (s.regions.filter (fun r => r.2.kid == kid)).map (·.1)
    !(s.jobs.any (fun j => ks.contains j.region && j.phase != 2)) && !(s.exch.any (fun e => ks.contains e.2.region && e.2.op != 0x02))
  else if 42 ≤ engine then
    !(s.prog.any (fun q => match bulkOf q.act with
      | some b => (match mapFind s.bulk (b.toNat % 65536) with | some c => c.kid == kid | none => false)
      | none => false))
  else true

/-- FLUSH_CONFIRM (R136): an engine confirms the flush of a retiring KID. -/
def flushConfirm (kid : W16) (engine : Nat) (s : State) : State :=
  if kidCode (mapFind s.ks.kids kid.toNat) = 3 ∧ (cachedIn s kid).contains engine ∧ engineIdle s kid engine then
    settle (finishRetire kid (uncacheKid engine kid s))
  else s
/-- The effect of FLUSH_CONFIRM. -/
def execFlushConfirm (kid : W16) (engine : Nat) (s : State) : Host.Outcome State Fault Refusal :=
  .next (whenLive (flushConfirm kid engine) s)

/-- The effect of QUARANTINE_EPOCH (R138): a new quarantine epoch begins. -/
def execQuarantineEpoch (s : State) : Host.Outcome State Fault Refusal := .next (whenLive quarantineTick s)

/-! ### PARK and RESUME (R129 to R135) -/

/-- The directory of a job on this keeper. -/
def dirOf (s : State) (job : W16) : Option Nat := regionKeyOf s job dirRid

/-- R134: the opcode of a command in progress that holds a directory entry; zero for none. -/
def entryHolder (s : State) (dir : Nat) (dirIndex : W32) : W32 :=
  match s.prog.find? (fun q => match q.act with
    | .park _ d _ i _ _ _ => d == dir && i == dirIndex
    | .resume _ d _ i _ _ _ => d == dir && i == dirIndex
    | _ => false) with
  | some q => q.opcode.setWidth 32
  | none => 0

/-- The checks of a directory entry that PARK and RESUME share: state, limit, exclusiveness. -/
def dirChecks (s : State) (f : Fn) (dirIndex : W32) : Check × Check × Check :=
  match dirOf s (jobOf s f) with
  | none => (some (stBadState, openDetail s), none, none)
  | some k =>
    match regionAt s k with
    | none => (some (stBadState, openDetail s), none, none)
    | some d =>
      (failIf (d.state != .live) stBadState (regCode d.state), failIf (decide (d.lineCount ≤ dirIndex.toNat)) stLimits (openDetail s),
        failIf (entryHolder s k dirIndex != 0) stBusy (entryHolder s k dirIndex))

/-- A region held by a PARK or a KEEPER_HANDOVER (Table 09-17). -/
def heldBusy (r : RegionSt) : Check :=
  match r.state with
  | .parking => some (stBusy, 0x14)
  | .handover => some (stBusy, 0x22)
  | .creating => some (stBusy, r.opcode.setWidth 32)
  | _ => none

/-- The region of function `f` whose KID and id are given. -/
def regionByKid (s : State) (f : Fn) (kid : W16) (rid : W64) : Option Nat :=
  (s.regions.find? (fun e => e.2.fn == f && e.2.kid == kid && e.2.rid.setWidth 64 == rid && !e.2.isDir)).map (·.1)

/-- PARK's checks (R132). Log entry 35 (DEDUCED). -/
def parkChecks (h : CmdHdr) (kid : W16) (wrap : Byte) (rid : W64) (dirIndex : W32) (s : State) : Checks :=
  let (dSt, dLim, dBusy) := dirChecks s h.fn dirIndex
  let code := kidCodeFor s h.fn kid
  let reg := match regionByKid s h.fn kid rid with | some k => regionAt s k | none => none
  { malformed := [badField (1 < wrap.toNat) 22],
    permitted := [wrapAllowed s wrap],
    state := [failIf (code != 1) stBadState code,
      (match reg with
       | none => some (stBadState, code)
       | some r => failIf (r.state == .lost || r.state == .freeing) stBadState (regCode r.state)), dSt, drsCheck s],
    limits := [dLim],
    busy := [dBusy, match reg with | some r => heldBusy r | none => none] }

/-- PARK: the region is held and the entry read (steps 1 and 2 of R132). -/
def startPark (kid : W16) (wrap : Byte) (rid : W64) (dirIndex : W32) (p : InProg) (s : State) : State :=
  match regionByKid s p.fn kid rid, dirOf s (jobOf s p.fn) with
  | some key, some dir =>
    let s := regionMod key (fun r => { r with state := .parking, opcode := 0x14 }) s
    let (id, s) := cmdJob p dir .read (dirIndex.toNat * 256) 256 [] s
    poolPump (goOn p { jobs := [id] } (.park key dir kid dirIndex (wrap == 1) 0 id) s)
  | _, _ => s

/-- The row of PARK (Table 03-6). -/
def parkRow (h : CmdHdr) (kid : W16) (wrap : Byte) (regionId : W64) (dirIndex : W32) : Row :=
  { hdr := h, opcode := 0x14, fields := [(16, 2, kid.toNat), (22, 1, wrap.toNat), (24, 8, regionId.toNat), (32, 4, dirIndex.toNat)],
    checks := parkChecks h kid wrap regionId dirIndex }
/-- The effect of PARK. -/
def execPark (h : CmdHdr) (kid : W16) (wrap : Byte) (regionId : W64) (dirIndex : W32) (s : State) : Host.Outcome State Fault Refusal :=
  .next (runRow (parkRow h kid wrap regionId dirIndex) (startPark kid wrap regionId dirIndex) s)

/-- The pool engine that an ENGINE operand names: one of the eight, or the one with the fewest regions (R277). -/
def pickEngine (s : State) (engine : Byte) : Option Nat :=
  if engine = 0xFF then fewestEngine s else if poolPresent s engine.toNat then some engine.toNat else none
/-- An ENGINE operand that names no usable engine (R54); 0xFF names no unit whose code DETAIL could give. -/
def engineCheck (s : State) (engine : Byte) : Check :=
  failIf (if engine = 0xFF then !(List.range 8).any (poolPresent s) else !poolPresent s engine.toNat) stUnitAbsent
    (if engine = 0xFF then openDetail s else BitVec.ofNat 32 (0x30 + engine.toNat))
/-- R394: the engine that an ENGINE operand names is under SELF_TEST; for 0xFF, every usable one is. -/
def engineTesting (s : State) (engine : Byte) : Check :=
  failIf (if engine = 0xFF then (fewestEngine s).isNone else poolTesting s engine.toNat) stBusy 0x7F
/-- An ENGINE operand outside 0 to 7 and 0xFF. -/
def engineField (engine : Byte) (off : Nat) : Check := badField (7 < engine.toNat && engine != 0xFF) off
/-- R243: the engine's region table has room. -/
def tableCheck (s : State) (engine : Byte) : Check :=
  match pickEngine s engine with
  | some e => failIf (decide (Config.regionTable ≤ engineRegions s e)) stNoSlot (openDetail s)
  | none => none

/-- A region id that the keeper's table already holds for the job. Log entry 42 (DEDUCED). -/
def ridTaken (s : State) (f : Fn) (rid : BitVec 40) : Check :=
  match regionKeyOf s (jobOf s f) rid with
  | some k => (match regionAt s k with | some r => some (stBadState, regCode r.state) | none => none)
  | none => none

/-- RESUME's checks (R133). -/
def resumeChecks (h : CmdHdr) (wrap engine : Byte) (rid : W64) (dirIndex : W32) (s : State) : Checks :=
  let (dSt, dLim, dBusy) := dirChecks s h.fn dirIndex
  let held := dBusy.isSome
  { malformed := [badField (1 < wrap.toNat) 22, engineField engine 23],
    permitted := [wrapAllowed s wrap],
    unit := [engineCheck s engine],
    state := [jobCheck s h.fn, dSt, drsCheck s, if held then none else ridTaken s h.fn (rid.setWidth 40)],
    limits := [failIf (0xFFFF < s.pkg.boot) stLimits 0x405, dLim],
    busy := [dBusy, engineTesting s engine],
    slots := [tableCheck s engine, slotCheck s] }

/-- RESUME: the KID and a region-table entry are reserved and the entry read (step 1 of R133). -/
def startResume (wrap engine : Byte) (rid : W64) (dirIndex : W32) (p : InProg) (s : State) : State :=
  match dirOf s (jobOf s p.fn), pickEngine s engine with
  | some dir, some e =>
    let (kid, s) := reserveKid p.fn s
    let key := s.nextRegion
    let r := newRegion p.fn (jobOf s p.fn) (rid.setWidth 40) (rid.setWidth 40) p.ctx p.ctxGen 0 s.fab.id 0 0 e kid .creating 0 0 0x15
    let s := { s with regions := mapSet s.regions key r, nextRegion := key + 1, opens := s.opens + 1 }
    let (id, s) := cmdJob p dir .read (dirIndex.toNat * 256) 256 [] s
    poolPump (goOn p { jobs := [id] } (.resume key dir kid dirIndex (wrap == 1) 0 id) s)
  | _, _ => s

/-- The row of RESUME (Table 03-6). -/
def resumeRow (h : CmdHdr) (wrap engine : Byte) (regionId : W64) (dirIndex : W32) : Row :=
  { hdr := h, opcode := 0x15, fields := [(22, 1, wrap.toNat), (23, 1, engine.toNat), (24, 8, regionId.toNat), (32, 4, dirIndex.toNat)],
    checks := resumeChecks h wrap engine regionId dirIndex }
/-- The effect of RESUME. -/
def execResume (h : CmdHdr) (wrap engine : Byte) (regionId : W64) (dirIndex : W32) (s : State) : Host.Outcome State Fault Refusal :=
  .next (runRow (resumeRow h wrap engine regionId dirIndex) (startResume wrap engine regionId dirIndex) s)

/-- Commands that wait for a checkpoint of directory `dir`. -/
def awaitsCheckpoint (dir : Nat) (q : InProg) : Bool :=
  q.hold.checkpoint && (match q.act with | .park _ d _ _ _ _ _ => d == dir | .resume _ d _ _ _ _ _ => d == dir | _ => false)

/-- CHECKPOINT_WRITE (R135): a checkpoint of the job's directory goes to flash, replacing its earlier one; a directory with dirty
nodes is first written back. Log entry 28 (DESIGN CHOICE). -/
def checkpointWrite (job : W16) (s : State) : State :=
  match dirOf s job with
  | none => s
  | some dir =>
    match regionAt s dir with
    | none => s
    | some d =>
      if !(s.prog.any (awaitsCheckpoint dir)) then s
      else if !regionClean s dir then settle (poolPump (writeBackAll dir d.depth 1 s))
      else
        let mine := fun (c : Checkpoint) => c.job == job && c.keeper == s.fab.id && c.home == d.home
        let seq := ((s.flash.checkpoints.filter mine).map (fun c => c.seq.toNat)).foldl max 0 + 1
        let c : Checkpoint :=
          { job := job, keeper := s.fab.id, home := d.home, seq := BitVec.ofNat 64 seq,
            boot := BitVec.ofNat 64 s.pkg.boot, wrapped := Config.kwWrap (wrapKey s .pf true) (le 64 d.root.toNat) }
        let s := emit .flashWrite { s with flash := { s.flash with checkpoints := s.flash.checkpoints.filter (fun c => !mine c) ++ [c] } }
        settle { s with prog := s.prog.map (fun q =>
          if awaitsCheckpoint dir q then { q with hold := { q.hold with checkpoint := false } } else q) }
/-- The effect of CHECKPOINT_WRITE. -/
def execCheckpointWrite (job : W16) (s : State) : Host.Outcome State Fault Refusal := .next (whenLive (checkpointWrite job) s)

end Sys2Proof.Machine
end

