-- ==== Sys2Proof/Machine/Partition.lean ====
section
/-! DEFINITION. Commands and happenings on partitions: carve-outs, contexts, memory objects, the firewall checkers, the scrubber
and the switch notice (10_partitions.md). -/
namespace Sys2Proof.Machine

/-! ### CARVE_GROW and CARVE_SHRINK (R294 to R296) -/

/-- Check 1 of Table 10-4, beside the RSVD fields. -/
def carveShape (set : Byte) (base limit : W64) : List Check :=
  let lo := setBase set.toNat
  let bad := fun (x : W64) => x.toNat % segSize != 0 || x.toNat < lo || lo + setSize < x.toNat
  [badField (2 < set.toNat) 16, badField (bad base || limit.toNat < base.toNat) 24, badField (bad limit) 32]

/-- The ranges that a carve-out entry holds or is about to hold: table and staged growth, the entry `k` left out. -/
def heldRanges (s : State) (k : Nat) : List (Nat × Nat) :=
  (s.carves.filter (fun e => e.1 != k)).map (fun e => (e.2.base, e.2.limit))
    ++ s.staged.filterMap (fun c => match c with | .setEntry j b l => if j = k then none else some (b, l) | _ => none)
    ++ [(traceLo s, traceHi)]

/-- The opcode of another CARVE_* in progress on an entry. -/
def carveHolder (s : State) (k : Nat) : Option Byte :=
  (s.prog.find? (fun p => match p.act with | .carve j _ _ _ => j == k | _ => false)).map (·.opcode)

/-- Check 4 of Table 10-4, with the hold of dirty logging (R326). -/
def carveBusy (s : State) (f : Fn) (k : Nat) : Check :=
  if (carveAt s k).state = .blocked then some (stBusy, 0x100)
  else match carveHolder s k with
    | some op => some (stBusy, op.setWidth 32)
    | none => if (carveAt s k).blockNext then some (stBusy, 0x100) else failIf (fnOf s f).dirty.isSome stBusy 0x5C

/-- The ranges of a new range outside the old one. -/
def addedRanges (c : CarveSt) (base limit : Nat) : List (Nat × Nat) := minusRanges [(base, limit)] [(c.base, c.limit)]

/-- The opcode of the command that handed the first scrub range meeting one of these ranges over. -/
def scrubHolder (s : State) (rs : List (Nat × Nat)) : Option W32 :=
  (s.scrub.find? (fun q => rs.any (fun r => meets q.lo q.hi r.1 r.2))).map (·.opcode)

/-- CARVE_GROW's checks. -/
def growChecks (h : CmdHdr) (set : Byte) (base limit : W64) (s : State) : Checks :=
  let f := hdrTarget h
  let k := carveKey f set.toNat
  let c := carveAt s k
  let add := addedRanges c base.toNat limit.toNat
  let keeps := c.base == c.limit || (decide (base.toNat ≤ c.base) && decide (c.limit ≤ limit.toNat))
  let taken := add.any (fun r => (heldRanges s k).any (fun q => meets q.1 q.2 r.1 r.2))
  { malformed := carveShape set base limit
    state := [failIf (!keeps || taken) stBadState 0]
    busy := [carveBusy s f k, (scrubHolder s add).map (fun op => (stBusy, op))] }

/-- CARVE_GROW: the new range is staged for the next boundary (R294). -/
def startGrow (h : CmdHdr) (set : Byte) (base limit : W64) (p : InProg) (s : State) : State :=
  let k := carveKey (hdrTarget h) set.toNat
  goOn p { boundary := true } (.carve k base.toNat limit.toNat 3) { s with staged := s.staged ++ [.setEntry k base.toNat limit.toNat] }

/-- The row of CARVE_GROW (Table 03-6). -/
def carveGrowRow (h : CmdHdr) (set : Byte) (base limit : W64) : Row :=
  { hdr := h, opcode := 0x40, fields := [(16, 1, set.toNat), (24, 8, base.toNat), (32, 8, limit.toNat)],
    checks := growChecks h set base limit }
/-- The effect of CARVE_GROW. -/
def execCarveGrow (h : CmdHdr) (set : Byte) (base limit : W64) (s : State) : Host.Outcome State Fault Refusal :=
  .next (runRow (carveGrowRow h set base limit) (startGrow h set base limit) s)

/-- CARVE_SHRINK's checks. -/
def shrinkChecks (h : CmdHdr) (set : Byte) (base limit : W64) (s : State) : Checks :=
  let f := hdrTarget h
  let k := carveKey f set.toNat
  let c := carveAt s k
  let out := minusRanges [(c.base, c.limit)] [(base.toNat, limit.toNat)]
  let within := decide (c.base ≤ base.toNat) && decide (limit.toNat ≤ c.limit)
  let items := f == .pf && out.any (fun r => homeItems s r.1 r.2)
  let objs := (fnOf s f).objs.any (fun o => !o.2.unmapping && out.any (fun r => meets r.1 r.2 o.2.base (o.2.base + o.2.size)))
  { malformed := carveShape set base limit
    state := [failIf (!within || items) stBadState 0]
    busy := [carveBusy s f k, failIf objs stBusy 0x48] }

/-- CARVE_SHRINK: the closing of the released range is staged for the next boundary (R295). -/
def startShrink (h : CmdHdr) (set : Byte) (base limit : W64) (p : InProg) (s : State) : State :=
  let k := carveKey (hdrTarget h) set.toNat
  goOn p { boundary := true } (.carve k base.toNat limit.toNat 1) { s with staged := s.staged ++ [.shrinkStart k base.toNat limit.toNat] }

/-- The row of CARVE_SHRINK (Table 03-6). -/
def carveShrinkRow (h : CmdHdr) (set : Byte) (base limit : W64) : Row :=
  { hdr := h, opcode := 0x41, fields := [(16, 1, set.toNat), (24, 8, base.toNat), (32, 8, limit.toNat)],
    checks := shrinkChecks h set base limit }
/-- The effect of CARVE_SHRINK. -/
def execCarveShrink (h : CmdHdr) (set : Byte) (base limit : W64) (s : State) : Host.Outcome State Fault Refusal :=
  .next (runRow (carveShrinkRow h set base limit) (startShrink h set base limit) s)

/-! ### Contexts (R286, R300) -/

/-- A context handle is taken: live, or its abandonment has not completed; or at generation 0xFFFE for good. -/
def ctxTaken (s : State) (f : Fn) (i : Nat) : Bool :=
  let c := mapGet {} (fnOf s f).ctxs i
  c.live || c.gen == 0xFFFE
    || s.prog.any (fun p => match p.act with | .abandon v x _ _ _ => v == f && x.toNat == i | _ => false)

/-- Live contexts of a function and of the package. -/
def liveCtxs (s : State) (f : Fn) : Nat := ((fnOf s f).ctxs.filter (fun e => e.2.live)).length
def liveCtxsAll (s : State) : Nat := (s.fns.map (fun e => (e.2.ctxs.filter (fun c => c.2.live)).length)).sum

/-- R286: the lowest free context handle, within the maxima of Table 10-1. -/
def freeCtx (s : State) (f : Fn) : Option Nat :=
  if Config.ctxPackage ≤ liveCtxsAll s ∨ Config.ctxPerFn ≤ liveCtxs s f then none else firstFree (ctxTaken s f) Config.ctxPerFn 0

/-- CONTEXT_CREATE's checks. -/
def createChecks (h : CmdHdr) (s : State) : Checks := { slots := [failIf (freeCtx s (hdrTarget h)).isNone stNoSlot 3] }

/-- CONTEXT_CREATE: the handle's generation advances by one and the context is live (R286). -/
def startCreate (h : CmdHdr) (p : InProg) (s : State) : State :=
  let f := hdrTarget h
  match freeCtx s f with
  | none => s
  | some i =>
    let g := (mapGet {} (fnOf s f).ctxs i).gen + 1
    complete p stOk 0 (resAt 0 i ||| resAt 2 g.toNat)
      (fnMod f (fun x => { x with ctxs := mapSet x.ctxs i { gen := g, live := true, suspect := false } }) s)

/-- The row of CONTEXT_CREATE (Table 03-6). -/
def contextCreateRow (h : CmdHdr) : Row :=
  { hdr := h, opcode := 0x42,
    checks := createChecks h }
/-- The effect of CONTEXT_CREATE. -/
def execContextCreate (h : CmdHdr) (s : State) : Host.Outcome State Fault Refusal :=
  .next (runRow (contextCreateRow h) (startCreate h) s)

/-- CONTEXT_ABANDON: its steps as far as they need no wait; from the admin ring it moves the VF's TDI to ERROR (R165). -/
def startAbandon (h : CmdHdr) (p : InProg) (s : State) : State :=
  let f := hdrTarget h
  let (kids, rs, s) := abandonCtx f h.ctx (p.fn, p.idx) s
  let objs := ((fnOf s f).objs.filter (fun o => o.2.unmapping && o.2.ctx == h.ctx)).map (fun o => (f.key, o.1))
  let gen := (mapGet {} (fnOf s f).ctxs h.ctx.toNat).gen
  let s := goOn p { kids := kids, objs := objs } (.abandon f h.ctx gen kids rs) s
  if p.fn = .pf ∧ f ≠ .pf then tdiError false f s else s

/-- The row of CONTEXT_ABANDON (Table 03-6). -/
def contextAbandonRow (h : CmdHdr) : Row :=
  { hdr := h, opcode := 0x43,
    checks := fun _ => { malformed := [badField (h.ctx == 0xFFFF) 2] } }
/-- The effect of CONTEXT_ABANDON. -/
def execContextAbandon (h : CmdHdr) (s : State) : Host.Outcome State Fault Refusal :=
  .next (runRow (contextAbandonRow h) (startAbandon h) s)

/-! ### Memory objects (R287, R288) -/

/-- The carve-out of function `f` that holds a range whole, when it is OPEN and no shrink in progress releases part of the range. -/
def mapRoom (s : State) (f : Fn) (a n : Nat) : Bool :=
  match setOf a with
  | none => false
  | some k =>
    let key := carveKey f k
    let c := carveAt s key
    c.state == .open_ && inside c.base c.limit a n
      && !(s.staged.any (fun x => match x with | .shrinkStart j lo hi => j == key && !inside lo hi a n | _ => false))

/-- The index an object or fence takes: the one the row names, or the next that is free after it (log entry 23). -/
def pickIdx (used : Nat → Bool) (pick : W16) : Option Nat :=
  match firstFree used (65536 - pick.toNat) pick.toNat with
  | some i => some i
  | none => firstFree used pick.toNat 0

/-- MEM_MAP's checks. -/
def mapChecks (h : CmdHdr) (rights : Byte) (base size : W64) (s : State) : Checks :=
  let a := base.toNat
  let n := size.toNat
  let all := (s.fns.map (fun e => e.2.objs.length)).sum
  { malformed := [badField (rights == 0 || 3 < rights.toNat) 17, badField (a % 4096 != 0) 24, badField (n % 4096 != 0 || n == 0) 32]
    state := [failIf (!mapRoom s h.fn a n) stBadState 0]
    busy := [(scrubHolder s [(a, a + n)]).map (fun op => (stBusy, op))]
    slots := [failIf (Config.objPerFn ≤ (fnOf s h.fn).objs.length || Config.objPackage ≤ all) stNoSlot 5] }

/-- MEM_MAP: the object is made, tagged to CONTEXT or to the VF. Log entry 19 (DEDUCED). -/
def startMap (h : CmdHdr) (rights : Byte) (base size : W64) (pick : W16) (p : InProg) (s : State) : State :=
  match pickIdx (fun i => (mapFind (fnOf s h.fn).objs i).isSome) pick with
  | none => s
  | some i =>
    let o : ObjSt := { rights := rights, ctx := h.ctx, base := base.toNat, size := size.toNat, unmapping := false, scrub := false }
    let s := fnMod h.fn (fun x => { x with objs := mapSet x.objs i o }) s
    complete p stOk 0 ((handleOf (mapGet 0 (fnOf s h.fn).objReuse i) i).setWidth 128) s

/-- The row of MEM_MAP (Table 03-6). -/
def memMapRow (h : CmdHdr) (rights : Byte) (base size : W64) : Row :=
  { hdr := h, opcode := 0x48, fields := [(17, 1, rights.toNat), (24, 8, base.toNat), (32, 8, size.toNat)],
    checks := mapChecks h rights base size }
/-- The effect of MEM_MAP. -/
def execMemMap (h : CmdHdr) (rights : Byte) (base size : W64) (pick : W16) (s : State) : Host.Outcome State Fault Refusal :=
  .next (runRow (memMapRow h rights base size) (startMap h rights base size pick) s)

/-- MEM_UNMAP: the object enters UNMAPPING; the command waits for its traffic (R288). -/
def startUnmap (h : CmdHdr) (handle : W32) (p : InProg) (s : State) : State :=
  match objIdx s h.fn handle with
  | none => s
  | some i =>
    goOn p { objs := [(h.fn.key, i)] } (.unmap h.fn.key i)
      (fnMod h.fn (fun x => { x with objs := x.objs.map (fun e => if e.1 = i then (e.1, { e.2 with unmapping := true }) else e) }) s)

/-- The row of MEM_UNMAP (Table 03-6). -/
def memUnmapRow (h : CmdHdr) (handle : W32) : Row :=
  { hdr := h, opcode := 0x49, fields := [(20, 4, handle.toNat)],
    checks := fun s => { state := [failIf (objIdx s h.fn handle).isNone stBadState 0] } }
/-- The effect of MEM_UNMAP. -/
def execMemUnmap (h : CmdHdr) (handle : W32) (s : State) : Host.Outcome State Fault Refusal :=
  .next (runRow (memUnmapRow h handle) (startUnmap h handle) s)

/-! ### Checkers, boundaries, scrubber, switches -/

/-- The effect of FIREWALL_ACCESS. -/
def execFirewallAccess (m : MemAccess) (s : State) : Host.Outcome State Fault Refusal := .next (firewallAccess m s)

/-- CHECKER_ACCESS_DONE (R295): an admitted access has completed at its checker. -/
def accessDone (id : Nat) (s : State) : State := settle { s with accesses := mapErase s.accesses id }
/-- The effect of CHECKER_ACCESS_DONE. -/
def execCheckerAccessDone (id : Nat) (s : State) : Host.Outcome State Fault Refusal := .next (accessDone id s)

/-- The effect of FABRIC_EPOCH_BOUNDARY. -/
def execFabricEpochBoundary (s : State) : Host.Outcome State Fault Refusal := .next (if serving s then settle (epochBoundary s) else s)

/-- R297, R293: the owner's carve-out reopens, at the next boundary, once the last of its ranges is scrubbed. -/
def reopen (carve : Option Nat) (s : State) : State :=
  match carve with
  | none => s
  | some k => if s.scrub.any (fun r => r.carve == some k) then s else { s with staged := s.staged ++ [.reopen k] }

/-- The VF whose carve-out holds an address. -/
def ownerOf (s : State) (a : Nat) : Option Fn := (s.carves.find? (fun e => inside e.2.base e.2.limit a 1)).map (fun e => fnAt (e.1 / 3))

/-- SCRUB_DONE (R297): the last zero write over the range being scrubbed has completed. Log entry 57 (DEDUCED). -/
def scrubDone (s : State) : State :=
  match s.scrub with
  | [] => s
  | r :: rest =>
    let s := emit (.scrubWrite r.lo r.hi) { s with scrub := rest }
    let s := match ownerOf s r.lo with | some f => markWrite f r.lo (r.hi - r.lo) s | none => s
    reopen r.carve s
/-- The effect of SCRUB_DONE. -/
def execScrubDone (s : State) : Host.Outcome State Fault Refusal := .next (if serving s then scrubDone s else s)

/-- SWITCH_NOTICE (R298): the state tagged to the context is cleared, then the notice acknowledged. -/
def switchNotice (fn : Fn) (ctx : W16) (s : State) : State :=
  if !serving s || ctx == 0xFFFF then s else settle (emit (.switchAck fn ctx) (switchBulk fn ctx (clearCtx fn ctx (traceVf fn 0x05 ctx 0 s))))
/-- The effect of SWITCH_NOTICE. -/
def execSwitchNotice (fn : Fn) (ctx : W16) (s : State) : Host.Outcome State Fault Refusal := .next (switchNotice fn ctx s)

end Sys2Proof.Machine
end

