-- ==== Sys2Proof/Machine/Pool.lean ====
section
/-! DEFINITION. The keeper's commands and happenings: REGION_CREATE, REGION_FREE, KEEPER_HANDOVER, REDUCE, answers of homes and
their time limits, write-backs and sweeps (09_encrypted_pool.md). -/
namespace Sys2Proof.Machine

/-! ### REGION_CREATE (R244, R250, R277, R280) -/

/-- N of R244: earlier REGION_CREATEs of a job's region id. -/
def madeBefore (s : State) (job : W16) (rid : BitVec 40) : Nat :=
  match s.made.find? (fun m => m.1 == job && m.2.1 == rid) with | some m => m.2.2 | none => 0
/-- Count a REGION_CREATE. -/
def countMade (job : W16) (rid : BitVec 40) (s : State) : State :=
  { s with made := s.made.filter (fun m => !(m.1 == job && m.2.1 == rid)) ++ [(job, rid, madeBefore s job rid + 1)] }

/-- The low 40 bits of a REGION_ID operand. -/
def ridOf (x : W64) : BitVec 40 := x.setWidth 40

/-- REGION_CREATE's checks. Log entry 44 (DEDUCED). -/
def regionChecks (h : CmdHdr) (regionId size : W64) (home : W16) (engine : Byte) (s : State) : Checks :=
  let rid := ridOf regionId
  let n := madeBefore s (jobOf s h.fn) rid
  { malformed := [badField (decide (0xFFFFFFF000 ≤ rid.toNat) && rid != dirRid) 16,
      badField (size == 0 || size.toNat % 16384 != 0 || 2 ^ 44 < size.toNat) 24, badField (0xFFF < home.toNat) 32, engineField engine 36]
    unit := [engineCheck s engine]
    state := [jobCheck s h.fn, ridTaken s h.fn rid]
    limits := [failIf (0xFFFF < s.pkg.boot || 0xFFFF < n) stLimits 0x401, failIf (rid == dirRid && 0xFF < n) stLimits 0x406]
    busy := [engineTesting s engine]
    slots := [tableCheck s engine, slotCheck s] }

/-- REGION_CREATE: the reservations, the key, ALLOC to the home. -/
def startRegion (regionId size : W64) (home : W16) (engine : Byte) (p : InProg) (s : State) : State :=
  match pickEngine s engine with
  | none => s
  | some e =>
    let rid := ridOf regionId
    let job := jobOf s p.fn
    let dir := rid == dirRid
    let me := s.fab.id
    let n := madeBefore s job rid
    let epoch : W32 := BitVec.ofNat 32 (n * 65536 + s.pkg.boot)
    let base := if dir then s.pkg.boot * 2 ^ 48 + n * 2 ^ 40 else 0
    let homeRid := if dir then dirHomeRid s else rid
    let (kid, s) := reserveKid p.fn (countMade job rid s)
    let value := if dir then directoryKey (jmkOf s p.fn) job me else regionKey (jmkOf s p.fn) rid epoch me
    let s := placeKey kid { mkSlot value (if dir then .directory else .region) usePool p.fn job p.ctx p.ctxGen with
      epoch := epoch, subject := if dir then me.setWidth 40 else rid, parent := (fnOf s p.fn).jmkKid } s
    let key := s.nextRegion
    let r := newRegion p.fn job rid homeRid p.ctx p.ctxGen epoch me size.toNat (home.setWidth 12) e kid .creating base 0 0x20
    let s := { s with regions := mapSet s.regions key r, nextRegion := key + 1, opens := s.opens + 1 }
    let x : ExchSt := { exchFor key r 0x01 [] with arg := size, cmd := some (p.fn, p.idx) }
    let (xid, s) := newExch x [] [] [] s
    goOn p { xids := [xid], peer := true } (.regionCreate key kid) s

/-- The row of REGION_CREATE (Table 03-6). -/
def regionCreateRow (h : CmdHdr) (regionId size : W64) (home : W16) (engine : Byte) : Row :=
  { hdr := h, opcode := 0x20, fields := [(16, 8, regionId.toNat), (24, 8, size.toNat), (32, 2, home.toNat), (36, 1, engine.toNat)],
    checks := regionChecks h regionId size home engine }
/-- The effect of REGION_CREATE. -/
def execRegionCreate (h : CmdHdr) (regionId size : W64) (home : W16) (engine : Byte) (s : State) : Host.Outcome State Fault Refusal :=
  .next (runRow (regionCreateRow h regionId size home engine) (startRegion regionId size home engine) s)

/-! ### REGION_FREE (R278) -/

/-- The region that a command of function `f` names by its id (Table 09-1). -/
def regionNamed (s : State) (f : Fn) (rid : W64) : Option Nat :=
  match (fnOf s f).job with | some job => regionKeyOf s job (ridOf rid) | none => none

/-- The opcode of a PARK or RESUME that has a directory's entry in hand. -/
def dirHolder (s : State) (dir : Nat) : Check :=
  (s.prog.find? (fun q => match q.act with
    | .park _ d _ _ _ _ _ => d == dir | .resume _ d _ _ _ _ _ => d == dir | _ => false)).map (fun q => (stBusy, q.opcode.setWidth 32))

/-- REGION_FREE's checks. Log entry 45 (DEDUCED). -/
def freeChecks (h : CmdHdr) (rid : W64) (s : State) : Checks :=
  match regionNamed s h.fn rid with
  | none => { state := [some (stBadState, openDetail s)] }
  | some k =>
    match regionAt s k with
    | none => { state := [some (stBadState, openDetail s)] }
    | some r => { state := [failIf (r.state == .freeing) stBadState 0x15], busy := [heldBusy r, dirHolder s k] }

/-- REGION_FREE: the KID retires and the region is freed once it has. -/
def startFree (rid : W64) (p : InProg) (s : State) : State :=
  match regionNamed s p.fn rid with
  | none => s
  | some k =>
    let kids := match regionAt s k with | some r => [r.kid] | none => []
    goOn p { kids := kids } (.regionFree k) (beginFree 0x21 k s)

/-- The row of REGION_FREE (Table 03-6). -/
def regionFreeRow (h : CmdHdr) (regionId : W64) : Row :=
  { hdr := h, opcode := 0x21, fields := [(16, 8, regionId.toNat)],
    checks := freeChecks h regionId }
/-- The effect of REGION_FREE. -/
def execRegionFree (h : CmdHdr) (regionId : W64) (s : State) : Host.Outcome State Fault Refusal :=
  .next (runRow (regionFreeRow h regionId) (startFree regionId) s)

/-! ### KEEPER_HANDOVER (R279) -/

/-- Class-4 streams of a job stand open between this package and another, one each way. -/
def mgmtOpen (s : State) (f : Fn) (job : W16) (pkg : BitVec 12) : Bool :=
  s.sends.any (fun t => t.fn == f && t.job == job && sidDst t.sid == pkg && sidClass t.sid == 4 && !t.closing)
    && s.recvs.any (fun t => t.fn == f && t.job == job && sidSrc t.sid == pkg && sidClass t.sid == 4 && !t.closing)

/-- KEEPER_HANDOVER's checks. -/
def handoverChecks (h : CmdHdr) (rid : W64) (newKeeper : W16) (s : State) : Checks :=
  { malformed := [badField (0xFFF < newKeeper.toNat) 34]
    state := [match regionNamed s h.fn rid with
      | none => some (stBadState, openDetail s)
      | some k => (match regionAt s k with
        | none => some (stBadState, openDetail s)
        | some r => failIf (r.isDir || r.state == .lost || r.state == .freeing) stBadState (regCode r.state)),
      failIf (!mgmtOpen s h.fn (jobOf s h.fn) (newKeeper.setWidth 12)) stBadState (openDetail s)]
    busy := [match regionNamed s h.fn rid with
      | none => none
      | some k => (match regionAt s k with | none => none | some r => heldBusy r)] }

/-- KEEPER_HANDOVER: the region enters HANDOVER; its requests drain and its dirty nodes are written back. -/
def startHandover (rid : W64) (newKeeper : W16) (p : InProg) (s : State) : State :=
  match regionNamed s p.fn rid with
  | none => s
  | some k => goOn p {} (.handover k (newKeeper.setWidth 12) 0) (regionMod k (fun r => { r with state := .handover, opcode := 0x22 }) s)

/-- The row of KEEPER_HANDOVER (Table 03-6). -/
def keeperHandoverRow (h : CmdHdr) (regionId : W64) (newKeeper : W16) : Row :=
  { hdr := h, opcode := 0x22, fields := [(16, 8, regionId.toNat), (34, 2, newKeeper.toNat)],
    checks := handoverChecks h regionId newKeeper }
/-- The effect of KEEPER_HANDOVER. -/
def execKeeperHandover (h : CmdHdr) (regionId : W64) (newKeeper : W16) (s : State) : Host.Outcome State Fault Refusal :=
  .next (runRow (keeperHandoverRow h regionId newKeeper) (startHandover regionId newKeeper) s)

/-- The KEEPER_HANDOVER of this region toward a package that stands at a step. -/
def handoverAt (s : State) (k : Nat) (pkg : BitVec 12) (step : Nat) : Option InProg :=
  s.prog.find? (fun q => match q.act with | .handover key nk st => key == k && nk == pkg && st == step | _ => false)

/-- A handover fails: the region is LIVE again. -/
def failHandover (p : InProg) (k : Nat) (st : W16) (d : W32) (s : State) : State :=
  complete p st d 0 (regionMod k RegionSt.backLive s)

/-- A MGMT answer (R279): the new keeper's reaches the old one (steps 3 and 4); the old keeper's word that the handover has ended reaches
the new one, which releases its reservations (R259). Log entry 188 (DESIGN CHOICE). -/
def takeAnswer (job : W16) (src : BitVec 12) (rid : BitVec 40) (status : W16) (detail : W32) (s : State) : State :=
  match regionKeyOf s job rid with
  | none => s
  | some k =>
    match handoverAt s k src 1, regionAt s k with
    | some p, some r =>
      if status = stOk then
        let x : ExchSt := { exchFor k r 0x03 [] with arg := src.setWidth 64, cmd := some (p.fn, p.idx) }
        goOn p { peer := true } (.handover k src 2) (newExch x [] [] [] s).2
      else failHandover p k status detail s
    | _, some r =>
      if r.state = .creating ∧ r.oldKeeper = some src ∧ status ≠ stOk then releaseKid r.kid { s with regions := mapErase s.regions k } else s
    | _, none => s

/-- REBIND has been acknowledged: the commit goes out and the old KID retires (R279 steps 5 and 6). -/
def commitHandover (p : InProg) (k : Nat) (nk : BitVec 12) (s : State) : State :=
  match regionAt s k with
  | none => s
  | some r =>
    let s := sendMgmt r.fn nk ([0x03] ++ be 5 r.rid.toNat) s
    goOn p { kids := [r.kid] } (.handover k nk 3) (retireKid r.kid s)

/-- The new keeper's checks of an offer: no refusal, or its status and DETAIL. Log entry 31 (DEDUCED). -/
def offerCheck (s : State) (f : Fn) (rid : BitVec 40) : Check :=
  firstFail [engineCheck s 0xFF, engineTesting s 0xFF, ridTaken s f rid, tableCheck s 0xFF, slotCheck s]

/-- An offer reaches the new keeper (R279 step 3): it reserves engine, entry, slot and KID, and accepts, or refuses. -/
def takeOffer (f : Fn) (job : W16) (src : BitVec 12) (o : OfferPay) (s : State) : State :=
  let answer := fun (st : W16) (d : W32) => sendMgmt f src (answerBytes o.regionId st d)
  match offerCheck s f o.regionId with
  | some (st, d) => answer st d s
  | none =>
    match fewestEngine s with
    | none => s
    | some e =>
      let (kid, s) := reserveKid f s
      let s := placeKey kid { mkSlot o.key .region usePool f job 0xFFFF 0 with
        epoch := o.epoch, subject := o.regionId, parent := (fnOf s f).jmkKid } s
      let r := newRegion f job o.regionId o.regionId 0xFFFF 0 o.epoch o.creator o.size.toNat o.home e kid .creating o.base.toNat o.root 0x22
      answer stOk 0 { s with regions := mapSet s.regions s.nextRegion { r with oldKeeper := some src }
                             nextRegion := s.nextRegion + 1, opens := s.opens + 1 }

/-- The commit reaches the new keeper (R279 step 5): the region is LIVE. -/
def takeCommit (job : W16) (src : BitVec 12) (rid : BitVec 40) (s : State) : State :=
  match regionKeyOf s job rid with
  | none => s
  | some k =>
    match regionAt s k with
    | none => s
    | some r =>
      if r.state = .creating ∧ r.oldKeeper = some src then
        regionMod k (fun r => { r with state := .live, oldKeeper := none, opcode := 0 }) (activateKid r.kid s)
      else s

/-- HANDOVER_TIMEOUT (R279): 100 ms without an answer at step 3 or 4. Log entry 149 (DEDUCED). -/
def handoverTimeout (fn : Fn) (idx : W32) (s : State) : State :=
  match findProg s fn idx with
  | none => s
  | some p =>
    match p.act with
    | .handover k nk step =>
      if step = 1 ∨ step = 2 then
        settle (failHandover p k stTimedOut (nk.setWidth 32) <| cancelOffer k nk step stTimedOut (nk.setWidth 32) { s with exch := s.exch.filter (fun e => e.2.cmd != some (fn, idx)) })
      else s
    | _ => s
/-- The effect of HANDOVER_TIMEOUT. -/
def execHandoverTimeout (fn : Fn) (idx : W32) (s : State) : Host.Outcome State Fault Refusal := .next (whenLive (handoverTimeout fn idx) s)

/-! ### REDUCE (R276) -/

/-- REDUCE's checks up to its execution. Log entry 46 (DEDUCED). -/
def reduceChecks (h : CmdHdr) (rid : W64) (op fmt : Byte) (offset : W64) (len : W32) (srcAddr : W64) (s : State) : Checks :=
  let sz := redSize fmt
  let opBad := !decide (1 ≤ op.toNat ∧ op.toNat ≤ 6) || (redFloat fmt && decide (4 ≤ op.toNat))
  let reg := match regionNamed s h.fn rid with | some k => regionAt s k | none => none
  { malformed := [badField opBad 37, badField (sz == 0) 38, badField (sz != 0 && offset.toNat % sz != 0) 40,
      badField (sz != 0 && len.toNat % sz != 0) 48]
    state := [match reg with
      | none => some (stBadState, openDetail s)
      | some r => failIf (r.isDir || r.state == .freeing) stBadState (if r.isDir then openDetail s else 0x15),
      failIf (!(fnOf s h.fn).objs.any (fun o => !o.2.unmapping && o.2.rights.getLsbD 0
        && inside o.2.base (o.2.base + o.2.size) srcAddr.toNat len.toNat)) stBadState (openDetail s)]
    limits := [failIf (2 ^ 26 < len.toNat) stLimits 0x403,
      match reg with | some r => failIf (r.size < offset.toNat + len.toNat) stLimits 0x402 | none => none]
    busy := [match reg with | some r => heldBusy r | none => none] }

/-- The parts of REDUCE: from `off`, pieces that end on line boundaries, of 31 lines at most; the fuel bounds them. -/
def reduceParts : Nat → Nat → List Byte → List (Nat × List Byte)
  | 0, _, _ => []
  | n + 1, off, d =>
    if d.isEmpty then []
    else
      let k := (off / 256 + 31) * 256 - off
      (off, d.take k) :: reduceParts n (off + k) (d.drop k)

/-- Admit the parts as requests of the command. -/
def addParts (p : InProg) (k : Nat) (kind : PoolKind) : List (Nat × List Byte) → List Nat → State → List Nat × State
  | [], ids, s => (ids, s)
  | (off, d) :: l, ids, s =>
    let (id, s) := cmdJob p k kind off d.length d s
    addParts p k kind l (ids ++ [id]) s

/-- REDUCE: its operand is read and applied part by part. -/
def startReduce (rid : W64) (op fmt : Byte) (offset : W64) (len : W32) (srcAddr : W64) (src : Fetched (List Byte)) (p : InProg) (s : State) :
    State :=
  match regionNamed s p.fn rid with
  | none => s
  | some k =>
    match regionAt s k with
    | none => s
    | some r =>
      let lines := (offset.toNat + len.toNat + 255) / 256 - offset.toNat / 256
      if r.state = .lost then complete p stPeerLost (r.home.setWidth 32) 0 s
      else if len = 0 then complete p stOk 0 0 s
      else match r.firstFenced (offset.toNat / 256) lines with
        | some i => complete p stPoolFenced (BitVec.ofNat 32 i) 0 s
        | none =>
          match src with
          | .failed => complete p stDmaError 0 0 s
          | .ok d =>
            if !fwAllows s .engine p.fn srcAddr.toNat len.toNat false then
              complete p stDmaError 0 0 (countRefused p.fn srcAddr.toNat len.toNat s)
            else
              let (ids, s) := addParts p k (.reduce op fmt) (reduceParts (lines / 31 + 2) offset.toNat (padTo len.toNat (d.take len.toNat))) [] s
              poolPump (goOn p { jobs := ids } (.reduce ids) s)

/-- The row of REDUCE (Table 03-6). -/
def reduceRow (h : CmdHdr) (regionId : W64) (redOp redFormat : Byte) (offset : W64) (length : W32) (srcAddr : W64) : Row :=
  { hdr := h, opcode := 0x23, fields := [(16, 8, regionId.toNat), (37, 1, redOp.toNat), (38, 1, redFormat.toNat), (40, 8, offset.toNat), (48, 4, length.toNat), (56, 8, srcAddr.toNat)],
    checks := reduceChecks h regionId redOp redFormat offset length srcAddr }
/-- The effect of REDUCE. -/
def execReduce (h : CmdHdr) (regionId : W64) (redOp redFormat : Byte) (offset : W64) (length : W32) (srcAddr : W64)
    (src : Fetched (List Byte)) (s : State) : Host.Outcome State Fault Refusal :=
  .next (runRow (reduceRow h regionId redOp redFormat offset length srcAddr) (startReduce regionId redOp redFormat offset length srcAddr src) s)

/-! ### Answers of homes (R259, R269 to R271, Table 09-21) -/

/-- Add to a package counter. -/
def countPkgN (code n : Nat) (s : State) : State := { s with tabor := { s.tabor with pkg := bump s.tabor.pkg code n } }

/-- Forget an exchange: nothing waits on it any more. -/
def dropExch (xid : W32) (s : State) : State :=
  { s with exch := mapErase s.exch xid.toNat
           jobs := s.jobs.map (fun j => { j with xids := j.xids.erase xid })
           regions := s.regions.map (fun r => (r.1, { r.2 with sweeps := r.2.sweeps.map (fun w => { w with xids := w.xids.erase xid }) })) }

/-- Send again the exchanges that a home has put off (R259). -/
def resendHeld (home : BitVec 12) (lease : Bool) : List (Nat × ExchSt) → State → State
  | [], s => s
  | (i, x) :: l, s =>
    if x.held && x.home == home && x.lease == lease then
      let y := { x with held := false }
      resendHeld home lease l (sendExch (BitVec.ofNat 32 i) y [] [] [] { s with exch := mapSet s.exch i y })
    else resendHeld home lease l s

/-- Give up leases on lines of a region. -/
def sendReleases (x : ExchSt) : List (List Nat) → State → State
  | [], s => s
  | run :: l, s => sendReleases x l (newExch { x with op := 0x14, items := run, lease := false, held := false, arg := 0, cmd := none } [] [] [] s).2

/-- Leases of a region that nothing needs: no fetch, request, held line or write under way. Log entry 148 (DEDUCED). -/
def idleLeases (s : State) (k : Nat) (r : RegionSt) : List Nat :=
  r.leases.filter (fun i =>
    !(s.exch.any (fun e => e.2.region == k && (e.2.op == 0x10 || e.2.op == 0x11) && e.2.items.contains i))
      && !(s.jobs.any (fun j => j.region == k && j.phase == 0 && j.rmw i)) && !r.deferred.contains i)

/-- End a region's idle leases. -/
def dropLeases (k : Nat) (s : State) : State :=
  match regionAt s k with
  | none => s
  | some r =>
    let idle := idleLeases s k r
    if idle.isEmpty then s
    else sendReleases (exchFor k r 0x14 []) (lineRuns 31 [] (idle.mergeSort (· ≤ ·)))
      (regionMod k (fun r => { r with leases := r.leases.filter (fun i => !idle.contains i) }) s)

/-- Fence lines, each run of neighbours as one range (R270). -/
def fenceLines (k : Nat) (l : List Nat) (s : State) : State :=
  (lineRuns l.length [] (l.mergeSort (· ≤ ·))).foldl (fun s run => addFence k (run.headD 0) run.length s) s

/-- The first line of a response whose check fails under a counter in hand. -/
def badLine (r : RegionSt) (l : List (Nat × LineItem)) : Option Nat :=
  (l.find? (fun e => !e.2.macOk && (r.lineCtr e.1).isSome && r.lineCtr e.1 != some (0, 0))).map (·.1)

/-- READ_LINES answered (R263, R269): plaintext that may go early goes before the MACs are known. -/
def linesRead (k : Nat) (xid : W32) (x : ExchSt) (r : HomeResp) (s : State) : State :=
  match regionAt s k with
  | none => s
  | some g =>
    let all := (List.range x.items.length).zip (x.items.zip r.lines)
    let ue := (all.filter (fun e => r.ueMap.getLsbD e.1 || r.macUe.getLsbD e.1)).map (fun e => e.2.1)
    let good := (all.filter (fun e => !(r.ueMap.getLsbD e.1 || r.macUe.getLsbD e.1))).map (·.2)
    let bad := (good.filter (fun (e : Nat × LineItem) => !e.2.macOk)).map (·.1)
    let put := fun (m : FMap Line) => good.foldl (fun m (e : Nat × LineItem) => mapSet m e.1 e.2.plain) m
    let mine := (s.jobs.filter (fun j => j.xids.contains xid)).map (·.id)
    let s := { s with jobs := s.jobs.map (fun j => if mine.contains j.id then { j with lines := put j.lines, bad := j.bad ++ bad } else j) }
    let s := eachIdx showLines mine s
    match badLine g good with
    | some i => gongHalt (lineFault g i) s
    | none =>
      let s := regionMod k (fun g => { g with sweeps := g.sweeps.map (fun w => if w.xids.contains xid then { w with lines := put w.lines } else w) }) s
      if (g.sweeps.any (fun w => w.xids.contains xid)) && !bad.isEmpty then gongHalt (lineFault g (bad.headD 0)) s
      else fenceLines k ue s

/-- READ_NODES answered (R253, R269). -/
def nodesRead (k : Nat) (xid : W32) (x : ExchSt) (r : HomeResp) (s : State) : State :=
  match regionAt s k with
  | none => s
  | some g =>
    let all := x.items.zip r.nodes
    let ok := all.filter (fun e => !e.2.ue)
    let swept := g.sweeps.any (fun w => w.xids.contains xid)
    match (if swept then ok.find? (fun e => !e.2.macOk) else none) with
    | some e => gongHalt (nodeFault g (keyLevel e.1) (keyIdx e.1)) s
    | none =>
      let s := regionMod k (fun g =>
        { g with arrived := if swept && !(s.jobs.any (fun j => j.xids.contains xid)) then g.arrived else ok.foldl (fun m e => mapSet m e.1 e.2) g.arrived
                 sweeps := g.sweeps.map (fun w =>
                   if w.xids.contains xid then { w with nodes := ok.foldl (fun m e => mapSet m (keyIdx e.1) e.2.node) w.nodes } else w) }) s
      (all.filter (fun e => e.2.ue)).foldl (fun s e => fenceBelow k (keyLevel e.1) (keyIdx e.1) s) s

/-- A waiting request keeps a line that the write buffer is about to let go, where no earlier write to it is still to come (R266, R283). -/
def keepLine (s : State) (j : PoolJob) (e : Nat × Line) : PoolJob :=
  let wanted := j.lineList.contains e.1 && (match j.kind with | .write => !j.whole e.1 | _ => true) && (mapFind j.lines e.1).isNone
  if wanted && !((earlierJobs s j).any (fun b => b.writes && b.lineList.contains e.1)) then { j with lines := mapSet j.lines e.1 e.2 } else j
/-- WRITE_LINES acknowledged: the write buffer lets the lines go, and a RELEASE ends their leases. -/
def linesWritten (k : Nat) (xid : W32) (x : ExchSt) (s : State) : State :=
  let again := fun i => s.exch.any (fun e => e.1 != xid.toNat && e.2.region == k && e.2.op == 0x11 && e.2.items.contains i)
  let goes := fun (r : RegionSt) (i : Nat) => x.items.contains i && !again i && !(r.deferred.contains i)
  let out : FMap Line := match regionAt s k with | some r => r.writeBuf.filter (fun (e : Nat × Line) => goes r e.1) | none => []
  let s := { s with jobs := s.jobs.map (fun j => if j.region = k ∧ j.phase = 0 then out.foldl (keepLine s) j else j) }
  regionMod k (fun r =>
    { r with writeBuf := r.writeBuf.filter (fun e => !goes r e.1)
             leases := if x.release then r.leases.filter (fun i => !x.items.contains i) else r.leases }) s

/-- ALLOC answered OK, or EXISTS for a directory that a checkpoint covers, whose root it adopts (R277, R280). -/
def regionMade (p : InProg) (k : Nat) (kid : W16) (adopt : Bool) (s : State) : State :=
  match regionAt s k with
  | none => s
  | some r =>
    let root := if adopt then ((covered s r).getD 0) else 0
    let s := regionMod k (fun r => { r with state := .live, root := root, opcode := 0 }) (activateKid kid s)
    complete p stOk 0 (resAt 0 kid.toNat ||| resAt 4 r.epoch.toNat) s

/-- A REGION_CREATE fails: its reservations are released. -/
def failRegion (p : InProg) (k : Nat) (kid : W16) (st : W16) (d : W32) (s : State) : State :=
  complete p st d 0 (releaseKid kid { s with regions := mapErase s.regions k })

/-- The command that an exchange belongs to. -/
def exchCmd (s : State) (x : ExchSt) : Option InProg := match x.cmd with | some (f, i) => findProg s f i | none => none

/-- R271: a PARK or KEEPER_HANDOVER whose write-back has had no answer completes with POOL_FENCED; the region is LIVE again. -/
def failWriteBack (k : Nat) : List InProg → State → State
  | [], s => s
  | p :: l, s =>
    let hit := match p.act with | .park key _ _ _ _ 1 _ => key == k | .handover key _ 0 => key == k | _ => false
    let line := match regionAt s k with | some r => (r.firstFenced 0 r.lineCount).getD 0 | none => 0
    failWriteBack k l (if hit then complete p stPoolFenced (BitVec.ofNat 32 line) 0 (regionMod k RegionSt.backLive s) else s)

/-- An exchange that has had no answer (R271), or one that counts as such (Table 09-21). -/
def noAnswer (xid : W32) (x : ExchSt) (s : State) : State :=
  let home : W32 := x.home.setWidth 32
  let waits := fun (j : PoolJob) => j.xids.contains xid
  let s1 := if x.op = 0x10 ∨ x.op = 0x12 then finishJobs waits stTimedOut home s.jobs s
    else if x.op = 0x11 then
      finishJobs waits stPoolFenced (BitVec.ofNat 32 (x.items.headD 0)) s.jobs (linesWritten x.region xid x (fenceLines x.region x.items s))
    else if x.op = 0x13 then
      let s := x.items.foldl (fun s i => fenceBelow x.region (keyLevel i) (keyIdx i) s) s
      failWriteBack x.region s.prog s
    else match exchCmd s x with
      | some p => (match p.act with
        | .regionCreate k kid => failRegion p k kid stTimedOut home s
        | .handover k nk 2 => failHandover p k stTimedOut home (cancelOffer k nk 2 stTimedOut home s)
        | _ => s)
      | none => s
  dropExch xid s1

/-- An answer that is OK. -/
def answered (xid : W32) (x : ExchSt) (r : HomeResp) (s : State) : State :=
  let k := x.region
  let s1 := if x.op = 0x10 then linesRead k xid x r s
    else if x.op = 0x12 then nodesRead k xid x r s
    else if x.op = 0x11 then linesWritten k xid x s
    else match exchCmd s x with
      | some p => (match p.act with
        | .regionCreate k kid => regionMade p k kid false s
        | .handover k nk 2 => commitHandover p k nk s
        | _ => s)
      | none => s
  let s2 := dropExch xid s1
  if x.op = 0x11 ∧ x.release then resendHeld x.home true s2.exch s2
  else if x.op = 0x14 then resendHeld x.home false s2.exch (resendHeld x.home true s2.exch s2)
  else s2

/-- An answer with another status (Table 09-21). -/
def refused (xid : W32) (x : ExchSt) (hstat : Byte) (s : State) : State :=
  let s := countPkg 0x15 s
  let alloc := match exchCmd s x with | some p => (match p.act with | .regionCreate k kid => some (p, k, kid) | _ => none) | none => none
  if x.op = 0x01 ∧ (hstat = 1 ∨ hstat = 8) then
    match alloc with
    | none => dropExch xid s
    | some (p, k, kid) =>
      let cov := match regionAt s k with | some r => (covered s r).isSome | none => false
      dropExch xid (if hstat = 8 ∧ cov then regionMade p k kid true s else failRegion p k kid stLimits 0x404 s)
  else if hstat = 3 then
    match alloc with
    | some (p, k, kid) => dropExch xid (failRegion p k kid stPeerLost (x.home.setWidth 32) s)
    | none => if x.op = 0x02 then dropExch xid s else dropExch xid (regionLost x.region s)
  else if (hstat = 2 ∨ hstat = 4) ∧ x.op ≠ 0x01 then
    if x.op = 0x02 then dropExch xid s else dropExch xid (regionLost x.region s)
  else if hstat = 5 ∧ x.op = 0x10 ∧ x.lease then { s with exch := mapSet s.exch xid.toNat { x with held := true } }
  else if hstat = 6 ∧ (x.op = 0x03 ∨ x.op = 0x02) then
    let lines := if x.op = 0x02 then x.items else (match regionAt s x.region with | some r => r.leases | none => [])
    if lines.isEmpty then sendExch xid x [] [] [] s
    else
      let y := { x with held := true, items := [] }
      sendReleases x (lineRuns 31 [] (lines.mergeSort (· ≤ ·)))
        (regionMod x.region (fun r => { r with leases := [] }) { s with exch := mapSet s.exch xid.toNat y })
  else noAnswer xid x s

/-- What an arriving frame's own checks and effect are wrapped in: steps 1 to 4 of Table 07-11 (R197), and the retry limit its
acknowledgement may have met (R194). A row whose operands are not those that the frame's bytes spell (`spelt`) is none, and does nothing.
Log entry 153 (DESIGN CHOICE). -/
def arrive (a : Arrival) (spelt : Bool) (g : State → State) (s : State) : State :=
  if !spelt then s
  else
    let r := hopChecks a s
    let s := if r.mine then g r.st else r.st
    if r.retry then portLost a.port 4 s else s

/-- A HOME response (R259): the exchange it names is the keeper's, of this operation and this home; any other is HOME_LATE.
Log entry 150 (DEDUCED). -/
def homeAnswer (a : Arrival) (h : HomeHdr) (r : HomeResp) (s : State) : State :=
  let s := returnCredits a.port a.hop.vc (frameCredits a.hop) s
  match mapFind s.exch h.xid.toNat with
  | none => countPkg 0x12 s
  | some x =>
    if h.hop ≠ x.op ||| 0x80 ∨ sidSrc a.route ≠ x.home ∨ x.held then countPkg 0x12 s
    else
      let s := countPkgN 0x11 r.ceCount.toNat s
      poolPump (dropLeases x.region (if h.hstat = 0 then answered h.xid x r s else refused h.xid x h.hstat s))

/-- A HOME response's bytes spell the row: header and trailer (Tables 09-6, 09-7). -/
def respSpelt (a : Arrival) (h : HomeHdr) (r : HomeResp) : Bool :=
  let o := 32 + 256 * (a.hop.unitsM1.toNat + 1)
  a.hop.kind == kHome && h.hop.getLsbD 7 && a.tail.take 20 == homeHdrBytes h && wireField a o 4 == r.ueMap.toNat
    && wireField a (o + 4) 4 == r.macUe.toNat && wireField a (o + 8) 4 == r.ceCount.toNat
/-- The effect of HOME_RESPONSE. -/
def execHomeResponse (a : Arrival) (h : HomeHdr) (r : HomeResp) (s : State) : Host.Outcome State Fault Refusal :=
  .next (settle (arrive a (respSpelt a h r) (homeAnswer a h r) s))

/-- HOME_EXCHANGE_TIMEOUT (R271). -/
def homeTimeout (xid : W32) (s : State) : State :=
  match mapFind s.exch xid.toNat with
  | none => s
  | some x => settle (poolPump (dropLeases x.region (noAnswer xid x s)))
/-- The effect of HOME_EXCHANGE_TIMEOUT. -/
def execHomeExchangeTimeout (xid : W32) (s : State) : Host.Outcome State Fault Refusal := .next (whenLive (homeTimeout xid) s)

/-! ### The walker (R252, R267) -/

/-- The effect of DIRTY_NODE_WRITEBACK. -/
def execDirtyNodeWriteback (jobId : W16) (regionId : BitVec 40) (level index : Nat) (s : State) : Host.Outcome State Fault Refusal :=
  .next (whenLive (fun s => match regionKeyOf s jobId regionId with
    | some k => settle (poolPump (writeBack k level index s))
    | none => s) s)

/-- The effect of OVERFLOW_SWEEP (R267): the walker begins a sweep that an overflow left waiting. -/
def execOverflowSweep (jobId : W16) (regionId : BitVec 40) (level index : Nat) (s : State) : Host.Outcome State Fault Refusal :=
  .next (whenLive (fun s => match regionKeyOf s jobId regionId with
    | some k => settle (poolPump (sweepMod k level index (fun w => { w with started := true }) s))
    | none => s) s)

end Sys2Proof.Machine
end

