-- ==== Sys2Proof/Machine/PoolLoop.lean ====
section
/-! DEFINITION. The local loop of a pool engine (R282), whose loop buffer takes the place of the engine's home, and the debug master's
requests to memory and through such a loop (R281, R354). -/
namespace Sys2Proof.Machine

/-- What the loop buffer answers an exchange: lines decrypted under the counters in force, nodes as they stand. -/
def loopResp (s : State) (r : RegionSt) (x : ExchSt) : HomeResp :=
  let b := mapGet {} s.loops r.engine
  let key := keyOf s r.kid
  { ueMap := 0, macUe := 0, ceCount := 0
    lines := if x.op = 0x10 then x.items.map (fun i => { plain := cryptLine key i ((r.lineCtr i).getD (0, 0)) (mapGet 0 b.lines i), macOk := true }) else []
    nodes := if x.op = 0x12 then x.items.map (fun k => { node := mapGet 0 b.nodes k, ue := false, macOk := true }) else [] }
/-- A MAC mismatch in the loop is a fault of the engine's own, which the manual leaves open; each is counted as POOL_LOOP_MACFAIL and halts
nothing. Log entry 189 (DESIGN CHOICE). -/
def loopMacFail (x : ExchSt) (s : State) : State :=
  if x.op = 0x10 ∨ x.op = 0x12 then bumpOpen (countPkgN 0x13 (Config.loopFaults s.opens % (x.items.length + 1)) s) else s
/-- The loop buffer answers every exchange of a local loop; the fuel bounds the exchanges. -/
def serveLoop : Nat → State → State
  | 0, s => s
  | n + 1, s =>
    match s.exch.find? (fun e => (loopEngine s e.2.region).isSome) with
    | none => s
    | some (i, x) =>
      match regionAt s x.region with
      | none => s
      | some r => serveLoop n (poolPump (dropLeases x.region (answered (BitVec.ofNat 32 i) x (loopResp s r x) (loopMacFail x s))))
/-- A request to a scratch region, taken to its end. -/
def loopJob (k : Nat) (kid : W16) (own : Bool) (kind : PoolKind) (offset length : Nat) (data : List Byte) (s : State) : State :=
  serveLoop 64 (poolPump (addJob k (.loop kid own) kind offset length (padTo length (data.take length)) s).2)

/-- A sweep of the first leaf, as a minor overflow brings it (R267). -/
def loopSweep (k : Nat) (s : State) : State :=
  match (regionAt s k).bind (fun r => r.nodeAt 1 0) with
  | none => s
  | some n =>
    let w : SweepSt := { level := 1, idx := 0, old := n, started := true, xids := [], lines := [], nodes := [] }
    serveLoop 64 (poolPump (putNode k 1 0 (flatNode (major n + 1) 0) (regionMod k (fun r => { r with sweeps := r.sweeps ++ [w] }) s)))
/-- One pass of the loop's own traffic over the first line of its scratch region, with free content: a write, a reduction, a sweep, a read.
Log entry 189 (DESIGN CHOICE). -/
def loopPass (k : Nat) (kid : W16) (s : State) : State :=
  let n := s.opens
  let s := loopJob k kid true .write 0 256 (freeBytes n 32) { s with opens := n + 64 }
  let s := loopJob k kid true (.reduce 0x01 0x08) 0 256 (freeBytes (n + 32) 32) s
  loopJob k kid true .read 0 256 [] (loopSweep k s)
/-- R282: the engine creates its scratch region under the loop's debug KID, all zero, and runs its traffic. -/
def startLoop (e : Nat) (kid : W16) (s : State) : State :=
  let size := 16384 * (Config.loopLeaves s.opens % 988 + 1)
  let r := { newRegion .pf 0 0 0 0xFFFF 0 0 s.fab.id size s.fab.id e kid .live 0 0 0 with loop := true }
  let k := s.nextRegion
  loopPass k kid { s with regions := mapSet s.regions k r, nextRegion := k + 1, opens := s.opens + 1, loops := mapSet s.loops e {} }
/-- The scratch region and the loop buffer of an engine go. -/
def endLoop (e : Nat) (s : State) : State :=
  { s with regions := s.regions.filter (fun r => !(r.2.loop && r.2.engine == e)), loops := mapErase s.loops e }

/-! ### The debug master (R281, R354) -/

/-- The debug KID that the debug master's requests carry: that of the grant in force. -/
def grantKid (s : State) : W16 := match s.grant with | some g => g.kid | none => 0
/-- A request to pool data: only the scratch region of the engine's local loop is in reach; a request without the right or the loop completes
with NOT_PERMITTED, and is counted as FW_REFUSED under the PF. -/
def debugPool (e : BitVec 3) (off : W64) (len : W32) (data : List Byte) (write : Bool) (s : State) : State :=
  match s.regions.find? (fun r => r.2.loop && r.2.engine == e.toNat) with
  | some (k, r) =>
    if !hasRight s (if write then 8 else 7) then emit (.debugPool (grantKid s) stNotPermitted []) (countFn .pf 0x2D s)
    else if !poolShapeOk (if write then 2 else 1) 0 0 true off.toNat len.toNat then emit (.debugPool (grantKid s) stMalformed []) s
    else if r.size < off.toNat + len.toNat then emit (.debugPool (grantKid s) stLimits []) s
    else loopJob k (grantKid s) false (if write then .write else .read) off.toNat len.toNat data s
  | none => emit (.debugPool (grantKid s) stNotPermitted []) (countFn .pf 0x2D s)
/-- R354: a request of the debug master. In-package memory goes through the firewall; a request outside its reach is refused and counted
under the PF. -/
def debugMaster (t : DebugTarget) (write : Bool) (s : State) : State :=
  match t with
  | .memory f addr len =>
    if fwAllows s .debugMaster f addr.toNat len write then
      emit (.debugMaster true) (if write then markWrite f addr.toNat len s else s)
    else emit (.debugMaster false) (countRefused .pf addr.toNat len s)
  | .pool e off len data => debugPool e off len data write s

end Sys2Proof.Machine
end

