-- ==== Sys2Proof/Machine/Compute.lean ====
section
/-! DEFINITION. Rows of compute requesters, the queue manager and the debug master at the fabric ports. -/
namespace Sys2Proof.Machine

/-- The effect of SEAL_REQUEST. -/
def execSealRequest (q : SealReq) (s : State) : Host.Outcome State Fault Refusal :=
  .next (settle (atPort q.fn (.sealRequest q) (sealRequest q) s))
/-- The effect of TOKEN_REQUEST. -/
def execTokenRequest (q : SealReq) (t : TokenPay) (s : State) : Host.Outcome State Fault Refusal :=
  .next (settle (atPort q.fn (.tokenRequest q t) (tokenRequest q t) s))
/-- The effect of REFUSAL_REQUEST. -/
def execRefusalRequest (job : W16) (source : BitVec 12) (t : TokenPay) (choice reason : Byte) (expert : W16) (s : State) :
    Host.Outcome State Fault Refusal := .next (settle (whenLive (refusalRequest job source t choice reason expert) s))
/-- The effect of CHIME_REQUEST. -/
def execChimeRequest (q : SealReq) (p : ChimePay) (s : State) : Host.Outcome State Fault Refusal :=
  .next (settle (atPort q.fn (.chimeRequest q p) (chimeRequest q p) s))
/-- The effect of LOCAL_CHIME_REQUEST. -/
def execLocalChimeRequest (fn : Fn) (ctx : W16) (cls : BitVec 4) (fport : BitVec 3) (p : ChimePay) (s : State) :
    Host.Outcome State Fault Refusal := .next (atPort fn (.localChimeRequest fn ctx cls fport p) (localChime fn ctx cls fport p) s)
/-- The effect of MEMBER_POOL_REQUEST. -/
def execMemberPoolRequest (q : PoolReq) (keeper : BitVec 12) (ordinal retOrdinal : BitVec 4) (s : State) :
    Host.Outcome State Fault Refusal :=
  .next (settle (atPort q.fn (.memberPoolRequest q keeper ordinal retOrdinal) (memberPool q keeper ordinal retOrdinal) s))
/-- The effect of LOCAL_POOL_REQUEST. -/
def execLocalPoolRequest (q : PoolReq) (s : State) : Host.Outcome State Fault Refusal :=
  .next (settle (atPort q.fn (.localPoolRequest q) (localPool q) s))
/-- The effect of DEBUG_MASTER_REQUEST. -/
def execDebugMasterRequest (t : DebugTarget) (write : Bool) (s : State) : Host.Outcome State Fault Refusal :=
  .next (whenLive (debugMaster t write) s)

end Sys2Proof.Machine
end

