-- ==== Sys2Proof/Machine/Fences.lean ====
section
/-! DEFINITION. Commands on fences and batches, the synchronisation unit's waits and the completion of plaintext writes
(08_snare_and_chimes.md, R289). -/
namespace Sys2Proof.Machine

/-- FENCE_CREATE's checks. -/
def fenceCreateChecks (h : CmdHdr) (s : State) : Checks :=
  { slots := [failIf (Config.fencePerFn ≤ (fnOf s h.fn).fences.length
      || Config.fencePackage ≤ (s.fns.map (fun e => e.2.fences.length)).sum) stNoSlot 4] }

/-- FENCE_CREATE: the fence with its initial value, CONTEXT its local producer and first reference (R224, R289). -/
def startFenceCreate (h : CmdHdr) (value : W64) (pick : W16) (p : InProg) (s : State) : State :=
  match pickIdx (fun i => (mapFind (fnOf s h.fn).fences i).isSome) pick with
  | none => s
  | some i =>
    let x : FenceSt := { value := value, local_ := h.ctx, refs := [h.ctx] }
    let s := fnMod h.fn (fun y => { y with fences := mapSet y.fences i x }) s
    complete p stOk 0 ((fenceHandle s h.fn i).setWidth 128) (forwardFence h.fn i s)

/-- The row of FENCE_CREATE (Table 03-6). -/
def fenceCreateRow (h : CmdHdr) (value : W64) : Row :=
  { hdr := h, opcode := 0x44, fields := [(24, 8, value.toNat)],
    checks := fenceCreateChecks h }
/-- The effect of FENCE_CREATE. -/
def execFenceCreate (h : CmdHdr) (value : W64) (pick : W16) (s : State) : Host.Outcome State Fault Refusal :=
  .next (runRow (fenceCreateRow h value) (startFenceCreate h value pick) s)

/-- FENCE_RELEASE's checks: a live fence on which the issuer holds a reference. -/
def releaseChecks (h : CmdHdr) (handle : W32) (s : State) : Checks :=
  { state := [match fenceIdx s h.fn handle with
      | none => some (stBadState, 0)
      | some i => failIf (!(fenceOf s h.fn i).refs.contains h.ctx) stBadState 0] }

/-- FENCE_RELEASE (R289): the issuer's waits on the fence end with BAD_STATE, then its reference leaves. -/
def startRelease (h : CmdHdr) (handle : W32) (p : InProg) (s : State) : State :=
  match fenceIdx s h.fn handle with
  | none => s
  | some i =>
    let s := abortWaits h.fn i (fun q => q.ctx == h.ctx) s.prog s
    let s := if h.ctx = 0xFFFF then s else abortUnitWaits h.fn i (some h.ctx) (fenceOf s h.fn i).unitWaits s
    complete p stOk 0 0 (dropRef h.fn i h.ctx s)

/-- The row of FENCE_RELEASE (Table 03-6). -/
def fenceReleaseRow (h : CmdHdr) (handle : W32) : Row :=
  { hdr := h, opcode := 0x45, fields := [(20, 4, handle.toNat)],
    checks := releaseChecks h handle }
/-- The effect of FENCE_RELEASE. -/
def execFenceRelease (h : CmdHdr) (handle : W32) (s : State) : Host.Outcome State Fault Refusal :=
  .next (runRow (fenceReleaseRow h handle) (startRelease h handle) s)

/-- Checks of FENCE_SIGNAL and FENCE_WAIT: a live fence, and room for the reference (R289). -/
def useChecks (h : CmdHdr) (handle : W32) (s : State) : Checks :=
  { state := [failIf (fenceIdx s h.fn handle).isNone stBadState 0]
    limits := [match fenceIdx s h.fn handle with | some i => failIf (refsFull s h.fn i h.ctx) stLimits 0x501 | none => none] }

/-- FENCE_SIGNAL (R225): a SET; the status that Table 08-5 gives, RESULT the fence's value. -/
def startSignal (h : CmdHdr) (handle : W32) (value : W64) (p : InProg) (s : State) : State :=
  match fenceIdx s h.fn handle with
  | none => s
  | some i =>
    let s := addRef h.fn i h.ctx s
    let x := fenceOf s h.fn i
    let s := signalFence h.fn i false value false s
    let v := valueResult (fenceOf s h.fn i)
    match sigCase x false value with
    | .error => complete p (errStatus x).1 (errStatus x).2 v s
    | .range => complete p stFenceRange 0 v s
    | _ => complete p stOk 0 v s

/-- The row of FENCE_SIGNAL (Table 03-6). -/
def fenceSignalRow (h : CmdHdr) (handle : W32) (value : W64) : Row :=
  { hdr := h, opcode := 0x46, fields := [(20, 4, handle.toNat), (24, 8, value.toNat)],
    checks := useChecks h handle }
/-- The effect of FENCE_SIGNAL. -/
def execFenceSignal (h : CmdHdr) (handle : W32) (value : W64) (s : State) : Host.Outcome State Fault Refusal :=
  .next (runRow (fenceSignalRow h handle value) (startSignal h handle value) s)

/-- FENCE_WAIT (R226): it completes at once where an outcome stands, and otherwise waits. -/
def startWait (h : CmdHdr) (handle : W32) (value : W64) (p : InProg) (s : State) : State :=
  match fenceIdx s h.fn handle with
  | none => s
  | some i =>
    let s := addRef h.fn i h.ctx s
    match waitOutcome (fenceOf s h.fn i) value with
    | some (st, d) => complete p st d (valueResult (fenceOf s h.fn i)) s
    | none => goOn p { signal := true } (.fenceWait i value) s

/-- The row of FENCE_WAIT (Table 03-6). -/
def fenceWaitRow (h : CmdHdr) (handle : W32) (value : W64) : Row :=
  { hdr := h, opcode := 0x47, fields := [(20, 4, handle.toNat), (24, 8, value.toNat)],
    checks := useChecks h handle }
/-- The effect of FENCE_WAIT. -/
def execFenceWait (h : CmdHdr) (handle : W32) (value : W64) (s : State) : Host.Outcome State Fault Refusal :=
  .next (runRow (fenceWaitRow h handle value) (startWait h handle value) s)

/-- SYNC_WAIT_REGISTER (R289): the context enters the fence's reference list, the wait is evaluated (R228). A wait on no live
fence, or of a seventeenth context, ends at once with the status a command would have. Log entry 55 (DEDUCED). -/
def syncWait (fn : Fn) (ctx : W16) (handle : W32) (value : W64) (s : State) : State :=
  match fenceIdx s fn handle with
  | none => emit (.unitWaitEnd fn ctx handle stBadState 0) s
  | some i =>
    if refsFull s fn i ctx then emit (.unitWaitEnd fn ctx handle stLimits (fenceOf s fn i).value) s
    else evalWaits fn i (fenceMod fn i (fun x => { x with unitWaits := x.unitWaits ++ [(ctx, value)] }) (addRef fn i ctx s))
/-- The effect of SYNC_WAIT_REGISTER. -/
def execSyncWaitRegister (fn : Fn) (ctx : W16) (handle : W32) (value : W64) (s : State) : Host.Outcome State Fault Refusal :=
  .next (whenLive (syncWait fn ctx handle value) s)

/-! ### BATCH_CANCEL (R236) -/

/-- BATCH_CANCEL's checks. -/
def cancelChecks (h : CmdHdr) (batchId : W16) (s : State) : Checks :=
  let e := filterOf s batchId.toNat
  { malformed := [badField (0xFFF < batchId.toNat) 22]
    state := [jobCheck s h.fn, failIf (e.claimed && some e.job != (fnOf s h.fn).job) stBadState 0]
    limits := [failIf (e.claimed && e.gen == 0xFFFF) stLimits 0x301] }

/-- BATCH_CANCEL: GEN advances at dispatch; the command completes once no frame of the batch is in flight. Log entry 56 (DEDUCED). -/
def startCancel (h : CmdHdr) (batchId : W16) (p : InProg) (s : State) : State :=
  let b := batchId.toNat
  let s := claimBatch b (jobOf s h.fn) s
  let g := (filterOf s b).gen + 1
  goOn p { batches := [b] } (.done stOk 0 (g.setWidth 128)) { s with filter := mapMod {} s.filter b (fun e => { e with gen := g }) }

/-- The row of BATCH_CANCEL (Table 03-6). -/
def batchCancelRow (h : CmdHdr) (batchId : W16) : Row :=
  { hdr := h, opcode := 0x32, fields := [(22, 2, batchId.toNat)],
    checks := cancelChecks h batchId }
/-- The effect of BATCH_CANCEL. -/
def execBatchCancel (h : CmdHdr) (batchId : W16) (s : State) : Host.Outcome State Fault Refusal :=
  .next (runRow (batchCancelRow h batchId) (startCancel h batchId) s)

/-- The plaintext of a local pool read has been written: the request completes (R212, R216, R223). -/
def readCompletion (id : Nat) (s : State) : State :=
  match s.reads.find? (fun e => e.id == id) with
  | none => s
  | some e => settle (clearJobWaits e.job (doneLocal e.fn e.ctx e.gen stOk { s with reads := s.reads.filter (fun x => x.id != id) }))
/-- WRITE_COMPLETION (R220, R234): the snares stop waiting on the write, and its batch has one frame less in flight. -/
def writeCompletion (id : Nat) (s : State) : State :=
  match mapFind s.writes id with
  | none => readCompletion id s
  | some w =>
    let s := stampMet { s with writes := mapErase s.writes id, snare := s.snare.map (fun e => { e with writes := e.writes.erase id }) }
    settle (match w.batch with
      | some b =>
        let e := filterOf s b.toNat
        if e.inFlight = 0 then s else { s with filter := mapPut {} s.filter b.toNat { e with inFlight := e.inFlight - 1 } }
      | none => s)
/-- The effect of WRITE_COMPLETION. -/
def execWriteCompletion (id : Nat) (s : State) : Host.Outcome State Fault Refusal := .next (writeCompletion id s)

end Sys2Proof.Machine
end

