-- ==== Sys2Proof/Machine/Streams.lean ====
section
/-! DEFINITION. Opening and closing streams: STREAM_OPEN, STREAM_CLOSE, the challenge and the answer (R181 to R184, R189). -/
namespace Sys2Proof.Machine

/-! ### Checks -/

/-- The checks of the stream operands (Table 03-10). -/
def streamFields (peer : W16) (cls ordinal direction : Byte) : List Check :=
  [badField (0xFFF < peer.toNat) 16, badField (4 < cls.toNat) 18, badField (0xF < ordinal.toNat) 19,
   badField (direction == 0 || 3 < direction.toNat) 20]

/-- The sending and receiving stream ids that the operands name. -/
def sendSid (s : State) (peer : W16) (cls ordinal : Byte) : W32 :=
  streamId s.fab.id (peer.setWidth 12) (cls.setWidth 4) (ordinal.setWidth 4)
def recvSid (s : State) (peer : W16) (cls ordinal : Byte) : W32 :=
  streamId (peer.setWidth 12) s.fab.id (cls.setWidth 4) (ordinal.setWidth 4)
/-- DIRECTION bit 0, sending; bit 1, receiving. -/
def wantsSend (direction : Byte) : Bool := direction.getLsbD 0
def wantsRecv (direction : Byte) : Bool := direction.getLsbD 1

/-- N of R181 for the next opening of a stream. -/
def nextLow (s : State) (job : W16) (sid : W32) : Nat := (sentRec s job sid).getD 0 + 1
/-- E0 of R181. -/
def firstEpoch (s : State) (job : W16) (sid : W32) : W32 := BitVec.ofNat 32 (s.pkg.boot * 65536 + nextLow s job sid)

/-- A STREAM_OPEN in progress for a stream id of a job's function. -/
def openingCmd (s : State) (f : Fn) (a b : Option W32) : Bool :=
  s.prog.any (fun q => q.fn == f && (match q.act with
    | .openSend x _ _ => some x == a
    | .openRecv x _ _ _ y _ _ _ _ => some x == b || (y.isSome && y == a)
    | _ => false))

/-- STREAM_OPEN's checks (Table 07-9). Log entry 60 (DEDUCED). -/
def openChecks (h : CmdHdr) (peer : W16) (cls ordinal direction : Byte) (s : State) : Checks :=
  let job := jobOf s h.fn
  let out := sendSid s peer cls ordinal
  let inn := recvSid s peer cls ordinal
  let tx := wantsSend direction
  let rx := wantsRecv direction
  { malformed := streamFields peer cls ordinal direction
    state := [failIf (peer.setWidth 12 == s.fab.id) stBadState (lcDetail s), jobCheck s h.fn,
      failIf ((tx && (findSend s job out).isSome) || (rx && (findRecv s job inn).isSome)) stBadState 1,
      failIf (routeTo s (peer.setWidth 12)).isNone stBadState 0]
    limits := [failIf (tx && 0xFFFF < s.pkg.boot) stLimits 0x201,
      failIf (tx && (sentRec s job out).isNone && Config.sendingRecords ≤ s.sent.length) stLimits 0x202,
      failIf (tx && 0xFFFF < nextLow s job out) stLimits 0x203]
    busy := [failIf (openingCmd s h.fn (if tx then some out else none) (if rx then some inn else none)) stBusy 0x30,
      failIf (match routeTo s (peer.setWidth 12) with | some r => portTesting s r.2.1.val | none => false) stBusy 0x7F]
    slots := [slotCheck s, if tx && rx then slotCheck (reserveKid h.fn s).2 else none] }

/-! ### The answer -/

/-- RESULT of STREAM_OPEN (R184). -/
def openResult (out inn : Option W32) (e0 : W32) : BitVec 128 :=
  resAt 0 (match out with | some x => x.toNat | none => 0) ||| resAt 4 (match inn with | some x => x.toNat | none => 0) ||| resAt 8 e0.toNat

/-- Give a reserved KID the key of a stream's epoch, or release it where KEY_DERIVE has placed that key already (R124, R182 step 3): the
KID that holds the key, and is LIVE with the command's completion (R120). -/
def openKey (p : InProg) (kid : W16) (job : W16) (sid epoch : W32) (use : Byte) (s : State) : W16 × State :=
  match derivedStream s p.fn job sid epoch with
  | some k => (k, releaseKid kid s)
  | none =>
    (kid, placeKey kid { mkSlot (streamKey (jmkOf s p.fn) sid epoch) .stream use p.fn job p.ctx p.ctxGen with
      epoch := epoch, subject := sid.setWidth 40, parent := (fnOf s p.fn).jmkKid } s)
/-- R423: the context that a stream's key is tagged to, and its generation. -/
def kidTag (s : State) (kid : W16) : W16 × W16 := match slotOf s kid with | some x => (x.ctx, x.ctxGen) | none => (0xFFFF, 0)

/-- The IV of an OPEN_ACK: stream id, E0, 0xFFFF_FFFF (R183). -/
def ackIv (sid epoch : W32) : BitVec 96 := frameIv sid (BitVec.ofNat 64 (epoch.toNat * 2 ^ 32 + 0xFFFFFFFF))

/-- Send the OPEN_ACK that answers a challenge, and open the stream for sending (R182 step 3). -/
def answerWith (p : InProg) (job : W16) (sid : W32) (kid : W16) (challenge : BitVec 128) (sel : BitVec 2) (port : Fin 32)
    (relays : List (BitVec 12)) (s : State) : W16 × State :=
  let e0 := firstEpoch s job sid
  let (k, s) := openKey p kid job sid e0 useSeal (noteSent job sid e0 s)
  let tag := Config.gcmTag (keyOf s k) (ackIv sid e0) (ackBytes sid job sel e0 challenge relays) []
  let t : SendSt := { job := job, sid := sid, fn := p.fn, ctx := (kidTag s k).1, ctxGen := (kidTag s k).2, e0 := e0, epoch := e0, index := 0, kid := k,
                      next := none, routeSel := sel, port := port, relays := relays, closing := false }
  let s := portMod port (addThrough [s.fab.id, sidDst sid])
    { s with sends := s.sends ++ [t], openReqs := s.openReqs.filter (fun q => !(q.job == job && q.sid == sid)) }
  (k, sendControl port kOpenAck sel 0 (ctlRoute s (sidDst sid)) (.openAck sid job sel e0 challenge relays tag) s)

/-- Where a STREAM_OPEN that sends and a held OPEN_REQ for its stream stand together, answer it; the command completes with the
answer unless it still receives (R182). -/
def answerOpen (p : InProg) (s : State) : State :=
  let job := jobOf s p.fn
  let go := fun (out : W32) (k : (BitVec 128) → (BitVec 2 × Fin 32 × List (BitVec 12)) → State) =>
    match s.openReqs.find? (fun q => q.job == job && q.sid == out), routeTo s (sidDst out) with
    | some q, some r => k q.challenge r
    | _, _ => s
  match p.act with
  | .openSend out _ kid => go out (fun c (sel, port, relays) =>
      let (k, s) := answerWith p job out kid c sel port relays s
      complete p stOk 0 (openResult (some out) none (match findSend s job out with | some t => t.e0 | none => 0)) (activateKid k s))
  | .openRecv inn peer kid ch (some out) false rd e0 sk => go out (fun c (sel, port, relays) =>
      let (k, s) := answerWith p job out sk c sel port relays s
      let e := match findSend s job out with | some t => t.e0 | none => e0
      if rd then complete p stOk 0 (openResult (some out) (some inn) e) (activateKid k (activateKid kid s))
      else modProg p.fn p.idx (fun q => { q with act := .openRecv inn peer kid ch (some out) true rd e k }) s)
  | _ => s

/-- STREAM_OPEN: the destination reserves a KID and sends its challenge; the source reserves a KID and answers the challenge it
holds, or waits for one (R182). -/
def startOpen (peer : W16) (cls ordinal direction : Byte) (p : InProg) (s : State) : State :=
  let pk : BitVec 12 := peer.setWidth 12
  let out := sendSid s peer cls ordinal
  let inn := recvSid s peer cls ordinal
  let (kid, s) := reserveKid p.fn s
  let s :=
    if wantsRecv direction then
      let (sk, s) := if wantsSend direction then reserveKid p.fn s else (0, s)
      let ch : BitVec 128 := (drawn s).setWidth 128
      let s := goOnOpen p (.openRecv inn pk kid ch (if wantsSend direction then some out else none) (!wantsSend direction) false 0 sk) (bumpDraw s)
      sendRouted pk kOpenReq (.openReq inn (jobOf s p.fn) ch) s
    else goOnOpen p (.openSend out pk kid) s
  match findProg s p.fn p.idx with
  | some q => answerOpen q s
  | none => s
where
  /-- The command waits for the exchange. -/
  goOnOpen (p : InProg) (a : Act) (s : State) : State := goOn p { signal := true } a s

/-- The row of STREAM_OPEN (Table 03-6). -/
def streamOpenRow (h : CmdHdr) (peer : W16) (cls ordinal direction : Byte) : Row :=
  { hdr := h, opcode := 0x30, fields := [(16, 2, peer.toNat), (18, 1, cls.toNat), (19, 1, ordinal.toNat), (20, 1, direction.toNat)],
    checks := openChecks h peer cls ordinal direction }
/-- The effect of STREAM_OPEN. -/
def execStreamOpen (h : CmdHdr) (peer : W16) (cls ordinal direction : Byte) (s : State) : Host.Outcome State Fault Refusal :=
  .next (runRow (streamOpenRow h peer cls ordinal direction) (startOpen peer cls ordinal direction) s)

/-! ### STREAM_CLOSE (R189) -/

/-- STREAM_CLOSE's checks: the stream is open at this end in each direction asked. -/
def closeChecks (h : CmdHdr) (peer : W16) (cls ordinal direction : Byte) (s : State) : Checks :=
  let job := jobOf s h.fn
  let out := sendSid s peer cls ordinal
  let inn := recvSid s peer cls ordinal
  let holder := fun (sid : W32) => failIf (streamHolder s job sid != 0) stBusy (streamHolder s job sid)
  { malformed := streamFields peer cls ordinal direction
    state := [jobCheck s h.fn, failIf ((wantsSend direction && (findSend s job out).isNone) || (wantsRecv direction && (findRecv s job inn).isNone)) stBadState (openDetail s)]
    busy := [if wantsSend direction then holder out else none] }

/-- STREAM_CLOSE: the source queues CLOSE behind every queued frame; the destination awaits the peer's. -/
def startClose (peer : W16) (cls ordinal direction : Byte) (p : InProg) (s : State) : State :=
  let job := jobOf s p.fn
  let out := sendSid s peer cls ordinal
  let act := Act.close out job (wantsSend direction) (wantsRecv direction)
  if wantsSend direction then
    match findSend s job out with
    | some t =>
      enqueue t.port (.seal job out 0x09 1 0xFFFF 0 0 0 [] 0xFFFF)
        (modSend job out (fun t => { t with closing := true }) (goOn p { seals := [(job, out)] } act s))
    | none => s
  else goOn p {} act s

/-- The row of STREAM_CLOSE (Table 03-6). -/
def streamCloseRow (h : CmdHdr) (peer : W16) (cls ordinal direction : Byte) : Row :=
  { hdr := h, opcode := 0x31, fields := [(16, 2, peer.toNat), (18, 1, cls.toNat), (19, 1, ordinal.toNat), (20, 1, direction.toNat)],
    checks := closeChecks h peer cls ordinal direction }
/-- The effect of STREAM_CLOSE. -/
def execStreamClose (h : CmdHdr) (peer : W16) (cls ordinal direction : Byte) (s : State) : Host.Outcome State Fault Refusal :=
  .next (runRow (streamCloseRow h peer cls ordinal direction) (startClose peer cls ordinal direction) s)

/-! ### Time limits -/

/-- OPEN_REQ_RESEND (R182 step 1): the same OPEN_REQ again. -/
def openReqResend (fn : Fn) (idx : W32) (s : State) : State :=
  match findProg s fn idx with
  | some p => (match p.act with
    | .openRecv inn peer _ ch _ _ false _ _ => sendRouted peer kOpenReq (.openReq inn (jobOf s fn) ch) s
    | _ => s)
  | none => s
/-- The effect of OPEN_REQ_RESEND. -/
def execOpenReqResend (fn : Fn) (idx : W32) (s : State) : Host.Outcome State Fault Refusal := .next (whenLive (openReqResend fn idx) s)

/-- The effect of OPEN_REQ_HOLD_EXPIRY (R182 step 2). -/
def execOpenReqHoldExpiry (jobId : W16) (sid : W32) (s : State) : Host.Outcome State Fault Refusal :=
  .next (whenLive (fun s => { s with openReqs := s.openReqs.filter (fun q => !(q.job == jobId && q.sid == sid)) }) s)

/-- STREAM_OPEN_TIMEOUT (R182): the command completes with TIMED_OUT; the KIDs reserved for it are released and a direction already
open is closed again. -/
def streamOpenTimeout (fn : Fn) (idx : W32) (s : State) : State :=
  match findProg s fn idx with
  | some p => (match p.act with
    | .openSend _ peer _ => settle (complete p stTimedOut (peer.setWidth 32) 0 (releaseHolds p s))
    | .openRecv _ peer _ _ _ _ _ _ _ => settle (complete p stTimedOut (peer.setWidth 32) 0 (releaseHolds p s))
    | _ => s)
  | none => s
/-- The effect of STREAM_OPEN_TIMEOUT. -/
def execStreamOpenTimeout (fn : Fn) (idx : W32) (s : State) : Host.Outcome State Fault Refusal :=
  .next (whenLive (streamOpenTimeout fn idx) s)

/-- Close a stream at its destination: its KIDs retire (R189). -/
def closeRecv (job : W16) (sid : W32) (s : State) : State :=
  match findRecv s job sid with
  | none => s
  | some t => retireKids (t.kid :: t.next.toList) { s with recvs := s.recvs.filter (fun x => !(x.job == job && x.sid == sid)) }

/-- STREAM_CLOSE_TIMEOUT (R189): a CLOSE that has not verified; the KID is retired anyway. An own CLOSE still queued goes its way. -/
def streamCloseTimeout (fn : Fn) (idx : W32) (s : State) : State :=
  match findProg s fn idx with
  | some p => (match p.act with
    | .close sid job _ true =>
      let s := closeRecv job (swapSid sid) s
      settle (complete p stTimedOut ((sidDst sid).setWidth 32) 0 s)
    | _ => s)
  | none => s
/-- The effect of STREAM_CLOSE_TIMEOUT. -/
def execStreamCloseTimeout (fn : Fn) (idx : W32) (s : State) : Host.Outcome State Fault Refusal :=
  .next (whenLive (streamCloseTimeout fn idx) s)

end Sys2Proof.Machine
end

