-- ==== Sys2Proof/Machine/Frames.lean ====
section
/-! DEFINITION. Open halves: the checks of a sealed frame at its destination (steps 5 to 9 of Table 07-11), waits in the receive
buffer, post-tag discards, and what a verified frame does (R185 to R189, R211 to R221, R230 to R235, R261, R262, R279, R419). -/
namespace Sys2Proof.Machine

/-! ### The frame -/

/-- FTYPE of a frame's content (Table 07-5). -/
def ftypeOf (b : FrameBody) : Nat :=
  match b with
  | .data _ => 1 | .chime _ => 2 | .token _ => 3 | .return_ _ => 4 | .refusal _ => 5 | .pool _ => 6
  | .offer _ => 7 | .answer .. => 7 | .commit _ => 7 | .epochEnd _ => 8 | .close => 9 | .reserved f => f.toNat

/-- Table 07-5: the frame type is allowed in the class. -/
def ftypeClass (b : FrameBody) (cls : Nat) : Bool :=
  match b with
  | .data _ => cls == 0 || cls == 4
  | .chime _ => cls == 0 || cls == 2 || cls == 3
  | .token _ => cls == 1
  | .return_ _ | .refusal _ => cls == 2
  | .pool _ => cls == 3
  | .offer _ | .answer .. | .commit _ => cls == 4
  | .epochEnd _ | .close => true
  | .reserved _ => false

/-- Frame types of one unit. -/
def oneUnit (b : FrameBody) : Bool :=
  match b with | .chime _ | .refusal _ | .epochEnd _ | .close => true | _ => false

/-- The payload's RSVD fields are zero, and a chime's COUNT and OPs in range (R219). A keeper checks a pool request's itself
(Table 09-11). -/
def payloadOk (b : FrameBody) : Bool :=
  match b with
  | .data p | .return_ p => p.rsvdOk
  | .chime p => p.rsvdOk && chimeOk p
  | .token t => t.rsvdOk && decide (t.retOrdinal.toNat < 16)
  | .refusal r => r.rsvdOk
  | .pool p => !p.pop.getLsbD 7 || p.rsvdOk
  | _ => true

/-- Header fields that Table 07-4 gives as RSVD or zero. -/
def headerOk (h : SealHdr) : Bool :=
  (if sidClass h.sid = 2 then h.batch.toNat % 16 == 0 else h.batch == 0 && h.batchGen == 0)
    && (h.dstCtx != 0xFFFF || h.dstCtxGen == 0)

/-- The stream is being opened for receiving by a STREAM_OPEN in progress (R419). -/
def openingRecv (s : State) (job : W16) (sid : W32) : Bool :=
  s.prog.any (fun p => (fnOf s p.fn).job == some job && (match p.act with
    | .openRecv x _ _ _ _ _ false _ _ => x == sid
    | _ => false))

/-- SEQ that a receiving stream expects next (R185). -/
def expectedSeq (t : RecvSt) : W64 := BitVec.ofNat 64 (t.epoch.toNat * 2 ^ 32 + t.index)

/-- The KID of the stream's epoch holds its key. -/
def recvKeyed (s : State) (t : RecvSt) : Bool :=
  (kidLive s t.kid || kidPlaced s t.kid) && (match slotOf s t.kid with
    | some x => x.kind == .stream && x.subject == t.sid.setWidth 40 && x.epoch == t.epoch && x.job == t.job
    | none => false)

/-- Place the key of the receiving stream's next epoch (R187). -/
def prepareRecv (job : W16) (sid : W32) (s : State) : State :=
  match findRecv s job sid with
  | none => s
  | some t =>
    if t.next.isSome || epochSpent t.epoch then s
    else match placeStream t.fn t.job t.ctx t.ctxGen t.sid (t.epoch + 1) useOpen s with
      | some (k, s') => modRecv job sid (fun t => { t with next := some k }) (activateKid k s')
      | none => s

/-- KID 0 stands for a stream whose new epoch has no key in place yet: place it (R187). -/
def keyRecv (job : W16) (sid : W32) (s : State) : State :=
  match findRecv s job sid with
  | none => s
  | some t =>
    if t.kid ≠ 0 then s
    else match placeStream t.fn t.job t.ctx t.ctxGen t.sid t.epoch useOpen s with
      | some (k, s') => modRecv job sid (fun t => { t with kid := k }) (activateKid k s')
      | none => s

/-- The last frame of an epoch has verified: the destination goes on in the next, and retires the old epoch's KID. -/
def rollRecv (job : W16) (sid : W32) (s : State) : State :=
  let s := prepareRecv job sid s
  match findRecv s job sid with
  | none => s
  | some t =>
    retireKid t.kid (modRecv job sid (fun t => { t with epoch := t.epoch + 1, index := 0, kid := t.next.getD 0, next := none }) s)

/-- A verified frame's place in its stream: the expected SEQ moves on (R186), the next key is placed at INDEX 0x4000_0000, and the
epoch rolls over after its last frame. -/
def advanceRecv (t : RecvSt) (b : FrameBody) (s : State) : State :=
  let s := modRecv t.job t.sid (fun t => { t with index := t.index + 1 }) s
  let s := if t.index = rollIndex then prepareRecv t.job t.sid s else s
  let ends := match b with | .epochEnd _ => true | _ => t.index == lastIndex && !epochSpent t.epoch
  if ends then rollRecv t.job t.sid s else s

/-- What a failed check of a frame names in the halt record. -/
def frameHalt (w : WaitSt) (cause : Byte) (kid : W16) : HaltInfo :=
  { cause := cause, unit := BitVec.ofNat 16 w.arr.port.val, job := w.hdr.jobId, sid := w.hdr.sid, whereF := w.hdr.seq, kid := kid }

/-- The frame leaves the receive buffer: its credits go back. -/
def freeFrame (w : WaitSt) (s : State) : State := returnCredits w.arr.port w.arr.hop.vc (frameCredits w.arr.hop) s

/-- A discard before the tag check, counted on the port (Table 07-10). -/
def dropFrame (w : WaitSt) (code : Nat) (s : State) : State := freeFrame w (countPort w.arr.port code s)

/-! ### Step 8 -/

/-- The placement that a DATA or RETURN header names, when it is valid (R177, R233): the object's index and the address.
Log entry 66 (DEDUCED). -/
def placement (s : State) (t : RecvSt) (h : SealHdr) (p : DataPay) : Option (Nat × Nat) :=
  match objIdx s t.fn p.object with
  | none => none
  | some i =>
    match mapFind (fnOf s t.fn).objs i with
    | none => none
    | some o =>
      let a := o.base + p.offset.toNat
      if o.rights.getLsbD 1 && decide (1 ≤ p.length.toNat ∧ p.length.toNat + 32 ≤ 256 * h.units.toNat)
          && decide (p.offset.toNat + p.length.toNat ≤ o.size) && fwAllows s .engine t.fn a p.length.toNat true
      then some (i, a) else none

/-- The batch of a class-2 frame (Table 07-4). -/
def batchOf (h : SealHdr) : Nat := h.batch.toNat / 16

/-- R235: the frame's batch generation is current. -/
def batchCurrent (s : State) (h : SealHdr) : Bool :=
  let e := filterOf s (batchOf h)
  e.claimed && e.job == h.jobId && e.gen == h.batchGen

/-- Step 8 of Table 07-11: the post-tag discard of a frame, as an index into the four of Table 07-10 (0 LNK_DISC_RSVD, 1 CTXGEN,
2 BATCHGEN, 3 PLACE). Log entries 64 (DEDUCED), 65 (DEDUCED), 67 (DEDUCED). -/
def postTag (s : State) (t : RecvSt) (w : WaitSt) : Option Nat :=
  let h := w.hdr
  let c := mapGet {} (fnOf s t.fn).ctxs h.dstCtx.toNat
  if !ftypeClass w.body (sidClass h.sid) || !headerOk h || (oneUnit w.body && h.units != 1) || !payloadOk w.body then some 0
  else if h.dstCtx ≠ 0xFFFF ∧ (c.gen ≠ h.dstCtxGen ∨ !c.live) then some 1
  else if sidClass h.sid = 2 ∧ !batchCurrent s h then some 2
  else match w.body with
    | .data p | .return_ p => if (placement s t h p).isNone then some 3 else none
    | _ => none

/-! ### What verified frames do -/

/-- Release a frame's plaintext to memory (R211): a numbered write that the fabric port completes later. -/
def writePlain (t : RecvSt) (obj : Option (Nat × Nat)) (batch : Option (BitVec 12)) (addr : Nat) (d : List Byte) (s : State) : State :=
  let id := s.nextWrite
  let x : WriteSt := { fn := t.fn, job := t.job, sid := t.sid, obj := obj, e0 := t.e0, batch := batch, addr := addr, len := d.length }
  emit (.plainWrite id t.fn addr d) (markWrite t.fn addr d.length { s with writes := mapSet s.writes id x, nextWrite := id + 1 })

/-- The data bytes of a payload, LENGTH of them. -/
def dataBytes (p : DataPay) : List Byte := padTo p.length.toNat (p.data.take p.length.toNat)

/-- A DATA frame's writes (R177). -/
def placeData (t : RecvSt) (h : SealHdr) (p : DataPay) (s : State) : State :=
  match placement s t h p with
  | none => s
  | some (i, a) => writePlain t (some (t.fn.key, i)) none a (dataBytes p) s

/-- A RETURN frame's writes: its batch has one frame more in flight until they complete (R233, R234). -/
def placeReturn (t : RecvSt) (h : SealHdr) (p : DataPay) (s : State) : State :=
  match placement s t h p with
  | none => s
  | some (i, a) =>
    writePlain t (some (t.fn.key, i)) (some (BitVec.ofNat 12 (batchOf h))) a (dataBytes p)
      { s with filter := mapMod {} s.filter (batchOf h) (fun e => { e with inFlight := e.inFlight + 1 }) }

/-- Entries of a port's open-half snare. -/
def snareCount (s : State) (port : Fin 32) : Nat := (s.snare.filter (fun e => e.port == port)).length

/-- A verified chime takes a snare entry: it waits for the plaintext writes of its stream's current opening and, on class 3, for the
stream's earlier pool requests (R216, R220). -/
def takeSnare (t : RecvSt) (w : WaitSt) (p : ChimePay) (s : State) : State :=
  let writes := (s.writes.filter (fun x => x.2.job == t.job && x.2.sid == t.sid && x.2.e0 == t.e0)).map (·.1)
  let jobs := (s.jobs.filter (fun j => match j.from_ with | .member sid _ job .. => sid == t.sid && job == t.job | _ => false)).map (·.id)
  stampMet { s with snare := s.snare ++
      [{ port := w.arr.port, fn := t.fn, src := sidSrc t.sid, job := t.job, sid := t.sid, seq := w.hdr.seq, dstCtx := w.hdr.dstCtx,
         sigs := p.sigs, writes := writes, jobs := if sidClass t.sid = 3 then jobs else [], met := none }] }

/-- A member's pool request at the keeper (Table 09-11); data that the frame's units cannot hold make LENGTH malformed.
Log entry 68 (DEDUCED). -/
def poolRequest (t : RecvSt) (h : SealHdr) (p : PoolPay) (s : State) : State :=
  let src := sidSrc t.sid
  let ret : BitVec 4 := p.retOrdinal.setWidth 4
  let rid : BitVec 40 := p.regionId.setWidth 40
  let n := p.length.toNat
  let no := fun (st : W16) => answerMember src t.job ret p.ptag p.pop rid p.offset.toNat n st [] s
  let shape := p.rsvdOk && decide (p.retOrdinal.toNat < 16) && decide (p.regionId.toNat < 2 ^ 40) && p.pstat == 0
    && (p.pop == 1 || decide (n + 32 ≤ 256 * h.units.toNat))
  if !poolShapeOk p.pop p.redOp p.redFormat shape p.offset.toNat n then no stMalformed
  else match admitRegion s t.job rid p.offset.toNat n with
    | .inl (st, _) => no st
    | .inr k =>
      poolPump (addJob k (.member t.sid src t.job ret p.ptag p.pop h.seq) (poolKind p.pop p.redOp p.redFormat) p.offset.toNat n
        (padTo n (p.data.take n)) s).2

/-- A keeper's response at the member (R261): the data goes to the buffer of the pending entry, whose request completes. -/
def poolAnswer (t : RecvSt) (p : PoolPay) (s : State) : State :=
  match mapFind s.members p.ptag.toNat with
  | none => countFn t.fn 0x2C s
  | some m =>
    let s := { s with members := mapErase s.members p.ptag.toNat }
    if m.gen ≠ genOf s m.fn then countFn m.fn 0x2F s
    else
      let d := if m.read && p.pstat == stOk then padTo p.length.toNat (p.data.take p.length.toNat) else []
      let s := if d.isEmpty then s else writePlain t none none m.buffer.toNat d s
      emit (.fabricDone m.fn m.ctx p.pstat d) s

/-- What a frame that has verified and passed every check does (R212, R213). -/
def deliver (t : RecvSt) (w : WaitSt) (s : State) : State :=
  match w.body with
  | .data p => placeData t w.hdr p s
  | .return_ p => placeReturn t w.hdr p s
  | .chime p => takeSnare t w p s
  | .token p => emit (.tokenDeliver t.job (sidSrc t.sid) p) s
  | .refusal p => emit (.refusalDeliver t.job p) s
  | .pool p => if p.pop.getLsbD 7 then poolAnswer t p s else poolRequest t w.hdr p s
  | .offer o => takeOffer t.fn t.job (sidSrc t.sid) o s
  | .answer rid st d => takeAnswer t.job (sidSrc t.sid) rid st d s
  | .commit rid => takeCommit t.job (sidSrc t.sid) rid s
  | .epochEnd _ => s
  | .close => closeRecv t.job t.sid s
  | .reserved _ => s

/-! ### Steps 5 to 9 -/

/-- A frame that waits: its credits stay held. -/
def waitFrame (w : WaitSt) (s : State) : State := { s with waits := s.waits ++ [w] }

/-- A waiting frame behind which `w` waits: an earlier one of its stream, or a chime before a full snare on its VC (R216). -/
def behind (s : State) (w : WaitSt) : Bool :=
  s.waits.any (fun v => (v.hdr.jobId == w.hdr.jobId && v.hdr.sid == w.hdr.sid)
    || (v.arr.port == w.arr.port && v.arr.hop.vc == w.arr.hop.vc && (match v.body with | .chime _ => true | _ => false)
      && decide (Config.openSnare ≤ snareCount s v.arr.port)))

/-- R211: what a frame whose tag fails may already have released: the first bytes of its plaintext, how many the manual leaves to the
timing (a free value). Log entry 69 (DESIGN CHOICE). -/
def earlyWrites (t : RecvSt) (w : WaitSt) (s : State) : State :=
  let out := fun (a : Nat) (d : List Byte) =>
    emit (.plainWrite s.nextWrite t.fn a (d.take ((opened s).toNat % (d.length + 1)))) (bumpOpen { s with nextWrite := s.nextWrite + 1 })
  if (postTag s t w).isSome then s
  else match w.body with
    | .data p | .return_ p => (match placement s t w.hdr p with | some (_, a) => out a (dataBytes p) | none => s)
    | .pool p => (match mapFind s.members p.ptag.toNat with
      | some m => if p.pop.getLsbD 7 && m.read then out m.buffer.toNat (padTo p.length.toNat (p.data.take p.length.toNat)) else s
      | none => s)
    | _ => s

/-- Table 07-11 from the tag on, for a frame whose SEQ is the expected one: its tag, its discard after the tag, or what it does. -/
def verifyFrame (t : RecvSt) (w : WaitSt) (s : State) : State :=
  if !w.hdr.tagOk then gongHalt (frameHalt w 1 t.kid) (earlyWrites t w s)
  else
    let breaks := match w.body with | .epochEnd n => n != BitVec.ofNat 64 ((t.epoch.toNat + 1) * 2 ^ 32) | _ => false
    if breaks then gongHalt (frameHalt w 2 t.kid) s
    else
      let s := countSealed t.fn w.hdr.dstCtx w.hdr.units.toNat (cacheKid (engineOfPort s w.arr.port.val) t.kid s)
      match postTag s t w with
      | some k => freeFrame w (advanceRecv t w.body (countFn t.fn (0x20 + k) (countPort w.arr.port (6 + k) s)))
      | none => freeFrame w (deliver t w (advanceRecv t w.body s))

/-- Step 6 and 7 of Table 07-11 for a stream that is open. Log entry 63 (DEDUCED). -/
def openOn (t : RecvSt) (w : WaitSt) (s : State) : State :=
  let due := t.index ≤ lastIndex ∧ w.hdr.seq = expectedSeq t
  if t.kid ≠ 0 ∧ !recvKeyed s t then dropFrame w (if kidLeaving s t.kid then 4 else 5) s
  else if w.hdr.seq.toNat / 2 ^ 32 < t.e0.toNat then dropFrame w 4 s
  else if ¬ due then gongHalt (frameHalt w 2 t.kid) s
  else if t.kid = 0 then waitFrame w s
  else if (match w.body with | .chime _ => true | _ => false) && decide (Config.openSnare ≤ snareCount s w.arr.port) then waitFrame w s
  else verifyFrame t w s

/-- Steps 5 to 9 of Table 07-11 for a frame of this package. -/
def openFrame (w : WaitSt) (s : State) : State :=
  let job := w.hdr.jobId
  let sid := w.hdr.sid
  if !serving s then s
  else if w.hdr.units.toNat ≠ w.arr.hop.unitsM1.toNat + 1 then gongHalt (frameHalt w 3 0) s
  else if s.pkg.power = .a2 then emit (.powerAsk .a1) (waitFrame w s)
  else if behind s w then waitFrame w s
  else
    let s := keyRecv job sid s
    match findRecv s job sid with
    | some t => openOn t w s
    | none =>
      if openingRecv s job sid then waitFrame w s
      else dropFrame w (if s.gone.contains (job, sid) then 4 else 5) s

/-- Try waiting frames again in their order. -/
def retryList : List WaitSt → State → State
  | [], s => s
  | w :: l, s => retryList l (openFrame w s)
/-- Frames of one stream before one another by SEQ (R419); frames of different streams as they stand. -/
def seqBefore (v w : WaitSt) : Bool := v.hdr.jobId == w.hdr.jobId && v.hdr.sid == w.hdr.sid && decide (v.hdr.seq.toNat < w.hdr.seq.toNat)
/-- Put a waiting frame before those of its stream that have a higher SEQ. -/
def insertWait (w : WaitSt) : List WaitSt → List WaitSt
  | [] => [w]
  | v :: l => if seqBefore w v then w :: v :: l else v :: insertWait w l
/-- Try every waiting frame again, those of a stream in SEQ order. -/
def retryWaits (s : State) : State :=
  if s.waits.isEmpty || s.pkg.power == .a2 then s
  else retryList (s.waits.foldl (fun l w => insertWait w l) []) { s with waits := [] }

/-- A sealed frame's bytes spell the row: KIND and bytes 12-31 (Table 07-4). Its payload is what it decrypts to (log entry 2). -/
def sealSpelt (a : Arrival) (h : SealHdr) (b : FrameBody) : Bool :=
  a.hop.kind == kSealed && a.tail.take 20 == (headerBytes h (BitVec.ofNat 8 (ftypeOf b))).drop 4
/-- A sealed frame at this package. In a SEALED frame the routing word is STREAM_ID (R174). -/
def sealedFrame (a : Arrival) (h : SealHdr) (b : FrameBody) (s : State) : State :=
  settle (arrive a (sealSpelt a h b) (fun s => retryWaits (openFrame { arr := a, hdr := { h with sid := a.route }, body := b } s)) s)

/-! ### The rows -/

/-- The effect of a DATA frame. -/
def execData (a : Arrival) (h : SealHdr) (p : DataPay) (s : State) : Host.Outcome State Fault Refusal := .next (sealedFrame a h (.data p) s)
/-- The effect of a CHIME frame. -/
def execChime (a : Arrival) (h : SealHdr) (p : ChimePay) (s : State) : Host.Outcome State Fault Refusal := .next (sealedFrame a h (.chime p) s)
/-- The effect of a TOKEN frame. -/
def execToken (a : Arrival) (h : SealHdr) (p : TokenPay) (s : State) : Host.Outcome State Fault Refusal := .next (sealedFrame a h (.token p) s)
/-- The effect of a RETURN frame. -/
def execReturn (a : Arrival) (h : SealHdr) (p : DataPay) (s : State) : Host.Outcome State Fault Refusal := .next (sealedFrame a h (.return_ p) s)
/-- The effect of a REFUSAL frame. -/
def execRefusal (a : Arrival) (h : SealHdr) (p : RefusalPay) (s : State) : Host.Outcome State Fault Refusal :=
  .next (sealedFrame a h (.refusal p) s)
/-- The effect of a POOL READ request. -/
def execPoolRead (a : Arrival) (h : SealHdr) (p : PoolPay) (s : State) : Host.Outcome State Fault Refusal :=
  .next (sealedFrame a h (.pool { p with pop := 0x01 }) s)
/-- The effect of a POOL WRITE request. -/
def execPoolWrite (a : Arrival) (h : SealHdr) (p : PoolPay) (s : State) : Host.Outcome State Fault Refusal :=
  .next (sealedFrame a h (.pool { p with pop := 0x02 }) s)
/-- The effect of a POOL REDUCE request; a request of a reserved POP arrives here too, and is refused (Table 09-11). -/
def execPoolReduce (a : Arrival) (h : SealHdr) (p : PoolPay) (s : State) : Host.Outcome State Fault Refusal :=
  .next (sealedFrame a h (.pool { p with pop := if p.pop.getLsbD 7 || p.pop == 1 || p.pop == 2 then 0x03 else p.pop }) s)
/-- The effect of a POOL response. -/
def execPoolResponse (a : Arrival) (h : SealHdr) (p : PoolPay) (s : State) : Host.Outcome State Fault Refusal :=
  .next (sealedFrame a h (.pool { p with pop := p.pop ||| 0x80 }) s)
/-- The effect of a MGMT offer. -/
def execMgmtOffer (a : Arrival) (h : SealHdr) (p : OfferPay) (s : State) : Host.Outcome State Fault Refusal :=
  .next (sealedFrame a h (.offer p) s)
/-- The effect of a MGMT answer. -/
def execMgmtAnswer (a : Arrival) (h : SealHdr) (regionId : BitVec 40) (status : W16) (detail : W32) (s : State) :
    Host.Outcome State Fault Refusal := .next (sealedFrame a h (.answer regionId status detail) s)
/-- The effect of a MGMT commit. -/
def execMgmtCommit (a : Arrival) (h : SealHdr) (regionId : BitVec 40) (s : State) : Host.Outcome State Fault Refusal :=
  .next (sealedFrame a h (.commit regionId) s)
/-- The effect of an EPOCH_END frame. -/
def execEpochEnd (a : Arrival) (h : SealHdr) (nextSeq : W64) (s : State) : Host.Outcome State Fault Refusal :=
  .next (sealedFrame a h (.epochEnd nextSeq) s)
/-- The effect of a CLOSE frame. -/
def execClose (a : Arrival) (h : SealHdr) (s : State) : Host.Outcome State Fault Refusal := .next (sealedFrame a h .close s)
/-- The effect of a frame of a reserved FTYPE (R176). -/
def execReservedFtypeFrame (a : Arrival) (h : SealHdr) (ftype : Byte) (s : State) : Host.Outcome State Fault Refusal :=
  .next (sealedFrame a h (.reserved ftype) s)

/-- RECEIVE_WAIT_EXPIRY (R419, R187): a frame that has waited 2 µs for its stream or its epoch's key takes the unknown-stream discard;
the expected SEQ of an open stream passes over it (R186). Log entry 70 (DEDUCED). -/
def receiveWaitExpiry (job : W16) (sid : W32) (s : State) : State :=
  let s := retryWaits s
  match s.waits.find? (fun w => w.hdr.jobId == job && w.hdr.sid == sid) with
  | none => s
  | some w =>
    let s1 := { s with waits := s.waits.erase w }
    match findRecv s job sid with
    | some t =>
      if t.kid = 0 then settle (retryWaits (dropFrame w 5 (modRecv job sid (fun t => { t with index := t.index + 1 }) s1))) else s
    | none => settle (retryWaits (dropFrame w 5 s1))
/-- The effect of RECEIVE_WAIT_EXPIRY. -/
def execReceiveWaitExpiry (jobId : W16) (sid : W32) (s : State) : Host.Outcome State Fault Refusal :=
  .next (whenLive (receiveWaitExpiry jobId sid) s)

/-- CHIME_RELEASE (R220, R223, R425): a snare releases a chime that waits for nothing; a frame that found the snare full goes on. -/
def chimeRelease (fn : Fn) (port : Option (Fin 32)) (s : State) : State :=
  match port with
  | some p => settle (retryWaits (releaseChime fn p s))
  | none => settle (releaseLocal fn s)
/-- The effect of CHIME_RELEASE. -/
def execChimeRelease (fn : Fn) (port : Option (Fin 32)) (s : State) : Host.Outcome State Fault Refusal :=
  .next (whenLive (chimeRelease fn port) s)

end Sys2Proof.Machine
end

