-- ==== Sys2Proof/Machine/HomeRole.lean ====
section
/-! DEFINITION. The home's side of the pool: ALLOC, FREE, REBIND, READ_LINES, WRITE_LINES, READ_NODES, WRITE_NODES and LEASE_RELEASE at
a package with a home carve-out (R255 to R258, R302). -/
namespace Sys2Proof.Machine

/-- The region that this home stores under a job and region id (R256). -/
def homeOf (s : State) (h : HomeHdr) : Option HomeSt := s.homes.find? (fun x => x.job == h.jobId && x.rid == h.regionId)
/-- Change a stored region. -/
def homeMod (h : HomeHdr) (g : HomeSt → HomeSt) (s : State) : State :=
  { s with homes := s.homes.map (fun x => if x.job == h.jobId && x.rid == h.regionId then g x else x) }
/-- Remove a stored region. -/
def homeDrop (h : HomeHdr) (s : State) : State :=
  { s with homes := s.homes.filter (fun x => !(x.job == h.jobId && x.rid == h.regionId)) }

/-- Answer a request: its header echoed with bit 7 of HOP set and HSTAT (Table 09-6), a payload of whole units and the trailer's maps of
uncorrectable units and MAC words and its count of corrected errors (Table 09-7). -/
def homeReply (a : Arrival) (h : HomeHdr) (hstat : Byte) (payload : List Byte) (ue mac ce : W32) (s : State) : State :=
  sendHome (sidSrc a.route) (payload.length / 256) (.home { h with hop := h.hop ||| 0x80, hstat := hstat } payload ue mac ce) s
/-- Answer with a status alone. -/
def homeStatus (a : Arrival) (h : HomeHdr) (hstat : Byte) (s : State) : State := homeReply a h hstat (zeros 256) 0 0 0 s
/-- A map of 32 bits with those of a list set. -/
def bitMap (l : List Nat) : W32 := BitVec.ofNat 32 (((List.range 32).filter (fun k => l.contains k)).map (2 ^ ·)).sum

/-- COUNT, HFLAGS and HSTAT of a request, and BASE_ITEM with `max` items at most (Table 09-6). -/
def homeShape (h : HomeHdr) (max : Nat) (nodes : Bool) : Bool :=
  decide (1 ≤ h.count.toNat ∧ h.count.toNat ≤ max) && decide (h.hflags.toNat < 4) && h.hstat == 0
    && (if nodes then h.baseItem.toNat == 2 ^ 39 else decide (h.baseItem.toNat < 2 ^ 36))

/-- Checks that every operation on a stored region shares: a home carve-out, the shape, the region, its binding (Table 09-9). The
status refused with, or the region. Log entry 74 (DEDUCED). -/
def homeCheck (s : State) (a : Arrival) (h : HomeHdr) (max : Nat) (nodes : Bool) : Byte ⊕ HomeSt :=
  if !hasHome s then .inl 2
  else if !homeShape h max nodes then .inl 7
  else match homeOf s h with
    | none => .inl 2
    | some x => if x.keeper = sidSrc a.route then .inr x else .inl 4

/-- Run an operation on a stored region, or refuse it. -/
def onHome (a : Arrival) (h : HomeHdr) (max : Nat) (nodes : Bool) (g : HomeSt → State → State) (s : State) : State :=
  match homeCheck s a h max nodes with
  | .inl st => homeStatus a h st s
  | .inr x => g x s

/-- Line indices that a request names. -/
def homeLines (h : HomeHdr) : List Nat := (List.range h.count.toNat).map (· + h.baseItem.toNat)
/-- Some named line lies beyond the region. -/
def linesOut (x : HomeSt) (h : HomeHdr) : Bool := decide (x.size / 256 < h.baseItem.toNat + h.count.toNat)
/-- LEVEL and index of a node address (Table 09-8). -/
def addrLevel (w : W64) : Nat := w.toNat / 2 ^ 32 % 8
def addrIdx (w : W64) : Nat := w.toNat % 2 ^ 30
/-- Some named node lies beyond the region. -/
def nodesOut (x : HomeSt) (l : List W64) : Bool :=
  l.any (fun w =>
    let lv := addrLevel w
    lv == 0 || decide (treeDepth (x.size / 256) < lv) || decide ((x.size / 256 + 64 ^ lv - 1) / 64 ^ lv ≤ addrIdx w))

/-- Leases that a keeper holds at this home. -/
def keeperLeases (s : State) (k : BitVec 12) : Nat := ((s.homes.filter (fun x => x.keeper == k)).map (fun x => x.leases.length)).sum

/-- Serve a READ_LINES: items as last written, zero for one never written, with what the memory reported (R256). Log entry 156 (DESIGN CHOICE). -/
def serveLines (a : Arrival) (h : HomeHdr) (e : EccReport) (s : State) : State :=
  match homeOf s h with
  | none => homeStatus a h 2 s
  | some x =>
    let is := homeLines h
    homeReply a h 0 (lineUnits (is.map (mapGet 0 x.lines)) (is.map (mapGet 0 x.lineMacs))) (bitMap e.lines) (bitMap e.macs) e.ce s

/-- R257: a leased READ_LINES that meets a lease on one of its lines waits; another takes its leases and is served. -/
def leaseLines (a : Arrival) (h : HomeHdr) (e : EccReport) (x : HomeSt) (s : State) : State :=
  let is := homeLines h
  if is.any (x.leases.contains ·) then homeMod h (fun x => { x with waiting := x.waiting ++ [(a, h, e)] }) s
  else if Config.leaseLimit < keeperLeases s x.keeper + is.length then homeStatus a h 5 s
  else serveLines a h e (homeMod h (fun x => { x with leases := x.leases ++ is }) s)

/-- Serve waiting leased reads, in arrival order, as far as leases allow. -/
def serveWaiting : List (Arrival × HomeHdr × EccReport) → State → State
  | [], s => s
  | (a, h, e) :: l, s =>
    serveWaiting l (match homeOf s h with
      | some x => leaseLines a h e x s
      | none => s)

/-- Leases on lines end; what waited on them goes on. -/
def endLeases (h : HomeHdr) (is : List Nat) (s : State) : State :=
  match homeOf s h with
  | none => s
  | some x =>
    serveWaiting x.waiting (homeMod h (fun x => { x with leases := x.leases.filter (fun i => !is.contains i), waiting := [] }) s)

/-- A request's frame has been taken from the receive buffer, then `g` answers it. Log entry 22 (DEDUCED). -/
def homeRow (a : Arrival) (spelt : Bool) (g : State → State) (s : State) : State :=
  settle (arrive a spelt (fun s => g (returnCredits a.port a.hop.vc (frameCredits a.hop) s)) s)
/-- The bytes `b` stand at offset `o` of `l`. -/
def isAt (l : List Byte) (o : Nat) (b : List Byte) : Bool := (l.drop o).take b.length == b
/-- A HOME request's bytes spell the row: its header, with the operation `op`, and what `k` says of its payload (Tables 09-6, 09-8). -/
def homeSpelt (a : Arrival) (h : HomeHdr) (op : Byte) (k : List Byte → Bool) : Bool :=
  a.hop.kind == kHome && h.hop == op && isAt a.tail 0 (homeHdrBytes h) && k (a.tail.drop 20)

/-- ALLOC (R256, R302): storage for the region's items, wholly inside one home carve-out, bound to the origin. -/
def homeAlloc (a : Arrival) (h : HomeHdr) (size : W64) (depth : Byte) (s : State) : State :=
  if !hasHome s then homeStatus a h 2 s
  else if !homeShape h 1 false then homeStatus a h 7 s
  else if (homeOf s h).isSome then homeStatus a h 8 s
  else match homePlace s size.toNat with
    | none => homeStatus a h 1 s
    | some b =>
      let x : HomeSt := { job := h.jobId, rid := h.regionId, keeper := sidSrc a.route, size := size.toNat, depth := depth.toNat, base := b,
                          lines := [], lineMacs := [], nodes := [], nodeMacs := [], leases := [], waiting := [] }
      homeStatus a h 0 { s with homes := s.homes ++ [x], opens := s.opens + 1 }
/-- The effect of ALLOC. -/
def execAlloc (a : Arrival) (h : HomeHdr) (size : W64) (depth : Byte) (s : State) : Host.Outcome State Fault Refusal :=
  .next (homeRow a (homeSpelt a h 0x01 (fun l => isAt l 0 (be 8 size.toNat ++ [depth]))) (homeAlloc a h size depth) s)

/-- FREE: the storage is released; refused while leases are held (Table 09-9). -/
def homeFree (a : Arrival) (h : HomeHdr) (s : State) : State :=
  onHome a h 1 false (fun x s => if x.leases.isEmpty then homeStatus a h 0 (homeDrop h s) else homeStatus a h 6 s) s
/-- The effect of FREE. -/
def execFree (a : Arrival) (h : HomeHdr) (s : State) : Host.Outcome State Fault Refusal :=
  .next (homeRow a (homeSpelt a h 0x02 (fun _ => true)) (homeFree a h) s)

/-- REBIND: the binding moves to the new keeper; refused while leases are held. -/
def homeRebind (a : Arrival) (h : HomeHdr) (nk : BitVec 12) (s : State) : State :=
  onHome a h 1 false (fun x s =>
    if x.leases.isEmpty then homeStatus a h 0 (homeMod h (fun x => { x with keeper := nk }) s) else homeStatus a h 6 s) s
/-- The effect of REBIND. -/
def execRebind (a : Arrival) (h : HomeHdr) (newKeeper : BitVec 12) (s : State) : Host.Outcome State Fault Refusal :=
  .next (homeRow a (homeSpelt a h 0x03 (fun l => isAt l 0 (be 2 newKeeper.toNat))) (homeRebind a h newKeeper) s)

/-- READ_LINES, with leases where HFLAGS bit 0 asks for them. Log entry 75 (DESIGN CHOICE). -/
def homeReadLines (a : Arrival) (h : HomeHdr) (e : EccReport) (s : State) : State :=
  onHome a h 31 false (fun x s =>
    if linesOut x h then homeStatus a h 3 s else if h.hflags.getLsbD 0 then leaseLines a h e x s else serveLines a h e s) s
/-- The effect of READ_LINES. -/
def execReadLines (a : Arrival) (r : HomeRead) (s : State) : Host.Outcome State Fault Refusal :=
  .next (homeRow a (homeSpelt a r.hdr 0x10 (fun _ => true)) (homeReadLines a r.hdr r.ecc) s)

/-- Store items under rising numbers from `i`; zero is what an unlisted item reads as. -/
def storeItems {α : Type} [DecidableEq α] (d : α) : Nat → List α → FMap α → FMap α
  | _, [], m => m
  | i, v :: l, m => storeItems d (i + 1) l (mapPut d m i v)

/-- WRITE_LINES: the items stored verbatim; RELEASE ends the keeper's leases on these lines. -/
def homeWriteLines (a : Arrival) (h : HomeHdr) (ls : List (Line × W64)) (s : State) : State :=
  onHome a h 31 false (fun x s =>
    if linesOut x h then homeStatus a h 3 s
    else
      let l := ls.take h.count.toNat
      let s := homeMod h (fun x => { x with lines := storeItems 0 h.baseItem.toNat (l.map (·.1)) x.lines
                                            lineMacs := storeItems 0 h.baseItem.toNat (l.map (·.2)) x.lineMacs }) s
      let s := homeStatus a h 0 s
      if h.hflags.getLsbD 1 then endLeases h (homeLines h) s else s) s
/-- The effect of WRITE_LINES. -/
def execWriteLines (a : Arrival) (h : HomeHdr) (lines : List (Line × W64)) (s : State) : Host.Outcome State Fault Refusal :=
  .next (homeRow a (homeSpelt a h 0x11 (fun l => isAt l 0 (lineUnits (lines.map (·.1)) (lines.map (·.2))))) (homeWriteLines a h lines) s)

/-- READ_NODES: the records of the named nodes, each with the UE flag that the memory reported; a unit that holds such a record is marked
too (R256). -/
def homeReadNodes (a : Arrival) (h : HomeHdr) (addrs : List W64) (e : EccReport) (s : State) : State :=
  onHome a h 31 true (fun x s =>
    let l := addrs.take h.count.toNat
    if nodesOut x l then homeStatus a h 3 s
    else
      let key := fun (i : Nat) => nodeKey (addrLevel (l.getD i 0)) (addrIdx (l.getD i 0))
      let recs := (List.range l.length).map (fun i => nodeRecBytes (mapGet 0 x.nodes (key i)) (mapGet 0 x.nodeMacs (key i)) (e.nodes.contains i))
      homeReply a h 0 (nodeUnits l.length recs) (bitMap (e.nodes.map (· / 3))) 0 e.ce s) s
/-- The effect of READ_NODES. -/
def execReadNodes (a : Arrival) (r : HomeRead) (addrs : List W64) (s : State) : Host.Outcome State Fault Refusal :=
  .next (homeRow a (homeSpelt a r.hdr 0x12 (fun l => isAt l 0 (addrUnit (addrs.take r.hdr.count.toNat)))) (homeReadNodes a r.hdr addrs r.ecc) s)

/-- WRITE_NODES: the records stored verbatim. -/
def homeWriteNodes (a : Arrival) (h : HomeHdr) (ns : List (W64 × Node × W64)) (s : State) : State :=
  onHome a h 28 true (fun x s =>
    let l := ns.take h.count.toNat
    if nodesOut x (l.map (·.1)) then homeStatus a h 3 s
    else
      let key := fun (e : W64 × Node × W64) => nodeKey (addrLevel e.1) (addrIdx e.1)
      homeStatus a h 0 (homeMod h (fun x =>
        { x with nodes := l.foldl (fun m e => mapPut 0 m (key e) e.2.1) x.nodes
                 nodeMacs := l.foldl (fun m e => mapPut 0 m (key e) e.2.2) x.nodeMacs }) s)) s
/-- The effect of WRITE_NODES. -/
def execWriteNodes (a : Arrival) (h : HomeHdr) (nodes : List (W64 × Node × W64)) (s : State) : Host.Outcome State Fault Refusal :=
  .next (homeRow a (homeSpelt a h 0x13 (fun l => isAt l 0 (addrUnit (nodes.map (·.1))
    ++ nodeUnits nodes.length (nodes.map (fun e => nodeRecBytes e.2.1 e.2.2 false))))) (homeWriteNodes a h nodes) s)

/-- LEASE_RELEASE: the keeper's leases on COUNT lines from BASE_ITEM end. -/
def homeLeaseRelease (a : Arrival) (h : HomeHdr) (s : State) : State :=
  onHome a h 31 false (fun x s =>
    if linesOut x h then homeStatus a h 3 s else endLeases h (homeLines h) (homeStatus a h 0 s)) s
/-- A request's HOP that Table 09-8 does not give. -/
def reservedHop (op : Byte) : Bool := decide (op.toNat < 0x80) && !([0x01, 0x02, 0x03, 0x10, 0x11, 0x12, 0x13, 0x14] : List Byte).contains op
/-- The effect of LEASE_RELEASE; a request of a reserved HOP comes in this row too, and is MALFORMED (Table 09-9). Log entry 74 (DEDUCED). -/
def execLeaseRelease (a : Arrival) (h : HomeHdr) (s : State) : Host.Outcome State Fault Refusal :=
  .next (homeRow a (homeSpelt a h 0x14 (fun _ => true) || homeSpelt a h h.hop (fun _ => reservedHop h.hop))
    (fun s => if hasHome s && reservedHop h.hop then homeStatus a h 7 s else homeLeaseRelease a h s) s)

end Sys2Proof.Machine
end

