-- ==== Sys2Proof/Machine/Rings.lean ====
section
/-! DEFINITION. Rings: the acceptance of register writes (R405 to R407), enabling and disabling (R410, R411), wake writes and
doorbell-record reads (R60), the scan (R61) with the checks of a descriptor's header (R64), NOP, and host DMA completions. -/
namespace Sys2Proof.Machine

/-! ### Register writes -/

/-- R405 to R407: a write to a register of the doorbell or set-up page is accepted: the package is ready and not in OFF, the size is 4
or 8 bytes, and a VF's TDI lets it through. Log entry 40 (DEDUCED). -/
def regAccepted (a : RegAcc) (s : State) : Bool :=
  ready s && s.pkg.power != .off && (a.bytes == 4 || a.bytes == 8) &&
    (match a.fn with
     | .pf => true
     | .vf _ => (fnOf s a.fn).enabled &&
       (match (fnOf s a.fn).tdi.state with | .unlocked => true | .run => a.trusted | _ => false))

/-- R405: an accepted write that covers bits 31:0, and so triggers its register's action. -/
def regTriggers (a : RegAcc) (s : State) : Bool := regAccepted a s && (a.low || a.bytes == 8)

/-! ### Enabling (R410, Table 16-9) -/

/-- Entries of a function's MSI-X table. -/
def vectors (f : Fn) : Nat := match f with | .pf => 4 | .vf _ => 1

/-- Table 16-9: the code that refuses an enable; zero for none. Log entry 39 (DEDUCED). -/
def enableRefusal (s : State) (f : Fn) : Byte :=
  let r := ringOf s f
  if r.cmdBase.toNat % 4096 ≠ 0 ∨ r.cplBase.toNat % 4096 ≠ 0 ∨ r.dbrecBase.toNat % 128 ≠ 0 then 0x01
  else if r.cmdLog2.toNat < 6 ∨ 12 < r.cmdLog2.toNat then 0x02
  else if r.cplLog2.toNat < r.cmdLog2.toNat ∨ 13 < r.cplLog2.toNat then 0x03
  else if vectors f ≤ r.vector.toNat then 0x04
  else if (fnOf s f).tdi.state = .error ∨ s.pkg.power = .a3 then 0x05
  else 0

/-- A ring as it stands once enabled: its counts at zero, nothing waiting. -/
def freshRing (r : RingSt) : RingSt :=
  { cmdBase := r.cmdBase, cplBase := r.cplBase, dbrecBase := r.dbrecBase, cmdLog2 := r.cmdLog2, cplLog2 := r.cplLog2,
    vector := r.vector, ctrl := r.ctrl, enabled := true }

/-- RING_ENABLE (R410): ENABLE changes from 0 to 1. -/
def ringEnable (a : RegAcc) (s : State) : State :=
  let r := ringOf s a.fn
  if !regTriggers a s || r.ctrl || r.enabled || r.enabling then s
  else
    let e := enableRefusal s a.fn
    if e ≠ 0 then ringMod a.fn (fun r => { r with enableErr := e }) s
    else emit (.recordRead (viaOf s a.fn)) (ringMod a.fn (fun r => { r with enableErr := 0, ctrl := true, enabling := true }) s)
/-- The effect of RING_ENABLE. -/
def execRingEnable (a : RegAcc) (s : State) : Host.Outcome State Fault Refusal := .next (ringEnable a s)

/-- RING_ENABLE_DONE (R76, R410): the read of the record's bytes 0-63 and the write of its bytes 64-127 have ended. -/
def ringEnableDone (fn : Fn) (x : Fetched (BitVec 512)) (writeOk : Bool) (s : State) : State :=
  let r := ringOf s fn
  if !ready s || !r.enabling then s
  else
    let fault := fun (code : W16) => ringMod fn (fun r => { freshRing r with faulted := true, faultCode := code }) s
    match x with
    | .failed => settleRing fn (fault 0x0003)
    | .ok raw =>
      if raw ≠ 0 then settleRing fn (fault 0x0005)
      else if writeOk then settleRing fn (postDoorbell fn (ringMod fn freshRing s))
      else settleRing fn (ringMod fn (fun r => { r with hostWriteFailed := true }) (fault 0x0004))
/-- The effect of RING_ENABLE_DONE. -/
def execRingEnableDone (fn : Fn) (r : Fetched (BitVec 512)) (writeOk : Bool) (s : State) : Host.Outcome State Fault Refusal :=
  .next (ringEnableDone fn r writeOk s)

/-- RING_DISABLE (R411): ENABLE is cleared. -/
def ringDisable (a : RegAcc) (s : State) : State := if regTriggers a s then disableRing a.fn s else s
/-- The effect of RING_DISABLE. -/
def execRingDisable (a : RegAcc) (s : State) : Host.Outcome State Fault Refusal := .next (ringDisable a s)

/-! ### Wakes (R60) -/

/-- The record read of a wake leaves the DSM port in the wake's own row, so that only wakes in A3, where it stays owed, and wakes
during a read merge; in A2 and A3 Aedvik asks for a higher power state (R380). Log entry 165 (DESIGN CHOICE). -/
def wakeRing (f : Fn) (s : State) : State :=
  match (ringOf s f).dbRead with
  | .idle =>
    if s.pkg.power = .a3 then emit (.powerAsk .a2) (ringMod f (fun r => { r with dbRead := .owed }) s)
    else if s.pkg.power = .a2 then emit (.recordRead (viaOf s f)) (emit (.powerAsk .a1) (ringMod f (fun r => { r with dbRead := .issued }) s))
    else emit (.recordRead (viaOf s f)) (ringMod f (fun r => { r with dbRead := .issued }) s)
  | .owed => s
  | .issued => ringMod f (fun r => { r with dbRead := .again }) s
  | .again => s

/-- WAKE_WRITE (R408): a write to offset 0 of the doorbell page of a ring whose ENABLED reads 1. -/
def wakeWrite (a : RegAcc) (offset : BitVec 12) (s : State) : State :=
  if regTriggers a s && offset == 0 && (ringOf s a.fn).enabled then wakeRing a.fn s else s
/-- The effect of WAKE_WRITE. -/
def execWakeWrite (a : RegAcc) (offset : BitVec 12) (s : State) : Host.Outcome State Fault Refusal := .next (wakeWrite a offset s)

/-- R70, R71: completion events taken and the overflow flags cleared, as a wake's read shows. Log entry 37 (DEDUCED). -/
def takeEvents (f : Fn) (d : DrvHalf) (s : State) : State :=
  let r := ringOf s f
  let k := d.eventTake - r.eventTake
  let left := BitVec.ofNat 32 (r.eventPending.toNat - k.toNat)
  let s := ringMod f (fun r =>
    { r with eventTake := d.eventTake, eventPending := left, interrupt := if k = 0 then r.interrupt else false,
             evtOvf := r.evtOvf && !d.evtOvfClr, evqOvf := r.evqOvf && !d.evtOvfClr }) s
  if k ≠ 0 ∧ left ≠ 0 then raiseMsix f s else s

/-- R58: a CMD_TAIL more than the entry count beyond CMD_HEAD. -/
def badTail (r : RingSt) (d : DrvHalf) : Bool := decide (cmdEntries r < (d.cmdTail - r.cmdHead).toNat)
/-- R58: a CPL_HEAD beyond CPL_TAIL: counts that wrap, so a head further behind the tail than the entry count. Log entry 166
(DESIGN CHOICE). -/
def badHead (r : RingSt) (d : DrvHalf) : Bool := decide (cplEntries r < (r.cplTail - d.cplHead).toNat)

/-- What a wake's read makes of the driver half. -/
def actOnRecord (f : Fn) (d : DrvHalf) (s : State) : State :=
  let r := ringOf s f
  let s1 := takeEvents f d s
  let s2 := if badTail r d then ringFault f 0x0001 s1 else ringMod f (fun r => { r with cmdTail := d.cmdTail }) s1
  let s3 := if badHead r d then ringFault f 0x0002 s2 else ringMod f (fun r => { r with cplHead := d.cplHead }) s2
  let s4 := drainAsync Config.asyncDepth f s3
  if devHalf (ringOf s4 f) = devHalf r then s4 else postDoorbell f s4

/-- DOORBELL_READ_DONE (R60): the data of a wake's read returns; a further read that is owed is issued. -/
def doorbellReadDone (fn : Fn) (x : Fetched (BitVec 512)) (s : State) : State :=
  let r := ringOf s fn
  if !serving s || !(r.dbRead == .issued || r.dbRead == .again) then s
  else
    let s := ringMod fn (fun r => { r with dbRead := .idle }) s
    let s := match x with
      | .failed => ringFault fn 0x0003 s
      | .ok raw => actOnRecord fn (drvOf raw) s
    if r.dbRead = .again then wakeRing fn s else s
/-- The effect of DOORBELL_READ_DONE. -/
def execDoorbellReadDone (fn : Fn) (x : Fetched (BitVec 512)) (s : State) : Host.Outcome State Fault Refusal :=
  .next (doorbellReadDone fn x s)

/-! ### The scan (R61) -/

/-- The scan's place of a ring: 0 is the admin ring, v + 1 is VF v. -/
def scanPos (f : Fn) : Nat := match f with | .pf => 0 | .vf v => v.toNat + 1

/-- R61: a ring is eligible; the null profile serves only the admin ring (R51). -/
def eligible (s : State) (f : Fn) : Bool :=
  let r := ringOf s f
  let n := (progOf s f).length
  (f == .pf || !s.pkg.nullProfile) && r.enabled && r.ctrl && !r.closing && !r.faulted && !(fnOf s f).quiesced && !(fnOf s f).frozen && r.cmdHead != r.cmdTail
    && decide (n < Config.maxInProgress) && decide (n < freeSlots s f) && !(r.headOrdered && n != 0)

/-- Steps from the pointer to a ring in the scan's cyclic order, 1 to 4,097. -/
def scanDist (scan : Nat) (f : Fn) : Nat := (scanPos f + 4096 - scan) % 4097 + 1

/-- The eligible ring nearest after the pointer. -/
def nearest (s : State) : Option Fn :=
  ((listedFns s).filter (eligible s)).foldl (fun a f => match a with
    | none => some f
    | some g => if scanDist s.scan f < scanDist s.scan g then some f else some g) none

/-- The command that a descriptor of ring `f` makes (Table 03-5). -/
def cmdOf (s : State) (f : Fn) (raw : BitVec 512) : InProg :=
  let tv := rawField raw 8 2
  { fn := f, idx := (ringOf s f).cmdHead, raw := raw, opcode := BitVec.ofNat 8 (rawByte raw 0), tag := BitVec.ofNat 32 (rawField raw 4 4),
    event := rawByte raw 1 % 2 == 1, ctx := BitVec.ofNat 16 (rawField raw 2 2), ctxGen := BitVec.ofNat 16 (rawField raw 10 2),
    tvf := if 0x8000 ≤ tv then some (BitVec.ofNat 12 tv) else none, gen := genOf s f,
    rsvd := rsvdFault raw (rsvdRanges (rawByte raw 0) raw), started := false, hold := {}, act := .none }

/-- A turn of the scan dispatches the descriptor `raw` of ring `f`: CMD_HEAD advances, the header is checked, and the command is in
progress or, where the header offends, complete. -/
def dispatchRaw (f : Fn) (raw : BitVec 512) (s : State) : State :=
  let p := cmdOf s f raw
  let s := ringMod f (fun r => { r with cmdHead := r.cmdHead + 1, headOrdered := false }) s
  let s := postDoorbell f (traceVf p.fn 0x01 p.ctx (p.opcode.setWidth 128) s)
  match headerFault f raw with
  | some o => settle (complete p stMalformed (BitVec.ofNat 32 o) 0 s)
  | none => { s with prog := s.prog ++ [p] }

/-- SCAN_DISPATCH (R61): one turn of the scan. A failed read of the descriptor faults the ring (R59); an ORDERED descriptor of a ring
with commands in progress is passed over until they have completed. Log entry 41 (DEDUCED). -/
def scanDispatch (x : Fetched (BitVec 512)) (s : State) : State :=
  if !serving s then s
  else match nearest s with
    | none => s
    | some f =>
      match x with
      | .failed => ringFault f 0x0003 { s with scan := scanPos f }
      | .ok raw =>
        if rawByte raw 1 / 2 % 2 = 1 ∧ progOf s f ≠ [] then ringMod f (fun r => { r with headOrdered := true }) s
        else dispatchRaw f raw { s with scan := scanPos f }
/-- The effect of SCAN_DISPATCH. -/
def execScanDispatch (x : Fetched (BitVec 512)) (s : State) : Host.Outcome State Fault Refusal := .next (scanDispatch x s)

/-! ### NOP and host DMA -/

/-- The row of NOP (Table 03-6). -/
def nopRow (h : CmdHdr) : Row :=
  { hdr := h, opcode := 0x0F }
/-- The effect of NOP (Table 03-6): it completes. -/
def execNop (h : CmdHdr) (s : State) : Host.Outcome State Fault Refusal :=
  .next (runRow (nopRow h) (fun p s => complete p stOk 0 0 s) s)

/-- HOST_DMA_DONE: a write of a ring's records has ended, a failed one faulting the ring (R59); or a command's own transfer, a failed
one completing the command with DMA_ERROR (Table 03-20). -/
def hostDmaDone (what : DmaWhat) (ok : Bool) (s : State) : State :=
  if !serving s then s
  else match what with
    | .recordWrite f => if ok || !(ringOf s f).enabled then s else ringFault f 0x0004 s
    | .command f i =>
      match findProg s f i with
      | none => lateDone f i s
      | some p =>
        if !(p.started && p.hold.dma) then lateDone f i s
        else if ok then settle (modProg f i (fun q => { q with hold := { q.hold with dma := false } }) s)
        else settle (complete p stDmaError 0 0 (releaseHolds p s))
/-- The effect of HOST_DMA_DONE. -/
def execHostDmaDone (what : DmaWhat) (ok : Bool) (s : State) : Host.Outcome State Fault Refusal := .next (hostDmaDone what ok s)

end Sys2Proof.Machine
end

