-- ==== Sys2Proof/Machine/Links.lean ====
section
/-! DEFINITION. Control frames, port events, relaying and power lending (R22 to R24, R182, R183, R190, R196, R201 to R208, R238 to
R240, R415). -/
namespace Sys2Proof.Machine

/-! ### BEAT, KNELL, PROXY_KNELL -/

/-- A control frame's bytes spell the row: KIND, and fields of its body by offset, size and value (Table 07-7). RSVD bytes are not looked
at (R178). -/
def ctlSpelt (a : Arrival) (kind : BitVec 4) (fields : OpFields) : Bool :=
  a.hop.kind == kind && fields.all (fun f => wireField a f.1 f.2.1 == f.2.2)

/-- Flags of a BEAT (Table 07-7). -/
def bLending (f : Byte) : Bool := f.getLsbD 0
def bNbrLost (f : Byte) : Bool := f.getLsbD 1
def bLostSeen (f : Byte) : Bool := f.getLsbD 2

/-- R205: the neighbour is readmitted; the port learns its id from the beat that ends the exchange. -/
def readmit (port : Fin 32) (id : BitVec 12) (s : State) : State :=
  portMod port (fun p => { p with nbrLost := false, lostId := none, nbr := some id }) s

/-- BEAT (R202, R205, R239): a changed boot count, NBR_LOST, LOST_SEEN, LENDING, in this order. A beat that repeats an NBR_LOST already acted
on declares nothing again (Table 07-18). -/
def beat (a : Arrival) (boot : W64) (fl : Byte) (s : State) : State :=
  let p := portOf s a.port
  let s := if p.nbrBoot.isSome && p.nbrBoot != some boot && !p.nbrLost then neighbourLost a.port 5 s else s
  let s := portMod a.port (fun p => { p with nbrBoot := some boot }) s
  let s := if bNbrLost fl && !(portOf s a.port).nbrLost && !p.lostSeen then neighbourLost a.port 6 s else s
  let s := portMod a.port (fun p => { p with lostSeen := bNbrLost fl }) s
  let s := if bLostSeen fl && p.nbrLost then readmit a.port (sidSrc a.route) s else s
  let s := if p.nbrLending && !bLending fl then wakeOpen a.port s else s
  portMod a.port (fun p => { p with nbrLending := bLending fl }) s
/-- The effect of BEAT. -/
def execBeat (a : Arrival) (boot : W64) (senderPort bflags : Byte) (s : State) : Host.Outcome State Fault Refusal :=
  .next (settle (arrive a (ctlSpelt a kBeat [(12, 8, boot.toNat), (20, 1, senderPort.toNat), (21, 1, bflags.toNat)]) (beat a boot bflags) s))

/-- KNELL (R23, R202): the neighbour is lost at once, whatever the reason. Log entry 72 (DEDUCED). -/
def knell (a : Arrival) (boot : W64) (s : State) : State :=
  neighbourLost a.port 2 (portMod a.port (fun p => { p with nbrBoot := some boot }) s)
/-- The effect of KNELL. -/
def execKnell (a : Arrival) (boot : W64) (reason : Byte) (s : State) : Host.Outcome State Fault Refusal :=
  .next (settle (arrive a (ctlSpelt a kKnell [(12, 8, boot.toNat), (20, 1, reason.toNat)]) (knell a boot) s))

/-- PROXY_KNELL (R204): the peer-loss actions toward the package it names, or toward its sender where it names this one; none toward a
neighbour that a port has declared lost already (Table 07-18). Log entry 71 (DEDUCED). -/
def proxyKnell (a : Arrival) (lost : BitVec 12) (s : State) : State :=
  let pkg := if lost = s.fab.id then sidSrc a.route else lost
  if isLost s pkg then s else peerLoss pkg s
/-- The effect of PROXY_KNELL. -/
def execProxyKnell (a : Arrival) (lost : BitVec 12) (cause : Byte) (lostBoot : W64) (s : State) : Host.Outcome State Fault Refusal :=
  .next (settle (arrive a (ctlSpelt a kProxyKnell [(12, 2, lost.toNat), (14, 1, cause.toNat), (16, 8, lostBoot.toNat)]) (proxyKnell a lost) s))

/-! ### OPEN_REQ and OPEN_ACK -/

/-- The STREAM_OPEN in progress that still needs a challenge for a stream. -/
def senderOf (s : State) (job : W16) (sid : W32) : Option InProg :=
  s.prog.find? (fun p => (fnOf s p.fn).job == some job && (match p.act with
    | .openSend x _ _ => x == sid
    | .openRecv _ _ _ _ (some x) false _ _ _ => x == sid
    | _ => false))

/-- Hold an OPEN_REQ (R182 step 2): the latest one of its stream, 256 in all. -/
def holdReq (port : Fin 32) (r : HeldReq) (s : State) : State :=
  let mine := fun (q : HeldReq) => q.job == r.job && q.sid == r.sid
  if s.openReqs.any mine then { s with openReqs := s.openReqs.filter (fun q => !mine q) ++ [r] }
  else if Config.openReqTable ≤ s.openReqs.length then countPort port 0x0C s
  else { s with openReqs := s.openReqs ++ [r] }

/-- OPEN_REQ (R182): held, and answered where the own STREAM_OPEN waits for it. Log entry 61 (DEDUCED). -/
def openReq (a : Arrival) (sid : W32) (job : W16) (ch : BitVec 128) (s : State) : State :=
  let s := holdReq a.port { job := job, sid := sid, challenge := ch } s
  match senderOf s job sid with
  | some p => answerOpen p s
  | none => s
/-- The effect of OPEN_REQ. -/
def execOpenReq (a : Arrival) (sid : W32) (jobId : W16) (challenge : BitVec 128) (s : State) : Host.Outcome State Fault Refusal :=
  .next (settle (arrive a (ctlSpelt a kOpenReq [(12, 4, sid.toNat), (16, 2, jobId.toNat), (24, 16, challenge.toNat)])
    (openReq a sid jobId challenge) s))

/-- The STREAM_OPEN in progress that receives a stream and sent this challenge. -/
def receiverOf (s : State) (job : W16) (sid : W32) (ch : BitVec 128) : Option InProg :=
  s.prog.find? (fun p => (fnOf s p.fn).job == some job && (match p.act with
    | .openRecv x _ _ c _ _ false _ _ => x == sid && c == ch
    | _ => false))

/-- The tag of an OPEN_ACK verifies: the receiving key is placed, the stream is open for receiving, and the command completes unless it
still sends (R182 step 5, R419). -/
def openForRecv (p : InProg) (inn : W32) (peer : BitVec 12) (kid : W16) (ch : BitVec 128) (out : Option W32) (sd : Bool) (e0 : W32) (sk : W16)
    (epoch : W32) (relays : List (BitVec 12)) (s : State) : State :=
  let job := jobOf s p.fn
  let (k, s) := openKey p kid job inn epoch useOpen s
  let t : RecvSt := { job := job, sid := inn, fn := p.fn, ctx := (kidTag s k).1, ctxGen := (kidTag s k).2, e0 := epoch, epoch := epoch, index := 0, kid := k,
                      next := none, relays := relays, closing := false }
  let s := { s with recvs := s.recvs ++ [t], gone := s.gone.filter (fun g => g != (job, inn)) }
  let e := if out.isSome then e0 else epoch
  if sd then complete p stOk 0 (openResult out (some inn) e) (activateKid k (activateKid sk s))
  else modProg p.fn p.idx (fun q => { q with act := .openRecv inn peer k ch out sd true e sk }) s

/-- OPEN_ACK (R182 step 4, R183): one that echoes no challenge in progress is stale; a tag that fails halts. Log entry 62 (DEDUCED). -/
def openAck (a : Arrival) (sid : W32) (job : W16) (epoch : W32) (ch : BitVec 128) (relays : List (BitVec 12)) (tagOk : Bool) (s : State) :
    State :=
  match receiverOf s job sid ch with
  | none => countPort a.port 0x0B s
  | some p =>
    match p.act with
    | .openRecv inn peer kid c out sd _ e0 sk =>
      if tagOk then retryWaits (openForRecv p inn peer kid c out sd e0 sk epoch relays s)
      else gongHalt { cause := 4, unit := BitVec.ofNat 16 a.port.val, job := job, sid := sid,
                      whereF := BitVec.ofNat 64 (epoch.toNat * 2 ^ 32 + 0xFFFFFFFF), kid := kid } s
    | _ => s
/-- The effect of OPEN_ACK. -/
def execOpenAck (a : Arrival) (sid : W32) (jobId : W16) (routeSel : BitVec 2) (epoch : W32) (challenge : BitVec 128)
    (relays : List (BitVec 12)) (tagOk : Bool) (s : State) : Host.Outcome State Fault Refusal :=
  .next (settle (arrive a (ctlSpelt a kOpenAck [(12, 4, sid.toNat), (16, 2, jobId.toNat), (18, 1, routeSel.toNat), (20, 4, epoch.toNat),
    (24, 16, challenge.toNat), (40, 10, ofBe (relayBytes relays))])
    (openAck a sid jobId epoch challenge relays tagOk) s))

/-! ### CREDIT, LOOP, others -/

/-- Grant the further returns of a CREDIT frame. -/
def grantMore (port : Fin 32) : List (BitVec 4 × BitVec 12) → State → State
  | [], s => s
  | (v, n) :: l, s => grantMore port l (grant port v.toNat n.toNat s)
/-- The effect of CREDIT (R196). -/
def execCredit (a : Arrival) (more : List (BitVec 4 × BitVec 12)) (s : State) : Host.Outcome State Fault Refusal :=
  .next (settle (arrive a (a.hop.kind == kCredit && a.tail.take 16 == padTo 16 (more.flatMap (fun m => be 2 (m.1.toNat * 4096 + m.2.toNat))))
    (fun s => pump a.port (grantMore a.port more s)) s))

/-- The port whose loop a LOOP frame arriving at port `p` belongs to: its own, or, at depth 2, one whose partner it is (Table 07-17). -/
def loopOf (s : State) (p : Fin 32) : Option (Fin 32) :=
  if (portOf s p).loopDepth ≠ 0 ∧ (portOf s p).loopDepth ≠ 2 then some p
  else allPorts.find? (fun q => (portOf s q).loopDepth == 2 && (portOf s q).loopPartner.toNat == p.val)
/-- The open half's checks of a LOOP frame: beyond depth 1 its HOP_CRC, and then its tag under the loop's debug KID; a failure is counted. -/
def loopChecks (a : Arrival) (depth : Nat) (tagOk : Bool) (s : State) : State :=
  if depth ≠ 1 ∧ !crcOk a then countPort a.port 0 s else if tagOk then s else countPort a.port 0x0E s
/-- LOOP (R208): checked at the loop's end, and followed by the next test frame. A LOOP frame outside a loopback passes the hop and does
nothing more. Log entry 73 (DEDUCED). -/
def loop (a : Arrival) (tagOk : Bool) (s : State) : State :=
  match loopOf s a.port with
  | some q => if serving s then sendLoop q (loopChecks a (portOf s q).loopDepth tagOk s) else s
  | none => arrive a true id s
/-- The effect of LOOP. -/
def execLoop (a : Arrival) (tagOk : Bool) (s : State) : Host.Outcome State Fault Refusal :=
  .next (settle (if a.hop.kind == kLoop then loop a tagOk s else s))

/-- The effect of a frame of a reserved KIND (R170): step 2 of Table 07-11 discards it. -/
def execReservedKindFrame (a : Arrival) (s : State) : Host.Outcome State Fault Refusal :=
  .next (settle (arrive a (a.hop.kind == 0 || decide (9 < a.hop.kind.toNat)) id s))
/-- The effect of a routed frame for another package (R190): step 4 of Table 07-11 forwards or drops it. -/
def execRelayForward (a : Arrival) (s : State) : Host.Outcome State Fault Refusal :=
  .next (settle (arrive a (routedKind a.hop.kind && sidDst a.route != s.fab.id) id s))

/-! ### Port events -/

/-- BEAT_SEND (R201): a beat, unless a perturbation suppresses it (Table 13-11). -/
def beatSend (port : Fin 32) (s : State) : State :=
  if s.ptb.beatPort.toNat = port.val ∧ s.ptb.beatCount ≠ 0 then { s with ptb := { s.ptb with beatCount := s.ptb.beatCount - 1 } }
  else sendBeat port s
/-- The effect of BEAT_SEND. -/
def execBeatSend (port : Fin 32) (s : State) : Host.Outcome State Fault Refusal := .next (whenLive (beatSend port) s)

/-- The effect of NEIGHBOUR_LOST_SILENCE (R22). -/
def execNeighbourLostSilence (port : Fin 32) (s : State) : Host.Outcome State Fault Refusal :=
  .next (whenLive (fun s => if (portOf s port).up then settle (neighbourLost port 1 s) else s) s)

/-- PORT_DOWN (R196, R202): the die reports the port down. -/
def portDown (port : Fin 32) (s : State) : State :=
  let s := portMod port (fun p => { p with trained := false }) s
  if serving s ∧ (portOf s port).up then settle (portLost port 3 s) else s
/-- The effect of PORT_DOWN. -/
def execPortDown (port : Fin 32) (s : State) : Host.Outcome State Fault Refusal := .next (portDown port s)

/-- The effect of PORT_TRAINED (R415). -/
def execPortTrained (port : Fin 32) (s : State) : Host.Outcome State Fault Refusal :=
  .next (tryUp port (portMod port (fun p => { p with trained := true }) s))

/-! ### Lending (R238 to R240) -/

/-- Table 02-11: the active profile enables lending. -/
def lendingOn (s : State) : Bool := !s.pkg.nullProfile && (s.aon.profile == 0 || s.aon.profile == 2)

/-- A wait on a remote chime stands (R238). -/
def remoteWait (s : State) : Bool :=
  let far := fun (f : Fn) (i : Nat) (w : W64) => (mapFind (fnOf s f).fences i).isSome && (fenceOf s f i).local_ == 0xFFFF && decide ((fenceOf s f i).value < w)
  s.prog.any (fun p => match p.act with | .fenceWait i w => far p.fn i w | _ => false)
    || s.fns.any (fun e => e.2.fences.any (fun x => x.2.unitWaits.any (fun u => far (fnAt e.1) x.1 u.2)))

/-- Put the idle halves of the engine of a port to sleep, whether the port is up or not. -/
def lendPort (sealIdle openIdle : BitVec 32) (port : Fin 32) (s : State) : State :=
  if portPresent s port.val then
    portMod port (fun p => { p with lentSeal := p.lentSeal || sealIdle.getLsbD port.val, lentOpen := p.lentOpen || openIdle.getLsbD port.val }) s
  else s

/-- LENDING_CHECK (R238): halves idle for 40 µs lend their upper banks while a wait on a remote chime stands; only in A0. -/
def lendingCheck (sealIdle openIdle : BitVec 32) (s : State) : State :=
  if lendingOn s && remoteWait s && s.pkg.power == .a0 then eachPort (lendPort sealIdle openIdle) allPorts s else s
/-- The effect of LENDING_CHECK. -/
def execLendingCheck (idleSeal idleOpen : BitVec 32) (s : State) : Host.Outcome State Fault Refusal :=
  .next (whenLive (lendingCheck idleSeal idleOpen) s)

/-- The effect of BANK_RESTORE_DONE (R239): the half runs at full rate again. -/
def execBankRestoreDone (port : Fin 32) (openHalf : Bool) (s : State) : Host.Outcome State Fault Refusal :=
  .next (portMod port (fun p => if openHalf then { p with restOpen := false } else { p with restSeal := false }) s)

/-- R240: an engine's lendable budget, in 10 mW units: what was measured, its rated full-load draw less its draw while lent at most, and
2.2 W at most. -/
def lendable (engine measured : Nat) : Nat := min (min measured 220) (Config.ratedDraw engine - Config.lentDraw engine)
/-- The effect of BUDGET_REPORT (R240): the budget of each engine, in the order of their numbers. -/
def execBudgetReport (draws : List Nat) (s : State) : Host.Outcome State Fault Refusal :=
  .next (whenLive (emit (.budget ((draws.zip (List.range draws.length)).map (fun d => lendable d.2 d.1)))) s)

end Sys2Proof.Machine
end

