-- ==== Sys2Proof/Machine/SelfTest.lean ====
section
/-! DEFINITION. SELF_TEST in service (R67, R102, R387 to R394). The units it names are under test from the row that starts the run to
the row that brings its end; what the run finds comes with that row. -/
namespace Sys2Proof.Machine

/-- Table 15-2: the unit's bit of the failing-unit bitmap. -/
def bitmapBit (u : Nat) : Option Nat :=
  if u < 0x22 then some u
  else if 0x30 ≤ u ∧ u < 0x38 then some (34 + (u - 0x30))
  else if 0x40 ≤ u ∧ u < 0x42 then some (42 + (u - 0x40))
  else if 0x50 ≤ u ∧ u < 0x58 then some (44 + (u - 0x50))
  else if 0x70 ≤ u ∧ u < 0x78 then some (52 + (u - 0x70))
  else none

/-- A code of Table 15-2, or 0xFFFF. -/
def unitCode (u : Nat) : Bool :=
  (bitmapBit u).isSome || decide ((0x60 ≤ u ∧ u < 0x70) ∨ (0x80 ≤ u ∧ u < 0x8C) ∨ (0x90 ≤ u ∧ u < 0x94) ∨ u = 0xA0 ∨ u = 0xA1 ∨ u = 0xFFFF)

/-- Codes of the units that have a bitmap bit. -/
def mappedUnits : List Nat :=
  List.range 0x22 ++ (List.range 8).map (· + 0x30) ++ [0x40, 0x41] ++ (List.range 8).map (· + 0x50) ++ (List.range 8).map (· + 0x70)

/-- R54 and Table 02-14: the unit with this code is present: carried, enabled by the profile, and not failed, nor its fabric port failed. A
failed link engine that a spare replaced is none of the rule's absent units; a link engine is no unit behind a fabric port, its port is. -/
def unitHere (s : State) (u : Nat) : Bool :=
  let k := s.aon.profile.toNat
  let nul := s.pkg.nullProfile
  if u < 0x20 then profilePorts nul k && (unitOk s u || engineOfPort s u != u)
  else unitOk s u &&
    (if u < 0x22 then profilePorts nul k
     else if 0x30 ≤ u ∧ u < 0x38 then capBit s.pkg.cap2 (16 + (u - 0x30)) && unitOk s (0x70 + (u - 0x30))
     else if 0x40 ≤ u ∧ u < 0x42 then !nul && unitOk s (0x70 + (u - 0x40))
     else true)

/-- The units that UNIT names. -/
def namedUnits (s : State) (unit : W16) : List Nat :=
  if unit = 0xFFFF then mappedUnits.filter (unitHere s) else [unit.toNat]

/-! ### Quiet units (Table 15-4) -/

/-- The port that a link engine serves. -/
def portOfEngine (s : State) (e : Nat) : Option (Fin 32) := allPorts.find? (fun p => portPresent s p.val && engineOfPort s p.val == e)

/-- A stream open at this package is routed over the port: a sending stream's own port, and for a receiving one a port toward the package
that its frames come from. Log entry 117 (DEDUCED). -/
def streamOver (s : State) (p : Fin 32) : Bool :=
  s.sends.any (fun t => t.port == p)
    || s.recvs.any (fun t => (portOf s p).nbr == some ((t.relays.getLast?).getD (sidSrc t.sid)))

/-- The port is in a loopback, its own or as another port's partner (R208). -/
def looping (s : State) (p : Fin 32) : Bool := (loopOf s p).isSome || (portOf s p).loopDepth != 0
/-- The link engine is quiet. -/
def linkQuiet (s : State) (e : Nat) : Bool :=
  match portOfEngine s e with
  | some p => !streamOver s p && !looping s p
  | none => true
/-- The pool engine is quiet. -/
def poolQuiet (s : State) (k : Nat) : Bool := engineRegions s k == 0 && !s.ptb.poolLoops.contains k
/-- The bulk engine is quiet. -/
def bulkQuiet (s : State) (e : Nat) : Bool := openBulk s e == 0 && s.replayEngine != some e
/-- A unit of Table 15-4 is quiet; a KXE core always is. -/
def unitQuiet (s : State) (u : Nat) : Bool :=
  if u < 0x22 then linkQuiet s u
  else if 0x30 ≤ u ∧ u < 0x38 then poolQuiet s (u - 0x30)
  else if 0x40 ≤ u ∧ u < 0x42 then bulkQuiet s (u - 0x40)
  else if 0x70 ≤ u ∧ u < 0x78 then
    (List.range 4).all (fun n => linkQuiet s (engineOfPort s (4 * (u - 0x70) + n))) && poolQuiet s (u - 0x70) && bulkQuiet s (u - 0x70)
  else true

/-! ### The command -/

/-- Table 04-15: the fixed boot self-test only. -/
def bootOnly (s : State) : Bool := !(lcState s == lcTestOpen || lcState s == lcAssembled || lcState s == lcAnalysis)

/-- What a run finds of the BIST limits (R390). -/
def limitCheck (r : Option TestRun) : Check :=
  match r with
  | some r => if r.limits = 0 then none else some (stLimits, if r.limits = 1 then 0x801 else 0x802)
  | none => none

/-- SELF_TEST's checks. Log entry 116 (DEDUCED). -/
def testChecks (unit : W16) (patterns : W32) (seed : W64) (run : Option TestRun) (s : State) : Checks :=
  { malformed := [badField (!unitCode unit.toNat) 18, badField (decide (2 ^ 20 < patterns.toNat)) 20]
    permitted := [failIf (bootOnly s && (patterns != 0 || seed != 0)) stNotPermitted 0,
      failIf (unit != 0xFFFF && (bitmapBit unit.toNat).isNone) stNotPermitted 0]
    unit := [failIf (unit != 0xFFFF && !unitHere s unit.toNat) stUnitAbsent (unit.setWidth 32)]
    limits := [limitCheck run]
    busy := [lcBusy s, failIf ((namedUnits s unit).any (fun u => underTest s u || !unitQuiet s u)) stBusy 0x7F] }

/-- The key cache of a unit: link engines 0-33, pool engines 34-41, bulk engines 42-43. -/
def unitCache (u : Nat) : Option Nat :=
  if u < 0x22 then some u else if 0x30 ≤ u ∧ u < 0x38 then some (34 + (u - 0x30)) else if 0x40 ≤ u ∧ u < 0x42 then some (42 + (u - 0x40)) else none
/-- A unit's key cache is zeroised; retirements that waited on it end. -/
def zeroiseUnit (u : Nat) (s : State) : State :=
  match unitCache u with
  | some e => (mapGet [] s.ks.caches e).foldl (fun s k => finishRetire k s) (clearCache e s)
  | none => s

/-- RESULT: the failing-unit bitmap. -/
def failBitmap (failed : List W16) : BitVec 128 :=
  BitVec.ofNat 128 ((mappedUnits.filter (fun u => failed.contains (BitVec.ofNat 16 u))).map (fun u => 2 ^ ((bitmapBit u).getD 0))).sum

/-- Ports that have lost their engine or fabric port go down. -/
def dropPorts : List (Fin 32) → State → State
  | [], s => s
  | p :: l, s => dropPorts l (if (portOf s p).up && !portPresent s p.val then portLost p 3 s else s)

/-- The end of a run (R389, R392, R394): the units return to service, but for those that fail. A run that the limits stop marks none. -/
def endTest (units : List W16) (seed : W64) (patterns : Nat) (r : TestRun) (p : InProg) (s : State) : State :=
  let s := { s with pkg := { s.pkg with testing := s.pkg.testing.filter (fun u => !units.contains u) } }
  match limitCheck (some r) with
  | some (st, d) => complete p st d 0 s
  | none =>
    let failed := failing true r.units (units.map (·.toNat)) seed patterns
    let s := keepMisrs r.units (units.map (·.toNat)) seed patterns s
    let s := { s with pkg := { s.pkg with bad := s.pkg.bad ++ failed, serviceFail := s.pkg.serviceFail || !failed.isEmpty } }
    complete p stOk 0 (failBitmap failed) (dropPorts allPorts s)

/-- SEED 0 selects the fixed boot seed (R388), PATTERNS 0 the boot count (Table 03-17). -/
def seedOf (seed : W64) : W64 := if seed = 0 then Config.bootSeed else seed
def patternsOf (patterns : W32) : Nat := if patterns = 0 then Config.bootPatterns else patterns.toNat
/-- A run begins: its units are under test, their caches zeroised; it ends in this row where the row brings its end. -/
def startTest (unit : W16) (patterns : W32) (seed : W64) (run : Option TestRun) (p : InProg) (s : State) : State :=
  let units := (namedUnits s unit).map (BitVec.ofNat 16)
  let s := units.foldl (fun s u => zeroiseUnit u.toNat s)
    (openMisrs (namedUnits s unit) (seedOf seed) (patternsOf patterns) { s with pkg := { s.pkg with testing := s.pkg.testing ++ units } })
  match run with
  | some r => endTest units (seedOf seed) (patternsOf patterns) r p s
  | none => goOn p { engine := true } (.selfTest units (seedOf seed) (patternsOf patterns)) s

/-- The SELF_TEST that a header names is running. -/
def runningTest (s : State) (h : CmdHdr) : Option (InProg × List W16 × W64 × Nat) :=
  match findProg s h.fn h.idx with
  | some p => match p.act with | .selfTest units seed patterns => some (p, units, seed, patterns) | _ => none
  | none => none

/-- The row of SELF_TEST (Table 03-6). -/
def selfTestRow (h : CmdHdr) (unit : W16) (patterns : W32) (seed : W64) (run : Option TestRun) : Row :=
  { hdr := h, opcode := 0x7F, fields := [(18, 2, unit.toNat), (20, 4, patterns.toNat), (24, 8, seed.toNat)],
    checks := testChecks unit patterns seed run }
/-- SELF_TEST: a run begins, or the end of a running one comes. Log entry 115 (DESIGN CHOICE). -/
def selfTest (h : CmdHdr) (unit : W16) (patterns : W32) (seed : W64) (run : Option TestRun) (s : State) : State :=
  match runningTest s h with
  | some (p, units, sd, n) => if serving s then (match run with | some r => settle (endTest units sd n r p s) | none => s) else s
  | none => runRow (selfTestRow h unit patterns seed run) (startTest unit patterns seed run) s
/-- The effect of SELF_TEST. -/
def execSelfTest (h : CmdHdr) (unit : W16) (patterns : W32) (seed : W64) (run : Option TestRun) (s : State) :
    Host.Outcome State Fault Refusal :=
  .next (selfTest h unit patterns seed run s)

end Sys2Proof.Machine
end

