-- ==== Sys2Proof/Machine/Registers.lean ====
section
/-! DEFINITION. The set-up register map (16_register_map.md): what each register reads, the fabric page, the perturbation page, and
writes of registers that have no command of their own. -/
namespace Sys2Proof.Machine

/-! ### Acceptance -/

/-- An access of the PF's BAR 0 beyond the set-up page. -/
def pfAccess (a : RegAcc) (s : State) : Bool := a.fn == .pf && regAccepted a s
/-- R407: the registers that respond before READY: the host's links are up unless the package is held in reset or halted.
Log entry 122 (DEDUCED). -/
def earlyAccess (a : RegAcc) (s : State) : Bool :=
  a.fn == .pf && (a.bytes == 4 || a.bytes == 8) && s.pkg.phase != .off && s.pkg.phase != .halted && s.pkg.power != .off
/-- The access covers bits 31:0. -/
def coversLow (a : RegAcc) : Bool := a.low || a.bytes == 8
/-- The access covers bits 63:32. -/
def coversHigh (a : RegAcc) : Bool := !a.low || a.bytes == 8
/-- The contents of a register that holds `old` after a write of `v`. -/
def mergeReg (a : RegAcc) (old v : W64) : W64 :=
  BitVec.ofNat 64 ((if coversHigh a then v else old).toNat / 2 ^ 32 * 2 ^ 32 + (if coversLow a then v else old).toNat % 2 ^ 32)

/-! ### The package page (Tables 16-11 to 16-17) -/

/-- AVK_STATUS (Table 16-11). -/
def avkStatus (s : State) : W64 :=
  BitVec.ofNat 64 (s.pkg.boot * 2 ^ 32 + (powerCode s.pkg.power).toNat % 4 * 2 ^ 16 + (lcState s).toNat * 2 ^ 8 + flag (s.aon.halt.format != 0) 3
    + flag s.pkg.bistLimits 2 + flag (s.pkg.phase == .recovery) 1 + flag (ready s) 0)
/-- The number of the active profile, 7 for the null profile. -/
def activeProfile (s : State) : Nat := if s.pkg.nullProfile then 7 else s.aon.profile.toNat
/-- AVK_PROFILE (Table 16-16). -/
def avkProfile (s : State) : W64 :=
  BitVec.ofNat 64 (s.pkg.nullReason.toNat * 2 ^ 12 + s.aon.strap.toNat * 2 ^ 8
    + (match s.aon.pendingProfile with | some k => 2 ^ 7 + k.toNat * 2 ^ 4 | none => 0) + activeProfile s)
/-- AVK_TAMPER_STATUS (Table 16-17). -/
def avkTamper (s : State) : W64 :=
  BitVec.ofNat 64 (flag s.aon.l2Armed 56 + s.aon.l2Sources.toNat * 2 ^ 48 + s.aon.droop.toNat * 2 ^ 32 + s.aon.seen.toNat * 2 ^ 16
    + s.aon.armed.toNat * 2 ^ 8 + s.aon.pinsLow.toNat)
/-- AVK_CAP0 to AVK_CAP3: zero until READY (R412). -/
def avkCap (s : State) (k : Nat) : W64 :=
  if !ready s then 0 else if k = 0 then s.pkg.cap0 else if k = 1 then s.pkg.cap1 else if k = 2 then s.pkg.cap2 else s.pkg.cap3

/-- AVK_HALT0 to AVK_HALT7: the halt record of Table 14-4 in address order. -/
def haltWords (r : HaltRec) : List W64 :=
  [BitVec.ofNat 64 (r.format.toNat + r.cause.toNat * 2 ^ 16 + r.level.toNat * 2 ^ 24 + r.sources.toNat * 2 ^ 32), r.boot, r.tick,
   BitVec.ofNat 64 (r.unit.toNat + r.jobId.toNat * 2 ^ 16 + r.streamId.toNat * 2 ^ 32), r.whereF,
   BitVec.ofNat 64 (r.regionId.toNat + r.lcState.toNat * 2 ^ 40 + r.kid.toNat * 2 ^ 48),
   BitVec.ofNat 64 (r.powerState.toNat + r.haltCount.toNat * 2 ^ 32), 0]

/-! ### The set-up page (Tables 16-2 to 16-8) -/

/-- AVK_RING_STATUS (Table 16-8). -/
def ringStatus (s : State) (f : Fn) : W64 :=
  let r := ringOf s f
  BitVec.ofNat 64 (r.faultCode.toNat * 2 ^ 32 + (progOf s f).length * 2 ^ 24 + r.enableErr.toNat * 2 ^ 8 + flag r.faulted 1 + flag r.enabled 0)

/-- A register of the set-up page. -/
def readSetup (s : State) (f : Fn) (o : Nat) : W64 :=
  let r := ringOf s f
  if o = 0x000 then r.cmdBase else if o = 0x008 then r.cplBase else if o = 0x010 then r.dbrecBase
  else if o = 0x018 then BitVec.ofNat 64 (r.cplLog2.toNat * 2 ^ 8 + r.cmdLog2.toNat)
  else if o = 0x020 then r.vector.setWidth 64 else if o = 0x028 then BitVec.ofNat 64 (flag r.ctrl 0)
  else if o = 0x030 then ringStatus s f else if o = 0x100 then avkStatus s
  else if o = 0x108 then avkCap s 0 else if o = 0x110 then avkCap s 1 else if o = 0x118 then avkCap s 2 else if o = 0x120 then avkCap s 3
  else 0

/-- The registers that respond before READY (R407). -/
def readEarly (s : State) (o : Nat) : W64 :=
  if o = 0x2000 then avkStatus s else if o = 0x2028 then avkProfile s else if o = 0x2030 then avkTamper s
  else if o = 0x2038 then BitVec.ofNat 64 (flag s.aon.recoveryReq 0)
  else if 0x3000 ≤ o ∧ o < 0x3040 ∧ o % 8 = 0 then (haltWords s.aon.halt).getD ((o - 0x3000) / 8) 0 else 0

/-- The fabric page (R415, R416): a data register reads the entry that DEST and SEL name. -/
def readFabric (s : State) (o : Nat) : W64 :=
  let e := routeEntry s s.fab.dest s.fab.sel
  if o = 0x000 then BitVec.ofNat 64 (flag s.fab.bridge 16 + s.fab.id.toNat) else if o = 0x008 then BitVec.ofNat 64 (flag s.fab.go 0)
  else if o = 0x010 then BitVec.ofNat 64 (s.fab.sel.toNat * 2 ^ 12 + s.fab.dest.toNat)
  else if o = 0x018 then e.1 else if o = 0x020 then e.2.setWidth 64 else 0

/-- The perturbation page (Table 16-26): zero while the registers do not act (R365). -/
def readPtb (s : State) (o : Nat) : W64 :=
  let p := s.ptb
  if !perturbActs s then 0
  else if o = 0x000 then BitVec.ofNat 64 (p.hskCrossing.toNat * 2 ^ 8 + p.hskDelay.toNat) else if o = 0x008 then p.bp.setWidth 64
  else if o = 0x010 then BitVec.ofNat 64 (p.tagPort.toNat * 2 ^ 16 + p.tagCycles.toNat)
  else if o = 0x018 then BitVec.ofNat 64 (p.beatPort.toNat * 2 ^ 8 + p.beatCount.toNat) else if o = 0x020 then p.loopLast.setWidth 64
  else 0

/-- What a read of a register returns: R404 (offsets not named read as zero), R406 (a VF in RUN reads as zero outside its bound stream),
R407 (until READY). -/
def readReg (a : RegAcc) (o : Nat) (s : State) : W64 :=
  if a.fn = .pf ∧ (readEarly s o ≠ 0) then readEarly s o
  else if !ready s then 0
  else match a.fn with
    | .vf _ => if 0x1000 ≤ o ∧ o < 0x2000 ∧ !((fnOf s a.fn).tdi.state == .run && !a.trusted) then readSetup s a.fn (o - 0x1000) else 0
    | .pf =>
      if 0x1000 ≤ o ∧ o < 0x2000 then readSetup s .pf (o - 0x1000)
      else if o = 0x2008 then avkCap s 0 else if o = 0x2010 then avkCap s 1 else if o = 0x2018 then avkCap s 2
      else if o = 0x2020 then avkCap s 3
      else if 0x4000 ≤ o ∧ o < 0x5000 then readFabric s (o - 0x4000)
      else if 0x5000 ≤ o ∧ o < 0x6000 then readPtb s (o - 0x5000) else 0

/-- R405: a host read of 8 bytes returns the register, one of 4 bytes the half it names; none where it completes as an unsupported request,
or the host has no link. -/
def hostRead (a : RegAcc) (o : Nat) (s : State) : Option W64 :=
  let v := readReg a o s
  if !hostUp s then none
  else if a.bytes = 8 then some v
  else if a.bytes = 4 then some (BitVec.ofNat 64 (if a.low then v.toNat % 2 ^ 32 else v.toNat / 2 ^ 32))
  else none

/-! ### Halt record, recovery request -/

/-- The newest record of the halt log is marked as cleared. -/
def clearNewest (l : List (HaltRec × Bool)) : List (HaltRec × Bool) :=
  match l.getLast? with | some (r, _) => l.dropLast ++ [(r, true)] | none => l
/-- HALT_CLEAR (R414): CLEAR of AVK_HALT_CLR is written. -/
def haltClear (a : RegAcc) (s : State) : State :=
  if earlyAccess a s && coversLow a then
    { s with aon := { s.aon with halt := {} }, flash := { s.flash with haltLog := clearNewest s.flash.haltLog } }
  else s
/-- The effect of HALT_CLEAR. -/
def execHaltClear (a : RegAcc) (s : State) : Host.Outcome State Fault Refusal := .next (haltClear a s)

/-- RECOVERY_REQUEST (R413): REQ of AVK_RECOVERY_REQ is set. -/
def recoveryRequest (a : RegAcc) (s : State) : State :=
  if earlyAccess a s && coversLow a then { s with aon := { s.aon with recoveryReq := true } } else s
/-- The effect of RECOVERY_REQUEST. -/
def execRecoveryRequest (a : RegAcc) (s : State) : Host.Outcome State Fault Refusal := .next (recoveryRequest a s)

/-! ### The fabric page (R415, R416) -/

/-- GO (R415): the page is locked; ports that the dies report trained come up. -/
def setGo (a : RegAcc) (s : State) : State :=
  if pfAccess a s && coversLow a then eachPort tryUp allPorts { s with fab := { s.fab with go := true } } else s
/-- The effect of GO. -/
def execGo (a : RegAcc) (s : State) : Host.Outcome State Fault Refusal := .next (setGo a s)

/-- R416: a write of AVK_ROUTE_DATA1 (`reg1`), of either half or both, or of bits 63:32 of AVK_ROUTE_DATA0 alone, is staged. -/
def routeStage (a : RegAcc) (reg1 : Bool) (v : W64) (s : State) : State :=
  if !pfAccess a s || s.fab.go then s
  else if reg1 then { s with fab := { s.fab with stage1 := (mergeReg a (s.fab.stage1.setWidth 64) v).setWidth 60 } }
  else if coversLow a then s
  else { s with fab := { s.fab with stage0 := BitVec.ofNat 32 (v.toNat / 2 ^ 32) } }
/-- The effect of ROUTE_STAGE. -/
def execRouteStage (a : RegAcc) (reg1 : Bool) (value : W64) (s : State) : Host.Outcome State Fault Refusal := .next (routeStage a reg1 value s)

/-- R416: an entry with these contents is stored with VALID forced to 0. -/
def routeRefused (s : State) (data0 : W64) (data1 : BitVec 60) : Bool :=
  let n := data0.toNat % 8
  let relays := (List.range (min n 5)).map (fun i => (data1.extractLsb' (12 * i) 12 : BitVec 12))
  decide (5 < n) || (decide (2 < n) && !s.fab.bridge && relays.all (fun r => podOf r == podOf s.fab.id)) || s.fab.dest == s.fab.id
/-- RELAY_ID with the relays beyond RELAYS at zero (Table 16-25). -/
def relayField (n : Nat) (data1 : BitVec 60) : BitVec 60 := BitVec.ofNat 60 (data1.toNat % 2 ^ (12 * min n 5))
/-- The fields of AVK_ROUTE_DATA0 (Table 16-24). -/
def routeField (v : W64) : W64 := v &&& 0x8000000000001F07

/-- ROUTE_COMMIT (R416): a write of AVK_ROUTE_DATA0 that covers bits 31:0 commits the entry that DEST and SEL name.
Log entry 120 (DEDUCED). -/
def routeCommit (a : RegAcc) (v : W64) (s : State) : State :=
  if !(pfAccess a s && coversLow a) || s.fab.go then s
  else
    let hi := if coversHigh a then v.toNat / 2 ^ 32 else s.fab.stage0.toNat
    let d0 := routeField (BitVec.ofNat 64 (hi * 2 ^ 32 + v.toNat % 2 ^ 32))
    let d1 := relayField (d0.toNat % 8) s.fab.stage1
    let d0 := if routeRefused s d0 d1 then d0 &&& 0x7FFFFFFFFFFFFFFF else d0
    { s with fab := { s.fab with stage0 := 0, stage1 := 0, routes := mapPut (0, 0) s.fab.routes (s.fab.dest.toNat * 4 + s.fab.sel.toNat) (d0, d1) } }
/-- The effect of ROUTE_COMMIT. -/
def execRouteCommit (a : RegAcc) (value : W64) (s : State) : Host.Outcome State Fault Refusal := .next (routeCommit a value s)

/-! ### The perturbation page (R365, R417) -/

/-- A write of a perturbation register: counted as PTB_REFUSED where the registers do not act, and else `g`. Log entry 121 (DEDUCED). -/
def ptbWrite (a : RegAcc) (g : State → State) (s : State) : State :=
  if !pfAccess a s then s
  else if !perturbActs s then countPkg 0x14 s
  else if coversLow a then g s
  else s

/-- Bits `lo` up, `n` of them, of a value. -/
def fieldOf (v : W64) (lo n : Nat) : Nat := v.toNat / 2 ^ lo % 2 ^ n

/-- A CROSSING names two islands that differ (R417). -/
def crossingOk (c : Nat) : Bool := decide (c / 8 < 6 ∧ c % 8 < 6 ∧ c / 8 ≠ c % 8)
/-- PTB_HSK_WRITE. -/
def ptbHsk (v : W64) (s : State) : State :=
  let c := fieldOf v 8 6
  { s with ptb := { s.ptb with hskCrossing := if crossingOk c then BitVec.ofNat 6 c else 0
                               hskDelay := if crossingOk c then v.setWidth 8 else 0 } }
/-- The effect of PTB_HSK_WRITE. -/
def execPtbHskWrite (a : RegAcc) (value : W64) (s : State) : Host.Outcome State Fault Refusal := .next (ptbWrite a (ptbHsk value) s)

/-- PTB_BP_WRITE. -/
def ptbBp (v : W64) (s : State) : State := { s with ptb := { s.ptb with bp := v.setWidth 32 } }
/-- The effect of PTB_BP_WRITE. -/
def execPtbBpWrite (a : RegAcc) (value : W64) (s : State) : Host.Outcome State Fault Refusal := .next (ptbWrite a (ptbBp value) s)

/-- PTB_TAGHOLD_WRITE. -/
def ptbTaghold (v : W64) (s : State) : State :=
  { s with ptb := { s.ptb with tagPort := BitVec.ofNat 5 (fieldOf v 16 5), tagCycles := v.setWidth 12 } }
/-- The effect of PTB_TAGHOLD_WRITE. -/
def execPtbTagholdWrite (a : RegAcc) (value : W64) (s : State) : Host.Outcome State Fault Refusal := .next (ptbWrite a (ptbTaghold value) s)

/-- PTB_BEAT_WRITE. -/
def ptbBeat (v : W64) (s : State) : State :=
  { s with ptb := { s.ptb with beatPort := BitVec.ofNat 5 (fieldOf v 8 5), beatCount := v.setWidth 8 } }
/-- The effect of PTB_BEAT_WRITE. -/
def execPtbBeatWrite (a : RegAcc) (value : W64) (s : State) : Host.Outcome State Fault Refusal := .next (ptbWrite a (ptbBeat value) s)

/-- A loop's debug KID is retired; `k` is 0-31 for ports, 32-39 for pool engines. -/
def dropLoopKid (k : Nat) (s : State) : State :=
  match mapFind s.ptb.loopKids k with
  | some kid => retireKid kid { s with ptb := { s.ptb with loopKids := mapErase s.ptb.loopKids k } }
  | none => s
/-- A fresh debug KID for a loop (R208, R282). -/
def takeLoopKid (k : Nat) (s : State) : State :=
  let (kid, s) := placeDebug s
  { s with ptb := { s.ptb with loopKids := mapSet s.ptb.loopKids k kid } }

/-- R208: the loopback of a port ends. -/
def endPortLoop (p : Fin 32) (s : State) : State := portMod p (fun x => { x with loopDepth := 0, loopPartner := 0 }) (dropLoopKid p.val s)
/-- R282: the local loop of a pool engine ends. -/
def endPoolLoop (k : Nat) (s : State) : State :=
  let s := endLoop k (dropLoopKid (32 + k) s)
  { s with ptb := { s.ptb with poolLoops := s.ptb.poolLoops.filter (· != k) } }

/-- AVK_PTB_LOOP reads as `v` from now on: the setting of the target last written, or zero for one that is not taken (R417). -/
def loopReads (v : W32) (s : State) : State := { s with ptb := { s.ptb with loopLast := v } }
/-- The loop setting of a port is stored, and its first test frame sent; depth 0 is off (R208). -/
def setPortLoop (p : Fin 32) (depth : Nat) (partner : BitVec 5) (last : W32) (s : State) : State :=
  let s := endPortLoop p s
  if !portPresent s p.val ∨ 4 < depth then loopReads 0 s
  else if depth = 0 then loopReads last s
  else if (intSlotCheck s).isSome then loopReads 0 s
  else
    let s := takeLoopKid p.val (portMod p (fun x => { x with loopDepth := depth, loopPartner := if depth = 2 then partner else 0 }) s)
    loopReads last (sendLoop p s)
/-- The loop setting of a pool engine is stored, and its loop starts; the loop takes the place of the engine's home, so none starts while a
region is bound. Log entry 118 (DEDUCED). -/
def setPoolLoop (k depth : Nat) (last : W32) (s : State) : State :=
  let s := endPoolLoop k s
  if !poolPresent s k ∨ 1 < depth then loopReads 0 s
  else if depth = 0 then loopReads last s
  else if engineRegions s k ≠ 0 ∨ (intSlotCheck s).isSome then loopReads 0 s
  else
    let s := takeLoopKid (32 + k) s
    let kid := mapGet 0 s.ptb.loopKids (32 + k)
    loopReads last (startLoop k kid { s with ptb := { s.ptb with poolLoops := s.ptb.poolLoops ++ [k] } })

/-- PTB_LOOP_WRITE (R208, R282, Table 16-26). Log entry 119 (DEDUCED). -/
def ptbLoop (v : W64) (s : State) : State :=
  let depth := fieldOf v 8 3
  let last := BitVec.ofNat 32 (v.toNat % 2 ^ 32) &&& 0x001F079F
  if v.getLsbD 7 then (if fieldOf v 0 5 < 8 then setPoolLoop (fieldOf v 0 5) depth last s else loopReads 0 s)
  else setPortLoop ⟨fieldOf v 0 5, Nat.mod_lt _ (by decide)⟩ depth (BitVec.ofNat 5 (fieldOf v 16 5)) last s
/-- The effect of PTB_LOOP_WRITE. -/
def execPtbLoopWrite (a : RegAcc) (value : W64) (s : State) : Host.Outcome State Fault Refusal := .next (ptbWrite a (ptbLoop value) s)

/-! ### REGISTER_WRITE (R4, R404 to R409) -/

/-- A ring register is written: ignored while ENABLED reads 1 (R76, R409). -/
def writeRing (a : RegAcc) (o : Nat) (v : W64) (s : State) : State :=
  let m := fun (old : W64) => mergeReg a old v
  let lo := fun (g : RingSt → RingSt) => if coversLow a then ringMod a.fn g s else s
  if !regAccepted a s || (ringOf s a.fn).enabled then s
  else if o = 0x000 then ringMod a.fn (fun r => { r with cmdBase := m r.cmdBase }) s
  else if o = 0x008 then ringMod a.fn (fun r => { r with cplBase := m r.cplBase }) s
  else if o = 0x010 then ringMod a.fn (fun r => { r with dbrecBase := m r.dbrecBase }) s
  else if o = 0x018 then lo (fun r => { r with cplLog2 := BitVec.ofNat 4 (fieldOf v 8 4), cmdLog2 := v.setWidth 4 })
  else if o = 0x020 then lo (fun r => { r with vector := v.setWidth 2 })
  else s

/-- SEEN of AVK_TAMPER_STATUS is written (W1C); the register responds before READY. -/
def writeSeen (a : RegAcc) (v : W64) (s : State) : State :=
  if earlyAccess a s && coversLow a then
    { s with aon := { s.aon with seen := s.aon.seen &&& ~~~(BitVec.ofNat 6 (fieldOf v 16 6)) } }
  else s
/-- AVK_FAB_ID is written: RO/L under GO (Table 16-21). -/
def writeFabId (a : RegAcc) (v : W64) (s : State) : State :=
  if pfAccess a s && coversLow a && !s.fab.go then { s with fab := { s.fab with id := v.setWidth 12, bridge := v.getLsbD 16 } } else s
/-- AVK_ROUTE_SEL is written (RW, Table 16-23). -/
def writeRouteSel (a : RegAcc) (v : W64) (s : State) : State :=
  if pfAccess a s && coversLow a then { s with fab := { s.fab with dest := v.setWidth 12, sel := BitVec.ofNat 2 (fieldOf v 12 2) } } else s

/-- A write of AVK_RING_CTRL: ENABLE takes bit 0. -/
def writeCtrl (a : RegAcc) (v : W64) (s : State) : State := if v.getLsbD 0 then ringEnable a s else ringDisable a s
/-- A write of AVK_ROUTE_DATA0: a commit where it covers bits 31:0, and else staged. -/
def writeRoute0 (a : RegAcc) (v : W64) (s : State) : State := if coversLow a then routeCommit a v s else routeStage a false v s

/-- REGISTER_WRITE: the value reaches the register at an offset of BAR 0; offsets not named ignore it, and so do registers that are RO. -/
def registerWrite (a : RegAcc) (offset : W16) (v : W64) (s : State) : State :=
  let o := offset.toNat
  if o < 0x1000 then wakeWrite a (offset.setWidth 12) s
  else if o = 0x1028 then writeCtrl a v s
  else if o < 0x2000 then writeRing a (o - 0x1000) v s
  else if o = 0x2030 then writeSeen a v s
  else if o = 0x2038 then (if v.getLsbD 0 then recoveryRequest a s else s)
  else if o = 0x3040 then (if v.getLsbD 0 then haltClear a s else s)
  else if o = 0x4000 then writeFabId a v s
  else if o = 0x4008 then (if v.getLsbD 0 then setGo a s else s)
  else if o = 0x4010 then writeRouteSel a v s
  else if o = 0x4018 then writeRoute0 a v s
  else if o = 0x4020 then routeStage a true v s
  else if o = 0x5000 then ptbWrite a (ptbHsk v) s
  else if o = 0x5008 then ptbWrite a (ptbBp v) s
  else if o = 0x5010 then ptbWrite a (ptbTaghold v) s
  else if o = 0x5018 then ptbWrite a (ptbBeat v) s
  else if o = 0x5020 then ptbWrite a (ptbLoop v) s
  else s
/-- The effect of REGISTER_WRITE. -/
def execRegisterWrite (a : RegAcc) (offset : W16) (value : W64) (s : State) : Host.Outcome State Fault Refusal :=
  .next (registerWrite a offset value s)

end Sys2Proof.Machine
end

