-- ==== Sys2Proof/Machine/Spdm.lean ====
section
/-! DEFINITION. The DOE mailboxes and the SPDM responder (R146 to R157). Error and request codes are those of SPDM 1.3. -/
namespace Sys2Proof.Machine

/-! ### Mailboxes -/

/-- A port's mailbox. -/
def mailOf (s : State) (p : BitVec 1) : MailSt := if p = 0 then s.mail0 else s.mail1
/-- Change a port's mailbox. -/
def mailMod (p : BitVec 1) (g : MailSt → MailSt) (s : State) : State :=
  if p = 0 then { s with mail0 := g s.mail0 } else { s with mail1 := g s.mail1 }
/-- Send a response. -/
def respond (p : BitVec 1) (r : Resp) (s : State) : State := emit (.respond p r) s
/-- R146: the mailbox holds a request that has not been answered: one in the KXE, or a STOP that waits for its cleanup. -/
def mailBusy (s : State) (p : BitVec 1) : Bool :=
  ((mailOf s p).owed.isSome && !(mailOf s p).deferred) || s.fns.any (fun e => e.2.tdi.stopOwed.contains p)

/-- A request reaches a mailbox: in A3 it is held and Aedvik asks for A2; in A2 it asks for A1 (R380); none is answered before ready,
in OFF, from a halt on, or while the mailbox holds another (R146). Log entry 131 (DEDUCED). -/
def mail (p : BitVec 1) (me : Instr) (f : State → State) (s : State) : State :=
  if !ready s || s.pkg.power == .off then s
  else if s.pkg.power = .a3 then
    if (mailOf s p).held.isSome then s else emit (.powerAsk .a2) (mailMod p (fun m => { m with held := some me }) s)
  else if mailBusy s p then s
  else
    let s := { s with mailArb := ~~~p }
    f (if s.pkg.power = .a2 then emit (.powerAsk .a1) s else s)

/-- The ErrorCodes used. Log entry 128 (PRESUMED). -/
def eInvalidRequest : Byte := 0x01
def eDecrypt : Byte := 0x06
def eUnsupported : Byte := 0x07
def eSessionLimit : Byte := 0x0A
def eSessionRequired : Byte := 0x0B
def eVersion : Byte := 0x41
def eNotReady : Byte := 0x42

/-- ERROR, UnsupportedRequest, with the request code as data (R150). -/
def unsupported (q : SpdmReq) (code : Byte) (s : State) : State := respond q.port (.error eUnsupported code) s
/-- Table 01-4: the DSM port drops a message with a parity error; the requester receives an error response, whose code is an open value. -/
def parityDrop (q : SpdmReq) (s : State) : State := respond q.port (.error ((opened s).setWidth 8) 0) (bumpOpen s)
/-- An SPDM request: its parity, then its version are checked first (R18, R147). Log entry 130 (DEDUCED). -/
def spdm (q : SpdmReq) (me : Instr) (f : State → State) (s : State) : State :=
  mail q.port me (fun s => if q.parity then parityDrop q s else if q.version13 then f s else respond q.port (.error eVersion 0) s) s

/-- Table 06-3: PROVISIONED or DEPLOYED. -/
def fieldState (s : State) : Bool := lcState s == lcProvisioned || lcState s == lcDeployed
/-- A request that Table 06-3 lists under PROVISIONED or DEPLOYED with the DRS usable. -/
def attested (q : SpdmReq) (code : Byte) (f : State → State) (s : State) : State := if drsUsable s then f s else unsupported q code s

/-- The established session that a request is in. Log entry 132 (DEDUCED). -/
def sessionOf (s : State) (q : SpdmReq) : Option SessionSt :=
  match q.session with
  | some i => (mailOf s q.port).sessions.find? (fun x => x.id == i && x.established)
  | none => none

/-! ### Connection (R147 to R149) -/

/-- DOE Discovery (R146): the three data object types of the mailbox: vendor 0x0001, types 0 Discovery, 1 CMA/SPDM and 2 Secured CMA/SPDM.
Log entry 178 (PRESUMED). -/
def doeDiscovery (p : BitVec 1) (index : Byte) (s : State) : State :=
  respond p (if index.toNat < 3 then .doeDiscovery 0x0001 index (if index = 2 then 0 else index + 1) else .doeDiscovery 0xFFFF 0xFF 0) s
/-- The effect of DOE_DISCOVERY. -/
def execDoeDiscovery (port : BitVec 1) (index : Byte) (s : State) : Host.Outcome State Fault Refusal :=
  .next (mail port (.doeDiscovery port index) (doeDiscovery port index) s)

/-- GET_VERSION: the single entry 1.3. Log entry 178 (PRESUMED). -/
def getVersion (q : SpdmReq) (s : State) : State :=
  respond q.port (.version [0x1300]) (mailMod q.port (fun m => { m with phase := .version, owed := none, deferred := false, ready := none }) s)
/-- The effect of GET_VERSION. -/
def execGetVersion (q : SpdmReq) (s : State) : Host.Outcome State Fault Refusal := .next (spdm q (.getVersion q) (getVersion q) s)

/-- CERT_CAP, CHAL_CAP, MEAS_CAP = 0b10, MEAS_FRESH_CAP, ENCRYPT_CAP, MAC_CAP, KEY_EX_CAP (Table 06-1), at their places in SPDM 1.3. -/
def capFlags : W32 := 0x02 ||| 0x04 ||| 0x10 ||| 0x20 ||| 0x40 ||| 0x80 ||| 0x200
/-- GET_CAPABILITIES (Table 06-1). -/
def getCapabilities (q : SpdmReq) (s : State) : State :=
  respond q.port (.capabilities capFlags 16 16384 16384) (mailMod q.port (fun m => { m with phase := .capabilities }) s)
/-- The effect of GET_CAPABILITIES. -/
def execGetCapabilities (q : SpdmReq) (s : State) : Host.Outcome State Fault Refusal := .next (spdm q (.getCapabilities q) (getCapabilities q) s)

/-- Table 06-2 at the places of SPDM 1.3: DMTF, opaque data format 1, P-384, SHA-384 twice, secp384r1, AES-256-GCM, none, the SPDM key
schedule. Log entry 178 (PRESUMED). -/
def selection : Algorithms :=
  { measurementSpec := 0x01, otherParams := 0x02, baseAsym := 0x80, baseHash := 0x02, measurementHash := 0x04, dhe := 0x10, aead := 0x02
    reqBaseAsym := 0, keySchedule := 0x01 }
/-- An offer holds every algorithm of the selection. -/
def offersAll (o : Algorithms) : Bool :=
  let x := selection
  o.measurementSpec &&& x.measurementSpec == x.measurementSpec && o.otherParams &&& x.otherParams == x.otherParams
    && o.baseAsym &&& x.baseAsym == x.baseAsym && o.baseHash &&& x.baseHash == x.baseHash
    && o.measurementHash &&& x.measurementHash == x.measurementHash && o.dhe &&& x.dhe == x.dhe && o.aead &&& x.aead == x.aead
    && o.reqBaseAsym &&& x.reqBaseAsym == x.reqBaseAsym && o.keySchedule &&& x.keySchedule == x.keySchedule

/-- NEGOTIATE_ALGORITHMS (R149): every algorithm of Table 06-2 must be offered. -/
def negotiate (q : SpdmReq) (offer : Algorithms) (s : State) : State :=
  if offersAll offer then respond q.port (.algorithms selection) (mailMod q.port (fun m => { m with phase := .negotiated }) s)
  else respond q.port (.error eInvalidRequest 0) (mailMod q.port (fun m => { m with phase := .capabilities }) s)
/-- The effect of NEGOTIATE_ALGORITHMS. -/
def execNegotiateAlgorithms (q : SpdmReq) (offer : Algorithms) (s : State) : Host.Outcome State Fault Refusal :=
  .next (spdm q (.negotiateAlgorithms q offer) (negotiate q offer) s)

/-! ### Certificates and challenge (R153, R154) -/

/-- R154: slot 1 is populated: DEPLOYED, with an owner chain of the owner key in force whose leaf is the identity key. -/
def slot1 (s : State) : Option OwnerChain :=
  match s.flash.chain with
  | some c => if lcState s = lcDeployed ∧ c.rootHash = ownerHash s ∧ c.certsOk ∧ c.leafIsIdentity then some c else none
  | none => none
/-- The chain of a certificate slot as GET_CERTIFICATE returns it, at most 16,384 bytes (R153); none where the slot is empty. -/
def slotChain (s : State) (slot : Byte) : Option (List Byte) :=
  if slot = 0 then some (s.flash.talward.take Config.chainMax)
  else if slot = 1 then (slot1 s).map (fun c => c.bytes.take Config.chainMax) else none

/-- GET_DIGESTS: the populated slots and the SHA-384 of their chains. -/
def getDigests (q : SpdmReq) (s : State) : State :=
  respond q.port (.digests (if (slot1 s).isSome then 3 else 1) (([0, 1] : List Byte).filterMap (fun k => (slotChain s k).map Config.sha384))) s
/-- The effect of GET_DIGESTS. -/
def execGetDigests (q : SpdmReq) (s : State) : Host.Outcome State Fault Refusal := .next (spdm q (.getDigests q) (attested q 0x81 (getDigests q)) s)

/-- GET_CERTIFICATE: a portion of a slot's chain. -/
def getCertificate (q : SpdmReq) (slot : Byte) (offset length : W16) (s : State) : State :=
  match slotChain s slot with
  | some c =>
    if offset.toNat < c.length then
      let part := (c.drop offset.toNat).take length.toNat
      respond q.port (.certificate slot offset part (c.length - offset.toNat - part.length)) s
    else respond q.port (.error eInvalidRequest 0) s
  | none => respond q.port (.error eInvalidRequest 0) s
/-- The effect of GET_CERTIFICATE. -/
def execGetCertificate (q : SpdmReq) (slot : Byte) (offset length : W16) (s : State) : Host.Outcome State Fault Refusal :=
  .next (spdm q (.getCertificate q slot offset length) (attested q 0x82 (getCertificate q slot offset length)) s)

/-- A response that the KXE must sign first. Where it would take longer than 2^CTExponent µs, the request is answered ResponseNotReady and the
response waits for RESPOND_IF_READY (R152). -/
def owe (q : SpdmReq) (r : Resp) (s : State) : State :=
  let late := Config.slow s.draws
  let s := mailMod q.port (fun m => { m with owed := some r, deferred := late, ready := none }) s
  if late then respond q.port (.error eNotReady 0) s else s
/-- The ECDSA signature of a response, by the identity P-384 key whichever slot the request names (R154). -/
def signed (s : State) : List Byte :=
  match s.ks.identity with | some k => Config.ecdsaSign k.ecD (Config.transcript s.draws) | none => []

/-- CHALLENGE: slot 0 or 1, signed with the identity P-384 key. -/
def challenge (q : SpdmReq) (slot : Byte) (s : State) : State :=
  if (slotChain s slot).isSome then owe q (.challengeAuth slot (drawn s) (signed s)) (bumpDraw s) else respond q.port (.error eInvalidRequest 0) s
/-- The effect of CHALLENGE. -/
def execChallenge (q : SpdmReq) (slot : Byte) (nonce : Key) (s : State) : Host.Outcome State Fault Refusal :=
  .next (spdm q (.challenge q slot nonce) (attested q 0x83 (challenge q slot)) s)

/-! ### Measurements (R155 to R157) -/

/-- Block 4: firmware configuration. -/
def block4 (s : State) : List Byte :=
  (if s.pkg.nullProfile then 0xFF else s.aon.profile.setWidth 8) :: s.pkg.nullReason.setWidth 8 :: zeros 2
    ++ if s.pkg.nullProfile then zeros 48 else be 48 (Config.profileHash s.aon.profile.toNat).toNat
/-- Block 5: hardware configuration. -/
def block5 (s : State) : List Byte :=
  let b := lcStatusOf s
  [b.state, b.progress, b.flags, b.ownerSlot, if s.pkg.serviceFail then 1 else 0] ++ zeros 3 ++ le 8 s.otp.deviceId.toNat
    ++ le 8 (rightsInForce s).toNat ++ be 48 (ownerHash s).toNat

/-- The record bytes of measurement blocks: index, specification DMTF, sizes, value type, value: 7 bytes before each value (R156).
Log entry 178 (PRESUMED). -/
def recordOf (l : Measurements) : List Byte :=
  l.flatMap (fun b => [b.1, 0x01] ++ le 2 (3 + b.2.2.length) ++ [b.2.1] ++ le 2 b.2.2.length ++ b.2.2)
/-- The 101 bytes that block 0xF1 signs (R156): "AVK1-PQ-MEAS", 0x00, the requester's nonce, DEVICE_ID, SHA-384 of the record before it. -/
def measMessage (s : State) (nonce : Key) (before : Measurements) : List Byte :=
  [0x41, 0x56, 0x4B, 0x31, 0x2D, 0x50, 0x51, 0x2D, 0x4D, 0x45, 0x41, 0x53, 0x00] ++ be 32 nonce.toNat ++ be 8 s.otp.deviceId.toNat
    ++ be 48 (Config.sha384 (recordOf before)).toNat

/-- The pairs that blocks 8, 0xF0 and 0xF1 rest on: none in states without a usable DRS (R155). -/
def attestPairs (s : State) : Option IdentityKeys := if drsUsable s then s.ks.identity else none
/-- A measurement block of indices 1 to 9 and 0xF0 (Table 06-6): DMTF value type, with 0x80 for a raw value, and value. Log entry 178
(PRESUMED). -/
def block (s : State) (i : Byte) : Option (Byte × List Byte) :=
  if i = 1 then some (0x00, be 48 Config.romHash.toNat)
  else if i = 2 then some (0x01, be 48 s.pkg.measurement.toNat)
  else if i = 3 then some (0x87, le 2 s.pkg.svn ++ le 4 s.pkg.version.toNat ++ zeros 2)
  else if i = 4 then some (0x83, block4 s)
  else if i = 5 then some (0x82, block5 s)
  else if i = 6 then some (0x82, (List.range 4).flatMap (fun k => le 4 (avkCap s k).toNat))
  else if i = 7 then some (0x82, le 4 s.pkg.paired.toNat)
  else if i = 8 then (attestPairs s).map (fun k => (0x89, kePublic k ++ be 48 s.ks.keHash.toNat))
  else if i = 9 then some (0x89, le 8 s.pkg.boot)
  else if i = 0xF0 then (attestPairs s).map (fun k => (0x89, Config.mldsaPublic k.xi))
  else none

/-- Every block before 0xF1 that is present, in index order. -/
def plainBlocks (s : State) : Measurements :=
  ([1, 2, 3, 4, 5, 6, 7, 8, 9, 0xF0] : List Byte).filterMap (fun i => (block s i).map (fun v => (i, v)))
/-- Every block of a request of all blocks; a signed one, whose nonce is given, ends in block 0xF1 (R156). -/
def allBlocks (s : State) (nonce : Option Key) : Measurements :=
  plainBlocks s ++ match nonce, attestPairs s with
    | some n, some k => [(0xF1, 0x89, Config.mldsaSign k.xi [] (measMessage s n (plainBlocks s)))]
    | _, _ => []

/-- GET_MEASUREMENTS: the blocks that INDEX names: 0xFF all, 0 none (their number), else one; signed through the KXE. Log entry 133
(DEDUCED). -/
def getMeasurements (q : SpdmReq) (index : Byte) (signs : Option Key) (s : State) : State :=
  let blocks : Option Measurements :=
    if index = 0xFF then some (allBlocks s signs) else if index = 0 then some [] else (block s index).map (fun v => [(index, v)])
  match blocks with
  | none => respond q.port (.error eInvalidRequest 0) s
  | some l =>
    if signs.isSome then owe q (.measurements l (drawn s) (some (signed s))) (bumpDraw s) else respond q.port (.measurements l 0 none) s
/-- The effect of GET_MEASUREMENTS. Raw bit streams come in digest form, so `raw` changes nothing. -/
def execGetMeasurements (q : SpdmReq) (index : Byte) (signed raw : Bool) (nonce : Key) (s : State) : Host.Outcome State Fault Refusal :=
  .next (spdm q (.getMeasurements q index signed raw nonce)
    (fun s => if signed then attested q 0xE0 (getMeasurements q index (some nonce)) s else getMeasurements q index none s) s)

/-! ### Sessions (R150, R151) -/

/-- KEY_EXCHANGE: at most 4 sessions per mailbox, and so 8 in all; a KID of kind SPDM is reserved. -/
def keyExchange (q : SpdmReq) (slot : Byte) (s : State) : State :=
  if 4 ≤ (mailOf s q.port).sessions.length ∨ (intSlotCheck s).isSome then respond q.port (.error eSessionLimit 0) s
  else if (slotChain s slot).isNone then respond q.port (.error eInvalidRequest 0) s
  else
    let n := s.nextSession
    let (kid, s) := reserveInt (bumpDraw s)
    let s := placeKey kid (mkSlot (Config.sessionKey n) .spdm useSpdm .pf 0 0xFFFF 0) s
    let s := mailMod q.port (fun m => { m with sessions := m.sessions ++ [{ id := n, established := false, kid := kid }] }) s
    owe q (.keyExchangeRsp n (signed s)) { s with nextSession := n + 1 }
/-- The effect of KEY_EXCHANGE. -/
def execKeyExchange (q : SpdmReq) (slot : Byte) (s : State) : Host.Outcome State Fault Refusal :=
  .next (spdm q (.keyExchange q slot) (attested q 0xE4 (keyExchange q slot)) s)

/-- FINISH: the session that KEY_EXCHANGE has begun is established. -/
def finishSession (q : SpdmReq) (session : Nat) (verifyOk : Bool) (s : State) : State :=
  if !(mailOf s q.port).sessions.any (fun x => x.id == session && !x.established) then unsupported q 0xE5 s
  else if !verifyOk then respond q.port (.error eDecrypt 0) s
  else respond q.port .finishRsp (mailMod q.port (fun m =>
    { m with sessions := m.sessions.map (fun x => if x.id == session then { x with established := true } else x) }) s)
/-- The effect of FINISH. -/
def execFinish (q : SpdmReq) (session : Nat) (verifyOk : Bool) (s : State) : Host.Outcome State Fault Refusal :=
  .next (spdm q (.finish q session verifyOk) (attested q 0xE5 (finishSession q session verifyOk)) s)

/-- END_SESSION: the session ends and its keys retire (R152); IDE keys and TDISP states stay. -/
def endSession (q : SpdmReq) (s : State) : State :=
  match sessionOf s q with
  | none => unsupported q 0xEC s
  | some x => respond q.port .endSessionAck (retireKid x.kid (mailMod q.port (fun m => { m with sessions := m.sessions.filter (·.id != x.id) }) s))
/-- The effect of END_SESSION. -/
def execEndSession (q : SpdmReq) (s : State) : Host.Outcome State Fault Refusal := .next (spdm q (.endSession q) (endSession q) s)

/-! ### Delayed responses (R152), other requests (R150) -/

/-- RESPOND_IF_READY: the response that has become ready; ResponseNotReady while the KXE still works on it (R152). -/
def respondIfReady (q : SpdmReq) (s : State) : State :=
  let m := mailOf s q.port
  match m.ready with
  | some r => respond q.port r (mailMod q.port (fun m => { m with ready := none, deferred := false }) s)
  | none =>
    if m.owed.isSome then respond q.port (.error eNotReady 0) s
    else unsupported q 0xFF s
/-- The effect of RESPOND_IF_READY: a request answered ResponseNotReady leaves its mailbox free for it. -/
def execRespondIfReady (q : SpdmReq) (s : State) : Host.Outcome State Fault Refusal := .next (spdm q (.respondIfReady q) (respondIfReady q) s)

/-- Any other request code: UnsupportedRequest; a VENDOR_DEFINED_REQUEST outside a session: SessionRequired. -/
def otherRequest (q : SpdmReq) (code : Byte) (s : State) : State :=
  if code = 0xFE ∧ (sessionOf s q).isNone then respond q.port (.error eSessionRequired 0) s else unsupported q code s
/-- The effect of SPDM_UNSUPPORTED_REQUEST. -/
def execSpdmUnsupportedRequest (q : SpdmReq) (code : Byte) (s : State) : Host.Outcome State Fault Refusal :=
  .next (spdm q (.spdmUnsupportedRequest q code) (otherRequest q code) s)

/-- A vendor-defined message of IDE_KM or TDISP: only in a session, and where `may` holds (Table 06-3). -/
def vendorMsg (q : SpdmReq) (me : Instr) (may : State → Bool) (f : State → State) (s : State) : State :=
  spdm q me (fun s => if (sessionOf s q).isNone then respond q.port (.error eSessionRequired 0) s
    else if may s then f s else unsupported q 0xFE s) s

/-! ### The end of a KXE operation -/

/-- A handshake's keys become LIVE with its response. -/
def liveSession (p : BitVec 1) (r : Resp) (s : State) : State :=
  match r with
  | .keyExchangeRsp n _ => match (mailOf s p).sessions.find? (fun x => x.id == n) with
    | some x => activateKid x.kid s
    | none => s
  | _ => s

/-- The KXE has finished a mailbox's request: the response leaves, or waits for RESPOND_IF_READY. -/
def mailDone (p : BitVec 1) (s : State) : State :=
  let m := mailOf s p
  match m.owed with
  | none => s
  | some r =>
    let s := liveSession p r s
    if m.deferred then mailMod p (fun m => { m with owed := none, ready := some r }) s
    else respond p r (mailMod p (fun m => { m with owed := none }) s)

/-- KXE_OPERATION_DONE: a core has finished a command's operation, or a mailbox's. -/
def kxeDone (who : KxeWho) (s : State) : State :=
  match who with
  | .command fn idx =>
    if s.prog.any (fun q => q.fn == fn && q.idx == idx && q.hold.kxe) then
      settle (modProg fn idx (fun q => { q with hold := { q.hold with kxe := false } }) s)
    else lateDone fn idx s
  | .mailbox p => mailDone p s
/-- The effect of KXE_OPERATION_DONE. -/
def execKxeOperationDone (who : KxeWho) (s : State) : Host.Outcome State Fault Refusal := .next (whenLive (kxeDone who) s)

end Sys2Proof.Machine
end

