-- ==== Sys2Proof/Machine/Ide.lean ====
section
/-! DEFINITION. IDE key management (R158 to R160), and the loss of IDE and of PCIe links (R165, R168). -/
namespace Sys2Proof.Machine

/-- Number of an IDE key register: 108 per port, 12 per stream, 6 per key set, 2 per sub-stream. -/
def ideKey (p : BitVec 1) (stream : Nat) (keySet : BitVec 1) (sub : Nat) (dir : BitVec 1) : Nat :=
  p.toNat * 108 + stream * 12 + keySet.toNat * 6 + sub * 2 + dir.toNat
/-- R158: stream, sub-stream and port are within the limits, the link stream having number 0 and the selective ones 1 to 8. Log entry 177
(DESIGN CHOICE). -/
def ideOk (i : IdeSel) : Bool := decide (i.stream ≤ 8 ∧ i.sub ≤ 2) && i.portIndex == 0
/-- The register that a message names on the mailbox's port. -/
def ideReg (q : SpdmReq) (i : IdeSel) : Nat := ideKey q.port i.stream i.keySet i.sub i.dir
/-- The port that presents a VF (R145). -/
def vfPort (v : BitVec 12) : BitVec 1 := if v.toNat < 2048 then 0 else 1

/-- A sub-stream and direction of a stream has an active key set. -/
def ideActive (s : State) (p : BitVec 1) (stream sub : Nat) (dir : BitVec 1) : Bool :=
  s.ide.active.contains (ideKey p stream 0 sub dir) || s.ide.active.contains (ideKey p stream 1 sub dir)
/-- All six have. -/
def allActive (s : State) (p : BitVec 1) (stream : Nat) : Bool :=
  (List.range 3).all (fun sub => ideActive s p stream sub 0 && ideActive s p stream sub 1)

/-- QUERY: port index 0, and the port's IDE capability and control registers. -/
def query (q : SpdmReq) (s : State) : State :=
  respond q.port (.queryResp 0 (Config.ideCapability q.port) (if q.port = 0 then s.ide.control0 else s.ide.control1)) s
/-- The effect of QUERY. -/
def execQuery (q : SpdmReq) (s : State) : Host.Outcome State Fault Refusal := .next (vendorMsg q (.query q) fieldState (query q) s)

/-- R159: the key passes through a transient slot of kind IDE, retired before the acknowledgement. -/
def transientIde (key : Key) (s : State) : State :=
  let (kid, s) := reserveInt s
  retireKid kid (activateKid kid (placeKey kid (mkSlot key .ide useIde .pf 0 0xFFFF 0) s))
/-- KEY_PROG (R158 to R160): a key set that is active is left untouched. -/
def keyProg (q : SpdmReq) (i : IdeSel) (key : Key) (iv : W64) (s : State) : State :=
  if !ideOk i || s.ide.active.contains (ideReg q i) || (intSlotCheck s).isSome then respond q.port (.kpAck false) s
  else
    let s := transientIde key s
    respond q.port (.kpAck true) { s with ide := { s.ide with keys := mapSet s.ide.keys (ideReg q i) (key, iv) } }
/-- The effect of KEY_PROG. -/
def execKeyProg (q : SpdmReq) (i : IdeSel) (key : Key) (iv : W64) (s : State) : Host.Outcome State Fault Refusal :=
  .next (vendorMsg q (.keyProg q i key iv) fieldState (keyProg q i key iv) s)

/-- K_SET_GO: the key set becomes the active one of its sub-stream and direction. Log entry 134 (DEDUCED). -/
def kSetGo (q : SpdmReq) (i : IdeSel) (s : State) : State :=
  if !ideOk i || (mapFind s.ide.keys (ideReg q i)).isNone then respond q.port (.goAck false) s
  else
    let other := ideKey q.port i.stream (~~~i.keySet) i.sub i.dir
    respond q.port (.goAck true) { s with ide := { s.ide with active := (s.ide.active.filter (· != other)).filter (· != ideReg q i) ++ [ideReg q i] } }
/-- The effect of K_SET_GO. -/
def execKSetGo (q : SpdmReq) (i : IdeSel) (s : State) : Host.Outcome State Fault Refusal :=
  .next (vendorMsg q (.kSetGo q i) fieldState (kSetGo q i) s)

/-- The VFs whose TDI is bound to a stream of a port. -/
def boundTo (s : State) (p : BitVec 1) (stream : Nat) : List Fn :=
  (listedFns s).filter (fun f => match f with
    | .vf v => vfPort v == p && (fnOf s f).tdi.stream == stream && ((fnOf s f).tdi.state == .locked || (fnOf s f).tdi.state == .run)
    | .pf => false)

/-- K_SET_STOP (R159, R160): the register is zeroised; a selective stream left without an active key set moves its TDIs to ERROR. -/
def kSetStop (q : SpdmReq) (i : IdeSel) (s : State) : State :=
  if !ideOk i then respond q.port (.stopAck false) s
  else
    let s := { s with ide := { s.ide with keys := mapErase s.ide.keys (ideReg q i), active := s.ide.active.filter (· != ideReg q i) } }
    let s := if 1 ≤ i.stream ∧ !allActive s q.port i.stream then settle (tdisErrorClean false (boundTo s q.port i.stream) s) else s
    respond q.port (.stopAck true) s
/-- The effect of K_SET_STOP. -/
def execKSetStop (q : SpdmReq) (i : IdeSel) (s : State) : Host.Outcome State Fault Refusal :=
  .next (vendorMsg q (.kSetStop q i) fieldState (kSetStop q i) s)

/-- The effect of IDE_INTEGRITY_FAILURE (Table 06-10): every TDI bound to the stream. -/
def execIdeIntegrityFailure (port : BitVec 1) (stream : Nat) (s : State) : Host.Outcome State Fault Refusal :=
  .next (whenLive (fun s => settle (tdisErrorClean false (boundTo s port stream) s)) s)

/-- The effect of PCIE_CONTROLLER_UNCORRECTABLE (Table 01-4): the affected TDIs of the port. -/
def execPcieControllerUncorrectable (port : BitVec 1) (vfs : List (BitVec 12)) (s : State) : Host.Outcome State Fault Refusal :=
  .next (whenLive (fun s => settle (tdisErrorClean false ((vfs.filter (fun v => vfPort v == port)).map Fn.vf) (emit (.pcieUncorrectable port) s))) s)

/-! ### Loss of a port's link (R168) -/

/-- The functions that a port presents. -/
def portFns (s : State) (p : BitVec 1) : List Fn :=
  (listedFns s).filter (fun f => match f with | .vf v => vfPort v == p | .pf => p == 0)

/-- Every enabled ring of a port faults. -/
def faultRings (failed : List Fn) : List Fn → State → State
  | [], s => s
  | f :: l, s =>
    faultRings failed l (if (ringOf s f).enabled then
      ringFault f (if failed.contains f || (ringOf s f).hostWriteFailed then 0x0004 else 0x0003) s else s)

/-- STOPs that a port's mailbox still owed are not answered: their sessions have ended. Log entry 158 (DEDUCED). -/
def dropStops : List Fn → State → State
  | [], s => s
  | f :: l, s =>
    dropStops l (if (fnOf s f).tdi.stopOwed.isEmpty then s else fnMod f (fun x => { x with tdi := { x.tdi with stopOwed := [] } }) s)

/-- TDIs go to ERROR where no cleanup is left to run: a halt, a reset or OFF has ended what the VFs had (R164). -/
def eachError : List Fn → State → State
  | [], s => s
  | f :: l, s => eachError l (fnMod f (fun x => { x with tdi := { x.tdi with state := .error } }) s)

/-- LINK_DOWN, whatever the cause: the port's IDE keys are zeroised, its sessions end, its rings fault, the TDIs of its VFs go to ERROR. -/
def linkDown (p : BitVec 1) (failed : List Fn) (s : State) : State :=
  let mine := fun (k : Nat) => k / 108 == p.toNat
  let kids := (mailOf s p).sessions.map (·.kid)
  let s := { s with ide := { s.ide with keys := s.ide.keys.filter (fun e => !mine e.1), active := s.ide.active.filter (fun k => !mine k) } }
  let s := retireKids kids (mailMod p (fun _ => {}) s)
  let s := dropStops (portFns s p) s
  let vfs := (portFns s p).filter (fun f => f != .pf && (fnOf s f).enabled)
  if ready s && s.pkg.power != .off then settle (tdisErrorClean true vfs (faultRings failed (portFns s p) s)) else eachError vfs s
/-- The effect of LINK_DOWN. -/
def execLinkDown (port : BitVec 1) (hostWriteFailed : List Fn) (s : State) : Host.Outcome State Fault Refusal :=
  .next (linkDown port hostWriteFailed s)

end Sys2Proof.Machine
end

