-- ==== Sys2Proof/Machine/LifeCycle.lean ====
section
/-! DEFINITION. Life-cycle commands of the admin ring, SET_PROFILE, the ends of public-key operations and of flash writes
(04_life_cycle.md, R50). -/
namespace Sys2Proof.Machine

/-- LC_CHALLENGE (R84): a fresh nonce replaces any earlier one and is written to the buffer, whatever its
length says. Log entry 186 (DESIGN CHOICE). -/
def startChallenge (addr : W64) (p : InProg) (s : State) : State :=
  let n := drawn s
  let s := bumpDraw { s with aon := { s.aon with nonce := some n } }
  goOn p { dma := true } (.done stOk 0 0) (sendHost .pf addr (.nonce n) s)

/-- The row of LC_CHALLENGE (Table 03-6). -/
def lcChallengeRow (h : CmdHdr) (bufAddr : W64) : Row :=
  { hdr := h, opcode := 0x70, fields := [(16, 8, bufAddr.toNat)],
    checks := fun s => { busy := [lcBusy s] } }
/-- The effect of LC_CHALLENGE. -/
def execLcChallenge (h : CmdHdr) (bufAddr : W64) (s : State) : Host.Outcome State Fault Refusal :=
  .next (runRow (lcChallengeRow h bufAddr) (startChallenge bufAddr) s)

/-- LC_TRANSITION's checks (Table 04-10): BUSY comes before the state checks (R86). -/
def lcChecks (bufLen : W32) (req : Fetched LcReq) (s : State) : Checks :=
  let r := match req with | .ok r => [r] | .failed => []
  { malformed := [badField (bufLen != 7572) 24], buffer := bufChecks req (lcFields s), unit := [lcBusy s]
    state := r.map (lcStateCheck s), limits := r.map (lcLimits s) }

/-- LC_TRANSITION reaches authentication: the nonce is consumed (R84, R86). -/
def startTransition (req : Fetched LcReq) (env : StartEnv) (p : InProg) (s : State) : State :=
  match req with
  | .failed => s
  | .ok r =>
    goOn p { kxe := true } (.lcTransition r env (if lcAuth s r then 0 else 9)) { s with aon := { s.aon with nonce := none } }

/-- The row of LC_TRANSITION (Table 03-6). -/
def lcTransitionRow (h : CmdHdr) (bufLen : W32) (req : Fetched LcReq) : Row :=
  { hdr := h, opcode := 0x71, fields := [(24, 4, bufLen.toNat)],
    checks := lcChecks bufLen req }
/-- The effect of LC_TRANSITION. -/
def execLcTransition (h : CmdHdr) (bufLen : W32) (req : Fetched LcReq) (env : StartEnv) (s : State) : Host.Outcome State Fault Refusal :=
  .next (runRow (lcTransitionRow h bufLen req) (startTransition req env) s)

/-- LC_STATUS (R103): the status block is written; RESULT gives its first three bytes. -/
def startStatus (addr : W64) (p : InProg) (s : State) : State :=
  let b := lcStatusOf s
  goOn p { dma := true } (.done stOk 0 (resAt 0 b.state.toNat ||| resAt 1 b.progress.toNat ||| resAt 2 b.tokensLeft.toNat))
    (sendHost .pf addr (.lcStatus b) s)

/-- The row of LC_STATUS (Table 03-6). -/
def lcStatusRow (h : CmdHdr) (bufAddr : W64) (bufLen : W32) : Row :=
  { hdr := h, opcode := 0x72, fields := [(16, 8, bufAddr.toNat), (24, 4, bufLen.toNat)],
    checks := fun _ => { malformed := [badField (bufLen.toNat < 128) 24] } }
/-- The effect of LC_STATUS. -/
def execLcStatus (h : CmdHdr) (bufAddr : W64) (bufLen : W32) (s : State) : Host.Outcome State Fault Refusal :=
  .next (runRow (lcStatusRow h bufAddr bufLen) (startStatus bufAddr) s)

/-! ### OWNER_STORE (R97) -/

/-- The fields of an owner item (Table 04-18). Log entry 91 (DEDUCED). -/
def itemFields (it : OwnerItem) : List Check :=
  match it with
  | .chain _ => []
  | .policy p =>
    [firstField [badBuf (p.format != 0x000B) 0, rsvdBuf p.rsvd2.toNat 2 2, badBuf (8 ≤ p.flags.toNat) 5, badBuf (16 ≤ p.tamperPins.toNat) 6,
      badBuf (128 ≤ p.l2Sources.toNat) 7, rsvdBuf p.rsvd24.toNat 40 24]]

/-- BUF_LEN as the item requires. -/
def itemLen (item : Byte) (bufLen : W32) : Check :=
  badField (if item = 1 then bufLen != 7476 else bufLen == 0 || decide (16384 < bufLen.toNat)) 24

/-- The item is of the kind that ITEM names. -/
def itemFor (item : Byte) (it : Fetched OwnerItem) : Fetched OwnerItem :=
  match it with
  | .ok (.policy p) => if item = 1 then .ok (.policy p) else .failed
  | .ok (.chain c) => if item = 2 then .ok (.chain c) else .failed
  | .failed => .failed

/-- POLICY_SEQ does not exceed that of the policy stored for the slot in force. -/
def seqCheck (s : State) (it : Fetched OwnerItem) : Check :=
  match it, s.flash.policy with
  | .ok (.policy p), some q => failIf (ownerSlot s == some q.ownerSlot.toNat && p.seq.toNat ≤ q.seq.toNat) stBadState 0
  | _, _ => none

/-- OWNER_STORE's checks. -/
def ownerChecks (item : Byte) (bufLen : W32) (it : Fetched OwnerItem) (s : State) : Checks :=
  { malformed := [badField (item != 1 && item != 2) 28, itemLen item bufLen], buffer := bufChecks (itemFor item it) itemFields
    state := [failIf (lcState s != lcDeployed) stBadState (lcDetail s), seqCheck s it] }

/-- OWNER_STORE: an item that verifies is written to flash. -/
def startOwnerStore (it : Fetched OwnerItem) (p : InProg) (s : State) : State :=
  match it with
  | .failed => s
  | .ok i => if itemOk s i then emit .flashWrite (goOn p { flash := true } (.ownerStore i) s) else complete p stAuthFailed 0 0 s

/-- The row of OWNER_STORE (Table 03-6). -/
def ownerStoreRow (h : CmdHdr) (item : Byte) (bufLen : W32) (it : Fetched OwnerItem) : Row :=
  { hdr := h, opcode := 0x73, fields := [(24, 4, bufLen.toNat), (28, 1, item.toNat)],
    checks := ownerChecks item bufLen it }
/-- The effect of OWNER_STORE. -/
def execOwnerStore (h : CmdHdr) (item : Byte) (bufLen : W32) (it : Fetched OwnerItem) (s : State) : Host.Outcome State Fault Refusal :=
  .next (runRow (ownerStoreRow h item bufLen it) (startOwnerStore it) s)

/-! ### Profiles -/

/-- SET_PROFILE's checks (R50, R88). -/
def profileChecks (k : Byte) (s : State) : Checks :=
  { malformed := [badField (3 < k.toNat) 16], state := [failIf (!profileValid k.toNat (lcState s)) stBadState (lcDetail s)], busy := [lcBusy s] }

/-- The row of SET_PROFILE (Table 03-6). -/
def setProfileRow (h : CmdHdr) (profile : Byte) : Row :=
  { hdr := h, opcode := 0x7E, fields := [(16, 1, profile.toNat)],
    checks := profileChecks profile }
/-- The effect of SET_PROFILE: the pending selection is recorded. -/
def execSetProfile (h : CmdHdr) (profile : Byte) (s : State) : Host.Outcome State Fault Refusal :=
  .next (runRow (setProfileRow h profile) (fun p s => complete p stOk 0 (profile.setWidth 128) { s with aon := { s.aon with pendingProfile := some (profile.setWidth 2) } }) s)

/-! ### Flash and key-exchange ends -/

/-- FLASH_WRITE_DONE: a flash write or erase of a command has been read back. For a field transition the surroundings of the start
that may follow are those of this moment. Log entry 94 (DESIGN CHOICE). -/
def flashWriteDone (job : FlashJob) (env : StartEnv) (s : State) : State :=
  let clear := fun (q : InProg) => { q with hold := { q.hold with flash := false } }
  match job with
  | .ownerStore fn idx =>
    settle (modProg fn idx (fun q => match q.act with | .ownerStore _ => clear q | _ => q) s)
  | .transition =>
    settle { s with prog := s.prog.map (fun q => match q.act with
      | .lcTransition r _ step => if q.hold.flash then { clear q with act := .lcTransition r env step } else q
      | _ => q) }
/-- The effect of FLASH_WRITE_DONE. -/
def execFlashWriteDone (job : FlashJob) (env : StartEnv) (s : State) : Host.Outcome State Fault Refusal :=
  .next (whenLive (flashWriteDone job env) s)

end Sys2Proof.Machine
end

