-- ==== Sys2Proof/Machine/Tdisp.lean ====
section
/-! DEFINITION. TDISP (R161 to R167), function-level resets and VF Enable (R162, R165, R315). -/
namespace Sys2Proof.Machine

/-- TDISP error codes. Log entry 129 (PRESUMED). -/
def tBusy : Nat := 0x0003
def tInterfaceState : Nat := 0x0004
def tUnsupported : Nat := 0x0007
def tInvalidInterface : Nat := 0x0101
def tInvalidNonce : Nat := 0x0102
def tEntropy : Nat := 0x0103
def tConfiguration : Nat := 0x0104

/-- Table 06-3: DEPLOYED with the DRS usable. -/
def tdispState (s : State) : Bool := lcState s == lcDeployed && drsUsable s
/-- A TDISP error. -/
def tdispError (q : SpdmReq) (code : Nat) (s : State) : State := respond q.port (.tdispError code) s
/-- The interface id names an enabled VF of the mailbox's port (Table 06-8 check 1). -/
def ifaceOk (s : State) (q : SpdmReq) (vf : BitVec 12) : Bool := vfPort vf == q.port && (fnOf s (.vf vf)).enabled
/-- A TDISP request that names an interface. Check 1 of Table 06-8 stands before the state: a second LOCK that comes through the other
port's mailbox fails it, whatever Table 06-11 says of mailboxes. Log entry 179 (DEDUCED). -/
def onIface (q : SpdmReq) (vf : BitVec 12) (f : TdiSt → State → State) (s : State) : State :=
  if ifaceOk s q vf then f (fnOf s (.vf vf)).tdi s else tdispError q tInvalidInterface s
/-- Change a TDI. -/
def tdiMod (vf : BitVec 12) (g : TdiSt → TdiSt) (s : State) : State := fnMod (.vf vf) (fun x => { x with tdi := g x.tdi }) s

/-- The effect of GET_TDISP_VERSION. -/
def execGetTdispVersion (q : SpdmReq) (s : State) : Host.Outcome State Fault Refusal :=
  .next (vendorMsg q (.getTdispVersion q) tdispState (respond q.port .tdispVersion) s)
/-- The effect of GET_TDISP_CAPABILITIES. -/
def execGetTdispCapabilities (q : SpdmReq) (s : State) : Host.Outcome State Fault Refusal :=
  .next (vendorMsg q (.getTdispCapabilities q) tdispState (respond q.port .tdispCapabilities) s)

/-- A cleanup or a scrub of the VF's carve-out is pending (Table 06-8 check 3). -/
def cleanPending (s : State) (f : Fn) : Bool :=
  (fnOf s f).cleaning.isSome || !(fnOf s f).tdi.stopOwed.isEmpty
    || (carveKeys f).any (fun k => (mapGet {} s.carves k).state == .blocked || (mapGet {} s.carves k).blockNext || s.scrub.any (fun r => r.carve == some k))

/-- The first failing check of Table 06-8 after the interface's own. -/
def lockError (q : SpdmReq) (vf : BitVec 12) (stream : Nat) (assocOk entropyOk : Bool) (t : TdiSt) (s : State) : Option Nat :=
  let f := Fn.vf vf
  let x := fnOf s f
  if t.state ≠ .unlocked then some tInterfaceState
  else if cleanPending s f then some tBusy
  else if !(decide (1 ≤ stream ∧ stream ≤ 8) && allActive s q.port stream && assocOk) then some tConfiguration
  else if x.ring.enabled || x.ring.enabling || x.job.isSome || x.ctxs.any (fun c => c.2.live) then some tConfiguration
  else if !entropyOk then some tEntropy
  else none

/-- LOCK_INTERFACE_REQUEST (R163, R164): the TDI is locked to the stream, with a fresh start nonce. -/
def lockIface (q : SpdmReq) (vf : BitVec 12) (stream : Nat) (assocOk entropyOk : Bool) (t : TdiSt) (s : State) : State :=
  match lockError q vf stream assocOk entropyOk t s with
  | some e => tdispError q e s
  | none =>
    let n := drawn s
    respond q.port (.lockResponse n) (tdiMod vf (fun t => { t with state := .locked, stream := stream, nonce := some n
                                                                   place := (fnOf s (.vf vf)).place, lockGen := (fnOf s (.vf vf)).gen }) (bumpDraw s))
/-- The effect of LOCK_INTERFACE_REQUEST. -/
def execLockInterfaceRequest (q : SpdmReq) (vf : BitVec 12) (stream : Nat) (assocOk entropyOk : Bool) (s : State) :
    Host.Outcome State Fault Refusal :=
  .next (vendorMsg q (.lockInterfaceRequest q vf stream assocOk entropyOk) tdispState (onIface q vf (lockIface q vf stream assocOk entropyOk)) s)

/-- The MMIO ranges of a VF (R167, Table 16-1): the doorbell page and the set-up register page of its BAR 0. -/
def mmioRanges (p : Placement) : List (W64 × Nat) := [(p.bar, 0x1000), (p.bar + 0x1000, 0x1000)]
/-- GET_DEVICE_INTERFACE_REPORT (R167). -/
def ifaceReport (q : SpdmReq) (vf : BitVec 12) (t : TdiSt) (s : State) : State :=
  if t.state = .locked ∨ t.state = .run then
    respond q.port (.interfaceReport vf t.stream (mmioRanges t.place) t.place.msixTable t.place.pendingBits) s
  else tdispError q tInterfaceState s
/-- The effect of GET_DEVICE_INTERFACE_REPORT. -/
def execGetDeviceInterfaceReport (q : SpdmReq) (vf : BitVec 12) (s : State) : Host.Outcome State Fault Refusal :=
  .next (vendorMsg q (.getDeviceInterfaceReport q vf) tdispState (onIface q vf (ifaceReport q vf)) s)

/-- The effect of GET_DEVICE_INTERFACE_STATE (R166): the state after the last completed transition. -/
def execGetDeviceInterfaceState (q : SpdmReq) (vf : BitVec 12) (s : State) : Host.Outcome State Fault Refusal :=
  .next (vendorMsg q (.getDeviceInterfaceState q vf) tdispState (onIface q vf (fun t => respond q.port (.interfaceState t.state))) s)

/-- START_INTERFACE_REQUEST (R164): the state is checked before the nonce, which is then discarded. -/
def startIface (q : SpdmReq) (vf : BitVec 12) (nonce : Key) (t : TdiSt) (s : State) : State :=
  if t.state ≠ .locked then tdispError q tInterfaceState s
  else if t.nonce ≠ some nonce then tdispError q tInvalidNonce s
  else respond q.port .startResponse (tdiMod vf (fun t => { t with state := .run, nonce := none }) s)
/-- The effect of START_INTERFACE_REQUEST. -/
def execStartInterfaceRequest (q : SpdmReq) (vf : BitVec 12) (nonce : Key) (s : State) : Host.Outcome State Fault Refusal :=
  .next (vendorMsg q (.startInterfaceRequest q vf nonce) tdispState (onIface q vf (startIface q vf nonce)) s)

/-- STOP_INTERFACE_REQUEST (Table 06-9): from CONFIG_LOCKED and RUN the cleanup sequence runs first; a running one is waited for. -/
def stopIface (q : SpdmReq) (vf : BitVec 12) (t : TdiSt) (s : State) : State :=
  let f := Fn.vf vf
  let owe := tdiMod vf (fun t => { t with stopOwed := t.stopOwed ++ [q.port] })
  if t.state = .locked ∨ t.state = .run then settle (startCleanup f none (owe s))
  else if (fnOf s f).cleaning.isSome then owe s
  else respond q.port .stopResponse (tdiMod vf (fun t => { t with state := .unlocked, nonce := none }) s)
/-- The effect of STOP_INTERFACE_REQUEST. -/
def execStopInterfaceRequest (q : SpdmReq) (vf : BitVec 12) (s : State) : Host.Outcome State Fault Refusal :=
  .next (vendorMsg q (.stopInterfaceRequest q vf) tdispState (onIface q vf (stopIface q vf)) s)

/-- The effect of TDISP_UNSUPPORTED_REQUEST (R161). -/
def execTdispUnsupportedRequest (q : SpdmReq) (code : Byte) (s : State) : Host.Outcome State Fault Refusal :=
  .next (vendorMsg q (.tdispUnsupportedRequest q code) tdispState (fun s => tdispError q tUnsupported s) s)

/-! ### VF Enable and function-level resets -/

/-- VF_ENABLE (R162, R306, R359): the TDI enters CONFIG_UNLOCKED, the reset generation is 1, both views start at the tick. -/
def vfEnable (vf : BitVec 12) (tick : Nat) (place : Placement) (s : State) : State :=
  if s.pkg.phase = .off ∨ s.pkg.phase = .halted ∨ (fnOf s (.vf vf)).enabled then s
  else
    let s := fnMod (.vf vf) (fun _ => { enabled := true, place := place }) s
    viewMod (.vf vf) (fun _ => { t0 := tick }) (viewMod (.pfOf vf) (fun _ => { t0 := tick }) s)
/-- The effect of VF_ENABLE. -/
def execVfEnable (vf : BitVec 12) (start : VfStart) (s : State) : Host.Outcome State Fault Refusal :=
  .next (vfEnable vf start.tick start.place s)

/-- What the host has done to the VF's configuration stands, in every phase. -/
def configured (vf : BitVec 12) (ev : VfEvent) (s : State) : State :=
  match ev with
  | .config p => if (fnOf s (.vf vf)).enabled then fnMod (.vf vf) (fun x => { x with place := p }) s else s
  | _ => s
/-- The effect of VF_FUNCTION_LEVEL_RESET (Table 06-10 row 1): a locked or running TDI goes to ERROR with its cleanup. -/
def execVfFunctionLevelReset (c : VfChange) (s : State) : Host.Outcome State Fault Refusal :=
  .next (whenLive (fun s => settle (tdiError false (.vf c.vf) s)) (configured c.vf c.event s))

/-- PF_FUNCTION_LEVEL_RESET (R315, Table 11-2): commands of the admin ring that await only a signal from another party are aborted, pool
reads squashed, every other one drains; the ring is disabled. -/
def pfReset (s : State) : State :=
  let s := ringMod .pf (fun r => { r with closing := true }) s
  let s := squashReads [.pf] (abortCmds ((progOf s .pf).filter awaitsSignal) s)
  settle (disableRing .pf (flushFn .pf s))
/-- The effect of PF_FUNCTION_LEVEL_RESET. -/
def execPfFunctionLevelReset (s : State) : Host.Outcome State Fault Refusal := .next (whenLive pfReset s)

end Sys2Proof.Machine
end

