-- ==== Sys2Proof/Machine/Power.lean ====
section
/-! DEFINITION. Tamper sources and their measurements (R369 to R373), parity errors (R18), the power states (R378 to R380), and the
rows of the start: AVK_PWROK, the BIST limits, the security-version fuse (15_boot_selftest.md). -/
namespace Sys2Proof.Machine

/-! ### Tamper -/

/-- A pin that fires is low (PIN_LOW of AVK_TAMPER_STATUS). Log entry 123 (DESIGN CHOICE). -/
def notePin (t : TamperSrc) (s : State) : State :=
  match t with
  | .pin k => if s.pkg.phase = .off then s else { s with aon := { s.aon with pinsLow := s.aon.pinsLow ||| BitVec.ofNat 4 (2 ^ k.toNat) } }
  | _ => s
/-- The effect of TAMPER_SOURCE_FIRE (R369). -/
def execTamperSourceFire (src : TamperSrc) (s : State) : Host.Outcome State Fault Refusal := .next (tamperSource src (notePin src s))

/-- Table 14-1: the cipher clock outside 1.000 to 1.100 GHz, or the AON oscillator outside 45.0 to 55.0 MHz. -/
def clockBad (cipherKhz aonKhz : Nat) : Bool :=
  decide (cipherKhz < 1000000 ∨ 1100000 < cipherKhz ∨ aonKhz < 45000 ∨ 55000 < aonKhz)
/-- The effect of CLOCK_MONITOR_MEASURE. -/
def execClockMonitorMeasure (cipherKhz aonKhz : Nat) (s : State) : Host.Outcome State Fault Refusal :=
  .next (if clockBad cipherKhz aonKhz then tamperSource .clock s else s)

/-- The effect of MESH_PATTERN: an open or a short fires. -/
def execMeshPattern (fault : Bool) (s : State) : Host.Outcome State Fault Refusal := .next (if fault then tamperSource .mesh s else s)

/-- DROOP_WARNING (R373): the power manager is asked to throttle and the warning is counted. -/
def droopWarning (s : State) : State :=
  if s.pkg.phase = .off then s
  else emit .throttle { s with aon := { s.aon with droop := if s.aon.droop = 0xFFFF then s.aon.droop else s.aon.droop + 1 } }
/-- The effect of DROOP_WARNING. -/
def execDroopWarning (_detector : Fin 24) (s : State) : Host.Outcome State Fault Refusal := .next (droopWarning s)

/-- The effect of PARITY_ERROR (R18): a gong halt of cause 0x07 naming the unit. -/
def execParityError (unit : W16) (s : State) : Host.Outcome State Fault Refusal := .next (gongHalt { cause := 7, unit := unit } s)

/-! ### Power states -/

/-- Table 14-7: the entry condition that refuses a change, its number open for a change with no row; none where it is accepted.
Log entry 124 (DEDUCED). -/
def powerRefusal (t : Power) (s : State) : Option Nat :=
  if s.pkg.phase = .halted ∨ s.pkg.phase = .romHalt then (if t = .off then none else some (openDetail s).toNat)
  else if s.pkg.phase ≠ .ready then some (openDetail s).toNat
  else match s.pkg.power, t with
    | .a0, .a1 => none
    | .a1, .a0 => none
    | .a0, .a2 => if s.bulk.isEmpty then none else some 1
    | .a1, .a2 => if s.bulk.isEmpty then none else some 1
    | .a2, .a1 => none
    | .a2, .a3 =>
      if !(s.sends.isEmpty && s.recvs.isEmpty) then some 1
      else if !s.prog.isEmpty then some 2
      else if s.ks.kids.any (fun e => e.2.st == .retiring) then some 3
      else if s.regions.any (fun r => !r.2.leases.isEmpty) then some 4
      else if hasHome s then some 5
      else none
    | .a3, .a2 => none
    | .a3, .off => if s.fns.any (fun e => e.2.job.isSome) then some 1 else none
    | .off, .a0 => none
    | _, _ => some (openDetail s).toNat

/-- Set the power state. -/
def setPower (t : Power) (s : State) : State := { s with pkg := { s.pkg with power := t } }

/-- Lending is a matter of A0 alone: no half stays lent. -/
def endLending (p : Fin 32) (s : State) : State :=
  if (portOf s p).lentSeal || (portOf s p).lentOpen || (portOf s p).restSeal || (portOf s p).restOpen then
    portMod p (fun x => { x with lentSeal := false, lentOpen := false, restSeal := false, restOpen := false }) s
  else s

/-- A region's counter cache is written back and goes off; a node that waits for a sweep of its parent stays until it is swept. -/
def cacheOff (k : Nat) (s : State) : State :=
  regionMod k (fun r => { r with cache := r.cache.filter (fun e => e.2.dirty) }) (writeBackAll k 7 1 s)

/-- Entering A2: every bank asleep, the counter caches written back and off. Log entry 125 (DEDUCED). -/
def enterA2 (s : State) : State :=
  setPower .a2 (eachIdx cacheOff (s.regions.map (·.1)) (eachPort endLending allPorts s))

/-- A2 to A1: frames that wait are opened, frames queued are sealed, the walkers run. -/
def wakeA1 (s : State) : State := settle (poolPump (eachPort pump allPorts (retryWaits (setPower .a1 s))))

/-- A port goes down as A3 is entered: no KNELL; the die reports it anew at exit. -/
def sleepPort (p : Fin 32) (s : State) : State :=
  let s := if (portOf s p).up then takeDown p s else s
  if (portOf s p).trained then portMod p (fun x => { x with trained := false }) s else s

/-- The views of a function are closed. -/
def closeViews : List Fn → State → State
  | [], s => s
  | .vf i :: l, s => closeViews l (if (fnOf s (.vf i)).enabled then closeWindow (.pfOf i) (closeWindow (.vf i) s) else s)
  | .pf :: l, s => closeViews l s

/-- The Tabor gate goes off: every window is closed, running counters and per-command sets are lost. -/
def taborOff (s : State) : State :=
  let s := closeWindow .package (closeViews (listedFns s) (applyEvents s.tabor.events { s with tabor := { s.tabor with events := [] } }))
  { s with tabor := { s.tabor with counts := [], ports := [], pkg := [], sets := [] } }
/-- The Tabor gate counts again: windows begin now, from counters at zero. -/
def taborOn (s : State) : State :=
  let t := (Config.tick s.opens).toNat
  let begin_ := fun (w : ViewSt) => { w with t0 := t, index := 0, start := [] }
  { s with opens := s.opens + 1
           tabor := { s.tabor with vfViews := s.tabor.vfViews.map (fun e => (e.1, begin_ e.2)), pfViews := s.tabor.pfViews.map (fun e => (e.1, begin_ e.2))
                                   pkgView := begin_ s.tabor.pkgView } }

/-- A2 to A3: link ports down, engine key caches lost, the KXE and the Tabor gate off. -/
def enterA3 (s : State) : State :=
  let s := taborOff (eachPort sleepPort allPorts s)
  setPower .a3 { s with ks := { s.ks with caches := [], identity := none } }

/-- Wakes held in A3 are read. -/
def readOwed : List Fn → State → State
  | [], s => s
  | f :: l, s =>
    readOwed l (if (ringOf s f).dbRead = .owed then emit (.recordRead (viaOf s f)) (ringMod f (fun r => { r with dbRead := .issued }) s) else s)

/-- The next state of an outcome. -/
def nextOf (o : Host.Outcome State Fault Refusal) (s : State) : State := match o with | .next t => t | _ => s
/-- A mailbox's request, served. Log entry 145 (DEDUCED). -/
def serveMail (i : Instr) (s : State) : State :=
  match i with
  | .doeDiscovery p k => nextOf (execDoeDiscovery p k s) s
  | .getVersion q => nextOf (execGetVersion q s) s
  | .getCapabilities q => nextOf (execGetCapabilities q s) s
  | .negotiateAlgorithms q b => nextOf (execNegotiateAlgorithms q b s) s
  | .getDigests q => nextOf (execGetDigests q s) s
  | .getCertificate q a b c => nextOf (execGetCertificate q a b c s) s
  | .challenge q a n => nextOf (execChallenge q a n s) s
  | .getMeasurements q a b c n => nextOf (execGetMeasurements q a b c n s) s
  | .keyExchange q a => nextOf (execKeyExchange q a s) s
  | .finish q a b => nextOf (execFinish q a b s) s
  | .endSession q => nextOf (execEndSession q s) s
  | .respondIfReady q => nextOf (execRespondIfReady q s) s
  | .spdmUnsupportedRequest q c => nextOf (execSpdmUnsupportedRequest q c s) s
  | .query q => nextOf (execQuery q s) s
  | .keyProg q a k iv => nextOf (execKeyProg q a k iv s) s
  | .kSetGo q a => nextOf (execKSetGo q a s) s
  | .kSetStop q a => nextOf (execKSetStop q a s) s
  | .getTdispVersion q => nextOf (execGetTdispVersion q s) s
  | .getTdispCapabilities q => nextOf (execGetTdispCapabilities q s) s
  | .lockInterfaceRequest q v a b c => nextOf (execLockInterfaceRequest q v a b c s) s
  | .getDeviceInterfaceReport q v => nextOf (execGetDeviceInterfaceReport q v s) s
  | .getDeviceInterfaceState q v => nextOf (execGetDeviceInterfaceState q v s) s
  | .startInterfaceRequest q v n => nextOf (execStartInterfaceRequest q v n s) s
  | .stopInterfaceRequest q v => nextOf (execStopInterfaceRequest q v s) s
  | .tdispUnsupportedRequest q c => nextOf (execTdispUnsupportedRequest q c s) s
  | _ => s
/-- The request that a mailbox held in A3 is served. -/
def serveHeld (p : BitVec 1) (s : State) : State :=
  match (mailOf s p).held with
  | some i => serveMail i (mailMod p (fun m => { m with held := none }) s)
  | none => s

/-- A3 to A2: the key-establishment pairs are derived again from the retained boot nonce. Requests held are served round-robin (R146). -/
def leaveA3 (s : State) : State :=
  serveHeld (~~~s.mailArb) (serveHeld s.mailArb (readOwed (listedFns s) (taborOn (deriveIdentity (setPower .a2 s)))))

/-- What a function keeps in OFF: a VF is enabled, its TDI in ERROR. -/
def fnOff (x : FnSt) : FnSt := { enabled := x.enabled, place := x.place, gen := x.gen, tdi := { state := if x.enabled then .error else x.tdi.state } }

/-- Entering OFF: everything that Table 14-6 marks lost is zeroised, every TDI is in ERROR, grants and sessions end.
Log entry 127 (DEDUCED). -/
def enterOff (s : State) : State :=
  let s := hostLost (zeroiseAll (tdisError (endPerturb s)))
  let s := { s with fns := s.fns.map (fun e => (e.1, fnOff e.2)), ports := [], homes := [], carves := [], staged := [], scrub := [], accesses := []
                    writes := [], filter := [], sent := [], made := [], aon := { s.aon with session := false, nonce := none } }
  setPower .off s

/-- An accepted change (Table 14-7). Log entry 82 (DEDUCED). -/
def changePower (t : Power) (env : StartEnv) (s : State) : State :=
  match s.pkg.power, t with
  | .a0, .a1 => setPower .a1 (eachPort endLending allPorts s)
  | .a1, .a0 => let s := setPower .a0 s; eachPort sendBeat (livePorts s) s
  | _, .off => enterOff s
  | .a2, .a1 => wakeA1 s
  | _, .a2 => if s.pkg.power = .a3 then leaveA3 s else enterA2 s
  | .a2, .a3 => enterA3 s
  | .off, .a0 => start true env s
  | _, _ => s

/-- POWER_STATE_REQUEST (R379): the change is made, or refused with the number of the first condition that failed. -/
def powerRequest (t : Power) (env : StartEnv) (s : State) : State :=
  if s.pkg.phase = .off then s
  else match powerRefusal t s with
    | some n => emit (.powerAnswer (some n)) s
    | none => changePower t env (emit (.powerAnswer none) s)
/-- The effect of POWER_STATE_REQUEST. -/
def execPowerStateRequest (target : Power) (env : StartEnv) (s : State) : Host.Outcome State Fault Refusal :=
  .next (powerRequest target env s)

/-! ### The start -/

/-- The effect of AVK_PWROK_RISE (R384): a start after a cold reset. -/
def execAvkPwrokRise (env : StartEnv) (s : State) : Host.Outcome State Fault Refusal :=
  .next (if s.pkg.phase = .off then start false env s else s)

/-- AVK_PWROK falls (R45): a cold reset, which holds the AON island in reset; an image being written is left broken (R401). -/
def pwrokFall (s : State) : State :=
  afterReset false (if s.pkg.writing then { s with flash := { s.flash with image := none } } else s)
/-- The effect of AVK_PWROK_FALL. -/
def execAvkPwrokFall (s : State) : Host.Outcome State Fault Refusal := .next (pwrokFall s)

/-- The effect of BIST_LIMIT_RECHECK (R390). -/
def execBistLimitRecheck (met : Bool) (s : State) : Host.Outcome State Fault Refusal := .next (bistRecheck met s)

/-- The effect of SVN_FUSE_BURN (R398): once ready, the fuse of the running image's version is burned. -/
def execSvnFuseBurn (s : State) : Host.Outcome State Fault Refusal :=
  .next (if ready s && decide (s.otp.svn < s.pkg.svn) then { s with otp := { s.otp with svn := s.pkg.svn } } else s)

end Sys2Proof.Machine
end

