-- ==== Sys2Proof/Machine/Recovery.lean ====
section
/-! DEFINITION. Recovery, replay and migration commands of the admin ring (11_recovery_migration.md). -/
namespace Sys2Proof.Machine

/-! ### Quiescence and resets -/

/-- QUIESCE_VF's check (R309). -/
def quiesceChecks (h : CmdHdr) (s : State) : Checks :=
  { state := [failIf ((fnOf s (hdrTarget h)).quiesced || (fnOf s (hdrTarget h)).frozen) stBadState 0] }

/-- The row of QUIESCE_VF (Table 03-6). -/
def quiesceVfRow (h : CmdHdr) : Row :=
  { hdr := h, opcode := 0x50,
    checks := quiesceChecks h }
/-- The effect of QUIESCE_VF. -/
def execQuiesceVf (h : CmdHdr) (s : State) : Host.Outcome State Fault Refusal :=
  .next (runRow (quiesceVfRow h) (fun p s => goOn p {} .quiesce (quiesceVf (hdrTarget h) s)) s)

/-- Another RESET_VF of the VF is in progress (R329). -/
def otherResets (s : State) (f : Fn) (p : InProg) : List (Fn × W32) :=
  (s.prog.filter (fun q => (match q.act with | .reset g _ => g == f | _ => false) && !(q.fn == p.fn && q.idx == p.idx))).map (fun q => (q.fn, q.idx))
/-- RESET_VF: it runs after any earlier RESET_VF of the VF. -/
def startReset (h : CmdHdr) (p : InProg) (s : State) : State :=
  let f := hdrTarget h
  let ahead := otherResets s f p
  if ahead.isEmpty then beginReset p f s else goOn p { cmds := ahead } (.reset f 9) s

/-- The row of RESET_VF (Table 03-6). -/
def resetVfRow (h : CmdHdr) : Row :=
  { hdr := h, opcode := 0x51,
    checks := fun s => { busy := [failIf (stuckElsewhere s (hdrTarget h)) stBusy 0x51] } }
/-- The effect of RESET_VF (R310, R314). -/
def execResetVf (h : CmdHdr) (s : State) : Host.Outcome State Fault Refusal :=
  .next (runRow (resetVfRow h) (startReset h) s)

/-- The row of RESET_PACKAGE (Table 03-6). -/
def resetPackageRow (h : CmdHdr) : Row :=
  { hdr := h, opcode := 0x52,
    checks := fun s => { busy := [lcBusy s] } }
/-- The effect of RESET_PACKAGE (R316); a life-cycle transition in progress makes it BUSY (R88). -/
def execResetPackage (h : CmdHdr) (env : StartEnv) (s : State) : Host.Outcome State Fault Refusal :=
  .next (runRow (resetPackageRow h) (fun p s => beginPackageReset p env s) s)

/-! ### REPLAY_CONTEXT (R311, R312) -/

/-- The saved descriptors' own checks: DETAIL 64 × i plus the offset within descriptor i. -/
def descChecks (h : CmdHdr) : Nat → List ReplayDesc → List Check
  | _, [] => []
  | i, d :: l =>
    let at_ := fun (b : Bool) (o : Nat) => failIf b stMalformed (BitVec.ofNat 32 (64 * i + o))
    let op := rawByte d.raw 0
    at_ (op != 0x0F && op != 0x79 && op != 0x7A && op != 0x7B) 0 :: at_ (rawField d.raw 2 2 != h.ctx.toNat) 2
      :: at_ (rawField d.raw 10 2 != h.ctxGen.toNat) 10 :: descChecks h (i + 1) l

/-- REPLAY_CONTEXT's checks. -/
def replayChecks (h : CmdHdr) (count : W32) (descs : Fetched (List ReplayDesc)) (s : State) : Checks :=
  let f := hdrTarget h
  let suspect := (mapGet {} (fnOf s f).ctxs h.ctx.toNat).suspect
  { malformed := [badField (4096 < count.toNat) 24]
    buffer := if count = 0 then [] else bufChecks descs (fun l => descChecks h 0 (l.take count.toNat))
    state := [failIf (if h.ctx = 0xFFFF then count != 0 else !suspect) stBadState 0]
    busy := [failIf (s.prog.any (fun q => match q.act with | .replay _ _ _ _ => true | _ => false)) stBusy 0x53] }

/-- REPLAY_CONTEXT: the descriptors run one at a time; without a context it releases the VF's quiescence, a frozen VF's carve-outs
reopening at the next boundary (R321). -/
def startReplay (h : CmdHdr) (count : W32) (descs : Fetched (List ReplayDesc)) (p : InProg) (s : State) : State :=
  let f := hdrTarget h
  if h.ctx = 0xFFFF ∧ (fnOf s f).frozen then
    goOn p { boundary := true } (.replay 0xFFFF [] 0 0) { s with staged := s.staged ++ [.freeze f.key false] }
  else
    let l := match descs with | .ok l => l.take count.toNat | .failed => []
    runReplay p f h.ctx count (if count = 0 then [] else l) 0 (goOn p {} (.replay h.ctx [] count 0) s)

/-- The row of REPLAY_CONTEXT (Table 03-6). -/
def replayContextRow (h : CmdHdr) (count : W32) (descs : Fetched (List ReplayDesc)) : Row :=
  { hdr := h, opcode := 0x53, fields := [(24, 4, count.toNat)],
    checks := replayChecks h count descs }
/-- The effect of REPLAY_CONTEXT. -/
def execReplayContext (h : CmdHdr) (count : W32) (descs : Fetched (List ReplayDesc)) (s : State) : Host.Outcome State Fault Refusal :=
  .next (runRow (replayContextRow h count descs) (startReplay h count descs) s)

/-! ### MIGRATE_KEY (R318 to R320) -/

/-- A little-endian field of a message (R1). -/
def msgLe (m : MigMsg) (o n : Nat) : Nat := ofLe ((m.bytes.drop o).take n)
/-- A byte string of a message. -/
def msgBytes (m : MigMsg) (o n : Nat) : List Byte := (m.bytes.drop o).take n
/-- KIND of a message. -/
def msgKind (m : MigMsg) : Nat := msgLe m 2 1
/-- NONCE_S of a message. -/
def msgNonce (m : MigMsg) : Key := BitVec.ofNat 256 (ofBe (msgBytes m 32 32))
/-- A RSVD field of a message: its first non-zero byte offends. -/
def msgRsvd (m : MigMsg) (o n : Nat) : Check := rsvdBuf (msgLe m o n) n o

/-- The fields of a migration key message, with BUF_LEN equal to its LENGTH. Log entry 108 (DEDUCED). -/
def migFields (bufLen : W64) (m : MigMsg) : List Check :=
  let k := msgKind m
  [firstField
    ([badField (bufLen.toNat != msgLe m 4 4) 32, badBuf (msgLe m 0 2 != 4) 0, badBuf (3 < k) 2, msgRsvd m 3 1,
      badBuf (k == 0 && msgLe m 8 8 != 0) 8, badBuf (k == 0 && msgLe m 24 2 != 0) 24, badBuf (decide (k ≤ 1) && msgLe m 26 2 != 0) 26, msgRsvd m 28 4]
      ++ (if k = 2 then [msgRsvd m 1780 4, msgRsvd m 9155 1] else if k = 3 then [msgRsvd m 1729 7] else []))]

/-- MIGRATE_KEY's checks. -/
def migKeyChecks (bufLen : W64) (msg : Fetched MigMsg) (s : State) : Checks :=
  let kind := match msg with | .ok m => msgKind m | .failed => 0
  { buffer := bufChecks msg (migFields bufLen)
    state := [if kind = 1 ∨ kind = 3 then drsCheck s else none]
    slots := [if kind = 2 ∨ kind = 3 then intSlotCheck s else none] }

/-- R319: what the source requires of an ACCEPT. -/
def acceptCheck (s : State) (f : Fn) (m : MigMsg) : Check :=
  let leafOk := m.leafDevice.toNat == msgLe m 16 8 && m.leafHash == Config.sha384 (m.leafKey ++ msgBytes m 1840 2592)
  firstFail
    [failIf (!(m.chainOk && leafOk && m.sigsOk && (fnOf s f).nonceS == some (msgNonce m))) stAuthFailed 0,
     failIf (!(msgLe m 1777 1 == lcDeployed.toNat && ofBe (msgBytes m 1792 48) == (ownerHash s).toNat && msgLe m 1784 8 == 0
       && decide (s.pkg.svn ≤ msgLe m 1778 2))) stBadState 0]

/-- The first 32 bytes of a message (Table 11-5). -/
def migHead (kind : Byte) (length : Nat) (srcDevice dstDevice : W64) (srcVf dstVf : W16) : List Byte :=
  le 2 0x0004 ++ [kind, 0] ++ le 4 length ++ le 8 srcDevice.toNat ++ le 8 dstDevice.toNat ++ le 2 srcVf.toNat ++ le 2 dstVf.toNat ++ zeros 4
/-- OFFER. -/
def migOffer (srcDevice dstDevice : W64) (srcVf : W16) (nonce : Key) : List Byte := migHead 1 64 srcDevice dstDevice srcVf 0 ++ be 32 nonce.toNat
/-- "AVK1-MIG", the context string of PQ_SIG. -/
def migContext : List Byte := [0x41, 0x56, 0x4B, 0x31, 0x2D, 0x4D, 0x49, 0x47]
/-- ACCEPT: this unit's state, its keys and both signatures over bytes 0 to 4,431, and the chain of slot 0. -/
def migAccept (s : State) (k : IdentityKeys) (m : MigMsg) (dstVf : W16) : List Byte :=
  let chain := s.flash.talward.take Config.chainMax
  let body := migHead 2 (9160 + chain.length) (BitVec.ofNat 64 (msgLe m 8 8)) s.otp.deviceId (BitVec.ofNat 16 (msgLe m 24 2)) dstVf
    ++ msgBytes m 32 32 ++ kePublic k ++ be 48 s.ks.keHash.toNat ++ [lcState s] ++ le 2 s.pkg.svn ++ zeros 4 ++ le 8 (rightsInForce s).toNat
    ++ be 48 (ownerHash s).toNat ++ Config.mldsaPublic k.xi
  body ++ Config.ecdsaSign k.ecD body ++ Config.mldsaSign k.xi migContext body ++ [0] ++ le 4 chain.length ++ chain
/-- ENCAP. -/
def migEncap (m : MigMsg) (ct eph : List Byte) (confirm : BitVec 128) : List Byte :=
  migHead 3 1752 (BitVec.ofNat 64 (msgLe m 8 8)) (BitVec.ofNat 64 (msgLe m 16 8)) (BitVec.ofNat 16 (msgLe m 24 2)) (BitVec.ofNat 16 (msgLe m 26 2))
    ++ msgBytes m 32 32 ++ ct ++ eph ++ zeros 7 ++ be 16 confirm.toNat

/-- The migration key (R320); a message's integers stand in the context big-endian (R110). -/
def migrationKey (m : MigMsg) (secret : List Byte) (keHash : List Byte) (ct eph : List Byte) : Key :=
  BitVec.ofNat 256 (ofBe (kdfBytes secret lblMigrate
    (be 8 (msgLe m 8 8) ++ be 8 (msgLe m 16 8) ++ be 2 (msgLe m 24 2) ++ be 2 (msgLe m 26 2) ++ msgBytes m 32 32 ++ keHash
      ++ be 48 (Config.sha384 (ct ++ eph)).toNat) 256))
/-- CONFIRM (R320). -/
def migConfirm (m : MigMsg) (key : Key) : BitVec 128 := kdf128 key lblMigConfirm (msgBytes m 32 32)

/-- R320: the source's encapsulation to KE with three draws of the entropy source: ciphertext, ephemeral point and migration key; none where
KE holds no point of P-384. Log entry 172 (DEDUCED). -/
def encapsulate (s : State) (m : MigMsg) : Option (List Byte × List Byte × Key) :=
  let kem := Config.mlkemEncaps (msgBytes m 64 1568) (drawn s)
  let d := p384Private ((be 32 (drawn (bumpDraw s)).toNat ++ be 32 (drawn (bumpDraw (bumpDraw s))).toNat).take 56)
  let eph := Config.p384Public d
  (Config.p384Shared d (msgBytes m 1632 97)).map (fun x =>
    (kem.1, eph, migrationKey m (be 32 kem.2.toNat ++ be 48 x.toNat) (msgBytes m 1729 48) kem.1 eph))
/-- R320: the migration key of an ENCAP at the destination; none where ECDH_EPH is no point of P-384 or CONFIRM differs. -/
def decapsulate (s : State) (m : MigMsg) : Option Key :=
  let ct := msgBytes m 64 1568
  let eph := msgBytes m 1632 97
  match s.ks.identity.bind (hybridSecret · ct eph) with
  | none => none
  | some z =>
    let key := migrationKey m z (be 48 s.ks.keHash.toNat) ct eph
    if (migConfirm m key).toNat = ofBe (msgBytes m 1736 16) then some key else none

/-- Place a migration key in a reserved slot of the internal range; the KXE then finishes the command. -/
def placeMigration (p : InProg) (key : Key) (addr : W64) (reply : Option HostData) (s : State) : State :=
  let (kid, s) := reserveInt s
  goOn p { kxe := true } (.migrateKey kid addr reply) (placeKey kid (mkSlot key .migration useWrap p.target 0 0xFFFF 0) s)

/-- MIGRATE_KEY: START draws NONCE_S and gives OFFER; OFFER gives a signed ACCEPT; ACCEPT and ENCAP place the migration key. -/
def startMigrateKey (addr : W64) (msg : Fetched MigMsg) (p : InProg) (s : State) : State :=
  let f := p.target
  let v := BitVec.ofNat 16 f.key
  match msg with
  | .failed => s
  | .ok m =>
    if msgKind m = 0 then
      let n := drawn s
      let dst := BitVec.ofNat 64 (msgLe m 16 8)
      let s := fnMod f (fun x => { x with nonceS := some n, migPeer := some (s.otp.deviceId, dst, v) }) (bumpDraw s)
      goOn p { dma := true } (.done stOk 0 0) (sendHost .pf addr (.migMessage (migOffer s.otp.deviceId dst v n)) s)
    else if msgKind m = 1 then
      match s.ks.identity with
      | some k => goOn p { kxe := true } (.migrateKey 0 addr (some (.migMessage (migAccept s k m v)))) s
      | none => s
    else if msgKind m = 2 then
      match acceptCheck s f m with
      | some (st, d) => goOn p { kxe := true } (.done st d 0) s
      | none =>
        match encapsulate s m with
        | none => goOn p { kxe := true } (.done stAuthFailed 0 0) s
        | some (ct, eph, key) =>
          placeMigration p key addr (some (.migMessage (migEncap m ct eph (migConfirm m key)))) (bumpDraw (bumpDraw (bumpDraw s)))
    else
      match decapsulate s m with
      | some key => placeMigration p key addr none s
      | none => goOn p { kxe := true } (.done stAuthFailed 0 0) s

/-- The row of MIGRATE_KEY (Table 03-6). -/
def migrateKeyRow (h : CmdHdr) (bufAddr bufLen : W64) (msg : Fetched MigMsg) : Row :=
  { hdr := h, opcode := 0x58, fields := [(24, 8, bufAddr.toNat), (32, 8, bufLen.toNat)],
    checks := migKeyChecks bufLen msg }
/-- The effect of MIGRATE_KEY. -/
def execMigrateKey (h : CmdHdr) (bufAddr bufLen : W64) (msg : Fetched MigMsg) (s : State) : Host.Outcome State Fault Refusal :=
  .next (runRow (migrateKeyRow h bufAddr bufLen msg) (startMigrateKey bufAddr msg) s)

/-! ### MIGRATE_FREEZE (R321) -/

/-- Bytes of a function's carve-outs. -/
def carveBytes (s : State) (f : Fn) : Nat := segCount s f * segSize
/-- MIGRATE_FREEZE's checks. -/
def freezeChecks (h : CmdHdr) (s : State) : Checks :=
  let f := hdrTarget h
  let kept := (s.regions.filter (fun r => r.2.fn == f)).map (·.2.state)
  { state := [match kept with
      | [] => none
      | st :: _ => some (stBadState, if kept.contains .live then 0x11 else regCode st)]
    limits := [failIf (decide (2 ^ 36 < carveBytes s f) && (fnOf s f).dirty.isNone) stLimits 0x601] }

/-- The row of MIGRATE_FREEZE (Table 03-6). -/
def migrateFreezeRow (h : CmdHdr) : Row :=
  { hdr := h, opcode := 0x59,
    checks := freezeChecks h }
/-- The effect of MIGRATE_FREEZE. -/
def execMigrateFreeze (h : CmdHdr) (s : State) : Host.Outcome State Fault Refusal :=
  .next (runRow (migrateFreezeRow h) (fun p s => goOn p {} (.freeze 0) (quiesceVf (hdrTarget h) s)) s)

/-! ### MIGRATE_SAVE (R322 to R324) -/

/-- ERR of a fence as the image carries it. -/
def errCode (e : FenceErr) : BitVec 2 := match e with | .none => 0 | .range => 1 | .abandoned => 2 | .peerLost => 3
/-- ERR of a fence from the image. -/
def errOf (c : BitVec 2) : FenceErr := if c = 0 then .none else if c = 1 then .range else if c = 2 then .abandoned else .peerLost
/-- The offset of an address within its carve-out, and the stack set. -/
def carveOffset (s : State) (f : Fn) (a : Nat) : Nat × Nat :=
  let k := (setOf a).getD 0
  (k, a - (carveAt s (carveKey f k)).base)

/-- The device state of a VF (R322). -/
def deviceItems (s : State) (f : Fn) : List ImageItem :=
  let x := fnOf s f
  let r := x.ring
  (x.ctxs.filter (fun c => c.2.live)).map (fun c => .context (BitVec.ofNat 16 c.1) c.2.gen)
    ++ x.objs.map (fun o => let (k, off) := carveOffset s f o.2.base
                            .object (handleOf (mapGet 0 x.objReuse o.1) o.1) o.2.rights o.2.ctx k off o.2.size)
    ++ x.fences.map (fun n => .fence (handleOf (mapGet 0 x.fenceReuse n.1) n.1) n.2.value (errCode n.2.err) n.2.local_ n.2.refs)
    ++ (s.ks.slots.filter (fun e => e.2.owner == f && e.2.kind == .tenant)).map (fun e =>
         .tenant e.2.kid e.2.key e.2.job e.2.ctx e.2.ctxGen e.2.parent)
    ++ (s.bulk.filter (fun b => b.2.vf == f)).map (fun b =>
         .bulk (bctxOf (mapGet 0 s.bulkReuse b.1) b.1) b.2.mode b.2.kid b.2.ctx b.2.ctxGen (b.2.state == .message) b.2.decrypt b.2.duLog2 b.2.chain)
    ++ [.ring r.cmdBase r.cplBase r.dbrecBase (BitVec.ofNat 64 (r.cmdLog2.toNat + 16 * r.cplLog2.toNat)) (r.vector.setWidth 64)
         r.cmdHead r.cplTail r.eventPending (if r.evtOvf then 1 else 0)]

/-- A job's claimed return-filter entries. -/
def jobFilter (s : State) (f : Fn) : List (BitVec 12 × W16) :=
  match (fnOf s f).job with
  | none => []
  | some j => (s.filter.filter (fun e => e.2.claimed && e.2.job == j)).map (fun e => (BitVec.ofNat 12 e.1, e.2.gen))

/-- The segments of a VF that have to be saved: never saved, or written since (R324). -/
def unsaved (s : State) (f : Fn) (v : SaveSt) : List Nat := (List.range (segCount s f)).filter (fun k => (mapFind v.segments k).isNone)
/-- Items of the device state that one chunk carries, so that LENGTH stays within 2 MiB. -/
def chunkItems : Nat := 4096
/-- Device-state chunks of an image. -/
def deviceChunks (s : State) (f : Fn) : Nat := ((deviceItems s f).length + (chunkItems - 1)) / chunkItems
/-- The chunks of a whole image that follow, as kind, and segment or part of the device state. Log entry 109 (DESIGN CHOICE). -/
def imageChunks (s : State) (f : Fn) (v : SaveSt) : List (Byte × Nat) :=
  (if v.header.isSome then [] else [(1, 0)]) ++ (List.range (deviceChunks s f)).map (fun k => (2, k)) ++ [(4, 0)] ++ (unsaved s f v).map (fun k => (3, k)) ++ [(5, 0), (6, 0)]

/-- The save in progress for a VF, or a new image: its content key and its id are drawn. -/
def saveOf (s : State) (f : Fn) (fresh : Bool) : SaveSt × State :=
  match (fnOf s f).save with
  | some v => if fresh && v.left.isSome then newSave s else (v, s)
  | none => newSave s
where
  /-- A new image. -/
  newSave (s : State) : SaveSt × State :=
    ({ contentKey := drawn s, imageId := (drawn (bumpDraw s)).setWidth 128, header := none, nextIndex := 1, segments := [],
       left := none, pos := 0 }, bumpDraw (bumpDraw s))

/-- The sizes of a VF's carve-outs, in bytes, by stack set. -/
def carveSizes (s : State) (f : Fn) : List Nat := (carveSegs s f).map (fun c => c.2 * segSize)
/-- The job that a VF is bound to, zero for none. -/
def imageJob (s : State) (f : Fn) : W16 := (fnOf s f).job.getD 0
/-- The HMAC of the VF's return filter; an open value where the VF is bound to no job and so has no key for it. -/
def ownFilterMac (s : State) (f : Fn) : BitVec 128 :=
  if (fnOf s f).job.isSome then filterMac (keyOf s (fnOf s f).jmkKid) s.fab.id (imageJob s f) (jobFilter s f) else (opened s).setWidth 128
/-- What the chunk of a kind holds (R322); `mig` is the migration key. -/
def chunkBody (s : State) (f : Fn) (v : SaveSt) (mig : Key) (c : Byte × Nat) : ChunkBody :=
  let peer := (fnOf s f).migPeer.getD (s.otp.deviceId, 0, BitVec.ofNat 16 f.key)
  let wrap := fun (k : Key) => Config.kwWrap k (be 32 v.contentKey.toNat)
  if c.1 = 1 then .header peer.1 peer.2.1 peer.2.2 (imageJob s f) (carveSizes s f) (wrap mig) (wrap (migrationWrap s))
  else if c.1 = 2 then .device (((deviceItems s f).drop (chunkItems * c.2)).take chunkItems)
  else if c.1 = 3 then .segment (Config.segmentData s.opens c.2)
  else if c.1 = 4 then .filter (imageJob s f) (jobFilter s f) (ownFilterMac s f)
  else if c.1 = 5 then .segMap ((List.range (segCount s f)).map (fun k => BitVec.ofNat 32 (mapGet 0 v.segments k)))
  else .last (v.nextIndex + 1)
/-- LENGTH of a chunk (R322). -/
def chunkLength (s : State) (f : Fn) (v : SaveSt) (mig : Key) (c : Byte × Nat) : Nat :=
  if c.1 = 3 then segSize else if c.1 = 5 then 4 * segCount s f else (bodyImage (chunkBody s f v mig c)).length
/-- IV of a sealed chunk: CHUNK_INDEX as its header holds it, then four zero bytes (R322). Log entry 173 (DEDUCED). -/
def chunkIv (index : W64) : BitVec 96 := BitVec.ofNat 96 (ofBe (le 8 index.toNat ++ zeros 4))
/-- Additional data of a sealed chunk: its header, then SHA-384 of the whole header chunk (R322). -/
def chunkAad (c : Chunk) (header : Hash) : List Byte := chunkHead c ++ be 48 header.toNat
/-- SHA-384 of a whole header chunk. -/
def headerHash (c : Chunk) : Hash := Config.sha384 (chunkBytes c (bodyImage c.body))

/-- A chunk of a save, its tag and the bytes that stand after its header, and the save once it is written. -/
def makeChunk (s : State) (f : Fn) (v : SaveSt) (mig : Key) (c : Byte × Nat) : Chunk × List Byte × SaveSt :=
  let body := chunkBody s f v mig c
  let n := chunkLength s f v mig c
  let x : Chunk :=
    { format := 0x0003, ckind := c.1, rsvd3 := 0, length := BitVec.ofNat 32 n, index := if c.1 = 1 then 0 else BitVec.ofNat 64 v.nextIndex
      segment := if c.1 = 3 then BitVec.ofNat 32 c.2 else 0, rsvd20 := 0, imageId := v.imageId, rsvd48 := 0, body := body, tag := 0 }
  let plain := fitTo n (bodyImage body)
  if c.1 = 1 then (x, plain, { v with header := some (headerHash x) })
  else
    let aad := chunkAad x (v.header.getD 0)
    ({ x with tag := Config.gcmTag v.contentKey (chunkIv x.index) aad plain }, Config.gcmCipher v.contentKey (chunkIv x.index) plain,
     { v with nextIndex := v.nextIndex + 1, segments := if c.1 = 3 then mapSet v.segments c.2 v.nextIndex else v.segments })

/-- Write chunks, as many whole ones as fit in `room` bytes from offset `off` of the buffer: the bytes written, the chunks left, the
save and the state. -/
def writeChunks (f : Fn) (mig : Key) (addr : W64) : List (Byte × Nat) → Nat → Nat → SaveSt → State → Nat × List (Byte × Nat) × SaveSt × State
  | [], off, _, v, s => (off, [], v, s)
  | c :: l, off, room, v, s =>
    let n := 64 + chunkLength s f v mig c + if c.1 = 1 then 0 else 16
    if room < n then (off, c :: l, v, s)
    else
      let x := makeChunk s f v mig c
      writeChunks f mig addr l (off + n) (room - n) x.2.2 (sendHost .pf (addr + BitVec.ofNat 64 off) (.chunk x.1 x.2.1) (bumpOpen s))

/-- The KID is a migration key of the VF, LIVE. -/
def migKidCheck (s : State) (f : Fn) (kid : W16) : Check :=
  failIf (!((fnOf s f).migKids.contains kid && kidLive s kid)) stBadState (BitVec.ofNat 32 (kidCode (mapFind s.ks.kids kid.toNat)))
/-- Some bulk engine is usable (R317). -/
def someBulk (s : State) : Check := failIf (!(bulkPresent s 0 || bulkPresent s 1)) stUnitAbsent 0x40

/-- R394: every usable bulk engine is under SELF_TEST. -/
def bulkInTest (s : State) : Check := failIf ([0, 1].all (fun e => !bulkPresent s e || bulkTesting s e)) stBusy 0x7F

/-- MIGRATE_SAVE's checks. Log entry 110 (DEDUCED). -/
def saveImageChecks (h : CmdHdr) (kid : W16) (cursor : W64) (s : State) : Checks :=
  let f := hdrTarget h
  let x := fnOf s f
  let one := cursorSection cursor == 1
  let pos := match x.save with | some v => v.pos | none => 0
  let v := match x.save with | some v => v | none => { contentKey := 0, imageId := 0, header := none, nextIndex := 1, segments := [], left := none, pos := 0 }
  { malformed := [badField (decide (2 ≤ cursorSection cursor) || (one && decide (segCount s f ≤ cursorPos cursor))
      || (!one && cursorPos cursor != 0 && cursorPos cursor != pos)) 40]
    unit := [someBulk s]
    state := [failIf (one && (x.dirty.isNone || x.frozen)) stBadState (openDetail s), failIf (!one && !x.frozen) stBadState 0, migKidCheck s f kid, drsCheck s]
    limits := [failIf (!one && cursorPos cursor == 0 && decide (2 ^ 36 < (unsaved s f v).length * segSize)) stLimits 0x602]
    busy := [bulkInTest s] }

/-- MIGRATE_SAVE: one segment, or the image from where it stands (R324). -/
def startSaveImage (kid : W16) (addr bufLen cursor : W64) (p : InProg) (s : State) : State :=
  let f := p.target
  let one := cursorSection cursor == 1
  let (v, s) := saveOf s f (!one && cursorPos cursor == 0)
  let todo := if one then (if v.header.isSome then [] else [(1, 0)]) ++ [(3, cursorPos cursor)] else v.left.getD (imageChunks s f v)
  let (n, left, v, s) := writeChunks f (keyOf s kid) addr todo 0 bufLen.toNat v s
  let next : Nat := if one then (opened s).toNat else if left.isEmpty then cursorEnd.toNat else v.pos + n
  let v := if one then v else { v with left := some left, pos := v.pos + n }
  let s := fnMod f (fun x => { x with save := some v }) (if one then bumpOpen s else s)
  let result := resAt 0 n ||| resAt 8 next
  if n = 0 then complete p stOk 0 result s else goOn p { dma := true } (.done stOk 0 result) s

/-- The row of MIGRATE_SAVE (Table 03-6). -/
def migrateSaveRow (h : CmdHdr) (migKid : W16) (bufAddr bufLen cursor : W64) : Row :=
  { hdr := h, opcode := 0x5A, fields := [(16, 2, migKid.toNat), (24, 8, bufAddr.toNat), (32, 8, bufLen.toNat), (40, 8, cursor.toNat)],
    checks := saveImageChecks h migKid cursor }
/-- The effect of MIGRATE_SAVE. -/
def execMigrateSave (h : CmdHdr) (migKid : W16) (bufAddr bufLen cursor : W64) (s : State) : Host.Outcome State Fault Refusal :=
  .next (runRow (migrateSaveRow h migKid bufAddr bufLen cursor) (startSaveImage migKid bufAddr bufLen cursor) s)

/-! ### MIGRATE_RESTORE (R325) -/

/-- The restore's header: of the restore in progress, or of the chunks that begin one: job id and carve-out sizes. -/
def headerOf (s : State) (f : Fn) (l : List Chunk) : Option (W16 × List Nat) :=
  match (fnOf s f).restore with
  | some r => some (r.jobId, r.carveSizes)
  | none => (l.filterMap (fun c => match c.body with | .header _ _ _ j sizes _ _ => some (j, sizes) | _ => none)).head?

/-- The fields of the chunks of a buffer, in the order in which they stand there, the first at offset `o` (Table 11-6, R5, R6). -/
def chunkFields : Nat → List Chunk → List Check
  | _, [] => []
  | o, c :: l =>
    firstField [badBuf (c.format != 0x0003) o, badBuf (c.ckind == 0 || 6 < c.ckind.toNat) (o + 2), badBuf (c.rsvd3 != 0) (o + 3),
      badBuf (0x200000 < c.length.toNat) (o + 4), badBuf (c.ckind != 3 && c.segment != 0) (o + 16), rsvdBuf c.rsvd20.toNat 12 (o + 20),
      rsvdBuf c.rsvd48.toNat 16 (o + 48)] :: chunkFields (o + chunkSize c) l

/-- MIGRATE_RESTORE's checks. -/
def restoreImageChecks (h : CmdHdr) (kid : W16) (cursor : W64) (chunks : Fetched (List Chunk)) (s : State) : Checks :=
  let f := hdrTarget h
  let x := fnOf s f
  let l := match chunks with | .ok l => l | .failed => []
  { malformed := [badField (decide (2 ≤ cursorSection cursor)) 40]
    buffer := bufChecks chunks (chunkFields 0)
    unit := [someBulk s]
    state := [failIf (x.tdi.state != .run || x.ctxs.any (fun c => c.2.live)) stBadState 0,
      (match headerOf s f l with
       | some (j, sizes) => failIf (sizes != carveSizes s f || (x.job.isSome && x.job != some j)) stBadState 0
       | none => none),
      failIf (l.any (fun c => c.ckind == 2) && x.ring.enabled) stBadState 0,
      if kid = 0 then drsCheck s else migKidCheck s f kid]
    busy := [bulkInTest s] }

/-- CKIND of a body. -/
def kindOf (b : ChunkBody) : Byte :=
  match b with
  | .header _ _ _ _ _ _ _ => 1 | .device _ => 2 | .segment _ => 3 | .filter _ _ _ => 4 | .segMap _ => 5 | .last _ => 6

/-- A header chunk begins a restore: the content key is unwrapped under the migration key `mig`, or under MIGRATION-WRAP for a local restore
(R325). -/
def beginRestore (mig : Option Key) (loc : Key) (c : Chunk) : Option RestoreSt :=
  match c.body with
  | .header src _ _ job sizes wm wl =>
    if c.ckind ≠ 1 ∨ c.index ≠ 0 then none
    else (match mig with | some k => Config.kwUnwrap k wm | none => Config.kwUnwrap loc wl).map (fun l =>
      { contentKey := BitVec.ofNat 256 (ofBe l), header := headerHash c, srcDevice := src, jobId := job, carveSizes := sizes, lastIndex := 0
        items := [], filter := none, segments := [], segMap := [], pos := chunkSize c })
  | _ => none

/-- Apply a sealed chunk: none where its tag, its index or its place is wrong; true at the end chunk of a whole image. -/
def applySealed (total : Nat) (only : Option Nat) (r : RestoreSt) (c : Chunk) : Option (RestoreSt × Bool) :=
  let k := c.segment.toNat
  if c.ckind ≠ kindOf c.body ∨ Config.gcmTag r.contentKey (chunkIv c.index) (chunkAad c r.header) (bodyImage c.body) ≠ c.tag
    ∨ c.index.toNat ≤ r.lastIndex ∨ only.any (fun g => c.ckind != 3 || k != g) then none
  else
    let r := { r with lastIndex := c.index.toNat, pos := r.pos + if only.isSome then 0 else chunkSize c }
    match c.body with
    | .header _ _ _ _ _ _ _ => none
    | .device items => some ({ r with items := r.items ++ items }, false)
    | .segment _ => if k < total then some ({ r with segments := mapSet r.segments k c.index.toNat }, false) else none
    | .filter job entries mac => some ({ r with filter := some { job := job, entries := entries, mac := mac, device := r.srcDevice } }, false)
    | .segMap l => some ({ r with segMap := r.segMap ++ l }, false)
    | .last _ =>
      if r.segMap.length == total && (List.range total).all (fun k => mapFind r.segments k == some (r.segMap.getD k 0).toNat) then some (r, true)
      else none
/-- Apply one chunk. -/
def applyChunk (total : Nat) (only : Option Nat) (mig : Option Key) (loc : Key) (r : Option RestoreSt) (c : Chunk) : Option (RestoreSt × Bool) :=
  match r with
  | none => (beginRestore mig loc c).map (fun r => (r, false))
  | some r => applySealed total only r c

/-- Apply chunks in order; nothing may follow the end chunk. -/
def applyChunks (total : Nat) (only : Option Nat) (mig : Option Key) (loc : Key) :
    Option RestoreSt → List Chunk → Option (Option RestoreSt × Bool)
  | r, [] => some (r, false)
  | r, c :: l =>
    match applyChunk total only mig loc r c with
    | none => none
    | some (r, true) => if l.isEmpty then some (some r, true) else none
    | some (r, false) => applyChunks total only mig loc (some r) l

/-- The segment chunks that chunks in order apply, up to the first that fails. -/
def appliedSegments (total : Nat) (only : Option Nat) (mig : Option Key) (loc : Key) : Option RestoreSt → List Chunk → List (Nat × List Byte)
  | _, [] => []
  | r, c :: l =>
    match applyChunk total only mig loc r c with
    | none => []
    | some (r, _) =>
      (match c.body with | .segment data => [(c.segment.toNat, data)] | _ => []) ++ appliedSegments total only mig loc (some r) l

/-- Write the segments of applied chunks into the VF's carve-outs. -/
def writeSegments (f : Fn) : List (Nat × List Byte) → State → State
  | [], s => s
  | (k, data) :: l, s =>
    writeSegments f l (match segAddr (carveSegs s f) k with
      | some a => sendSpace f (BitVec.ofNat 64 (2 ^ 63 + a)) (.plain data) s
      | none => s)

/-- Place a TENANT key of an image under its own KID where that is one of the functions' range and free, else under a fresh one; banks are
taken in turn as for any key (R118, R121). Log entry 112 (DEDUCED). -/
def placeTenant (f : Fn) (kid : W16) (x : SlotSt) (s : State) : State :=
  match freeSlot s with
  | none => s
  | some sl =>
    let own := decide (Config.kidFirst ≤ kid.toNat ∧ kid.toNat ≤ Config.kidLast) && (mapFind s.ks.kids kid.toNat).isNone
    let (k, s) := if own then
        (kid, { s with ks := { s.ks with kids := mapSet s.ks.kids kid.toNat { st := .reserved f, slot := sl, owner := some f }
                                         lastBank := sl / Config.bankSlots } })
      else reserveKid f s
    activateKid k (placeKey k x s)

/-- Recreate one object of the device state (R325). -/
def recreate (f : Fn) (i : ImageItem) (s : State) : State :=
  match i with
  | .context h g => fnMod f (fun x => { x with ctxs := mapSet x.ctxs h.toNat { gen := g, live := true, suspect := false } }) s
  | .object h rights ctx set off size =>
    let o : ObjSt := { rights := rights, ctx := ctx, base := (carveAt s (carveKey f set)).base + off, size := size, unmapping := false, scrub := false }
    fnMod f (fun x => { x with objs := mapSet x.objs (h.toNat % 65536) o
                               objReuse := mapPut 0 x.objReuse (h.toNat % 65536) (BitVec.ofNat 16 (h.toNat / 65536)) }) s
  | .fence h v err prod refs =>
    fnMod f (fun x => { x with fences := mapSet x.fences (h.toNat % 65536) { value := v, err := errOf err, local_ := prod, refs := refs }
                               fenceReuse := mapPut 0 x.fenceReuse (h.toNat % 65536) (BitVec.ofNat 16 (h.toNat / 65536)) }) s
  | .tenant kid key job ctx g parent => placeTenant f kid { mkSlot key .tenant useBulk f job ctx g with parent := parent } s
  | .bulk b mode kid ctx g inMsg dec du chain =>
    let k := b.toNat % 65536
    if (mapFind s.bulk k).isSome then s
    else
      let keyed := !unkeyed mode && kid == 0
      { s with bulk := mapSet s.bulk k { vf := f, mode := mode, ctx := ctx, ctxGen := g, kid := kid, key := none
                                         state := if keyed then .lost else if inMsg then .message else .idle, decrypt := dec, duLog2 := du, chain := chain }
               bulkReuse := mapPut 0 s.bulkReuse k (BitVec.ofNat 16 (b.toNat / 65536)) }
  | .ring cmd cpl db size vec head tail ev fl =>
    let take := (opened s).setWidth 32
    ringMod f (fun _ => { cmdBase := cmd, cplBase := cpl, dbrecBase := db, cmdLog2 := BitVec.ofNat 4 size.toNat, cplLog2 := BitVec.ofNat 4 (size.toNat / 16)
                          vector := vec.setWidth 2, ctrl := true, enabled := true, cmdTail := head, cmdHead := head, cplTail := tail, cplHead := tail
                          eventPending := ev, evtOvf := fl.getLsbD 0, eventTake := take }) (bumpOpen s)

/-- Recreate the device state. -/
def recreateAll (f : Fn) : List ImageItem → State → State
  | [], s => s
  | i :: l, s => recreateAll f l (recreate f i s)

/-- The end of a restore: the device state recreated, the return filter applied or held until the VF joins the job. -/
def endRestore (f : Fn) (kid : W16) (r : RestoreSt) (s : State) : State :=
  let s := fnMod f (fun x => { x with restore := none }) (recreateAll f r.items s)
  let s := match r.filter with
    | none => s
    | some x => if (fnOf s f).job = some x.job then applyFilter f x s else fnMod f (fun y => { y with heldFilter := some x }) s
  if kid = 0 then s else retireKid kid (fnMod f (fun x => { x with migKids := x.migKids.erase kid }) s)

/-- A restore that fails leaves the VF as RESET_VF would. Log entry 111 (DEDUCED). -/
def failRestore (p : InProg) (st : W16) (s : State) : State := complete p st 0 0 (tdiError false p.target s)

/-- MIGRATE_RESTORE: chunks are applied in CHUNK_INDEX order; the end chunk ends the restore. -/
def startRestoreImage (kid : W16) (cursor : W64) (chunks : Fetched (List Chunk)) (p : InProg) (s : State) : State :=
  let f := p.target
  match chunks with
  | .failed => s
  | .ok l =>
    let mig := if kid = 0 then none else some (keyOf s kid)
    let only := if cursorSection cursor = 1 then some (cursorPos cursor) else none
    let r := (fnOf s f).restore
    let done := applyChunks (segCount s f) only mig (migrationWrap s) r l
    let s := writeSegments f (appliedSegments (segCount s f) only mig (migrationWrap s) r l) s
    match done with
    | none => failRestore p stAuthFailed s
    | some (some r, true) => complete p stOk 0 (cursorEnd.setWidth 128) (endRestore f kid r s)
    | some (r, _) =>
      let next := if only.isSome then (opened s).toNat else (match r with | some r => r.pos | none => 0)
      complete p stOk 0 (resAt 0 next) (fnMod f (fun x => { x with restore := r }) (if only.isSome then bumpOpen s else s))

/-- The row of MIGRATE_RESTORE (Table 03-6). -/
def migrateRestoreRow (h : CmdHdr) (migKid : W16) (cursor : W64) (chunks : Fetched (List Chunk)) : Row :=
  { hdr := h, opcode := 0x5B, fields := [(16, 2, migKid.toNat), (40, 8, cursor.toNat)],
    checks := restoreImageChecks h migKid cursor chunks }
/-- The effect of MIGRATE_RESTORE. -/
def execMigrateRestore (h : CmdHdr) (migKid : W16) (cursor : W64) (chunks : Fetched (List Chunk)) (s : State) :
    Host.Outcome State Fault Refusal :=
  .next (runRow (migrateRestoreRow h migKid cursor chunks) (startRestoreImage migKid cursor chunks) s)

/-! ### Dirty logging (R326, R327) -/

/-- Dirty logging of the VF is off, or on. -/
def logCheck (s : State) (h : CmdHdr) (on : Bool) : Check := failIf ((fnOf s (hdrTarget h)).dirty.isSome != on) stBadState (openDetail s)

/-- The row of DIRTY_LOG_START (Table 03-6). -/
def dirtyLogStartRow (h : CmdHdr) (bufAddr bufLen : W64) : Row :=
  { hdr := h, opcode := 0x5C, fields := [(24, 8, bufAddr.toNat), (32, 8, bufLen.toNat)],
    checks := fun s => { malformed := [badField (bufLen.toNat % 64 != 0) 32], state := [logCheck s h false] } }
/-- The effect of DIRTY_LOG_START: bitmap A is active; the checkers' marks are cleared at the next boundary. -/
def execDirtyLogStart (h : CmdHdr) (bufAddr bufLen : W64) (s : State) : Host.Outcome State Fault Refusal :=
  .next (runRow (dirtyLogStartRow h bufAddr bufLen) (fun p s => complete p stOk 0 0
      (fnMod p.target (fun x => { x with dirty := some { bufAddr := bufAddr, bufLen := bufLen, activeB := false, pagesA := [], pagesB := [], overflow := false } })
        { s with staged := s.staged ++ [.clearMarks p.target.key] })) s)

/-- The row of DIRTY_LOG_STOP (Table 03-6). -/
def dirtyLogStopRow (h : CmdHdr) : Row :=
  { hdr := h, opcode := 0x5D,
    checks := fun s => { state := [logCheck s h true] } }
/-- The effect of DIRTY_LOG_STOP: every marked write has been issued. -/
def execDirtyLogStop (h : CmdHdr) (s : State) : Host.Outcome State Fault Refusal :=
  .next (runRow (dirtyLogStopRow h) (fun p s => complete p stOk 0 0 (fnMod p.target (fun x => { x with dirty := none }) s)) s)

/-- DIRTY_LOG_SYNC: the other bitmap becomes active; the marks are taken at the next boundary. -/
def startDirtySync (addr : W64) (p : InProg) (s : State) : State :=
  match (fnOf s p.target).dirty with
  | none => s
  | some d =>
    let bits := (if d.activeB then d.pagesB else d.pagesA).length
    let d := if d.activeB then { d with activeB := false, pagesA := [] } else { d with activeB := true, pagesB := [] }
    goOn p { boundary := true } (.dirtySync addr bits 0)
      { fnMod p.target (fun x => { x with dirty := some d }) s with staged := s.staged ++ [.takeMarks p.target.key (p.fn, p.idx)] }

/-- The row of DIRTY_LOG_SYNC (Table 03-6). -/
def dirtyLogSyncRow (h : CmdHdr) (bufAddr bufLen : W64) : Row :=
  { hdr := h, opcode := 0x5E, fields := [(24, 8, bufAddr.toNat), (32, 8, bufLen.toNat)],
    checks := fun s => { state := [logCheck s h true], limits := [failIf (8 * bufLen.toNat < segCount s (hdrTarget h)) stLimits 0x603] } }
/-- The effect of DIRTY_LOG_SYNC. -/
def execDirtyLogSync (h : CmdHdr) (bufAddr bufLen : W64) (s : State) : Host.Outcome State Fault Refusal :=
  .next (runRow (dirtyLogSyncRow h bufAddr bufLen) (startDirtySync bufAddr) s)

end Sys2Proof.Machine
end

