-- ==== Sys2Proof/Machine/RecoveryMail.lean ====
section
/-! DEFINITION. The recovery mailbox that ROM serves from step 2 of the start until firmware runs (R92, R399 to R401). -/
namespace Sys2Proof.Machine

/-- ROM serves the mailbox: from step 2 until firmware starts (R400). -/
def romServes (s : State) : Bool :=
  s.pkg.power != .off && (match s.pkg.phase with | .bistWait _ _ => true | .recovery => true | .romHalt => true | _ => false)
/-- A response of the mailbox as its bytes (R400): RCMD with bit 7 set, a zero byte, RSTAT, LEN and the body. -/
def recImage (rcmd : Byte) (rstat : W16) (body : List Byte) : List Byte :=
  [rcmd ||| 0x80, 0] ++ le 2 rstat.toNat ++ le 4 body.length ++ body
/-- A response with a body. -/
def recBody (rcmd : Byte) (rstat : W16) (body : List Byte) (s : State) : State :=
  emit (.recoveryResp (rcmd ||| 0x80) rstat (recImage rcmd rstat body)) s
/-- A response without one. -/
def recRespond (rcmd : Byte) (rstat : W16) (s : State) : State := recBody rcmd rstat [] s
/-- A request that is allowed where `ok` holds, and completes with BAD_STATE elsewhere (R400). Log entry 142 (DEDUCED). -/
def recMail (rcmd : Byte) (ok : Bool) (f : State → State) (s : State) : State :=
  if !romServes s then s else if ok then f s else recRespond rcmd stBadState s

/-- ROM waits in recovery mode for a resubmitted journal (R92). -/
def journalWaits (s : State) : Bool := s.pkg.phase == .recovery && s.aon.journalWait
/-- Recovery mode takes an image: not in a journal wait, nor while one is being written. -/
def takesImage (s : State) : Bool := s.pkg.phase == .recovery && !s.aon.journalWait && !s.pkg.writing

/-- STATUS (Table 15-6): the life-cycle status block, REASON, the fused security version, bytes received, WRITING. -/
def recStatus (s : State) : State :=
  recBody 0x01 stOk (lcBytes (lcStatusOf s) ++ [s.pkg.reason, BitVec.ofNat 8 s.otp.svn] ++ le 4 s.pkg.imgGot ++ [if s.pkg.writing then 1 else 0]) s
/-- The effect of RECOVERY_STATUS. -/
def execRecoveryStatus (s : State) : Host.Outcome State Fault Refusal := .next (recMail 0x01 true recStatus s)

/-- LC_CHALLENGE: a fresh nonce replaces any earlier one (R84). -/
def recChallenge (s : State) : State :=
  recBody 0x02 stOk (be 32 (drawn s).toNat) (bumpDraw { s with aon := { s.aon with nonce := some (drawn s) } })
/-- The effect of RECOVERY_LC_CHALLENGE. -/
def execRecoveryLcChallenge (s : State) : Host.Outcome State Fault Refusal := .next (recMail 0x02 (journalWaits s) recChallenge s)

/-- R92: the request finishes the pending transition: same KIND and OWNER_SLOT, a challenge outstanding, NEW_OWNER_HASH with a 1 in
every bit already burned in the slot. -/
def resubmits (s : State) (r : LcReq) (k : Nat) : Bool :=
  r.kind == (if k = 0 then 5 else 6) && r.ownerSlot.toNat == k && s.aon.nonce.isSome
    && (s.otp.owners.getD k 0 &&& ~~~r.newOwnerHash) == 0

/-- LC_TRANSITION during a journal wait: the fields, R92, then authentication, which consumes the nonce; steps c and d follow, and the
reset of R95. Log entry 143 (DEDUCED). -/
def recTransition (r : LcReq) (env : StartEnv) (s : State) : State :=
  match firstFail (lcFields s r), pendingOwner s with
  | some _, _ => recRespond 0x03 stMalformed s
  | none, none => recRespond 0x03 stBadState s
  | none, some k =>
    if !resubmits s r k then recRespond 0x03 stBadState s
    else
      let ok := lcAuth s r
      let s := { s with aon := { s.aon with nonce := none } }
      if ok then start true env (recRespond 0x03 stOk (finishOwner k r.newOwnerHash s)) else recRespond 0x03 stAuthFailed s
/-- The effect of RECOVERY_LC_TRANSITION. -/
def execRecoveryLcTransition (req : LcReq) (env : StartEnv) (s : State) : Host.Outcome State Fault Refusal :=
  .next (recMail 0x03 (journalWaits s) (recTransition req env) s)

/-! ### The firmware image -/

/-- The image slot's bytes (R396). -/
def imageMax : Nat := 1572864
/-- IMG_BEGIN: receipt begins anew. -/
def imgStart (length : Nat) (s : State) : State :=
  if imageMax < length then recRespond 0x10 stMalformed s
  else recRespond 0x10 stOk { s with pkg := { s.pkg with imgLen := some length, imgGot := 0 } }
/-- The effect of IMG_BEGIN. -/
def execImgBegin (length : Nat) (s : State) : Host.Outcome State Fault Refusal := .next (recMail 0x10 (takesImage s) (imgStart length) s)

/-- IMG_DATA: bytes at the next offset, 1 to 65,536 of them and within the image's length. -/
def imgTake (bytes n : Nat) (s : State) : State :=
  if bytes = 0 ∨ 65536 < bytes ∨ n < s.pkg.imgGot + bytes then recRespond 0x11 stMalformed s
  else recRespond 0x11 stOk { s with pkg := { s.pkg with imgGot := s.pkg.imgGot + bytes } }
/-- The effect of IMG_DATA. -/
def execImgData (offset bytes : Nat) (s : State) : Host.Outcome State Fault Refusal :=
  .next (recMail 0x11 (takesImage s && s.pkg.imgLen.isSome && offset == s.pkg.imgGot) (imgTake bytes (s.pkg.imgLen.getD 0)) s)

/-- R401: the status of an image that fails a check of R397. -/
def commitStatus (reason : Byte) : W16 := if reason = 1 then stMalformed else if reason = 3 then stBadState else stAuthFailed
/-- IMG_COMMIT: an image that passes is answered at once and programmed. -/
def imgVerify (img : FwImage) (s : State) : State :=
  let r := imageReason s (some img)
  if r = 0 then emit .flashWrite (recRespond 0x12 stOk { s with pkg := { s.pkg with writing := true, imgNew := some img } })
  else recRespond 0x12 (commitStatus r) s
/-- The effect of IMG_COMMIT. -/
def execImgCommit (img : FwImage) (s : State) : Host.Outcome State Fault Refusal :=
  .next (recMail 0x12 (takesImage s && s.pkg.imgLen == some s.pkg.imgGot) (imgVerify img) s)

/-- IMAGE_WRITE_DONE (R401): the slot has been programmed and read back; ROM performs a warm reset. A slot that reads back otherwise
holds no image. Log entry 144 (DEDUCED). -/
def imageWritten (readBackOk : Bool) (env : StartEnv) (s : State) : State :=
  if s.pkg.writing ∧ s.pkg.phase = .recovery then
    start true env { s with flash := { s.flash with image := if readBackOk then s.pkg.imgNew else none } }
  else s
/-- The effect of IMAGE_WRITE_DONE. -/
def execImageWriteDone (readBackOk : Bool) (env : StartEnv) (s : State) : Host.Outcome State Fault Refusal :=
  .next (imageWritten readBackOk env s)

end Sys2Proof.Machine
end

