-- ==== Sys2Proof/Machine/Telemetry.lean ====
section
/-! DEFINITION. Debug grants on the admin ring, the Tabor gate's views, per-command sets and trace (13_debug_telemetry.md). -/
namespace Sys2Proof.Machine

/-! ### Grants (R349, R352) -/

/-- DEBUG_GRANT's checks (Table 13-3). -/
def grantChecks (bufLen : W32) (cert : Fetched Cert) (s : State) : Checks :=
  let cs := match cert with | .ok c => [c] | .failed => []
  { malformed := [badField (bufLen != 7572) 24], buffer := bufChecks cert certFields, permitted := cs.flatMap (certPermitted s)
    state := cs.map (certState s), busy := [certBusy s], slots := [intSlotCheck s] }
/-- DEBUG_GRANT: a KID for the debug key is reserved and the KXE checks the signatures. Log entry 96 (DEDUCED). -/
def startGrant (cert : Fetched Cert) (p : InProg) (s : State) : State :=
  match cert with
  | .failed => s
  | .ok c =>
    let (kid, s) := reserveInt s
    goOn p { kxe := true } (.debugGrant c kid) s

/-- The row of DEBUG_GRANT (Table 03-6). -/
def debugGrantRow (h : CmdHdr) (bufLen : W32) (cert : Fetched Cert) : Row :=
  { hdr := h, opcode := 0x68, fields := [(24, 4, bufLen.toNat)],
    checks := grantChecks bufLen cert }
/-- The effect of DEBUG_GRANT. -/
def execDebugGrant (h : CmdHdr) (bufLen : W32) (cert : Fetched Cert) (s : State) : Host.Outcome State Fault Refusal :=
  .next (runRow (debugGrantRow h bufLen cert) (startGrant cert) s)

/-- DEBUG_REVOKE (R352): the grant ends; the command waits for its debug KID's retirement. -/
def startRevoke (p : InProg) (s : State) : State :=
  match s.grant with
  | none => complete p stOk 0 0 s
  | some g => goOn p { kids := [g.kid] } (.done stOk 0 0) (revokeGrant g s)

/-- The row of DEBUG_REVOKE (Table 03-6). -/
def debugRevokeRow (h : CmdHdr) : Row :=
  { hdr := h, opcode := 0x69 }
/-- The effect of DEBUG_REVOKE. -/
def execDebugRevoke (h : CmdHdr) (s : State) : Host.Outcome State Fault Refusal := .next (runRow (debugRevokeRow h) startRevoke s)

/-! ### Windows (R357 to R359) -/

/-- The view that a telemetry command acts on (Table 13-7). -/
def viewFor (h : CmdHdr) : ViewId :=
  match h.fn with
  | .vf v => .vf v
  | .pf => if h.tvValid then .pfOf h.tv else .package

/-- The largest power of two that is at most `n`, for `n` of at least 1. -/
def floorPow2 (n : Nat) : Nat := 2 ^ Nat.log2 n
/-- The window that a WINDOW_US gives in a view (Table 13-7). -/
def windowFor (v : ViewId) (fine : Bool) (us : Nat) : Nat :=
  match v with
  | .vf _ => us
  | .pfOf _ => if fine then us else floorPow2 (us / 1000) * 1000
  | .package => if fine then us else floorPow2 (us / 1000) * 1000

/-- TELEM_WINDOW's checks. -/
def windowChecks (h : CmdHdr) (us : W32) (s : State) : Checks :=
  { malformed := [badField (us == 0 || decide (1000000 < us.toNat)) 16]
    permitted := [failIf (h.fn == .pf && decide (us.toNat < 1000) && !hasRight s 14) stNotPermitted 14] }

/-- The row of TELEM_WINDOW (Table 03-6). -/
def telemWindowRow (h : CmdHdr) (windowUs : W32) : Row :=
  { hdr := h, opcode := 0x60, fields := [(16, 4, windowUs.toNat)],
    checks := windowChecks h windowUs }
/-- The effect of TELEM_WINDOW: the setting takes effect at the view's next end tick. -/
def execTelemWindow (h : CmdHdr) (windowUs : W32) (s : State) : Host.Outcome State Fault Refusal :=
  .next (runRow (telemWindowRow h windowUs) (fun p s =>
      let us := windowFor (viewFor h) (hasRight s 14) windowUs.toNat
      complete p stOk 0 (BitVec.ofNat 128 us) (viewMod (viewFor h) (fun w => { w with pending := some us }) s)) s)

/-! ### Reading (R362, R363) -/

/-- Bytes of a view's record. -/
def recordBytes (v : ViewId) : Nat := match v with | .package => 4608 | .vf _ => 1088 | .pfOf _ => 1088
/-- The reader whose slice a TELEM_READ drains: its own; the named VF's for the PF under TRACE_ALL. Log entry 98 (DEDUCED). -/
def sliceFor (h : CmdHdr) (s : State) : Fn :=
  match h.fn with
  | .vf v => .vf v
  | .pf => if h.tvValid && hasRight s 15 then .vf h.tv else .pf

/-- Drain a slice, oldest first, up to `room` records; a block whose tag fails is skipped and its records count as lost: the records
delivered, those lost, the blocks left. -/
def drain (bad : List Nat) : List TraceBlock → Nat → List TraceRec × Nat × List TraceBlock
  | [], _ => ([], 0, [])
  | b :: bs, room =>
    if bad.contains b.seq then let (r, n, left) := drain bad bs room; (r, n + b.recs.length, left)
    else if b.recs.length ≤ room then let (r, n, left) := drain bad bs (room - b.recs.length); (b.recs ++ r, n, left)
    else (b.recs.take room, 0, if room = 0 then b :: bs else { b with recs := b.recs.drop room } :: bs)

/-- The telemetry record of a view with the trace that follows it (Table 13-9), for `bufLen` bytes: the record, its bytes, and the state
with the slice drained. -/
def readView (v : ViewId) (reader : Fn) (bufLen : Nat) (bad : List Nat) (s : State) : HostData × Nat × State :=
  let w := viewOf s v
  let t := mapGet {} s.tabor.trace reader.key
  let (recs, lost, left) := drain bad t.blocks ((bufLen - recordBytes v) / 32)
  let lost := t.lost + lost
  let tb := t.blocks.any (fun b => bad.contains b.seq && !left.any (fun c => c.seq == b.seq))
  let flags : Byte := (if lost = 0 then 0 else 1) ||| (if tb then 2 else 0)
  let code : Byte := match v with | .vf _ => 1 | .pfOf _ => 2 | .package => 3
  let vf : W16 := match v with | .vf i => i.setWidth 16 | .pfOf i => i.setWidth 16 | .package => 0x1000
  let d := match w.closed with
    | some (k, st, us, counts) => HostData.telemetry code (flags ||| (if k = 0 then 4 else 0)) vf k st us counts lost recs
    | none => HostData.telemetry code (flags ||| 8) vf (2 ^ 64 - 1) w.t0 w.window [] lost recs
  (d, recordBytes v + 32 * recs.length, { s with tabor := { s.tabor with trace := mapPut {} s.tabor.trace reader.key { t with blocks := left, lost := 0 } } })

/-- TELEM_READ: the record and the drained trace are written. -/
def startTelemRead (h : CmdHdr) (addr : W64) (bufLen : W32) (bad : List Nat) (p : InProg) (s : State) : State :=
  let (d, n, s) := readView (viewFor h) (sliceFor h s) bufLen.toNat bad s
  goOn p { dma := true } (.done stOk 0 (BitVec.ofNat 128 n)) (sendHost h.fn addr d s)

/-- The row of TELEM_READ (Table 03-6). -/
def telemReadRow (h : CmdHdr) (bufAddr : W64) (bufLen : W32) : Row :=
  { hdr := h, opcode := 0x61, fields := [(24, 8, bufAddr.toNat), (32, 4, bufLen.toNat)],
    checks := fun _ => { malformed := [badField (decide (bufLen.toNat < recordBytes (viewFor h))) 32] } }
/-- The effect of TELEM_READ. -/
def execTelemRead (h : CmdHdr) (bufAddr : W64) (bufLen : W32) (badBlocks : List Nat) (s : State) : Host.Outcome State Fault Refusal :=
  .next (runRow (telemReadRow h bufAddr bufLen) (startTelemRead h bufAddr bufLen badBlocks) s)

/-! ### TRACE_CONFIG (R301, R363) -/

/-- The range that an increase of the trace carve-out adds is not free. -/
def traceTaken (gib : Nat) (s : State) : Bool :=
  let lo := traceHi - gib * 2 ^ 30
  let hi := traceLo s
  decide (lo < hi) && (s.carves.any (fun c => meets lo hi c.2.base c.2.limit) || s.scrub.any (fun r => meets lo hi r.lo r.hi)
    || s.staged.any (fun x => match x with | .setEntry _ b l => meets lo hi b l | _ => false))
/-- TRACE_CONFIG's checks. -/
def traceChecks (share gib : Byte) (s : State) : Checks :=
  { malformed := [badField (share == 0 || decide (30 < share.toNat)) 20, badField (gib == 0 || decide (16 < gib.toNat)) 21]
    state := [failIf (traceTaken gib.toNat s) stBadState 0] }
/-- TRACE_CONFIG: a decrease hands the released range to the scrubber; a change of size discards every slice. Log entry 114 (DEDUCED). -/
def startTraceConfig (share gib : Byte) (p : InProg) (s : State) : State :=
  let lo := traceLo s
  let g := s.tabor.gib
  let s := if gib.toNat < g then toScrubber 0x62 none [(lo, traceHi - gib.toNat * 2 ^ 30)] s else s
  let trace := if gib.toNat = g then s.tabor.trace else s.tabor.trace.map (fun e => (e.1, { e.2 with queue := [], blocks := [] }))
  complete p stOk 0 0 { s with tabor := { s.tabor with share := share.toNat, gib := gib.toNat, trace := trace } }

/-- The row of TRACE_CONFIG (Table 03-6). -/
def traceConfigRow (h : CmdHdr) (share gib : Byte) : Row :=
  { hdr := h, opcode := 0x62, fields := [(20, 1, share.toNat), (21, 1, gib.toNat)],
    checks := traceChecks share gib }
/-- The effect of TRACE_CONFIG. -/
def execTraceConfig (h : CmdHdr) (share gib : Byte) (s : State) : Host.Outcome State Fault Refusal :=
  .next (runRow (traceConfigRow h share gib) (startTraceConfig share gib) s)

/-! ### Events, command starts, window ends, trace blocks -/

/-- COMMAND_START (R360): the context's set is snapshotted and reset; without a set and without a free one it carries NO_SET. -/
def commandStart (fn : Fn) (ctx : W16) (s : State) : State :=
  let mine := fun (c : CmdSet) => c.fn == fn.key && c.ctx == ctx
  match s.tabor.sets.find? mine with
  | some c =>
    emit (.snapshot fn ctx c.counts c.sat false)
      { s with tabor := { s.tabor with sets := s.tabor.sets.map (fun c => if mine c then { c with counts := [], sat := false } else c) } }
  | none =>
    if s.tabor.sets.length < Config.commandSets then
      emit (.snapshot fn ctx [] false false)
        { s with tabor := { s.tabor with sets := s.tabor.sets ++ [{ fn := fn.key, ctx := ctx, counts := [], sat := false }] } }
    else emit (.snapshot fn ctx [] false true) s
/-- The effect of COMMAND_START. -/
def execCommandStart (fn : Fn) (ctx : W16) (s : State) : Host.Outcome State Fault Refusal := .next (whenLive (commandStart fn ctx) s)

/-- TABOR_EVENT (R355, R356): an event of the compute die enters in stamp order and adds to its context's set. -/
def taborEvent (fn : Fn) (ctx : W16) (type format units tick : Nat) (s : State) : State :=
  if 6 < type ∨ 11 < format then s
  else
    let k := 12 * type + format
    addSet fn ctx k units
      { s with tabor := { s.tabor with events := insertEvent { fn := fn.key, ctx := ctx, counter := k, units := units, tick := tick } s.tabor.events } }
/-- The effect of TABOR_EVENT. -/
def execTaborEvent (fn : Fn) (ctx : W16) (type format : Nat) (units : Nat) (tick : Nat) (s : State) : Host.Outcome State Fault Refusal :=
  .next (whenLive (taborEvent fn ctx type format units tick) s)

/-- The view runs: a VF's views run while the VF is enabled (R359). -/
def viewRuns (s : State) (v : ViewId) : Bool :=
  match v with | .vf i => (fnOf s (.vf i)).enabled | .pfOf i => (fnOf s (.vf i)).enabled | .package => true
/-- The effect of WINDOW_END (R357). Log entry 147 (DEDUCED). -/
def execWindowEnd (v : ViewId) (s : State) : Host.Outcome State Fault Refusal :=
  .next (if serving s && viewRuns s v then windowEnd v s else s)

/-- Blocks of a reader's slice (R363). -/
def sliceBlocks (s : State) (f : Fn) : Nat := match f with | .pf => s.tabor.gib * 262144 | .vf _ => s.tabor.gib * 960
/-- R363: where a reader's slice starts in the trace carve-out: the PF's first, then those of VF 0 to VF 4095. -/
def sliceBase (s : State) (f : Fn) : Nat :=
  traceLo s + match f with | .pf => 0 | .vf v => s.tabor.gib * 2 ^ 26 + v.toNat * (s.tabor.gib * 245760)
/-- R109, R118: a reader's first block places its TRACE key in the internal range, where it stays until the next start; with no slot or KID
free the key goes from the ladder to the writer alone. Log entry 182 (DESIGN CHOICE). -/
def traceSlot (f : Fn) (s : State) : State :=
  if (mapGet {} s.tabor.trace f.key).kid.isSome ∨ (intSlotCheck s).isSome then s
  else
    let (kid, s) := reserveInt s
    let s := activateKid kid (placeKey kid (mkSlot (traceKey s f) .trace 0 .pf 0 0xFFFF 0) s)
    { s with tabor := { s.tabor with trace := mapSet s.tabor.trace f.key { mapGet {} s.tabor.trace f.key with kid := some kid } } }
/-- A sealed block (R363, Table 13-10). Log entry 173 (DEDUCED). -/
def traceImage (key : Key) (f : Fn) (seq : Nat) (recs : List TraceRec) : List Byte :=
  let head := le 8 seq ++ [BitVec.ofNat 8 recs.length] ++ zeros 7
  let iv : BitVec 96 := BitVec.ofNat 96 (ofBe (be 4 f.key ++ le 8 seq))
  let plain := fitTo 224 (recs.flatMap traceBytes)
  head ++ Config.gcmCipher key iv plain ++ be 16 (Config.gcmTag key iv head plain).toNat

/-- TRACE_BLOCK_SEAL (R363): up to 7 queued records become a block of the reader's slice; a full ring overwrites its oldest. -/
def traceBlockSeal (f : Fn) (s : State) : State :=
  if (mapGet {} s.tabor.trace f.key).queue.isEmpty then s
  else
    let s := traceSlot f s
    let t := mapGet {} s.tabor.trace f.key
    let recs := t.queue.take Config.traceBlock
    let full := sliceBlocks s f ≤ t.blocks.length
    let lost := if full then ((t.blocks.head?.map (fun b => b.recs.length)).getD 0) else 0
    let image := traceImage (traceKey s f) f t.seq recs
    let addr := sliceBase s f + 256 * (t.seq % max 1 (sliceBlocks s f))
    let t := { t with blocks := (if full then t.blocks.drop 1 else t.blocks) ++ [{ seq := t.seq, recs := recs, image := image }]
                      queue := t.queue.drop Config.traceBlock, seq := t.seq + 1, lost := t.lost + lost }
    emit (.traceWrite addr image) { s with tabor := { s.tabor with trace := mapSet s.tabor.trace f.key t } }
/-- The effect of TRACE_BLOCK_SEAL. -/
def execTraceBlockSeal (fn : Fn) (s : State) : Host.Outcome State Fault Refusal := .next (whenLive (traceBlockSeal fn) s)

end Sys2Proof.Machine
end

