-- ==== Sys2Proof/Machine/Tap.lean ====
section
/-! DEFINITION. The package TAP (Table 13-4): boundary scan, the life-cycle and debug mailboxes, and the reads and ports that a right
opens. An instruction whose right is not in force behaves as BYPASS (R353). -/
namespace Sys2Proof.Machine

/-- BYPASS: one bit between TDI and TDO, and nothing of the block. -/
def tapBypass (s : State) : State := emit (.tdo []) s
/-- Deliver an open value on TDO. Log entry 136 (DESIGN CHOICE). -/
def tapOpen (s : State) : State := bumpOpen (emit (.tdo [opened s]) s)
/-- R381: a right serves an instruction: in force, in a power state that serves it; in A3 only rights 1, 13 and 16, in OFF none. -/
def tapRight (s : State) (n : Nat) : Bool :=
  hasRight s n && s.pkg.phase != .off && s.pkg.power != .off && (s.pkg.power != .a3 || n == 1 || n == 13 || n == 16)
/-- An instruction under a right. -/
def tap (n : Nat) (f : State → State) (s : State) : State := if tapRight s n then f s else tapBypass s

/-! ### Boundary scan -/

/-- The effect of EXTEST: the pins' contents, which the manual leaves open. -/
def execExtest (s : State) : Host.Outcome State Fault Refusal := .next (tapOpen s)
/-- The effect of SAMPLE/PRELOAD. -/
def execSamplePreload (s : State) : Host.Outcome State Fault Refusal := .next (bumpOpen (emit (.tdo [opened s]) s))
/-- The effect of IDCODE. -/
def execIdcode (s : State) : Host.Outcome State Fault Refusal := .next (emit (.tdo [Config.idcode]) s)
/-- The effect of BYPASS and of reserved codes. Log entry 137 (DEDUCED). -/
def execBypass (_code : Byte) (s : State) : Host.Outcome State Fault Refusal := .next (tapBypass s)

/-! ### The life-cycle mailbox (R79, R83, R104) -/

/-- The mailbox is reached in A0 to A2 (Table 14-10). -/
def lcMailOpen (s : State) : Bool := s.pkg.phase != .off && !(s.pkg.power == .a3 || s.pkg.power == .off)
/-- An answer of the mailbox. -/
def tapLcAnswer (st : W16) (d : W32) (s : State) : State := emit (.tapLc st d none none) s

/-- A transition on the TAP from authentication to its end; its flash writes have ended with it. -/
def tapRun (r : LcReq) (env : StartEnv) (s : State) : State :=
  let s := lcBegin r s
  let s := if r.kind.toNat ≤ 4 then s else if r.kind.toNat ≤ 6 then lcErased r (lcJournal r s) else lcErased r s
  lcEnd r env (emit (.tapLc stOk 0 (some (lcStatusOf s)) none) s)
/-- LC_TRANSITION on the TAP, in the order of Table 04-10. -/
def tapTransition (r : LcReq) (env : StartEnv) (s : State) : State :=
  match firstFail (lcFields s r ++ [lcBusy s, lcStateCheck s r, lcLimits s r]) with
  | some (st, d) => tapLcAnswer st d s
  | none =>
    let ok := lcAuth s r
    let s := { s with aon := { s.aon with nonce := none } }
    if ok then tapRun r env s else tapLcAnswer stAuthFailed 0 s
/-- LC_CHALLENGE on the TAP (R84). -/
def tapChallenge (s : State) : State :=
  match lcBusy s with
  | some (st, d) => tapLcAnswer st d s
  | none => emit (.tapLc stOk 0 none (some (drawn s))) (bumpDraw { s with aon := { s.aon with nonce := some (drawn s) } })
/-- LC_MBOX: the status always; a challenge and a transition once firmware serves them. Log entry 138 (DEDUCED). -/
def lcMailbox (op : LcMailOp) (s : State) : State :=
  if !lcMailOpen s then tapBypass s
  else match op with
    | .status => emit (.tapLc stOk 0 (some (lcStatusOf s)) none) s
    | .challenge => if serving s then tapChallenge s else tapLcAnswer stBadState ((lcState s).setWidth 32) s
    | .transition r env => if serving s then tapTransition r env s else tapLcAnswer stBadState ((lcState s).setWidth 32) s
/-- The effect of LC_MBOX. -/
def execLcMbox (op : LcMailOp) (s : State) : Host.Outcome State Fault Refusal := .next (lcMailbox op s)

/-! ### The debug mailbox (R349, R352) -/

/-- An answer of the debug mailbox, with the rights in force. -/
def tapDbgAnswer (st : W16) (d : W32) (s : State) : State := emit (.tapDbg st d (rightsInForce s)) s
/-- DEBUG_GRANT on the TAP, in the order of Table 13-3. -/
def tapGrant (c : Cert) (s : State) : State :=
  match firstFail (certFields c ++ certPermitted s c ++ [certState s c, certBusy s, intSlotCheck s]) with
  | some (st, d) => tapDbgAnswer st d s
  | none =>
    if certAuth s c then
      let (kid, s) := reserveInt s
      let s := applyGrant c kid s
      settle (tapDbgAnswer stOk 0 s)
    else tapDbgAnswer stAuthFailed 0 s
/-- DEBUG_REVOKE on the TAP: it is answered once the debug KID's retirement is done (R352). -/
def tapRevoke (s : State) : State :=
  match s.grant with
  | none => tapDbgAnswer stOk 0 s
  | some g => settle { revokeGrant g s with tapRevoke := some g.kid }
/-- DBG_MBOX: operation 0x68 grants, 0x69 revokes; any other returns the status alone, which A3 and OFF return for every operation.
Log entry 139 (DEDUCED). -/
def dbgMailbox (op : Byte) (c : Cert) (s : State) : State :=
  if s.pkg.phase = .off then tapBypass s
  else if op = 0x68 then (if serving s then tapGrant c s else tapDbgAnswer stBadState ((lcState s).setWidth 32) s)
  else if op = 0x69 then (if serving s then tapRevoke s else tapDbgAnswer stBadState ((lcState s).setWidth 32) s)
  else tapDbgAnswer stOk 0 s
/-- The effect of DBG_MBOX. -/
def execDbgMbox (op : Byte) (cert : Cert) (s : State) : Host.Outcome State Fault Refusal := .next (dbgMailbox op cert s)

/-! ### Reads -/

/-- The final MISR of a unit's latest run (R388, R389): that of a unit without fault, and what differs. -/
def misrOf (s : State) (u : Nat) : W64 :=
  match mapFind s.pkg.misr u with
  | some (seed, n, delta) => misrRun (unitClass u) n seed 0 ^^^ delta
  | none => 0
/-- STATUS_RD: AVK_STATUS, AVK_CAP0 to AVK_CAP3, the halt record, the life-cycle shadow, and the MISRs where Table 04-15 shows them. -/
def statusWords (s : State) : List W64 :=
  [avkStatus s, avkCap s 0, avkCap s 1, avkCap s 2, avkCap s 3] ++ haltWords s.aon.halt ++ [s.aon.stateWord, s.aon.progressWord]
    ++ (if bootOnly s then [] else allUnits.map (misrOf s))
/-- The effect of STATUS_RD. -/
def execStatusRd (s : State) : Host.Outcome State Fault Refusal := .next (tap 1 (fun s => emit (.tdo (statusWords s)) s) s)

/-- The effect of CTR_RD: the most recently closed window of the package view. -/
def execCtrRd (s : State) : Host.Outcome State Fault Refusal :=
  .next (tap 2 (fun s => emit (.tapCounts (readView .package .pf 0 [] s).1) s) s)

/-- TRACE_RD: the sealed blocks of a reader's slice, drained. Log entry 140 (DEDUCED). -/
def traceRd (reader : Fn) (bad : List Nat) (s : State) : State :=
  let t := mapGet {} s.tabor.trace reader.key
  let (recs, lost, left) := drain bad t.blocks ((t.blocks.map (fun b => b.recs.length)).sum)
  emit (.tapTrace reader recs (t.lost + lost))
    { s with tabor := { s.tabor with trace := mapPut {} s.tabor.trace reader.key { t with blocks := left, lost := 0 } } }
/-- The effect of TRACE_RD: right 3 for the PF's slice, 15 for a VF's. -/
def execTraceRd (reader : Fn) (badBlocks : List Nat) (s : State) : Host.Outcome State Fault Refusal :=
  .next (tap (if reader = .pf then 3 else 15) (traceRd reader badBlocks) s)

/-- A 256-bit value as four words, lowest first. -/
def words4 (k : Key) : List W64 := [k.setWidth 64, (k >>> 64).setWidth 64, (k >>> 128).setWidth 64, (k >>> 192).setWidth 64]
/-- KIND of a slot (Table 05-6). -/
def kindCode (k : KeyKind) : Nat :=
  match k with
  | .job => 1 | .stream => 2 | .region => 3 | .directory => 4 | .batchFilter => 5 | .tenant => 6 | .trace => 7 | .migration => 8
  | .debug => 9 | .spdm => 10 | .ide => 11 | .firmware => 12
/-- SLOT_STATE of a slot (Table 05-6): its KID's state, LIVE for one that is reserved. -/
def slotState (s : State) (x : SlotSt) : Nat := let c := kidCode (mapFind s.ks.kids x.kid.toNat); if c = 0 then 1 else c
/-- Slot metadata (Table 05-6) as a number of 256 bits. -/
def slotMeta (s : State) (x : SlotSt) : Nat :=
  kindCode x.kind + slotState s x * 2 ^ 4 + x.use.toNat * 2 ^ 8 + x.kid.toNat * 2 ^ 16
    + (match x.owner with | .vf v => v.toNat * 2 ^ 32 | .pf => 2 ^ 44) + x.job.toNat * 2 ^ 48 + x.ctx.toNat * 2 ^ 64 + x.ctxGen.toNat * 2 ^ 80
    + x.epoch.toNat * 2 ^ 96 + x.subject.toNat * 2 ^ 128 + x.parent.toNat * 2 ^ 168
    + maskOf 44 (fun e => (mapGet [] s.ks.caches e).contains x.kid) * 2 ^ 192
/-- KS_META_RD: a slot's metadata, and the KID table's entry of the KID with the slot's number: its state and its slot. -/
def metaWords (slot : Nat) (s : State) : List W64 :=
  words4 (BitVec.ofNat 256 (match mapFind s.ks.slots slot with | some x => slotMeta s x | none => 0))
    ++ [match mapFind s.ks.kids slot with | some k => BitVec.ofNat 64 (kidCode (some k) + k.slot * 2 ^ 8) | none => 0]
/-- The effect of KS_META_RD. -/
def execKsMetaRd (slot : Nat) (s : State) : Host.Outcome State Fault Refusal := .next (tap 11 (fun s => emit (.tdo (metaWords slot s)) s) s)

/-- Word `k` of a 384-bit value. -/
def hashWord (h : Hash) (k : Nat) : W64 := (h >>> (64 * k)).setWidth 64
/-- A word of OTP: the life-cycle words 0 to 7, the device id, the owner slots, the boot-count pairs, the fused security version. Every
other item, the DRS and the pairing keys among them, reads as zero (R105, R113). -/
def otpWord (o : OtpSt) (n : Nat) : W64 :=
  if n < 3 then o.state.getD n 0
  else if n < 6 then o.progress.getD (n - 3) 0
  else if n = 6 then o.tansy
  else if n = 7 then o.owner
  else if n = 8 then o.deviceId
  else if 16 ≤ n ∧ n < 64 then hashWord (o.owners.getD ((n - 16) / 6) 0) ((n - 16) % 6)
  else if n = 64 then BitVec.ofNat 64 o.bootPairs
  else if n = 65 then BitVec.ofNat 64 o.svn
  else 0
/-- The effect of OTP_RD. -/
def execOtpRd (word : Nat) (s : State) : Host.Outcome State Fault Refusal := .next (tap 12 (fun s => emit (.tdo [otpWord s.otp word]) s) s)

/-! ### The debug master, the tile port and the rights of ANALYSIS -/

/-- The effect of MEM_PORT: the debug master, under any of the data rights 5 to 8. -/
def execMemPort (t : DebugTarget) (write : Bool) (s : State) : Host.Outcome State Fault Refusal :=
  .next (if [5, 6, 7, 8].any (tapRight s) then debugMaster t write s else tapBypass s)

/-- TILE_DBG (R354): a tile that runs contexts of a VF in the data rights' reach; refused and counted under the PF otherwise.
Log entry 141 (DEDUCED). -/
def tileDbg (f : Fn) (s : State) : State :=
  match f with
  | .vf v => if dataReach s v then emit (.debugMaster true) s else emit (.debugMaster false) (countFn .pf 0x2D s)
  | .pf => emit (.debugMaster false) (countFn .pf 0x2D s)
/-- The effect of TILE_DBG. -/
def execTileDbg (fn : Fn) (s : State) : Host.Outcome State Fault Refusal := .next (tap 9 (tileDbg fn) s)

/-- The effect of CTRL_DBG: what it shows of the controller, the manual leaves open. -/
def execCtrlDbg (s : State) : Host.Outcome State Fault Refusal := .next (tap 17 tapOpen s)
/-- The effect of KXE_DBG. -/
def execKxeDbg (s : State) : Host.Outcome State Fault Refusal := .next (tap 20 tapOpen s)
/-- The effect of ENTROPY_RD: a raw sample, which no key is drawn from. -/
def execEntropyRd (s : State) : Host.Outcome State Fault Refusal := .next (tap 19 tapOpen s)

/-- A scan dump ends in a cold reset (Table 13-2). Log entry 135 (DEDUCED). -/
def scanDump (s : State) : State := afterReset false (tapOpen s)
/-- The effect of SCAN_AON. -/
def execScanAon (s : State) : Host.Outcome State Fault Refusal := .next (tap 13 scanDump s)
/-- The effect of SCAN_CIPHER. -/
def execScanCipher (s : State) : Host.Outcome State Fault Refusal := .next (tap 18 scanDump s)

end Sys2Proof.Machine
end

