-- ==== Sys2Proof/Machine/Dispatch.lean ====
section
/-! DEFINITION. The effect of each command: one arm per row of the table. -/
namespace Sys2Proof.Machine

/-- The effect of a command on everything but the queue. -/
def exec (i : Instr) (s : State) : Host.Outcome State Fault Refusal :=
  match i with
  | .wakeWrite a offset => Sys2Proof.Machine.execWakeWrite a offset s
  | .doorbellReadDone fn r => Sys2Proof.Machine.execDoorbellReadDone fn r s
  | .scanDispatch raw => Sys2Proof.Machine.execScanDispatch raw s
  | .joinJob h jobId packageId encapLen buf => Sys2Proof.Machine.execJoinJob h jobId packageId encapLen buf s
  | .leaveJob h jobId => Sys2Proof.Machine.execLeaveJob h jobId s
  | .nop h => Sys2Proof.Machine.execNop h s
  | .keyAlloc h source importLen buf => Sys2Proof.Machine.execKeyAlloc h source importLen buf s
  | .keyDerive h parentKid label args => Sys2Proof.Machine.execKeyDerive h parentKid label args s
  | .keyRotate h kid => Sys2Proof.Machine.execKeyRotate h kid s
  | .keyRetire h kid => Sys2Proof.Machine.execKeyRetire h kid s
  | .flushConfirm kid engine => Sys2Proof.Machine.execFlushConfirm kid engine s
  | .park h kid wrap regionId dirIndex => Sys2Proof.Machine.execPark h kid wrap regionId dirIndex s
  | .resume h wrap engine regionId dirIndex => Sys2Proof.Machine.execResume h wrap engine regionId dirIndex s
  | .checkpointWrite job => Sys2Proof.Machine.execCheckpointWrite job s
  | .regionCreate h regionId size home engine => Sys2Proof.Machine.execRegionCreate h regionId size home engine s
  | .regionFree h regionId => Sys2Proof.Machine.execRegionFree h regionId s
  | .keeperHandover h regionId newKeeper => Sys2Proof.Machine.execKeeperHandover h regionId newKeeper s
  | .reduce h regionId redOp redFormat offset length srcAddr src => Sys2Proof.Machine.execReduce h regionId redOp redFormat offset length srcAddr src s
  | .streamOpen h peer cls ordinal direction => Sys2Proof.Machine.execStreamOpen h peer cls ordinal direction s
  | .streamClose h peer cls ordinal direction => Sys2Proof.Machine.execStreamClose h peer cls ordinal direction s
  | .batchCancel h batchId => Sys2Proof.Machine.execBatchCancel h batchId s
  | .carveGrow h set base limit => Sys2Proof.Machine.execCarveGrow h set base limit s
  | .carveShrink h set base limit => Sys2Proof.Machine.execCarveShrink h set base limit s
  | .contextCreate h => Sys2Proof.Machine.execContextCreate h s
  | .contextAbandon h => Sys2Proof.Machine.execContextAbandon h s
  | .fenceCreate h value pick => Sys2Proof.Machine.execFenceCreate h value pick s
  | .fenceRelease h handle => Sys2Proof.Machine.execFenceRelease h handle s
  | .fenceSignal h handle value => Sys2Proof.Machine.execFenceSignal h handle value s
  | .fenceWait h handle value => Sys2Proof.Machine.execFenceWait h handle value s
  | .memMap h rights base size pick => Sys2Proof.Machine.execMemMap h rights base size pick s
  | .memUnmap h handle => Sys2Proof.Machine.execMemUnmap h handle s
  | .quiesceVf h => Sys2Proof.Machine.execQuiesceVf h s
  | .resetVf h => Sys2Proof.Machine.execResetVf h s
  | .resetPackage h env => Sys2Proof.Machine.execResetPackage h env s
  | .replayContext h count descs => Sys2Proof.Machine.execReplayContext h count descs s
  | .migrateKey h bufAddr bufLen msg => Sys2Proof.Machine.execMigrateKey h bufAddr bufLen msg s
  | .migrateFreeze h => Sys2Proof.Machine.execMigrateFreeze h s
  | .migrateSave h migKid bufAddr bufLen cursor => Sys2Proof.Machine.execMigrateSave h migKid bufAddr bufLen cursor s
  | .migrateRestore h migKid cursor chunks => Sys2Proof.Machine.execMigrateRestore h migKid cursor chunks s
  | .dirtyLogStart h bufAddr bufLen => Sys2Proof.Machine.execDirtyLogStart h bufAddr bufLen s
  | .dirtyLogStop h => Sys2Proof.Machine.execDirtyLogStop h s
  | .dirtyLogSync h bufAddr bufLen => Sys2Proof.Machine.execDirtyLogSync h bufAddr bufLen s
  | .telemWindow h windowUs => Sys2Proof.Machine.execTelemWindow h windowUs s
  | .telemRead h bufAddr bufLen badBlocks => Sys2Proof.Machine.execTelemRead h bufAddr bufLen badBlocks s
  | .traceConfig h share gib => Sys2Proof.Machine.execTraceConfig h share gib s
  | .debugGrant h bufLen cert => Sys2Proof.Machine.execDebugGrant h bufLen cert s
  | .debugRevoke h => Sys2Proof.Machine.execDebugRevoke h s
  | .lcChallenge h bufAddr => Sys2Proof.Machine.execLcChallenge h bufAddr s
  | .lcTransition h bufLen req env => Sys2Proof.Machine.execLcTransition h bufLen req env s
  | .lcStatus h bufAddr bufLen => Sys2Proof.Machine.execLcStatus h bufAddr bufLen s
  | .ownerStore h item bufLen it => Sys2Proof.Machine.execOwnerStore h item bufLen it s
  | .bulkCtxOpen h engine mode kid => Sys2Proof.Machine.execBulkCtxOpen h engine mode kid s
  | .bulkOp h bctx op aux => Sys2Proof.Machine.execBulkOp h bctx op aux s
  | .bulkCtxSave h bctx dst flags => Sys2Proof.Machine.execBulkCtxSave h bctx dst flags s
  | .bulkCtxRestore h bctx src flags rec => Sys2Proof.Machine.execBulkCtxRestore h bctx src flags rec s
  | .bulkCtxClose h bctx => Sys2Proof.Machine.execBulkCtxClose h bctx s
  | .setProfile h profile => Sys2Proof.Machine.execSetProfile h profile s
  | .selfTest h unit patterns seed run => Sys2Proof.Machine.execSelfTest h unit patterns seed run s
  | .ringEnable a => Sys2Proof.Machine.execRingEnable a s
  | .ringEnableDone fn r writeOk => Sys2Proof.Machine.execRingEnableDone fn r writeOk s
  | .ringDisable a => Sys2Proof.Machine.execRingDisable a s
  | .haltClear a => Sys2Proof.Machine.execHaltClear a s
  | .recoveryRequest a => Sys2Proof.Machine.execRecoveryRequest a s
  | .go a => Sys2Proof.Machine.execGo a s
  | .routeCommit a value => Sys2Proof.Machine.execRouteCommit a value s
  | .routeStage a reg1 value => Sys2Proof.Machine.execRouteStage a reg1 value s
  | .ptbHskWrite a value => Sys2Proof.Machine.execPtbHskWrite a value s
  | .ptbBpWrite a value => Sys2Proof.Machine.execPtbBpWrite a value s
  | .ptbTagholdWrite a value => Sys2Proof.Machine.execPtbTagholdWrite a value s
  | .ptbBeatWrite a value => Sys2Proof.Machine.execPtbBeatWrite a value s
  | .ptbLoopWrite a value => Sys2Proof.Machine.execPtbLoopWrite a value s
  | .registerWrite a offset value => Sys2Proof.Machine.execRegisterWrite a offset value s
  | .sealRequest q => Sys2Proof.Machine.execSealRequest q s
  | .tokenRequest q t => Sys2Proof.Machine.execTokenRequest q t s
  | .refusalRequest job source t choice reason expert => Sys2Proof.Machine.execRefusalRequest job source t choice reason expert s
  | .chimeRequest q p => Sys2Proof.Machine.execChimeRequest q p s
  | .localChimeRequest fn ctx cls fport p => Sys2Proof.Machine.execLocalChimeRequest fn ctx cls fport p s
  | .memberPoolRequest q keeper ordinal retOrdinal => Sys2Proof.Machine.execMemberPoolRequest q keeper ordinal retOrdinal s
  | .localPoolRequest q => Sys2Proof.Machine.execLocalPoolRequest q s
  | .debugMasterRequest t write => Sys2Proof.Machine.execDebugMasterRequest t write s
  | .firewallAccess m => Sys2Proof.Machine.execFirewallAccess m s
  | .switchNotice fn ctx => Sys2Proof.Machine.execSwitchNotice fn ctx s
  | .commandStart fn ctx => Sys2Proof.Machine.execCommandStart fn ctx s
  | .taborEvent fn ctx type format units tick => Sys2Proof.Machine.execTaborEvent fn ctx type format units tick s
  | .syncWaitRegister fn ctx handle value => Sys2Proof.Machine.execSyncWaitRegister fn ctx handle value s
  | .writeCompletion id => Sys2Proof.Machine.execWriteCompletion id s
  | .chimeRelease fn port => Sys2Proof.Machine.execChimeRelease fn port s
  | .data a h p => Sys2Proof.Machine.execData a h p s
  | .chime a h p => Sys2Proof.Machine.execChime a h p s
  | .token a h p => Sys2Proof.Machine.execToken a h p s
  | .return_ a h p => Sys2Proof.Machine.execReturn a h p s
  | .refusal a h p => Sys2Proof.Machine.execRefusal a h p s
  | .poolRead a h p => Sys2Proof.Machine.execPoolRead a h p s
  | .poolWrite a h p => Sys2Proof.Machine.execPoolWrite a h p s
  | .poolReduce a h p => Sys2Proof.Machine.execPoolReduce a h p s
  | .poolResponse a h p => Sys2Proof.Machine.execPoolResponse a h p s
  | .mgmtOffer a h p => Sys2Proof.Machine.execMgmtOffer a h p s
  | .mgmtAnswer a h regionId status detail => Sys2Proof.Machine.execMgmtAnswer a h regionId status detail s
  | .mgmtCommit a h regionId => Sys2Proof.Machine.execMgmtCommit a h regionId s
  | .epochEnd a h nextSeq => Sys2Proof.Machine.execEpochEnd a h nextSeq s
  | .close a h => Sys2Proof.Machine.execClose a h s
  | .homeResponse a h r => Sys2Proof.Machine.execHomeResponse a h r s
  | .alloc a h size depth => Sys2Proof.Machine.execAlloc a h size depth s
  | .free a h => Sys2Proof.Machine.execFree a h s
  | .rebind a h newKeeper => Sys2Proof.Machine.execRebind a h newKeeper s
  | .readLines a r => Sys2Proof.Machine.execReadLines a r s
  | .writeLines a h lines => Sys2Proof.Machine.execWriteLines a h lines s
  | .readNodes a r addrs => Sys2Proof.Machine.execReadNodes a r addrs s
  | .writeNodes a h nodes => Sys2Proof.Machine.execWriteNodes a h nodes s
  | .leaseRelease a h => Sys2Proof.Machine.execLeaseRelease a h s
  | .relayForward a => Sys2Proof.Machine.execRelayForward a s
  | .beat a boot senderPort bflags => Sys2Proof.Machine.execBeat a boot senderPort bflags s
  | .knell a boot reason => Sys2Proof.Machine.execKnell a boot reason s
  | .proxyKnell a lost cause lostBoot => Sys2Proof.Machine.execProxyKnell a lost cause lostBoot s
  | .openReq a sid jobId challenge => Sys2Proof.Machine.execOpenReq a sid jobId challenge s
  | .openAck a sid jobId routeSel epoch challenge relays tagOk => Sys2Proof.Machine.execOpenAck a sid jobId routeSel epoch challenge relays tagOk s
  | .credit a more => Sys2Proof.Machine.execCredit a more s
  | .loop a tagOk => Sys2Proof.Machine.execLoop a tagOk s
  | .reservedKindFrame a => Sys2Proof.Machine.execReservedKindFrame a s
  | .beatSend port => Sys2Proof.Machine.execBeatSend port s
  | .neighbourLostSilence port => Sys2Proof.Machine.execNeighbourLostSilence port s
  | .portDown port => Sys2Proof.Machine.execPortDown port s
  | .portTrained port => Sys2Proof.Machine.execPortTrained port s
  | .openReqResend fn idx => Sys2Proof.Machine.execOpenReqResend fn idx s
  | .openReqHoldExpiry jobId sid => Sys2Proof.Machine.execOpenReqHoldExpiry jobId sid s
  | .streamOpenTimeout fn idx => Sys2Proof.Machine.execStreamOpenTimeout fn idx s
  | .streamCloseTimeout fn idx => Sys2Proof.Machine.execStreamCloseTimeout fn idx s
  | .receiveWaitExpiry jobId sid => Sys2Proof.Machine.execReceiveWaitExpiry jobId sid s
  | .homeExchangeTimeout xid => Sys2Proof.Machine.execHomeExchangeTimeout xid s
  | .handoverTimeout fn idx => Sys2Proof.Machine.execHandoverTimeout fn idx s
  | .dirtyNodeWriteback jobId regionId level index => Sys2Proof.Machine.execDirtyNodeWriteback jobId regionId level index s
  | .overflowSweep jobId regionId level index => Sys2Proof.Machine.execOverflowSweep jobId regionId level index s
  | .quarantineEpoch => Sys2Proof.Machine.execQuarantineEpoch s
  | .fabricEpochBoundary => Sys2Proof.Machine.execFabricEpochBoundary s
  | .windowEnd v => Sys2Proof.Machine.execWindowEnd v s
  | .traceBlockSeal fn => Sys2Proof.Machine.execTraceBlockSeal fn s
  | .lendingCheck idleSeal idleOpen => Sys2Proof.Machine.execLendingCheck idleSeal idleOpen s
  | .bankRestoreDone port openHalf => Sys2Proof.Machine.execBankRestoreDone port openHalf s
  | .budgetReport draws => Sys2Proof.Machine.execBudgetReport draws s
  | .scrubDone => Sys2Proof.Machine.execScrubDone s
  | .powerStateRequest target env => Sys2Proof.Machine.execPowerStateRequest target env s
  | .tamperSourceFire src => Sys2Proof.Machine.execTamperSourceFire src s
  | .clockMonitorMeasure cipherKhz aonKhz => Sys2Proof.Machine.execClockMonitorMeasure cipherKhz aonKhz s
  | .meshPattern fault => Sys2Proof.Machine.execMeshPattern fault s
  | .droopWarning detector => Sys2Proof.Machine.execDroopWarning detector s
  | .avkPwrokRise env => Sys2Proof.Machine.execAvkPwrokRise env s
  | .avkPwrokFall => Sys2Proof.Machine.execAvkPwrokFall s
  | .bistLimitRecheck met => Sys2Proof.Machine.execBistLimitRecheck met s
  | .svnFuseBurn => Sys2Proof.Machine.execSvnFuseBurn s
  | .doeDiscovery port index => Sys2Proof.Machine.execDoeDiscovery port index s
  | .getVersion q => Sys2Proof.Machine.execGetVersion q s
  | .getCapabilities q => Sys2Proof.Machine.execGetCapabilities q s
  | .negotiateAlgorithms q offer => Sys2Proof.Machine.execNegotiateAlgorithms q offer s
  | .getDigests q => Sys2Proof.Machine.execGetDigests q s
  | .getCertificate q slot offset length => Sys2Proof.Machine.execGetCertificate q slot offset length s
  | .challenge q slot nonce => Sys2Proof.Machine.execChallenge q slot nonce s
  | .getMeasurements q index signed raw nonce => Sys2Proof.Machine.execGetMeasurements q index signed raw nonce s
  | .keyExchange q slot => Sys2Proof.Machine.execKeyExchange q slot s
  | .finish q session verifyOk => Sys2Proof.Machine.execFinish q session verifyOk s
  | .endSession q => Sys2Proof.Machine.execEndSession q s
  | .respondIfReady q => Sys2Proof.Machine.execRespondIfReady q s
  | .spdmUnsupportedRequest q code => Sys2Proof.Machine.execSpdmUnsupportedRequest q code s
  | .query q => Sys2Proof.Machine.execQuery q s
  | .keyProg q sel key iv => Sys2Proof.Machine.execKeyProg q sel key iv s
  | .kSetGo q sel => Sys2Proof.Machine.execKSetGo q sel s
  | .kSetStop q sel => Sys2Proof.Machine.execKSetStop q sel s
  | .getTdispVersion q => Sys2Proof.Machine.execGetTdispVersion q s
  | .getTdispCapabilities q => Sys2Proof.Machine.execGetTdispCapabilities q s
  | .lockInterfaceRequest q vf stream assocOk entropyOk => Sys2Proof.Machine.execLockInterfaceRequest q vf stream assocOk entropyOk s
  | .getDeviceInterfaceReport q vf => Sys2Proof.Machine.execGetDeviceInterfaceReport q vf s
  | .getDeviceInterfaceState q vf => Sys2Proof.Machine.execGetDeviceInterfaceState q vf s
  | .startInterfaceRequest q vf nonce => Sys2Proof.Machine.execStartInterfaceRequest q vf nonce s
  | .stopInterfaceRequest q vf => Sys2Proof.Machine.execStopInterfaceRequest q vf s
  | .tdispUnsupportedRequest q code => Sys2Proof.Machine.execTdispUnsupportedRequest q code s
  | .vfEnable vf start => Sys2Proof.Machine.execVfEnable vf start s
  | .vfFunctionLevelReset c => Sys2Proof.Machine.execVfFunctionLevelReset c s
  | .pfFunctionLevelReset => Sys2Proof.Machine.execPfFunctionLevelReset s
  | .ideIntegrityFailure port stream => Sys2Proof.Machine.execIdeIntegrityFailure port stream s
  | .linkDown port hostWriteFailed => Sys2Proof.Machine.execLinkDown port hostWriteFailed s
  | .recoveryStatus => Sys2Proof.Machine.execRecoveryStatus s
  | .recoveryLcChallenge => Sys2Proof.Machine.execRecoveryLcChallenge s
  | .recoveryLcTransition req env => Sys2Proof.Machine.execRecoveryLcTransition req env s
  | .imgBegin length => Sys2Proof.Machine.execImgBegin length s
  | .imgData offset bytes => Sys2Proof.Machine.execImgData offset bytes s
  | .imgCommit img => Sys2Proof.Machine.execImgCommit img s
  | .imageWriteDone readBackOk env => Sys2Proof.Machine.execImageWriteDone readBackOk env s
  | .extest => Sys2Proof.Machine.execExtest s
  | .samplePreload => Sys2Proof.Machine.execSamplePreload s
  | .idcode => Sys2Proof.Machine.execIdcode s
  | .lcMbox op => Sys2Proof.Machine.execLcMbox op s
  | .dbgMbox op cert => Sys2Proof.Machine.execDbgMbox op cert s
  | .statusRd => Sys2Proof.Machine.execStatusRd s
  | .ctrRd => Sys2Proof.Machine.execCtrRd s
  | .traceRd reader badBlocks => Sys2Proof.Machine.execTraceRd reader badBlocks s
  | .memPort t write => Sys2Proof.Machine.execMemPort t write s
  | .tileDbg fn => Sys2Proof.Machine.execTileDbg fn s
  | .ksMetaRd slot => Sys2Proof.Machine.execKsMetaRd slot s
  | .otpRd word => Sys2Proof.Machine.execOtpRd word s
  | .ctrlDbg => Sys2Proof.Machine.execCtrlDbg s
  | .kxeDbg => Sys2Proof.Machine.execKxeDbg s
  | .entropyRd => Sys2Proof.Machine.execEntropyRd s
  | .scanAon => Sys2Proof.Machine.execScanAon s
  | .scanCipher => Sys2Proof.Machine.execScanCipher s
  | .bypass code => Sys2Proof.Machine.execBypass code s
  | .parityError unit => Sys2Proof.Machine.execParityError unit s
  | .reservedFtypeFrame a h ftype => Sys2Proof.Machine.execReservedFtypeFrame a h ftype s
  | .kxeOperationDone who => Sys2Proof.Machine.execKxeOperationDone who s
  | .bulkRequestDone fn idx r => Sys2Proof.Machine.execBulkRequestDone fn idx r s
  | .flashWriteDone job env => Sys2Proof.Machine.execFlashWriteDone job env s
  | .hostDmaDone what ok => Sys2Proof.Machine.execHostDmaDone what ok s
  | .checkerAccessDone id => Sys2Proof.Machine.execCheckerAccessDone id s
  | .pcieControllerUncorrectable port vfs => Sys2Proof.Machine.execPcieControllerUncorrectable port vfs s

end Sys2Proof.Machine
end

