-- ==== Sys2Proof/Safety.lean ====
section
/-! DEFINITION. The terms that claims about the block are stated in: an admitted command, what stays as it was, and fuses that
only burn. -/
namespace Sys2Proof
open Sys2Proof.Machine

/-- The scan has dispatched the command of row `r` as `p`, its own row may come, the controller runs, and none of Table 03-21's
checks, with the command's own, fails. -/
structure Admitted (s : State) (r : Row) (p : InProg) : Prop where
  live : serving s = true
  found : dispatched s r = some p
  passes : (r.checks s).first s r.hdr p = none

/-- The scan has dispatched the command of row `r`, and `st` with `d` is the first of Table 03-21's checks that fails. -/
structure Refused (s : State) (r : Row) (p : InProg) (st : W16) (d : W32) : Prop where
  live : serving s = true
  found : dispatched s r = some p
  fails : (r.checks s).first s r.hdr p = some (st, d)

/-- Requests of function `f`'s compute requesters are served: the controller runs, no field transition has quiesced the package, and
the function is neither quiesced nor frozen. -/
def PortServes (s : State) (f : Fn) : Prop := serving s = true ∧ quiescing s = false ∧ holding s f = false

/-- The mailbox of port `p` answers a request at once: the package is ready in A0 or A1 and no request is being worked on (R146, R380). -/
structure MailServes (s : State) (p : BitVec 1) : Prop where
  ready : Machine.ready s = true
  awake : s.pkg.power = .a0 ∨ s.pkg.power = .a1
  free : mailBusy s p = false

/-- An arriving frame passes steps 1 to 4 of Table 07-11 at this package, no retry limit being met; `v` is the state after them. -/
structure ReachesPackage (s : State) (a : Arrival) (v : State) : Prop where
  mine : (hopChecks a s).mine = true
  calm : (hopChecks a s).retry = false
  after : v = (hopChecks a s).st

/-- What a sealed frame's row brings: the arrival, the header and the content (Table 07-5). -/
def sealedRow (c : Instr) : Option (Arrival × SealHdr × FrameBody) :=
  match c with
  | .data a h p => some (a, h, .data p)
  | .chime a h p => some (a, h, .chime p)
  | .token a h p => some (a, h, .token p)
  | .return_ a h p => some (a, h, .return_ p)
  | .refusal a h p => some (a, h, .refusal p)
  | .poolRead a h p => some (a, h, .pool { p with pop := 0x01 })
  | .poolWrite a h p => some (a, h, .pool { p with pop := 0x02 })
  | .poolReduce a h p => some (a, h, .pool { p with pop := if p.pop.getLsbD 7 || p.pop == 1 || p.pop == 2 then 0x03 else p.pop })
  | .poolResponse a h p => some (a, h, .pool { p with pop := p.pop ||| 0x80 })
  | .mgmtOffer a h p => some (a, h, .offer p)
  | .mgmtAnswer a h r st d => some (a, h, .answer r st d)
  | .mgmtCommit a h r => some (a, h, .commit r)
  | .epochEnd a h n => some (a, h, .epochEnd n)
  | .close a h => some (a, h, .close)
  | .reservedFtypeFrame a h f => some (a, h, .reserved f)
  | _ => none

/-- The arrival of a frame's row, of any kind but LOOP (Table 07-1). -/
def arrivalOf (c : Instr) : Option Arrival :=
  match sealedRow c with
  | some (a, _, _) => some a
  | none =>
    match c with
    | .beat a _ _ _ | .knell a _ _ | .proxyKnell a _ _ _ | .openReq a _ _ _ | .openAck a _ _ _ _ _ _ _ | .credit a _ | .reservedKindFrame a
    | .relayForward a | .alloc a _ _ _ | .free a _ | .rebind a _ _ | .readLines a _ | .writeLines a _ _ | .readNodes a _ _
    | .writeNodes a _ _ | .leaseRelease a _ | .homeResponse a _ _ => some a
    | _ => none

/-- The bytes of an arriving frame are those that its row's operands spell (log entry 153). -/
def spelt (c : Instr) (s : State) : Bool :=
  match sealedRow c with
  | some (a, h, b) => sealSpelt a h b
  | none =>
    match c with
    | .beat a boot port fl => ctlSpelt a kBeat [(12, 8, boot.toNat), (20, 1, port.toNat), (21, 1, fl.toNat)]
    | .knell a boot reason => ctlSpelt a kKnell [(12, 8, boot.toNat), (20, 1, reason.toNat)]
    | .proxyKnell a lost cause boot => ctlSpelt a kProxyKnell [(12, 2, lost.toNat), (14, 1, cause.toNat), (16, 8, boot.toNat)]
    | .openReq a sid job ch => ctlSpelt a kOpenReq [(12, 4, sid.toNat), (16, 2, job.toNat), (24, 16, ch.toNat)]
    | .openAck a sid job sel epoch ch relays _ => ctlSpelt a kOpenAck [(12, 4, sid.toNat), (16, 2, job.toNat), (18, 1, sel.toNat),
        (20, 4, epoch.toNat), (24, 16, ch.toNat), (40, 10, ofBe (relayBytes relays))]
    | .credit a more => a.hop.kind == kCredit && a.tail.take 16 == padTo 16 (more.flatMap (fun m => be 2 (m.1.toNat * 4096 + m.2.toNat)))
    | .reservedKindFrame a => a.hop.kind == 0 || decide (9 < a.hop.kind.toNat)
    | .relayForward a => routedKind a.hop.kind && sidDst a.route != s.fab.id
    | .alloc a h size depth => homeSpelt a h 0x01 (fun l => isAt l 0 (be 8 size.toNat ++ [depth]))
    | .free a h => homeSpelt a h 0x02 (fun _ => true)
    | .rebind a h nk => homeSpelt a h 0x03 (fun l => isAt l 0 (be 2 nk.toNat))
    | .readLines a r => homeSpelt a r.hdr 0x10 (fun _ => true)
    | .writeLines a h ls => homeSpelt a h 0x11 (fun l => isAt l 0 (lineUnits (ls.map (·.1)) (ls.map (·.2))))
    | .readNodes a r addrs => homeSpelt a r.hdr 0x12 (fun l => isAt l 0 (addrUnit (addrs.take r.hdr.count.toNat)))
    | .writeNodes a h ns => homeSpelt a h 0x13 (fun l => isAt l 0 (addrUnit (ns.map (·.1))
        ++ nodeUnits ns.length (ns.map (fun e => nodeRecBytes e.2.1 e.2.2 false))))
    | .leaseRelease a h => homeSpelt a h 0x14 (fun _ => true) || homeSpelt a h h.hop (fun _ => reservedHop h.hop)
    | .homeResponse a h r => respSpelt a h r
    | _ => false

/-- The sealed frame `w` reaches its open stream `t` with the SEQ expected next (steps 5 to 7 of Table 07-11); `v` is the state then. -/
structure FrameDue (s v : State) (w : WaitSt) (t : RecvSt) : Prop where
  hop : ReachesPackage s w.arr (hopChecks w.arr s).st
  live : serving (hopChecks w.arr s).st = true
  units : w.hdr.units.toNat = w.arr.hop.unitsM1.toNat + 1
  awake : (hopChecks w.arr s).st.pkg.power ≠ .a2
  first : behind (hopChecks w.arr s).st w = false
  after : v = keyRecv w.hdr.jobId w.hdr.sid (hopChecks w.arr s).st
  stream : findRecv v w.hdr.jobId w.hdr.sid = some t
  keyed : t.kid ≠ 0 ∧ recvKeyed v t = true
  seq : t.e0.toNat ≤ w.hdr.seq.toNat / 2 ^ 32 ∧ t.index ≤ lastIndex ∧ w.hdr.seq = expectedSeq t
  room : ∀ c, w.body = .chime c → snareCount v w.arr.port < Config.openSnare

/-- An EPOCH_END whose NEXT_SEQ is not the first of the next epoch (R188). -/
def breaksEpoch (w : WaitSt) (t : RecvSt) : Prop := ∃ n, w.body = .epochEnd n ∧ n ≠ BitVec.ofNat 64 ((t.epoch.toNat + 1) * 2 ^ 32)

/-- The row of a descriptor command (Table 03-6); SELF_TEST, whose row also ends its run, and the rows that no descriptor makes have
none here. -/
def ownRow (c : Instr) : Option Row :=
  match c with
  | .joinJob h jobId packageId encapLen buf => some (joinJobRow h jobId packageId encapLen buf)
  | .leaveJob h jobId => some (leaveJobRow h jobId)
  | .nop h => some (nopRow h)
  | .keyAlloc h source importLen buf => some (keyAllocRow h source importLen buf)
  | .keyDerive h parentKid label args => some (keyDeriveRow h parentKid label args)
  | .keyRotate h kid => some (keyRotateRow h kid)
  | .keyRetire h kid => some (keyRetireRow h kid)
  | .park h kid wrap regionId dirIndex => some (parkRow h kid wrap regionId dirIndex)
  | .resume h wrap engine regionId dirIndex => some (resumeRow h wrap engine regionId dirIndex)
  | .regionCreate h regionId size home engine => some (regionCreateRow h regionId size home engine)
  | .regionFree h regionId => some (regionFreeRow h regionId)
  | .keeperHandover h regionId newKeeper => some (keeperHandoverRow h regionId newKeeper)
  | .reduce h regionId redOp redFormat offset length srcAddr _ => some (reduceRow h regionId redOp redFormat offset length srcAddr)
  | .streamOpen h peer cls ordinal direction => some (streamOpenRow h peer cls ordinal direction)
  | .streamClose h peer cls ordinal direction => some (streamCloseRow h peer cls ordinal direction)
  | .batchCancel h batchId => some (batchCancelRow h batchId)
  | .carveGrow h set base limit => some (carveGrowRow h set base limit)
  | .carveShrink h set base limit => some (carveShrinkRow h set base limit)
  | .contextCreate h => some (contextCreateRow h)
  | .contextAbandon h => some (contextAbandonRow h)
  | .fenceCreate h value _ => some (fenceCreateRow h value)
  | .fenceRelease h handle => some (fenceReleaseRow h handle)
  | .fenceSignal h handle value => some (fenceSignalRow h handle value)
  | .fenceWait h handle value => some (fenceWaitRow h handle value)
  | .memMap h rights base size _ => some (memMapRow h rights base size)
  | .memUnmap h handle => some (memUnmapRow h handle)
  | .quiesceVf h => some (quiesceVfRow h)
  | .resetVf h => some (resetVfRow h)
  | .resetPackage h _ => some (resetPackageRow h)
  | .replayContext h count descs => some (replayContextRow h count descs)
  | .migrateKey h bufAddr bufLen msg => some (migrateKeyRow h bufAddr bufLen msg)
  | .migrateFreeze h => some (migrateFreezeRow h)
  | .migrateSave h migKid bufAddr bufLen cursor => some (migrateSaveRow h migKid bufAddr bufLen cursor)
  | .migrateRestore h migKid cursor chunks => some (migrateRestoreRow h migKid cursor chunks)
  | .dirtyLogStart h bufAddr bufLen => some (dirtyLogStartRow h bufAddr bufLen)
  | .dirtyLogStop h => some (dirtyLogStopRow h)
  | .dirtyLogSync h bufAddr bufLen => some (dirtyLogSyncRow h bufAddr bufLen)
  | .telemWindow h windowUs => some (telemWindowRow h windowUs)
  | .telemRead h bufAddr bufLen _ => some (telemReadRow h bufAddr bufLen)
  | .traceConfig h share gib => some (traceConfigRow h share gib)
  | .debugGrant h bufLen cert => some (debugGrantRow h bufLen cert)
  | .debugRevoke h => some (debugRevokeRow h)
  | .lcChallenge h bufAddr => some (lcChallengeRow h bufAddr)
  | .lcTransition h bufLen req _ => some (lcTransitionRow h bufLen req)
  | .lcStatus h bufAddr bufLen => some (lcStatusRow h bufAddr bufLen)
  | .ownerStore h item bufLen it => some (ownerStoreRow h item bufLen it)
  | .bulkCtxOpen h engine mode kid => some (bulkCtxOpenRow h engine mode kid)
  | .bulkOp h bctx op aux => some (bulkOpRow h bctx op aux)
  | .bulkCtxSave h bctx dst flags => some (bulkCtxSaveRow h bctx dst flags)
  | .bulkCtxRestore h bctx src flags rec => some (bulkCtxRestoreRow h bctx src flags rec)
  | .bulkCtxClose h bctx => some (bulkCtxCloseRow h bctx)
  | .setProfile h profile => some (setProfileRow h profile)
  | _ => none

/-- The request that a row of the SPDM responder, of IDE_KM or of TDISP brings to its mailbox. -/
def mailReq (c : Instr) : Option SpdmReq :=
  match c with
  | .getVersion q | .getCapabilities q | .negotiateAlgorithms q _ | .getDigests q | .getCertificate q _ _ _ | .challenge q _ _
  | .getMeasurements q _ _ _ _ | .keyExchange q _ | .finish q _ _ | .endSession q | .respondIfReady q | .spdmUnsupportedRequest q _
  | .query q | .keyProg q _ _ _ | .kSetGo q _ | .kSetStop q _ | .getTdispVersion q | .getTdispCapabilities q
  | .lockInterfaceRequest q _ _ _ _ | .getDeviceInterfaceReport q _ | .getDeviceInterfaceState q _ | .startInterfaceRequest q _ _
  | .stopInterfaceRequest q _ | .tdispUnsupportedRequest q _ => some q
  | _ => none

/-- A TAP instruction that a right opens, with that right's number (Table 13-4). -/
def tapUnder (c : Instr) : Option Nat :=
  match c with
  | .statusRd => some 1
  | .ctrRd => some 2
  | .traceRd f _ => some (if f = .pf then 3 else 15)
  | .tileDbg _ => some 9
  | .ksMetaRd _ => some 11
  | .otpRd _ => some 12
  | .scanAon => some 13
  | .ctrlDbg => some 17
  | .scanCipher => some 18
  | .entropyRd => some 19
  | .kxeDbg => some 20
  | _ => none

/-- Every bit that reads 1 in `a` reads 1 in `b`. -/
def bitsLe {n : Nat} (a b : BitVec n) : Prop := a &&& ~~~b = 0

/-- Every fuse burned in `a` is burned in `b`, and what no row writes is the same. -/
structure OtpLe (a b : OtpSt) : Prop where
  state : ∀ k, k < 3 → bitsLe (a.state.getD k 0) (b.state.getD k 0)
  progress : ∀ k, k < 3 → bitsLe (a.progress.getD k 0) (b.progress.getD k 0)
  tansy : bitsLe a.tansy b.tansy
  owner : bitsLe a.owner b.owner
  drs : bitsLe a.drs b.drs
  pairing : ∀ k, bitsLe (a.pairing.getD k 0) (b.pairing.getD k 0)
  owners : ∀ k, bitsLe (a.owners.getD k 0) (b.owners.getD k 0)
  boot : a.bootPairs ≤ b.bootPairs
  svn : a.svn ≤ b.svn
  device : b.deviceId = a.deviceId
  authority : b.authority = a.authority
  floor : b.floor = a.floor

end Sys2Proof
end

