-- ==== Sys2Proof/Certificates/Slice0/Obligations.lean ====
section
/-! DEFINITION. The statements about the block that the provers are asked for. -/
open Sys2Proof Sys2Proof.Machine

/-- The queue is the model's (log entry 6): a step is `exec` of the front command on the state with the queue's rest. -/
def Obligations.StepRunsFrontCommand : Prop :=
  (∀ (c : Instr) (rest : List Instr) (s : State), step { s with pending := c :: rest } = exec c { s with pending := rest }) ∧
  (∀ s : State, s.pending = [] → step s = .next s)

/-- R408, R60: wakes; R410, Table 16-9: enabling; R76, R59: its end; R411: disabling.
What the model settles there is in log entries 39, 40, 165. -/
def Obligations.RingRegisterWrites : Prop :=
  (∀ (s : State) (a : RegAcc) (o : BitVec 12),
      (regTriggers a s = true → o = 0 → (ringOf s a.fn).enabled = true → s.pkg.power ≠ .a2 → s.pkg.power ≠ .a3 →
        exec (.wakeWrite a o) s = .next (match (ringOf s a.fn).dbRead with
          | .idle => emit (.recordRead (viaOf s a.fn)) (ringMod a.fn (fun r => { r with dbRead := .issued }) s)
          | .owed => s
          | .issued => ringMod a.fn (fun r => { r with dbRead := .again }) s
          | .again => s)) ∧
      (regTriggers a s = false ∨ o ≠ 0 ∨ (ringOf s a.fn).enabled = false → exec (.wakeWrite a o) s = .next s) ∧
      (regTriggers a s = true → (ringOf s a.fn).ctrl = false → (ringOf s a.fn).enabled = false → (ringOf s a.fn).enabling = false →
        exec (.ringEnable a) s = .next (if enableRefusal s a.fn = 0
          then emit (.recordRead (viaOf s a.fn)) (ringMod a.fn (fun r => { r with enableErr := 0, ctrl := true, enabling := true }) s)
          else ringMod a.fn (fun r => { r with enableErr := enableRefusal s a.fn }) s)) ∧
      (regTriggers a s = true → exec (.ringDisable a) s = .next (settleRing a.fn (ringMod a.fn (fun r => { r with ctrl := false }) s)))) ∧
  (∀ (s : State) (f : Fn) (half : Fetched (BitVec 512)) (ok : Bool), ready s = true → (ringOf s f).enabling = true → (ringOf s f).ctrl = true →
      ∃ t, exec (.ringEnableDone f half ok) s = .next t ∧
        (let r := ringOf s f
         let q := ringOf t f
         q.enabled = true ∧ q.ctrl = true ∧ q.enabling = false ∧ q.cmdTail = 0 ∧ q.cmdHead = 0 ∧ q.cplTail = 0 ∧ q.cplHead = 0 ∧
         q.eventPending = 0 ∧ q.eventTake = 0 ∧ q.waiting = [] ∧ q.cmdBase = r.cmdBase ∧ q.cplBase = r.cplBase ∧
         q.dbrecBase = r.dbrecBase ∧ q.cmdLog2 = r.cmdLog2 ∧ q.cplLog2 = r.cplLog2 ∧ q.vector = r.vector ∧
         (half = .ok 0 → ok = true → q.faulted = false ∧
           ((fnOf s f).dirty = none → t.out = s.out ++ [.doorbell (viaOf s f) (devHalf q) (devBytes (devHalf q))])) ∧
         (half = .failed → q.faulted = true ∧ q.faultCode = 0x0003) ∧
         (∀ raw, half = .ok raw → raw ≠ 0 → q.faulted = true ∧ q.faultCode = 0x0005) ∧
         (half = .ok 0 → ok = false → q.faulted = true ∧ q.faultCode = 0x0004)) ∧
        (∀ g : Fn, g ≠ f → fnOf t g = fnOf s g))

/-- R73; the second part is the model's choice (log entry 5). What the model settles there is in log entry 163. -/
def Obligations.RefusedCommandHasNoEffect : Prop :=
  ∀ (c : Instr) (s : State) (h : CmdHdr) (x : Row) (p : InProg) (st : W16) (d : W32),
    (ownRow c = some x →
      (Refused s x p st d → exec c s = .next (settle (complete p st d 0 s))) ∧
      (serving s = false ∨ dispatched s x = none → exec c s = .next (settle s))) ∧
    (∀ (u : W16) (pt : W32) (sd : W64) (r : Option TestRun), c = .selfTest h u pt sd r → runningTest s h = none →
      (Refused s (selfTestRow h u pt sd r) p st d → exec c s = .next (settle (complete p st d 0 s))) ∧
      (serving s = false ∨ dispatched s (selfTestRow h u pt sd r) = none → exec c s = .next (settle s)))

/-- R68: the record; R59: writes dropped; the frame of a command's end. -/
def Obligations.CompletionRecordAndFrame : Prop :=
  ∀ (p : InProg) (st : W16) (d : W32) (res : BitVec 128) (s : State),
    let t := complete p st d res s
    let r := ringOf s p.fn
    ∃ o : List Output,
      t = { s with out := s.out ++ o, fns := t.fns, prog := s.prog.filter (fun q => !(q.fn == p.fn && q.idx == p.idx)),
                   tabor := t.tabor, opens := t.opens } ∧
      (∀ g, g ≠ p.fn → fnOf t g = fnOf s g) ∧
      (r.hostWriteFailed = false →
        (let x : CplRec := { tag := p.tag, status := st, opcode := p.opcode, phase := decide (r.cplTail.toNat / cplEntries r % 2 = 0), async := false,
                             cmdIndex := p.idx.setWidth 16, vfGen := genOf s p.fn, detail := d, result := res }
         .record (viaOf s p.fn) (r.cplTail.toNat % cplEntries r) x (cplBytes x) ∈ o) ∧
        (ringOf t p.fn).cplTail = r.cplTail + 1) ∧
      (r.hostWriteFailed = true → (ringOf t p.fn).cplTail = r.cplTail ∧ ∀ v n x i, .record v n x i ∉ o)

/-- R70 and R71 of one ring. -/
def Obligations.EventCounting : Prop :=
  ∀ (f : Fn) (d : DrvHalf) (s : State),
    let r := ringOf s f
    let a := ringOf (signalEvent f s) f
    let b := ringOf (takeEvents f d s) f
    let k := (d.eventTake - r.eventTake).toNat
    a.eventPending = (if r.eventPending = 0xFFFFFFFF then 0xFFFFFFFF else r.eventPending + 1) ∧
    a.evtOvf = (r.evtOvf || r.eventPending == 0xFFFFFFFF) ∧ a.interrupt = true ∧
    (signalEvent f s).out = s.out ++ (if r.interrupt then [] else [.msix (viaOf s f) r.vector]) ∧
    b.eventPending.toNat = r.eventPending.toNat - k ∧ b.eventTake = d.eventTake ∧
    b.evtOvf = (r.evtOvf && !d.evtOvfClr) ∧ b.evqOvf = (r.evqOvf && !d.evtOvfClr) ∧
    b.interrupt = (if k = 0 then r.interrupt else decide (k < r.eventPending.toNat)) ∧
    (takeEvents f d s).out = s.out ++ (if k ≠ 0 ∧ k < r.eventPending.toNat then [.msix (viaOf s f) r.vector] else [])

/-- R60: the data of a wake's read. What the model settles there is in log entries 37, 166. -/
def Obligations.DoorbellReadActs : Prop :=
  ∀ (s : State) (f : Fn) (x : Fetched (BitVec 512)), serving s = true →
    ((ringOf s f).dbRead = .issued ∨ (ringOf s f).dbRead = .again) →
    ∃ t, exec (.doorbellReadDone f x) s = .next t ∧
      (let r := ringOf s f
       let q := ringOf t f
       (∀ g, g ≠ f → ringOf t g = ringOf s g) ∧
       (r.dbRead = .issued → q.dbRead = .idle) ∧
       (r.dbRead = .again → s.pkg.power = .a0 → q.dbRead = .issued ∧ .recordRead (viaOf s f) ∈ t.out) ∧
       (x = .failed → q.cmdTail = r.cmdTail ∧ q.cplHead = r.cplHead ∧ q.eventTake = r.eventTake ∧ q.faulted = true ∧
         q.faultCode = (if r.faulted then r.faultCode else 0x0003)) ∧
       (∀ raw, x = .ok raw →
         let d := drvOf raw
         q.cmdTail = (if badTail r d then r.cmdTail else d.cmdTail) ∧ q.cplHead = (if badHead r d then r.cplHead else d.cplHead) ∧
         q.eventTake = d.eventTake ∧ q.faulted = (r.faulted || badTail r d || badHead r d) ∧
         q.faultCode = (if r.faulted then r.faultCode else if badTail r d then 0x0001 else if badHead r d then 0x0002 else r.faultCode)))

/-- R61: one turn of the scan. What the model settles there is in log entries 41, 167. -/
def Obligations.ScanTurn : Prop :=
  ∀ (s : State) (x : Fetched (BitVec 512)), serving s = true →
    (nearest s = none → exec (.scanDispatch x) s = .next s ∧ ∀ f ∈ listedFns s, eligible s f = false) ∧
    (∀ f, nearest s = some f →
      eligible s f = true ∧ (∀ g ∈ listedFns s, eligible s g = true → scanDist s.scan f ≤ scanDist s.scan g) ∧
      ∃ t, exec (.scanDispatch x) s = .next t ∧
        (x = .failed → t.scan = scanPos f ∧ t.prog = s.prog ∧ (ringOf t f).faulted = true ∧ (ringOf t f).cmdHead = (ringOf s f).cmdHead) ∧
        (∀ raw, x = .ok raw →
          (rawByte raw 1 / 2 % 2 = 1 ∧ progOf s f ≠ [] →
            t = ringMod f (fun r => { r with headOrdered := true }) s) ∧
          (¬ (rawByte raw 1 / 2 % 2 = 1 ∧ progOf s f ≠ []) → headerFault f raw = none →
            t.scan = scanPos f ∧ t.prog = s.prog ++ [cmdOf s f raw] ∧ (ringOf t f).cmdHead = (ringOf s f).cmdHead + 1) ∧
          (∀ o, ¬ (rawByte raw 1 / 2 % 2 = 1 ∧ progOf s f ≠ []) → headerFault f raw = some o →
            ∃ u, t = settle (complete (cmdOf s f raw) stMalformed (BitVec.ofNat 32 o) 0 u) ∧ u.prog = s.prog ∧ u.scan = scanPos f ∧
              (ringOf u f).cmdHead = (ringOf s f).cmdHead + 1)))

/-- Table 03-6 (NOP), R59, Table 03-20 (DMA_ERROR). -/
def Obligations.NopAndHostDma : Prop :=
  ∀ (s : State) (h : CmdHdr) (p q : InProg) (f : Fn) (i : W32) (ok : Bool),
    (Admitted s (nopRow h) p → exec (.nop h) s = .next (settle (complete p stOk 0 0 s))) ∧
    (serving s = true → exec (.hostDmaDone (.recordWrite f) ok) s =
      .next (if ok = false ∧ (ringOf s f).enabled = true then ringFault f 0x0004 s else s)) ∧
    (serving s = true → findProg s f i = some q → q.started = true → q.hold.dma = true →
      exec (.hostDmaDone (.command f i) ok) s = .next (settle (if ok
        then modProg f i (fun q => { q with hold := { q.hold with dma := false } }) s
        else complete q stDmaError 0 0 (releaseHolds q s))))

/-- R123, R124: keys placed by command. `v` is the state before the command's end. What the model settles there is in log entry 48. -/
def Obligations.KeyAllocAndDerive : Prop :=
  ∀ (s : State) (h : CmdHdr) (p : InProg),
    (∀ len buf, Admitted s (keyAllocRow h 0 len buf) p →
      ∃ (kid : W16) (v : State), exec (.keyAlloc h 0 len buf) s = .next (settle (complete p stOk 0 (kid.setWidth 128) v)) ∧
        v.draws = s.draws + 1 ∧ kidCode (mapFind v.ks.kids kid.toNat) = 1 ∧ mapFind s.ks.kids kid.toNat = none ∧
        ∃ x, slotOf v kid = some x ∧ x.key = Config.entropy s.draws ∧ x.kind = .tenant ∧ x.use = useBulk ∧ x.owner = p.fn ∧
          x.ctx = p.ctx ∧ x.ctxGen = p.ctxGen) ∧
    (∀ len b, Admitted s (keyAllocRow h 1 len (.ok b)) p →
      (∀ k, blobKey s p.fn b = some k →
        ∃ (kid : W16) (v : State), exec (.keyAlloc h 1 len (.ok b)) s = .next (settle (complete p stOk 0 (kid.setWidth 128) v)) ∧
          v.draws = s.draws ∧ kidCode (mapFind v.ks.kids kid.toNat) = 1 ∧ mapFind s.ks.kids kid.toNat = none ∧
          ∃ x, slotOf v kid = some x ∧ x.key = k ∧ x.kind = .tenant ∧ x.owner = p.fn) ∧
      (blobKey s p.fn b = none →
        exec (.keyAlloc h 1 len (.ok b)) s = .next (settle (complete p stAuthFailed 0 0 s)))) ∧
    (∀ parent label args, Admitted s (keyDeriveRow h parent label args) p →
      ∃ (kid : W16) (v : State), exec (.keyDerive h parent label args) s = .next (settle (complete p stOk 0 (kid.setWidth 128) v)) ∧
        kidCode (mapFind v.ks.kids kid.toNat) = 1 ∧ mapFind s.ks.kids kid.toNat = none ∧
        ∃ x, slotOf v kid = some x ∧ x.owner = p.fn ∧
          (label = 1 → x.kind = .stream ∧ x.key = streamKey (jmkOf s p.fn) (argSid args) (argEpoch args) ∧ x.epoch = argEpoch args) ∧
          (label = 2 → x.kind = .tenant ∧ x.key = tenantKey (keyOf s parent) args ∧ x.parent = parent))

/-- R136, R138. -/
def Obligations.RetirementOfKeys : Prop :=
  ∀ (s : State) (h : CmdHdr) (p : InProg) (kid : W16) (e : Nat),
    (Admitted s (keyRetireRow h kid) p →
      exec (.keyRetire h kid) s = .next (settle (goOn p { kids := [kid] } (.done stOk 0 0) (retireKid kid s)))) ∧
    (∀ k, mapFind s.ks.kids kid.toNat = some k → k.st = .live ∨ k.st = .suspended →
      let v := retireKid kid s
      ((cachedIn s kid) ≠ [] → mapFind v.ks.kids kid.toNat = some { k with st := .retiring } ∧ v.ks.slots = s.ks.slots) ∧
      ((cachedIn s kid) = [] → mapFind v.ks.kids kid.toNat = some { k with st := .quarantined s.ks.epoch } ∧
        v.ks.slots = mapErase s.ks.slots k.slot)) ∧
    (serving s = true →
      (kidCode (mapFind s.ks.kids kid.toNat) = 3 ∧ (cachedIn s kid).contains e = true ∧ engineIdle s kid e = true →
        exec (.flushConfirm kid e) s = .next (settle (finishRetire kid (uncacheKid e kid s)))) ∧
      (¬ (kidCode (mapFind s.ks.kids kid.toNat) = 3 ∧ (cachedIn s kid).contains e = true ∧ engineIdle s kid e = true) →
        exec (.flushConfirm kid e) s = .next s) ∧
      ∃ t, exec .quarantineEpoch s = .next t ∧ t = { s with ks := { s.ks with epoch := s.ks.epoch + 1, kids := t.ks.kids } } ∧
        ∀ x ∈ s.ks.kids, x ∈ t.ks.kids ↔ ¬ ∃ q, x.2.st = .quarantined q ∧ q + 2 ≤ s.ks.epoch + 1)

/-- R116, R117, R188: the commands' first parts. -/
def Obligations.JoinLeaveRotateBegin : Prop :=
  ∀ (s : State) (h : CmdHdr) (p : InProg),
    (∀ job pkg len e, Admitted s (joinJobRow h job pkg len (.ok e)) p →
      exec (.joinJob h job pkg len (.ok e)) s = .next (settle (goOn p { kxe := true }
        (.join job (reserveKid p.fn s).1 ((joinKey s e).getD 0) (e.keHash == s.ks.keHash && (joinKey s e).isSome))
        (reserveKid p.fn s).2))) ∧
    (∀ job, Admitted s (leaveJobRow h job) p →
      exec (.leaveJob h job) s = .next (settle (goOn p
        { cmds := ((progOf s p.fn).filter (fun q => q.opcode == 0x14 || q.opcode == 0x15 || q.opcode == 0x22 || q.opcode == 0x23)).map
            (fun q => (q.fn, q.idx)) } (.leave job) s))) ∧
    (∀ kid, Admitted s (keyRotateRow h kid) p →
      ∃ t, sendOfKid s p.fn kid = some t ∧ exec (.keyRotate h kid) s = .next (settle
        (enqueue t.port (.seal t.job t.sid 0x08 1 0xFFFF 0 0 0 [] 0xFFFF)
          (goOn p { seals := [(t.job, t.sid)] } (.rotate t.job t.sid) (placeNext t s)))))

/-- R132, R133 and R135; the rows, then the parts that follow their waits. What the model settles there is in log entries 28, 35, 190. -/
def Obligations.ParkResumeCheckpoint : Prop :=
  ∀ (s : State) (h : CmdHdr) (p : InProg),
    (∀ kid wrap rid di, Admitted s (parkRow h kid wrap rid di) p →
      ∃ key dir, regionByKid s p.fn kid rid = some key ∧ dirOf s (jobOf s p.fn) = some dir ∧
        (let s1 := regionMod key (fun r => { r with state := .parking, opcode := 0x14 }) s
         let j := cmdJob p dir .read (di.toNat * 256) 256 [] s1
         exec (.park h kid wrap rid di) s = .next (settle (poolPump (goOn p { jobs := [j.1] } (.park key dir kid di (wrap == 1) 0 j.1) j.2))))) ∧
    (∀ wrap engine rid di, Admitted s (resumeRow h wrap engine rid di) p →
      ∃ dir e, dirOf s (jobOf s p.fn) = some dir ∧ pickEngine s engine = some e ∧
        (let k := reserveKid p.fn s
         let r := newRegion p.fn (jobOf s p.fn) (rid.setWidth 40) (rid.setWidth 40) p.ctx p.ctxGen 0 s.fab.id 0 0 e k.1 .creating 0 0 0x15
         let j := cmdJob p dir .read (di.toNat * 256) 256 []
           { k.2 with regions := mapSet s.regions s.nextRegion r, nextRegion := s.nextRegion + 1, opens := s.opens + 1 }
         exec (.resume h wrap engine rid di) s =
           .next (settle (poolPump (goOn p { jobs := [j.1] } (.resume s.nextRegion dir k.1 di (wrap == 1) 0 j.1) j.2))))) ∧
    (∀ q key dir kid di dur id r d, regionAt s key = some r → regionAt s dir = some d →
      (∀ w dt data u, takeJob id s = (w, dt, data, u) →
        (w = stOk → entryFree data d.base = false → actPark q key dir kid di dur 0 id s =
          complete q stBadState (BitVec.ofNat 32 (entryState data)) 0 (regionMod key RegionSt.backLive u)) ∧
        (w = stOk → entryFree data d.base = true → actPark q key dir kid di dur 0 id s = goOn q {} (.park key dir kid di dur 1 0) u)) ∧
      (regionClean s key = true →
        let line := entryLine r dur s.pkg.boot d.base (Config.kwWrap (wrapKey s q.fn dur) (entryPlain (keyOf s kid) r.root r.rid r.epoch di))
        let j := cmdJob q dir .write (di.toNat * 256) 256 line s
        actPark q key dir kid di dur 1 id s = poolPump (goOn q { jobs := [j.1] } (.park key dir kid di dur 2 j.1) j.2)) ∧
      actPark q key dir kid di dur 3 id s = goOn q { kids := [kid] } (.park key dir kid di dur 4 0) (retireKid kid s) ∧
      actPark q key dir kid di dur 4 id s = complete q stOk 0 0 (parkRegion key s) ∧
      actResume q key dir kid di dur 2 id s =
        complete q stOk 0 (kid.setWidth 128) (regionMod key RegionSt.backLive (activateKid kid (unparkFences key s)))) ∧
    (serving s = true → ∀ job dir d, dirOf s job = some dir → regionAt s dir = some d →
      (s.prog.any (awaitsCheckpoint dir) = false → exec (.checkpointWrite job) s = .next s) ∧
      (s.prog.any (awaitsCheckpoint dir) = true → regionClean s dir = false →
        exec (.checkpointWrite job) s = .next (settle (poolPump (writeBackAll dir d.depth 1 s)))) ∧
      (s.prog.any (awaitsCheckpoint dir) = true → regionClean s dir = true →
        ∃ c : Checkpoint, c.job = job ∧ c.keeper = s.fab.id ∧ c.home = d.home ∧ c.boot = BitVec.ofNat 64 s.pkg.boot ∧
          c.wrapped = Config.kwWrap (wrapKey s .pf true) (le 64 d.root.toNat) ∧
          c.seq = BitVec.ofNat 64 (((s.flash.checkpoints.filter (fun c => c.job == job && c.keeper == s.fab.id && c.home == d.home)).map
            (fun c => c.seq.toNat)).foldl max 0 + 1) ∧
          exec (.checkpointWrite job) s = .next (settle { emit .flashWrite s with
            flash := { s.flash with checkpoints :=
              s.flash.checkpoints.filter (fun c => !(c.job == job && c.keeper == s.fab.id && c.home == d.home)) ++ [c] }
            prog := s.prog.map (fun q =>
              if awaitsCheckpoint dir q then { q with hold := { q.hold with checkpoint := false } } else q) })))

/-- R277 (and R280 for the directory): the first part of REGION_CREATE; `w` is the state in which ALLOC is sent.
What the model settles there is in log entries 14, 44. -/
def Obligations.RegionCreateAllocates : Prop :=
  ∀ (s : State) (h : CmdHdr) (p : InProg) (regionId size : W64) (home : W16) (engine : Byte),
    Admitted s (regionCreateRow h regionId size home engine) p →
    ∃ (w : State) (e : Nat) (kid : W16) (r : RegionSt) (x : ExchSt),
      exec (.regionCreate h regionId size home engine) s = .next (settle (goOn p { xids := [w.nextXid], peer := true }
        (.regionCreate s.nextRegion kid) (newExch x [] [] [] w).2)) ∧
      (let rid := ridOf regionId
       let job := jobOf s p.fn
       let n := madeBefore s job rid
       pickEngine s engine = some e ∧ mapFind s.ks.kids kid.toNat = none ∧
       madeBefore w job rid = n + 1 ∧ w.nextRegion = s.nextRegion + 1 ∧ mapFind w.regions s.nextRegion = some r ∧
       r.state = .creating ∧ r.fn = p.fn ∧ r.job = job ∧ r.rid = rid ∧ r.size = size.toNat ∧ r.home = home.setWidth 12 ∧ r.engine = e ∧
       r.kid = kid ∧ r.epoch = BitVec.ofNat 32 (n * 65536 + s.pkg.boot) ∧ r.creator = s.fab.id ∧
       r.base = (if rid = dirRid then s.pkg.boot * 2 ^ 48 + n * 2 ^ 40 else 0) ∧
       x.op = 0x01 ∧ x.arg = size ∧ x.home = r.home ∧ x.region = s.nextRegion ∧ x.cmd = some (p.fn, p.idx) ∧
       ∃ y, slotOf w kid = some y ∧ y.use = usePool ∧ y.owner = p.fn ∧
         y.key = (if rid = dirRid then directoryKey (jmkOf s p.fn) job s.fab.id else regionKey (jmkOf s p.fn) rid r.epoch s.fab.id))

/-- R276, R278, R279. What the model settles there is in log entries 33, 46, 149, 188. -/
def Obligations.RegionFreeHandoverReduce : Prop :=
  ∀ (s : State) (h : CmdHdr) (p q : InProg),
    (∀ rid, Admitted s (regionFreeRow h rid) p →
      ∃ k r, regionNamed s p.fn rid = some k ∧ regionAt s k = some r ∧
        exec (.regionFree h rid) s = .next (settle (goOn p { kids := [r.kid] } (.regionFree k) (beginFree 0x21 k s)))) ∧
    (∀ rid nk, Admitted s (keeperHandoverRow h rid nk) p →
      ∃ k, regionNamed s p.fn rid = some k ∧ exec (.keeperHandover h rid nk) s = .next (settle (goOn p {} (.handover k (nk.setWidth 12) 0)
        (regionMod k (fun r => { r with state := .handover, opcode := 0x22 }) s)))) ∧
    (∀ rid op fmt off len a src, Admitted s (reduceRow h rid op fmt off len a) p →
      ∃ k r, regionNamed s p.fn rid = some k ∧ regionAt s k = some r ∧
        (let lines := (off.toNat + len.toNat + 255) / 256 - off.toNat / 256
         (r.state = .lost → exec (.reduce h rid op fmt off len a src) s = .next (settle (complete p stPeerLost (r.home.setWidth 32) 0 s))) ∧
         (r.state ≠ .lost → len = 0 → exec (.reduce h rid op fmt off len a src) s = .next (settle (complete p stOk 0 0 s))) ∧
         (∀ i, r.state ≠ .lost → len ≠ 0 → r.firstFenced (off.toNat / 256) lines = some i →
           exec (.reduce h rid op fmt off len a src) s = .next (settle (complete p stPoolFenced (BitVec.ofNat 32 i) 0 s))) ∧
         (r.state ≠ .lost → len ≠ 0 → r.firstFenced (off.toNat / 256) lines = none → src = .failed →
           exec (.reduce h rid op fmt off len a src) s = .next (settle (complete p stDmaError 0 0 s))) ∧
         (∀ d, r.state ≠ .lost → len ≠ 0 → r.firstFenced (off.toNat / 256) lines = none → src = .ok d →
           fwAllows s .engine p.fn a.toNat len.toNat false = false →
           exec (.reduce h rid op fmt off len a src) s =
             .next (settle (complete p stDmaError 0 0 (countRefused p.fn a.toNat len.toNat s)))) ∧
         (∀ d, r.state ≠ .lost → len ≠ 0 → r.firstFenced (off.toNat / 256) lines = none → src = .ok d →
           fwAllows s .engine p.fn a.toNat len.toNat false = true →
           ∃ ids u, (ids, u) = addParts p k (.reduce op fmt) (reduceParts (lines / 31 + 2) off.toNat (padTo len.toNat (d.take len.toNat))) [] s ∧
             exec (.reduce h rid op fmt off len a src) s = .next (settle (poolPump (goOn p { jobs := ids } (.reduce ids) u)))))) ∧
    (serving s = true → ∀ f i k nk step, findProg s f i = some q → q.act = .handover k nk step →
      exec (.handoverTimeout f i) s = .next (if step = 1 ∨ step = 2
        then settle (complete q stTimedOut (nk.setWidth 32) 0 (regionMod k RegionSt.backLive
          (cancelOffer k nk step stTimedOut (nk.setWidth 32) { s with exch := s.exch.filter (fun e => e.2.cmd != some (f, i)) })))
        else s))

/-- R182, R189: the commands' first parts. What the model settles there is in log entries 60, 61. -/
def Obligations.StreamOpenAndClose : Prop :=
  ∀ (s : State) (h : CmdHdr) (p : InProg) (peer : W16) (cls ord dir : Byte),
    (Admitted s (streamOpenRow h peer cls ord dir) p →
      let pk : BitVec 12 := peer.setWidth 12
      let r1 := reserveKid p.fn s
      let r2 := reserveKid p.fn r1.2
      let asked := fun (a : Act) (ch : BitVec 128) (v : State) =>
        sendRouted pk kOpenReq (.openReq (recvSid s peer cls ord) (jobOf s p.fn) ch) (goOn p { signal := true } a (bumpDraw v))
      let next := fun (v : State) => match findProg v p.fn p.idx with | some q => answerOpen q v | none => v
      (dir = 1 → exec (.streamOpen h peer cls ord dir) s = .next (settle (next (goOn p { signal := true }
        (.openSend (sendSid s peer cls ord) pk r1.1) r1.2)))) ∧
      (dir = 2 → ∃ ch : BitVec 128, ch = (Config.entropy s.draws).setWidth 128 ∧
        exec (.streamOpen h peer cls ord dir) s = .next (settle (next (asked
          (.openRecv (recvSid s peer cls ord) pk r1.1 ch none true false 0 0) ch r1.2)))) ∧
      (dir = 3 → ∃ ch : BitVec 128, ch = (Config.entropy s.draws).setWidth 128 ∧
        exec (.streamOpen h peer cls ord dir) s = .next (settle (next (asked
          (.openRecv (recvSid s peer cls ord) pk r1.1 ch (some (sendSid s peer cls ord)) false false 0 r2.1) ch r2.2))))) ∧
    (Admitted s (streamCloseRow h peer cls ord dir) p →
      let job := jobOf s p.fn
      let out := sendSid s peer cls ord
      (dir = 2 → exec (.streamClose h peer cls ord dir) s = .next (settle (goOn p {} (.close out job false true) s))) ∧
      (dir = 1 ∨ dir = 3 → ∃ t, findSend s job out = some t ∧ exec (.streamClose h peer cls ord dir) s = .next (settle
        (enqueue t.port (.seal job out 0x09 1 0xFFFF 0 0 0 [] 0xFFFF) (modSend job out (fun t => { t with closing := true })
          (goOn p { seals := [(job, out)] } (.close out job true (dir == 3)) s))))))

/-- R182, R189, R271, R419, R187. What the model settles there is in log entries 61, 70, 149, 150. -/
def Obligations.StreamTimeLimits : Prop :=
  (∀ (s : State) (f : Fn) (i : W32) (p : InProg), serving s = true → findProg s f i = some p →
      (∀ inn peer kid ch out sd e sk, p.act = .openRecv inn peer kid ch out sd false e sk →
        exec (.openReqResend f i) s = .next (sendRouted peer kOpenReq (.openReq inn (jobOf s f) ch) s)) ∧
      (∀ inn peer kid ch out sd rd e sk, p.act = .openRecv inn peer kid ch out sd rd e sk →
        exec (.streamOpenTimeout f i) s = .next (settle (complete p stTimedOut (peer.setWidth 32) 0 (releaseHolds p s)))) ∧
      (∀ out peer kid, p.act = .openSend out peer kid →
        exec (.streamOpenTimeout f i) s = .next (settle (complete p stTimedOut (peer.setWidth 32) 0 (releaseHolds p s)))) ∧
      (∀ sid job t sending, p.act = .close sid job sending true → findRecv s job (swapSid sid) = some t →
        exec (.streamCloseTimeout f i) s = .next (settle (complete p stTimedOut ((sidDst sid).setWidth 32) 0
          (retireKids (t.kid :: t.next.toList)
            { s with recvs := s.recvs.filter (fun x => !(x.job == job && x.sid == swapSid sid)) })))) ∧
      (∀ job sid, exec (.openReqHoldExpiry job sid) s =
        .next { s with openReqs := s.openReqs.filter (fun q => !(q.job == job && q.sid == sid)) }) ∧
      (∀ xid, exec (.homeExchangeTimeout xid) s = .next (match mapFind s.exch xid.toNat with
        | none => s
        | some x => settle (poolPump (dropLeases x.region (noAnswer xid x s)))))) ∧
  (∀ (s : State) (job : W16) (sid : W32), serving s = true →
      let u := retryWaits s
      ((∀ w ∈ u.waits, ¬ (w.hdr.jobId = job ∧ w.hdr.sid = sid)) → exec (.receiveWaitExpiry job sid) s = .next u) ∧
      (∀ w, u.waits.find? (fun w => w.hdr.jobId == job && w.hdr.sid == sid) = some w →
        (findRecv u job sid = none → exec (.receiveWaitExpiry job sid) s =
          .next (settle (retryWaits (dropFrame w 5 { u with waits := u.waits.erase w })))) ∧
        (∀ t, findRecv u job sid = some t → t.kid = 0 → exec (.receiveWaitExpiry job sid) s =
          .next (settle (retryWaits (dropFrame w 5 (modRecv job sid (fun t => { t with index := t.index + 1 })
            { u with waits := u.waits.erase w }))))) ∧
        (∀ t, findRecv u job sid = some t → t.kid ≠ 0 → exec (.receiveWaitExpiry job sid) s = .next u)))

/-- R225 (SET), R226: `u` is the state before the command's end. What the model settles there is in log entry 152. -/
def Obligations.FenceSignals : Prop :=
  ∀ (s : State) (h : CmdHdr) (p : InProg) (handle : W32) (v : W64) (i : Nat), fenceIdx s h.fn handle = some i →
    (Admitted s (fenceSignalRow h handle v) p →
      ∃ (u : State) (st : W16) (d : W32), exec (.fenceSignal h handle v) s =
          .next (settle (complete p st d ((fenceOf u h.fn i).value.setWidth 128) u)) ∧
        u = signalFence h.fn i false v false (addRef h.fn i h.ctx s) ∧
        (let x := fenceOf s h.fn i
         (x.err ≠ .none → (st, d) = errStatus x) ∧
         (x.err = .none → v.toNat ≤ x.value.toNat → st = stOk ∧ d = 0 ∧ (fenceOf u h.fn i).value = x.value) ∧
         (x.err = .none → x.value.toNat < v.toNat → v.toNat - x.value.toNat ≤ 2 ^ 62 →
           st = stOk ∧ d = 0 ∧ (fenceOf u h.fn i).value = v) ∧
         (x.err = .none → 2 ^ 62 < v.toNat - x.value.toNat →
           st = stFenceRange ∧ d = 0 ∧ (fenceOf u h.fn i).value = x.value ∧ (fenceOf u h.fn i).err = .range))) ∧
    (Admitted s (fenceWaitRow h handle v) p →
      let x := fenceOf s h.fn i
      let s1 := addRef h.fn i h.ctx s
      (v.toNat ≤ x.value.toNat → exec (.fenceWait h handle v) s = .next (settle (complete p stOk 0 (x.value.setWidth 128) s1))) ∧
      (x.value.toNat < v.toNat → x.err ≠ .none →
        exec (.fenceWait h handle v) s = .next (settle (complete p (errStatus x).1 (errStatus x).2 (x.value.setWidth 128) s1))) ∧
      (x.value.toNat < v.toNat → x.err = .none →
        exec (.fenceWait h handle v) s = .next (settle (goOn p { signal := true } (.fenceWait i v) s1))))

/-- R224, R289. What the model settles there is in log entries 23, 55, 151. -/
def Obligations.FenceCreateRelease : Prop :=
  ∀ (s : State) (h : CmdHdr) (p : InProg),
    (∀ v pick i, Admitted s (fenceCreateRow h v) p → pickIdx (fun i => (mapFind (fnOf s h.fn).fences i).isSome) pick = some i →
      ∃ u, exec (.fenceCreate h v pick) s = .next (settle (complete p stOk 0 ((fenceHandle s h.fn i).setWidth 128) u)) ∧
        mapFind (fnOf u h.fn).fences i = some { value := v, local_ := h.ctx, refs := [h.ctx] } ∧
        u.out = s.out ++ [.fenceForward h.fn (fenceHandle s h.fn i) v .none] ∧
        (∀ j, j ≠ i → mapFind (fnOf u h.fn).fences j = mapFind (fnOf s h.fn).fences j)) ∧
    (∀ handle i, Admitted s (fenceReleaseRow h handle) p → fenceIdx s h.fn handle = some i →
      exec (.fenceRelease h handle) s = .next (settle (complete p stOk 0 0 (dropRef h.fn i h.ctx
        (let v := abortWaits h.fn i (fun q => q.ctx == h.ctx) s.prog s
         if h.ctx = 0xFFFF then v else abortUnitWaits h.fn i (some h.ctx) (fenceOf v h.fn i).unitWaits v))))) ∧
    (serving s = true → ∀ f c handle v, exec (.syncWaitRegister f c handle v) s = .next (match fenceIdx s f handle with
      | none => emit (.unitWaitEnd f c handle stBadState 0) s
      | some i => if refsFull s f i c = true then emit (.unitWaitEnd f c handle stLimits (fenceOf s f i).value) s
        else evalWaits f i (fenceMod f i (fun x => { x with unitWaits := x.unitWaits ++ [(c, v)] }) (addRef f i c s))))

/-- R236, R234, R220, R221. What the model settles there is in log entry 56. -/
def Obligations.BatchesWritesChimes : Prop :=
  ∀ (s : State) (h : CmdHdr) (p : InProg),
    (∀ b, Admitted s (batchCancelRow h b) p →
      let s1 := claimBatch b.toNat (jobOf s h.fn) s
      let g := (filterOf s1 b.toNat).gen + 1
      exec (.batchCancel h b) s = .next (settle (goOn p { batches := [b.toNat] } (.done stOk 0 (g.setWidth 128))
        { s1 with filter := mapMod {} s1.filter b.toNat (fun e => { e with gen := g }) }))) ∧
    (∀ id, mapFind s.writes id = none →
      (s.reads.find? (fun e => e.id == id) = none → exec (.writeCompletion id) s = .next s) ∧
      (∀ e, s.reads.find? (fun e => e.id == id) = some e → exec (.writeCompletion id) s = .next (settle (clearJobWaits e.job
        (doneLocal e.fn e.ctx e.gen stOk { s with reads := s.reads.filter (fun x => x.id != id) }))))) ∧
    (∀ id w, mapFind s.writes id = some w →
      ∃ u, exec (.writeCompletion id) s = .next (settle u) ∧ mapFind u.writes id = none ∧
        (∀ j, j ≠ id → mapFind u.writes j = mapFind s.writes j) ∧ 
        u.snare = (stampMet { s with writes := mapErase s.writes id, snare := s.snare.map (fun e => { e with writes := e.writes.erase id }) }).snare ∧
        (∀ b : BitVec 12, w.batch = some b → (filterOf u b.toNat).inFlight.toNat = (filterOf s b.toNat).inFlight.toNat - 1) ∧
        (w.batch = none → u.filter = s.filter)) ∧
    (serving s = true → ∀ f port,
      exec (.chimeRelease f (some port)) s = .next (settle (retryWaits (match snarePick f port s.snare with
        | none => s
        | some (b, e, l) => traceVf f 0x03 e.dstCtx (chimeData e.sigs)
            (applySignals f (some e.src) e.sigs { s with snare := b ++ l })))) ∧
      exec (.chimeRelease f none) s = .next (settle (match localPick s f [] s.localSnare with
        | none => s
        | some (b, e, l) => traceVf f 0x03 e.ctx (chimeData e.sigs) (applySignals f none e.sigs { s with localSnare := b ++ l }))))

/-- R293 to R295. -/
def Obligations.CarveOutsChangeAtBoundaries : Prop :=
  ∀ (s : State) (h : CmdHdr) (p : InProg) (set : Byte) (b l : W64),
    (Admitted s (carveGrowRow h set b l) p →
      exec (.carveGrow h set b l) s = .next (settle (goOn p { boundary := true } (.carve (carveKey (hdrTarget h) set.toNat) b.toNat l.toNat 3)
        { s with staged := s.staged ++ [.setEntry (carveKey (hdrTarget h) set.toNat) b.toNat l.toNat] }))) ∧
    (Admitted s (carveShrinkRow h set b l) p →
      exec (.carveShrink h set b l) s = .next (settle (goOn p { boundary := true } (.carve (carveKey (hdrTarget h) set.toNat) b.toNat l.toNat 1)
        { s with staged := s.staged ++ [.shrinkStart (carveKey (hdrTarget h) set.toNat) b.toNat l.toNat] }))) ∧
    (serving s = true → exec .fabricEpochBoundary s = .next (settle (passBoundary
      (applyAll s.staged { s with staged := [], fabEpoch := s.fabEpoch + 1 })))) ∧
    (∀ k base limit, let v := applyStaged (.setEntry k base limit) s
      (carveAt v k).base = base ∧ (carveAt v k).limit = limit ∧ (carveAt v k).state = (carveAt s k).state ∧
        ∀ j, j ≠ k → carveAt v j = carveAt s j) ∧
    (∀ k, (carveAt s k).state ≠ .shrinking → (carveAt s k).base ≠ (carveAt s k).limit → (carveAt (applyStaged (.block k) s) k).state = .blocked) ∧
    (∀ k, (carveAt s k).state = .blocked → s.scrub.any (fun r => r.carve == some k) = false →
      (carveAt (applyStaged (.reopen k) s) k).state = .open_)

/-- R286 to R288, R300. What the model settles there is in log entries 23, 49. -/
def Obligations.ContextsAndObjects : Prop :=
  ∀ (s : State) (h : CmdHdr) (p : InProg),
    (Admitted s (contextCreateRow h) p →
      ∃ i g, freeCtx s (hdrTarget h) = some i ∧ g = (mapGet {} (fnOf s (hdrTarget h)).ctxs i).gen + 1 ∧
        exec (.contextCreate h) s = .next (settle (complete p stOk 0 (resAt 0 i ||| resAt 2 g.toNat)
          (fnMod (hdrTarget h) (fun x => { x with ctxs := mapSet x.ctxs i { gen := g, live := true, suspect := false } }) s)))) ∧
    (Admitted s (contextAbandonRow h) p →
      let f := hdrTarget h
      let a := abandonCtx f h.ctx (p.fn, p.idx) s
      let v := goOn p
        { kids := a.1, objs := ((fnOf a.2.2 f).objs.filter (fun o => o.2.unmapping && o.2.ctx == h.ctx)).map (fun o => (f.key, o.1)) }
        (.abandon f h.ctx (mapGet {} (fnOf a.2.2 f).ctxs h.ctx.toNat).gen a.1 a.2.1) a.2.2
      exec (.contextAbandon h) s = .next (settle (if p.fn = .pf ∧ f ≠ .pf then tdiError false f v else v))) ∧
    (∀ rights base size pick i, Admitted s (memMapRow h rights base size) p →
      pickIdx (fun i => (mapFind (fnOf s h.fn).objs i).isSome) pick = some i →
      ∃ u, exec (.memMap h rights base size pick) s =
          .next (settle (complete p stOk 0 ((handleOf (mapGet 0 (fnOf s h.fn).objReuse i) i).setWidth 128) u)) ∧
        mapFind (fnOf u h.fn).objs i =
          some { rights := rights, ctx := h.ctx, base := base.toNat, size := size.toNat, unmapping := false, scrub := false } ∧
        (∀ j, j ≠ i → mapFind (fnOf u h.fn).objs j = mapFind (fnOf s h.fn).objs j) ∧ ∀ g, g ≠ h.fn → fnOf u g = fnOf s g) ∧
    (∀ handle i, Admitted s (memUnmapRow h handle) p →
      objIdx s h.fn handle = some i →
      exec (.memUnmap h handle) s = .next (settle (goOn p { objs := [(h.fn.key, i)] } (.unmap h.fn.key i)
        (fnMod h.fn (fun x => { x with objs := x.objs.map (fun e => if e.1 = i then (e.1, { e.2 with unmapping := true }) else e) }) s))))

/-- R292, Table 10-3. -/
def Obligations.FirewallIsolatesFunctions : Prop :=
  ∀ (s : State) (m : MemAccess),
    (serving s = true → mapFind s.accesses m.id = none →
      ∃ t, exec (.firewallAccess m) s = .next t ∧
        (fwAllows s m.cls m.fn m.addr.toNat m.len m.write = true →
          t.out = s.out ++ [.accessOk m.id] ∧ (∃ x, mapFind t.accesses m.id = some x ∧ x.addr = m.addr.toNat ∧ x.len = m.len) ∧ t.carves = s.carves) ∧
        (fwAllows s m.cls m.fn m.addr.toNat m.len m.write = false →
          t.out = s.out ++ [.accessRefused m.id] ∧ t.accesses = s.accesses ∧ t = { s with out := t.out, tabor := t.tabor })) ∧
    (∀ (f g : Fn) (cls : ReqClass) (a n : Nat) (w : Bool), cls = .compute ∨ cls = .engine → fwAllows s cls f a n w = true →
      f ≠ .pf ∧ scrubbing s a n = false ∧
      ∃ k, setOf a = some k ∧ (carveAt s (carveKey f k)).state ≠ .blocked ∧
        ((carveAt s (carveKey f k)).state = .shrinking →
          (carveAt s (carveKey f k)).keepLo ≤ a ∧ a + max n 1 ≤ (carveAt s (carveKey f k)).keepHi) ∧
        ((carveAt s (carveKey f k)).state = .open_ →
          (carveAt s (carveKey f k)).base ≤ a ∧ a + max n 1 ≤ (carveAt s (carveKey f k)).limit ∧
          (meets (carveAt s (carveKey f k)).base (carveAt s (carveKey f k)).limit
              (carveAt s (carveKey g k)).base (carveAt s (carveKey g k)).limit = false →
            ∀ x, a ≤ x → x < a + max n 1 → ¬ ((carveAt s (carveKey g k)).base ≤ x ∧ x < (carveAt s (carveKey g k)).limit)))) ∧
    (∀ id, exec (.checkerAccessDone id) s = .next (settle { s with accesses := mapErase s.accesses id }))

/-- R297, R298. What the model settles there is in log entry 57. -/
def Obligations.ScrubberAndSwitches : Prop :=
  ∀ s : State,
    (serving s = true → s.scrub = [] → exec .scrubDone s = .next s) ∧
    (∀ r rest, serving s = true → s.scrub = r :: rest →
      let v := emit (.scrubWrite r.lo r.hi) { s with scrub := rest }
      exec .scrubDone s = .next (reopen r.carve (match ownerOf v r.lo with | some f => markWrite f r.lo (r.hi - r.lo) v | none => v))) ∧
    (∀ f c, serving s = true → c ≠ 0xFFFF →
      ∃ u, exec (.switchNotice f c) s = .next (settle (emit (.switchAck f c) u)) ∧
        u = switchBulk f c (clearCtx f c (traceVf f 0x05 c 0 s)))

/-- R175, R218, R230, R234; R309 and R89 for requests that are held or refused.
What the model settles there is in log entries 53, 54, 195. -/
def Obligations.RequestsAtFabricPorts : Prop :=
  ∀ (s : State) (q : SealReq) (t : SendSt),
    (PortServes s q.fn →
      (streamFor s q.fn q.peer q.cls q.ordinal = some t →
        (q.ftype = 0x01 ∧ (q.cls = 0 ∨ q.cls = 4) ∨ q.ftype = 0x04 ∧ q.cls = 2) →
        1 ≤ q.units.toNat ∧ q.units.toNat ≤ 32 ∧ q.payload.length ≤ 256 * q.units.toNat →
        exec (.sealRequest q) s = .next (settle (if q.cls = 2
          then queueSeal t q.ftype q.units.toNat q (batchField q.batch) q.batchGen q.payload s
          else queueSeal t q.ftype q.units.toNat q 0 0 q.payload s))) ∧
      (streamFor s q.fn q.peer q.cls q.ordinal = none → exec (.sealRequest q) s = .next (settle (emit (.fabricError q.fn q.ctx) s))) ∧
      (∀ k, streamFor s q.fn q.peer 1 q.ordinal = some t →
        1 ≤ q.units.toNat ∧ q.units.toNat ≤ 32 ∧ 32 + k.data.length ≤ 256 * q.units.toNat →
        exec (.tokenRequest q k) s = .next (settle (queueSeal t 0x03 q.units.toNat q 0 0 (tokenBytes k) s))) ∧
      (∀ c, q.peer ≠ s.fab.id → (q.cls = 0 ∨ q.cls = 2 ∨ q.cls = 3) → chimeOk c = true →
        streamFor s q.fn q.peer q.cls q.ordinal = some t →
        exec (.chimeRequest q c) s = .next (settle (if q.cls = 2
          then queueSeal t 0x02 1 q (batchField q.batch) 0 (chimeBytes c) s
          else queueSeal t 0x02 1 q 0 0 (chimeBytes c) s)))) ∧
    (∀ ctx units dc dg pay, let n := payBatch pay
      ((filterOf s n).claimed = true ∧ (filterOf s n).job ≠ t.job →
        sealToken t ctx units dc dg pay s = emit (.fabricError t.fn ctx) (countFn t.fn 0x2B s)) ∧
      (¬ ((filterOf s n).claimed = true ∧ (filterOf s n).job ≠ t.job) →
        let v := claimBatch n t.job s
        (filterOf v n).claimed = true ∧ (filterOf v n).job = t.job ∧
        sealToken t ctx units dc dg pay s = sealFrame t ctx 0x03 units dc dg 0 0
          (pay.take 4 ++ be 2 (filterOf v n).gen.toNat ++ pay.drop 6) v)) ∧
    (serving s = true → quiescing s = false → holding s q.fn = true →
      exec (.sealRequest q) s = .next (settle (fnMod q.fn (fun x => { x with fabHeld := x.fabHeld ++ [.sealRequest q] }) s))) ∧
    (serving s = true → quiescing s = true → exec (.sealRequest q) s = .next (settle (emit (.fabricError q.fn q.ctx) s)))

/-- R231, R223, R261, R262. What the model settles there is in log entries 54, 187. -/
def Obligations.RefusalsAndLocalRequests : Prop :=
  ∀ s : State,
    (serving s = true → ∀ job src k choice reason expert,
      let sid := streamId s.fab.id src 2 (k.retOrdinal.setWidth 4)
      (∀ t, findSend s job sid = some t → t.closing = false → exhausted t = false →
        exec (.refusalRequest job src k choice reason expert) s = .next (settle (enqueue t.port
          (.seal job sid 0x05 1 0xFFFF 0 (batchField (tokenBatch k)) k.batchGen (refusalBytes k choice reason expert) 0xFFFF) s))) ∧
      (∀ f, findSend s job sid = none → vfOfJob s job = some f →
        exec (.refusalRequest job src k choice reason expert) s = .next (settle (countFn f 0x2A s))) ∧
      (∀ t, findSend s job sid = some t → t.closing = true ∨ exhausted t = true →
        exec (.refusalRequest job src k choice reason expert) s = .next (settle (countFn t.fn 0x2A s)))) ∧
    (∀ f c cls fp k, PortServes s f → (cls = 0 ∨ cls = 2 ∨ cls = 3) → chimeOk k = true →
      fabricEntries s fp.toNat < Config.fabricSnare →
      ∃ e, e.fn = f ∧ e.ctx = c ∧ e.fport = fp ∧ e.sigs = k.sigs ∧
        exec (.localChimeRequest f c cls fp k) s = .next { s with localSnare := s.localSnare ++ [e] }) ∧
    (∀ q keeper ord ret t, PortServes s q.fn → streamFor s q.fn keeper 3 ord = some t →
      (s.members.filter (fun e => e.2.fp == t.port.val / 4)).length < Config.memberTable →
      unitsFor (poolBytes q ret (freeTag s)).length ≤ 32 →
      ∃ m : MemberSt, m.fn = q.fn ∧ m.ctx = q.ctx ∧ m.keeper = keeper ∧ m.read = decide (q.pop = 0x01) ∧ m.buffer = q.buffer ∧
        exec (.memberPoolRequest q keeper ord ret) s = .next (settle (enqueue t.port
          (.seal t.job t.sid 0x06 (unitsFor (poolBytes q ret (freeTag s)).length) 0xFFFF 0 0 0 (poolBytes q ret (freeTag s)) q.ctx)
          { s with members := mapSet s.members (freeTag s).toNat m, nextTag := freeTag s + 1 }))) ∧
    (∀ q job, PortServes s q.fn → poolShapeOk q.pop q.redOp q.redFormat true q.offset.toNat q.length.toNat = true →
      (fnOf s q.fn).job = some job →
      (∀ st d, admitRegion s job q.regionId q.offset.toNat q.length.toNat = .inl (st, d) →
        exec (.localPoolRequest q) s = .next (settle (emit (.fabricDone q.fn q.ctx st []) s))) ∧
      (∀ k, admitRegion s job q.regionId q.offset.toNat q.length.toNat = .inr k →
        exec (.localPoolRequest q) s = .next (settle (poolPump (addJob k (.localReq q.fn q.ctx (genOf s q.fn))
          (poolKind q.pop q.redOp q.redFormat) q.offset.toNat q.length.toNat (padTo q.length.toNat (q.data.take q.length.toNat)) s).2))))

/-- R354. What the model settles there is in log entry 24. -/
def Obligations.DebugMasterReach : Prop :=
  ∀ (s : State) (f : Fn) (addr : BitVec 48) (n : Nat) (w : Bool), serving s = true →
    (∃ (t : State) (b : Bool), exec (.debugMasterRequest (.memory f addr n) w) s = .next t ∧ t.out = s.out ++ [.debugMaster b] ∧
      (b = false → t = { s with out := t.out, tabor := t.tabor }) ∧
      (b = true → ∀ v, f = .vf v →
        hasRight s (if w then 6 else 5) = true ∧ inScope s v = true ∧ (fnOf s (.vf v)).job = none ∧
        (fnOf s (.vf v)).tdi.state = .unlocked ∧ carveOk s (.vf v) addr.toNat n false = true) ∧
      (b = true → f = .pf → w = false ∧ hasRight s 5 = true ∧ pfScope s = true)) ∧
    (∀ (e : BitVec 3) (off : W64) (len : W32) (data : List Byte),
      ((∀ r ∈ s.regions, ¬ (r.2.loop = true ∧ r.2.engine = e.toNat)) ∨ hasRight s (if w then 8 else 7) = false →
        exec (.debugMasterRequest (.pool e off len data) w) s =
          .next (emit (.debugPool (grantKid s) stNotPermitted []) (countFn .pf 0x2D s))) ∧
      (∀ k r, s.regions.find? (fun r => r.2.loop && r.2.engine == e.toNat) = some (k, r) → hasRight s (if w then 8 else 7) = true →
        poolShapeOk (if w then 2 else 1) 0 0 true off.toNat len.toNat = true → off.toNat + len.toNat ≤ r.size →
        exec (.debugMasterRequest (.pool e off len data) w) s =
          .next (loopJob k (grantKid s) false (if w then .write else .read) off.toNat len.toNat data s)))

/-- Steps 7 to 9 of Table 07-11. What the model settles there is in log entries 2, 69. -/
def Obligations.SealedFrameIsVerified : Prop :=
  ∀ (c : Instr) (s v : State) (a : Arrival) (h : SealHdr) (b : FrameBody) (t : RecvSt), sealedRow c = some (a, h, b) → sealSpelt a h b = true →
    let w : WaitSt := { arr := a, hdr := { h with sid := a.route }, body := b }
    FrameDue s v w t →
    let u := countSealed t.fn h.dstCtx h.units.toNat (cacheKid (engineOfPort v a.port.val) t.kid v)
    (h.tagOk = false → exec c s = .next (settle (retryWaits (gongHalt (frameHalt w 1 t.kid) (earlyWrites t w v))))) ∧
    (h.tagOk = true → breaksEpoch w t → exec c s = .next (settle (retryWaits (gongHalt (frameHalt w 2 t.kid) v)))) ∧
    (∀ k, h.tagOk = true → ¬ breaksEpoch w t → postTag u t w = some k →
      exec c s = .next (settle (retryWaits (freeFrame w (advanceRecv t b (countFn t.fn (0x20 + k) (countPort a.port (6 + k) u))))))) ∧
    (h.tagOk = true → ¬ breaksEpoch w t → postTag u t w = none →
      exec c s = .next (settle (retryWaits (freeFrame w (deliver t w (advanceRecv t b u))))))

/-- R212, R213 and the rules of each frame type. What the model settles there is in log entry 65. -/
def Obligations.DeliveredFramesAct : Prop :=
  ∀ (t : RecvSt) (a : Arrival) (h : SealHdr) (s : State),
    (∀ p i x, placement s t h p = some (i, x) →
      ∃ u, deliver t ⟨a, h, .data p⟩ s = u ∧ u.out = s.out ++ [.plainWrite s.nextWrite t.fn x (dataBytes p)] ∧
        u.nextWrite = s.nextWrite + 1 ∧
        mapFind u.writes s.nextWrite = some
          { fn := t.fn, job := t.job, sid := t.sid, obj := some (t.fn.key, i), e0 := t.e0, batch := none, addr := x, len := (dataBytes p).length } ∧
        u.filter = s.filter) ∧
    (∀ p i x, placement s t h p = some (i, x) →
      ∃ u, deliver t ⟨a, h, .return_ p⟩ s = u ∧ u.out = s.out ++ [.plainWrite s.nextWrite t.fn x (dataBytes p)] ∧
        (filterOf u (batchOf h)).inFlight = (filterOf s (batchOf h)).inFlight + 1 ∧
        ∃ y, mapFind u.writes s.nextWrite = some y ∧ y.batch = some (BitVec.ofNat 12 (batchOf h)) ∧ y.addr = x) ∧
    (∀ p, ∃ e, deliver t ⟨a, h, .chime p⟩ s = stampMet { s with snare := s.snare ++ [e] } ∧ e.met = none ∧ e.port = a.port ∧ e.fn = t.fn ∧ e.sigs = p.sigs ∧
        e.job = t.job ∧ e.sid = t.sid ∧ e.seq = h.seq ∧ e.src = sidSrc t.sid ∧ e.dstCtx = h.dstCtx) ∧
    (∀ p, deliver t ⟨a, h, .token p⟩ s = emit (.tokenDeliver t.job (sidSrc t.sid) p) s) ∧
    (∀ p, deliver t ⟨a, h, .refusal p⟩ s = emit (.refusalDeliver t.job p) s) ∧
    (∀ p, p.pop.getLsbD 7 = false → deliver t ⟨a, h, .pool p⟩ s = poolRequest t h p s) ∧
    (∀ p m, p.pop.getLsbD 7 = true → mapFind s.members p.ptag.toNat = some m → m.gen = genOf s m.fn →
      ∃ u d, deliver t ⟨a, h, .pool p⟩ s = emit (.fabricDone m.fn m.ctx p.pstat d) u ∧ mapFind u.members p.ptag.toNat = none ∧
        (m.read = true → p.pstat = stOk → d = padTo p.length.toNat (p.data.take p.length.toNat)) ∧
        (m.read = false ∨ p.pstat ≠ stOk → d = [])) ∧
    (∀ o, deliver t ⟨a, h, .offer o⟩ s = takeOffer t.fn t.job (sidSrc t.sid) o s) ∧
    (∀ r st d, deliver t ⟨a, h, .answer r st d⟩ s = takeAnswer t.job (sidSrc t.sid) r st d s) ∧
    (∀ r, deliver t ⟨a, h, .commit r⟩ s = takeCommit t.job (sidSrc t.sid) r s) ∧
    (∀ n, deliver t ⟨a, h, .epochEnd n⟩ s = s) ∧
    (∀ x, findRecv s t.job t.sid = some x → deliver t ⟨a, h, .close⟩ s = retireKids (x.kid :: x.next.toList)
      { s with recvs := s.recvs.filter (fun y => !(y.job == t.job && y.sid == t.sid)) })

/-- R262, Table 09-11. What the model settles there is in log entries 36, 68. -/
def Obligations.KeeperAnswersPoolRequests : Prop :=
  ∀ (t : RecvSt) (h : SealHdr) (p : PoolPay) (s : State),
    let src := sidSrc t.sid
    let ret : BitVec 4 := p.retOrdinal.setWidth 4
    let rid : BitVec 40 := p.regionId.setWidth 40
    let shape := p.rsvdOk && decide (p.retOrdinal.toNat < 16) && decide (p.regionId.toNat < 2 ^ 40) && p.pstat == 0
      && (p.pop == 1 || decide (p.length.toNat + 32 ≤ 256 * h.units.toNat))
    let no := fun (st : W16) => answerMember src t.job ret p.ptag p.pop rid p.offset.toNat p.length.toNat st [] s
    (poolShapeOk p.pop p.redOp p.redFormat shape p.offset.toNat p.length.toNat = false → poolRequest t h p s = no stMalformed) ∧
    (poolShapeOk p.pop p.redOp p.redFormat shape p.offset.toNat p.length.toNat = true →
      (∀ st d, admitRegion s t.job rid p.offset.toNat p.length.toNat = .inl (st, d) → poolRequest t h p s = no st) ∧
      (∀ k, admitRegion s t.job rid p.offset.toNat p.length.toNat = .inr k →
        ∃ (u : State) (j : PoolJob), poolRequest t h p s = poolPump u ∧ u = { s with jobs := s.jobs ++ [j], nextJob := s.nextJob + 1 } ∧
          j.id = s.nextJob ∧ j.region = k ∧ j.from_ = .member t.sid src t.job ret p.ptag p.pop h.seq ∧
          j.kind = poolKind p.pop p.redOp p.redFormat ∧ j.offset = p.offset.toNat ∧ j.length = p.length.toNat ∧
          j.data = padTo p.length.toNat (p.data.take p.length.toNat)))

/-- R254 to R258, R302; `w` is the state once the frame's credits are returned. What the model settles there is in log entries 51, 74, 75. -/
def Obligations.HomeStoresWhatKeepersWrite : Prop :=
  ∀ (s v : State) (a : Arrival) (h : HomeHdr) (e : EccReport), ReachesPackage s a v →
    let w := returnCredits a.port a.hop.vc (frameCredits a.hop) v
    let sp := homeSpelt a h
    (∀ size depth b, sp 0x01 (fun l => isAt l 0 (be 8 size.toNat ++ [depth])) = true → hasHome w = true → homeShape h 1 false = true →
      homeOf w h = none → homePlace w size.toNat = some b →
      ∃ x : HomeSt, x.job = h.jobId ∧ x.rid = h.regionId ∧ x.keeper = sidSrc a.route ∧ x.size = size.toNat ∧ x.base = b ∧ x.lines = [] ∧
        x.nodes = [] ∧ x.leases = [] ∧
        exec (.alloc a h size depth) s = .next (settle (homeStatus a h 0 { w with homes := w.homes ++ [x], opens := w.opens + 1 }))) ∧
    (∀ x, homeCheck w a h 1 false = .inr x →
      (sp 0x02 (fun _ => true) = true →
        exec (.free a h) s = .next (settle (if x.leases = [] then homeStatus a h 0 (homeDrop h w) else homeStatus a h 6 w))) ∧
      ∀ nk, sp 0x03 (fun l => isAt l 0 (be 2 nk.toNat)) = true →
        exec (.rebind a h nk) s = .next (settle (if x.leases = [] then homeStatus a h 0 (homeMod h (fun x => { x with keeper := nk }) w)
          else homeStatus a h 6 w))) ∧
    (∀ x, homeCheck w a h 31 false = .inr x →
      (sp 0x10 (fun _ => true) = true →
        (linesOut x h = true → exec (.readLines a ⟨h, e⟩) s = .next (settle (homeStatus a h 3 w))) ∧
        (linesOut x h = false → h.hflags.getLsbD 0 = false → exec (.readLines a ⟨h, e⟩) s = .next (settle (homeReply a h 0
          (lineUnits ((homeLines h).map (mapGet 0 x.lines)) ((homeLines h).map (mapGet 0 x.lineMacs)))
          (bitMap e.lines) (bitMap e.macs) (BitVec.ofNat 32 e.ce) w))) ∧
        (linesOut x h = false → h.hflags.getLsbD 0 = true → exec (.readLines a ⟨h, e⟩) s = .next (settle (leaseLines a h e x w)))) ∧
      (∀ ls, sp 0x11 (fun l => isAt l 0 (lineUnits (ls.map (·.1)) (ls.map (·.2)))) = true →
        (linesOut x h = true → exec (.writeLines a h ls) s = .next (settle (homeStatus a h 3 w))) ∧
        (linesOut x h = false →
          let u := homeStatus a h 0 (homeMod h (fun x =>
            { x with lines := storeItems 0 h.baseItem.toNat ((ls.take h.count.toNat).map (·.1)) x.lines
                     lineMacs := storeItems 0 h.baseItem.toNat ((ls.take h.count.toNat).map (·.2)) x.lineMacs }) w)
          exec (.writeLines a h ls) s = .next (settle (if h.hflags.getLsbD 1 then endLeases h (homeLines h) u else u)))) ∧
      (sp 0x14 (fun _ => true) = true → exec (.leaseRelease a h) s = .next (settle
        (if linesOut x h = true then homeStatus a h 3 w else endLeases h (homeLines h) (homeStatus a h 0 w))))) ∧
    (∀ x addrs, homeCheck w a h 31 true = .inr x → sp 0x12 (fun l => isAt l 0 (addrUnit (addrs.take h.count.toNat))) = true →
      let l := addrs.take h.count.toNat
      let key := fun (i : Nat) => nodeKey (addrLevel (l.getD i 0)) (addrIdx (l.getD i 0))
      exec (.readNodes a ⟨h, e⟩ addrs) s = .next (settle (if nodesOut x l = true then homeStatus a h 3 w
        else homeReply a h 0 (nodeUnits l.length ((List.range l.length).map (fun i =>
          nodeRecBytes (mapGet 0 x.nodes (key i)) (mapGet 0 x.nodeMacs (key i)) (e.nodes.contains i)))) (bitMap (e.nodes.map (· / 3))) 0 (BitVec.ofNat 32 e.ce) w))) ∧
    (∀ x ns, homeCheck w a h 28 true = .inr x →
      sp 0x13 (fun l => isAt l 0 (addrUnit (ns.map (·.1)) ++ nodeUnits ns.length (ns.map (fun z => nodeRecBytes z.2.1 z.2.2 false)))) = true →
      exec (.writeNodes a h ns) s = .next (settle (
      if nodesOut x ((ns.take h.count.toNat).map (·.1)) = true then homeStatus a h 3 w
      else homeStatus a h 0 (homeMod h (fun x =>
        { x with nodes := (ns.take h.count.toNat).foldl (fun m z => mapPut 0 m (nodeKey (addrLevel z.1) (addrIdx z.1)) z.2.1) x.nodes
                 nodeMacs := (ns.take h.count.toNat).foldl (fun m z => mapPut 0 m (nodeKey (addrLevel z.1) (addrIdx z.1)) z.2.2) x.nodeMacs })
        w)))) ∧
    (∀ st, sp 0x10 (fun _ => true) = true → homeCheck w a h 31 false = .inl st →
      exec (.readLines a ⟨h, e⟩) s = .next (settle (homeStatus a h st w))) ∧
    (hasHome w = true → sp h.hop (fun _ => reservedHop h.hop) = true → exec (.leaseRelease a h) s = .next (settle (homeStatus a h 7 w)))

/-- R256: reads after writes at the home. -/
def Obligations.StoredItemsReadBack : Prop :=
  (∀ (i j : Nat) (l : List Line) (m : FMap Line),
    mapGet 0 (storeItems 0 i l m) j = if i ≤ j ∧ j < i + l.length then l.getD (j - i) 0 else mapGet 0 m j) ∧
  (∀ (i : Nat) (l : List Line) (m : FMap Line), mapWfD 0 m = true → mapWfD 0 (storeItems 0 i l m) = true) ∧
  (∀ (h : HomeHdr) (g : HomeSt → HomeSt) (s : State) (x : HomeSt), ¬ (x.job = h.jobId ∧ x.rid = h.regionId) →
    (x ∈ (homeDrop h s).homes ↔ x ∈ s.homes) ∧ ((∀ y, (g y).job = y.job ∧ (g y).rid = y.rid) → (x ∈ (homeMod h g s).homes ↔ x ∈ s.homes)))

/-- Table 07-11, steps 1 to 4. What the model settles there is in log entries 153, 162, 168. -/
def Obligations.HopsOfAFrame : Prop :=
  ∀ (c : Instr) (s : State) (a : Arrival), arrivalOf c = some a →
    (spelt c s = false → exec c s = .next (settle s)) ∧
    (spelt c s = true →
      ((hopChecks a s).mine = false → (hopChecks a s).retry = false → exec c s = .next (settle (hopChecks a s).st)) ∧
      ((hopChecks a s).mine = false → (hopChecks a s).retry = true → exec c s = .next (settle (portLost a.port 4 (hopChecks a s).st))) ∧
      (serving s = false ∨ (portOf s a.port).up = false ∨ (portOf s a.port).loopDepth ≠ 0 → exec c s = .next (settle s)) ∧
      (serving s = true → (portOf s a.port).up = true → (portOf s a.port).loopDepth = 0 →
        let d := (a.hop.linkSeq - (portOf s a.port).rxSeq).toNat
        (crcOk a = false → exec c s = .next (settle (sendNak a.port (countPort a.port 0 s)))) ∧
        (crcOk a = true → 1 ≤ d → d ≤ 1023 → exec c s = .next (settle
          (if (portOf s a.port).nak then countPort a.port 1 s else sendNak a.port (countPort a.port 1 s)))) ∧
        (crcOk a = true → 1023 < d → exec c s = .next (settle s)) ∧
        (crcOk a = true → d = 0 → a.hop.ackValid = false →
          let u := pump a.port (grant a.port a.hop.crdVc.toNat a.hop.crdCount.toNat
            (portMod a.port (fun p => { p with rxSeq := p.rxSeq + 1, rxAny := true, nak := false }) s))
          let w := if creditKind a.hop.kind && a.hop.vc.toNat < 15 then
            wakeOpen a.port (portMod a.port (fun p => { p with held := vcSet p.held a.hop.vc.toNat (· + frameCredits a.hop) }) u) else u
          (hopOk a = false → exec c s = .next (settle (returnCredits a.port a.hop.vc (frameCredits a.hop) (countPort a.port 2 w)))) ∧
          (hopOk a = true → (portOf w a.port).nbrLost = false → routedKind a.hop.kind = true → sidDst a.route ≠ w.fab.id →
            exec c s = .next (settle (forward a (learn a w)))))))

/-- R202, R204, R205, R196; Table 07-7. What the model settles there is in log entries 71, 72. -/
def Obligations.ControlFramesAct : Prop :=
  ∀ (s v : State) (a : Arrival) (boot : W64) (port fl why : Byte), ReachesPackage s a v →
    (spelt (.beat a boot port fl) s = true →
      ((portOf v a.port).nbrBoot = none ∨ (portOf v a.port).nbrBoot = some boot ∨ (portOf v a.port).nbrLost = true) →
      (fl.getLsbD 1 = true → (portOf v a.port).nbrLost = true ∨ (portOf v a.port).lostSeen = true) →
      let p := portOf v a.port
      let back := fl.getLsbD 2 && p.nbrLost
      let wake := p.nbrLending && !fl.getLsbD 0 && p.lentOpen
      ∃ w, exec (.beat a boot port fl) s = .next (settle w) ∧ w = { v with ports := w.ports, out := w.out } ∧
        w.out = v.out ++ (if wake then [.reclaim (engineOfPort v a.port.val)] else []) ∧ (∀ q, q ≠ a.port → portOf w q = portOf v q) ∧
        portOf w a.port =
          { p with nbrBoot := some boot, lostSeen := fl.getLsbD 1, nbrLending := fl.getLsbD 0
                   nbrLost := p.nbrLost && !back, lostId := if back then none else p.lostId, nbr := if back then some (sidSrc a.route) else p.nbr
                   lentOpen := p.lentOpen && !wake, restOpen := p.restOpen || wake }) ∧
    (spelt (.beat a boot port fl) s = true →
      (portOf v a.port).nbrBoot ≠ none → (portOf v a.port).nbrBoot ≠ some boot → (portOf v a.port).nbrLost = false →
      (portOf v a.port).nbrLending = false → fl = 0 →
      exec (.beat a boot port fl) s = .next (settle (portMod a.port (fun p => { p with nbrLending := false })
        (portMod a.port (fun p => { p with lostSeen := false }) (portMod a.port (fun p => { p with nbrBoot := some boot })
          (neighbourLost a.port 5 v)))))) ∧
    (spelt (.beat a boot port fl) s = true →
      (portOf v a.port).nbrBoot = some boot → (portOf v a.port).nbrLost = false → (portOf v a.port).lostSeen = false →
      (portOf v a.port).nbrLending = false → fl = 2 →
      exec (.beat a boot port fl) s = .next (settle (portMod a.port (fun p => { p with nbrLending := false })
        (portMod a.port (fun p => { p with lostSeen := true })
          (neighbourLost a.port 6 (portMod a.port (fun p => { p with nbrBoot := some boot }) v)))))) ∧
    (spelt (.knell a boot why) s = true →
      exec (.knell a boot why) s = .next (settle (neighbourLost a.port 2 (portMod a.port (fun p => { p with nbrBoot := some boot }) v)))) ∧
    (∀ lost, spelt (.proxyKnell a lost why boot) s = true →
      let pkg := if lost = v.fab.id then sidSrc a.route else lost
      exec (.proxyKnell a lost why boot) s = .next (settle (if isLost v pkg then v else peerLoss pkg v))) ∧
    (∀ more, spelt (.credit a more) s = true → exec (.credit a more) s = .next (settle (pump a.port (grantMore a.port more v))))

/-- R22, R201 to R203, R208, R415, R238 to R240. What the model settles there is in log entries 73, 146, 170, 205. -/
def Obligations.PortEvents : Prop :=
  ∀ (s : State) (q : Fin 32),
    (serving s = true →
      exec (.neighbourLostSilence q) s = .next (if (portOf s q).up then settle (neighbourLost q 1 s) else s) ∧
      (∀ u, u = portMod q (fun p => { p with trained := false }) s →
        exec (.portDown q) s = .next (if (portOf s q).up then settle (portLost q 3 u) else u)) ∧
      exec (.beatSend q) s = .next (if s.ptb.beatPort.toNat = q.val ∧ s.ptb.beatCount ≠ 0
        then { s with ptb := { s.ptb with beatCount := s.ptb.beatCount - 1 } } else sendBeat q s) ∧
      (∀ a ok r, a.hop.kind = kLoop → loopOf s a.port = some r → exec (.loop a ok) s = .next (settle (sendLoop r
        (if (portOf s r).loopDepth ≠ 1 ∧ crcOk a = false then countPort a.port 0 s else if ok then s else countPort a.port 0x0E s)))) ∧
      (∀ x y, exec (.lendingCheck x y) s = .next (if lendingOn s && remoteWait s && s.pkg.power == .a0
        then eachPort (lendPort x y) allPorts s else s)) ∧
      (∀ l, ∃ m, exec (.budgetReport l) s = .next (emit (.budget m) s) ∧ m.length = l.length ∧
        ∀ k, k < l.length → m.getD k 0 = min (min (l.getD k 0) 220) (Config.ratedDraw k - Config.lentDraw k))) ∧
    (∀ a ok, a.hop.kind = kLoop → loopOf s a.port = none → exec (.loop a ok) s = .next (settle (arrive a true id s))) ∧
    (∀ cause, (portOf s q).nbrLost = true → neighbourLost q cause s = s) ∧
    (∀ cause pkg, (portOf s q).nbrLost = false → (portOf s q).nbr = some pkg → (portOf s q).up = true →
      let boot := (portOf s q).nbrBoot.getD 0
      let u := purgeForwards q (portMod q (fun p => { p with nbrLost := true, lostId := p.nbr, nbr := none }) s)
      let v := sendControl q kProxyKnell 0 0 (ctlRoute u pkg) (.proxyKnell pkg cause boot) (portMod q (addThrough [u.fab.id, pkg]) u)
      neighbourLost q cause s = peerLoss pkg (proxyKnells q pkg cause boot ((portOf s q).through.filter (fun d => d != pkg && d != v.fab.id)) v)) ∧
    (serving s = true → quiescing s = false → s.fab.go = true → (portOf s q).up = false → portPresent s q.val = true →
      ∃ u, exec (.portTrained q) s = .next (grantAll q u) ∧ (portOf u q).up = true ∧ (portOf u q).trained = true ∧ (portOf u q).txSeq = 0 ∧
        (portOf u q).rxSeq = 0 ∧ (portOf u q).replay = [] ∧ (portOf u q).credits = List.replicate 15 0 ∧ (portOf u q).nbr = none ∧
        (portOf u q).nbrLost = (portOf s q).nbrLost ∧ u = { s with ports := u.ports } ∧ ∀ r, r ≠ q → portOf u r = portOf s r) ∧
    (∀ h, exec (.bankRestoreDone q h) s = .next (portMod q (fun p => if h then { p with restOpen := false } else { p with restSeal := false }) s))

/-- R182, R183, R419. What the model settles there is in log entries 61, 62. -/
def Obligations.OpenExchangeAnswers : Prop :=
  ∀ (s v : State) (a : Arrival) (sid : W32) (job : W16) (ch : BitVec 128), ReachesPackage s a v →
    (spelt (.openReq a sid job ch) s = true → ∃ w, exec (.openReq a sid job ch) s = .next (settle (match senderOf w job sid with | some p => answerOpen p w | none => w)) ∧
      (let r : HeldReq := { job := job, sid := sid, challenge := ch }
       ((∃ q ∈ v.openReqs, q.job = job ∧ q.sid = sid) ∨ v.openReqs.length < 256 →
         w = { v with openReqs := v.openReqs.filter (fun q => !(q.job == job && q.sid == sid)) ++ [r] }) ∧
       ((∀ q ∈ v.openReqs, ¬ (q.job = job ∧ q.sid = sid)) → 256 ≤ v.openReqs.length → w = countPort a.port 0x0C v))) ∧
    (∀ (sel : BitVec 2) (epoch : W32) (relays : List (BitVec 12)) (ok : Bool), spelt (.openAck a sid job sel epoch ch relays ok) s = true →
      (receiverOf v job sid ch = none → exec (.openAck a sid job sel epoch ch relays ok) s = .next (settle (countPort a.port 0x0B v))) ∧
      (∀ p inn peer kid out sd e0 sk, receiverOf v job sid ch = some p → p.act = .openRecv inn peer kid ch out sd false e0 sk →
        (ok = false → ∃ i : HaltInfo, exec (.openAck a sid job sel epoch ch relays ok) s = .next (settle (gongHalt i v)) ∧ i.cause = 4 ∧
          i.job = job ∧ i.sid = sid ∧ i.unit = BitVec.ofNat 16 a.port.val ∧ i.kid = kid) ∧
        (ok = true → ∃ (u : State) (t : RecvSt), exec (.openAck a sid job sel epoch ch relays ok) s = .next (settle (retryWaits u)) ∧
          u.recvs.getLast? = some t ∧ t.job = jobOf v p.fn ∧ t.sid = inn ∧ t.fn = p.fn ∧ t.e0 = epoch ∧ t.epoch = epoch ∧ t.index = 0 ∧
          t.next = none ∧ t.relays = relays ∧ (jobOf v p.fn, inn) ∉ u.gone)))

/-- R259, Table 09-21, R271; R252, R267. What the model settles there is in log entries 148, 150. -/
def Obligations.KeeperTakesHomeAnswers : Prop :=
  ∀ (s : State),
    (∀ (v : State) (a : Arrival) (h : HomeHdr) (r : HomeResp), ReachesPackage s a v → respSpelt a h r = true →
      let w := returnCredits a.port a.hop.vc (frameCredits a.hop) v
      (mapFind w.exch h.xid.toNat = none → exec (.homeResponse a h r) s = .next (settle (countPkg 0x12 w))) ∧
      (∀ x, mapFind w.exch h.xid.toNat = some x →
        (h.hop ≠ x.op ||| 0x80 ∨ sidSrc a.route ≠ x.home ∨ x.held = true → exec (.homeResponse a h r) s = .next (settle (countPkg 0x12 w))) ∧
        (h.hop = x.op ||| 0x80 → sidSrc a.route = x.home → x.held = false →
          ∃ u y, exec (.homeResponse a h r) s = .next (settle (poolPump (dropLeases x.region y))) ∧ u = countPkgN 0x11 r.ceCount.toNat w ∧
            (h.hstat = 0 → y = answered h.xid x r u) ∧ (h.hstat ≠ 0 → y = Machine.refused h.xid x h.hstat u)))) ∧
    (serving s = true →
      (∀ xid, mapFind s.exch xid.toNat = none → exec (.homeExchangeTimeout xid) s = .next s) ∧
      (∀ xid x, mapFind s.exch xid.toNat = some x →
        exec (.homeExchangeTimeout xid) s = .next (settle (poolPump (dropLeases x.region (noAnswer xid x s))))) ∧
      (∀ job rid level index, regionKeyOf s job rid = none →
        exec (.dirtyNodeWriteback job rid level index) s = .next s ∧ exec (.overflowSweep job rid level index) s = .next s) ∧
      (∀ job rid level index k, regionKeyOf s job rid = some k →
        exec (.dirtyNodeWriteback job rid level index) s = .next (settle (poolPump (writeBack k level index s))) ∧
        exec (.overflowSweep job rid level index) s =
          .next (settle (poolPump (sweepMod k level index (fun w => { w with started := true }) s)))))

/-- R306, R307, R309 to R314, R316, R321. What the model settles there is in log entries 102 to 106. -/
def Obligations.QuiesceResetAndReplay : Prop :=
  (∀ (s : State) (h : CmdHdr) (p : InProg),
    let f := hdrTarget h
    (Admitted s (quiesceVfRow h) p → exec (.quiesceVf h) s = .next (settle (goOn p {} .quiesce
      (fnMod f (fun x => { x with quiesced := true, quiesceSet := (progOf s f).map (·.idx) }) s)))) ∧
    (Admitted s (resetVfRow h) p →
      let w := resetUnits f (abortCmds (s.prog.filter (endedByReset f)) s)
      (otherResets s f p = [] → privileged s f = false → exec (.resetVf h) s = .next (settle (actReset p f w))) ∧
      (otherResets s f p = [] → privileged s f = true →
        let u := ringMod f (fun r => { r with closing := true }) (quiesceVf f w)
        let v := squashReads [f] (abortCmds ((progOf u f).filter awaitsSignal) u)
        exec (.resetVf h) s = .next (settle (goOn p (drainHold v [f] (v.prog.filter (fun q => q.fn == f || (q.opcode == 0x58 && q.target == f))))
          (.reset f 0) v))) ∧
      (otherResets s f p ≠ [] → exec (.resetVf h) s = .next (settle (goOn p { cmds := otherResets s f p } (.reset f 9) s)))) ∧
    (∀ env, Admitted s (resetPackageRow h) p →
      let fs := privilegedFns s
      let u := (listedFns s).foldl (fun u g => resetUnits g u) (abortCmds (s.prog.filter (fun q =>
        q.fn == .pf && (q.opcode == 0x50 || q.opcode == 0x51 || q.opcode == 0x53 || q.opcode == 0x59))) s)
      let v := squashReads fs (abortCmds (u.prog.filter (fun q => fs.contains q.fn && awaitsSignal q)) u)
      exec (.resetPackage h env) s = .next (settle (goOn p (drainHold v fs (v.prog.filter (fun q => fs.contains q.fn && q.opcode != 0x52)))
        (.resetPackage env) v))) ∧
    (∀ n (l : List ReplayDesc), Admitted s (replayContextRow h n (.ok l)) p →
      (h.ctx = 0xFFFF ∧ (fnOf s f).frozen = true → exec (.replayContext h n (.ok l)) s = .next (settle
        (goOn p { boundary := true } (.replay 0xFFFF [] 0 0) { s with staged := s.staged ++ [.freeze f.key false] }))) ∧
      (¬ (h.ctx = 0xFFFF ∧ (fnOf s f).frozen = true) → exec (.replayContext h n (.ok l)) s = .next (settle
        (runReplay p f h.ctx n (if n = 0 then [] else l.take n.toNat) 0 (goOn p {} (.replay h.ctx [] n 0) s)))))) ∧
  (∀ (q : InProg) (u : State), actQuiesce q u = if vfIdle u q.target then complete q stOk 0 0 u else u) ∧
  (∀ (q : InProg) (f : Fn) (u : State),
    actResetVf q f 9 u = beginReset q f u ∧ actResetVf q f 0 u = actReset q f u ∧
    (let v := goOn q { signal := true } (.reset f 1) u
     actReset q f u = startCleanup f (some (q.fn, q.idx)) (if (fnOf v f).tdi.state = .locked ∨ (fnOf v f).tdi.state = .run
      then fnMod f (fun x => { x with tdi := { x.tdi with state := .error, nonce := none } }) v else v))) ∧
  (∀ (q : InProg) (env : StartEnv) (u : State), actResetPackage q env u =
    emit .scrubAll (start true env (zeroiseAll (tdisError (complete q stOk 0 0 (flushFns (listedFns u) (knellAll 0x03 u))))))) ∧
  (∀ (q : InProg) (f : Fn) (ctx : W16) (n : W32) (d : ReplayDesc) (l : List ReplayDesc) (k : Nat) (v : State),
    runReplay q f ctx n [] k v = finishReplay q f ctx n v ∧
    (∀ st x, descFault v f ctx d = some (st, x) →
      runReplay q f ctx n (d :: l) k v = complete q st x (BitVec.ofNat 128 k) { v with replayEngine := none }) ∧
    (descFault v f ctx d = none → rawByte d.raw 0 = 0x0F → runReplay q f ctx n (d :: l) k v = runReplay q f ctx n l (k + 1) v) ∧
    (∀ e b, descFault v f ctx d = none → rawByte d.raw 0 ≠ 0x0F → bulkFor v f ctx (descBctx d) = some (e, b) →
      runReplay q f ctx n (d :: l) k v = descStart q e b d (.replay ctx (d :: l) n (BitVec.ofNat 32 k)) v)) ∧
  (∀ (q : InProg) (ctx : W16) (d : ReplayDesc) (l : List ReplayDesc) (n k : W32) (r : BulkDone) (v : State), q.act = .replay ctx (d :: l) n k →
    let x := descFinish q.target d r v
    (x.1 = stOk → replayDone q r v = runReplay q q.target ctx n l (k.toNat + 1) x.2.2) ∧
    (x.1 ≠ stOk → replayDone q r v = complete q x.1 0 (BitVec.ofNat 128 k.toNat) { x.2.2 with replayEngine := none })) ∧
  (∀ (q : InProg) (f : Fn) (ctx : W16) (n : W32) (u : State),
    let v := { u with replayEngine := none }
    (ctx ≠ 0xFFFF → finishReplay q f ctx n u = complete q stOk 0 (n.setWidth 128) (endQuiesce f (liveAgain (suspendedKids v f ctx)
      (fnMod f (fun x => { x with ctxs := mapMod {} x.ctxs ctx.toNat (fun c => { c with suspect := false }) }) v)))) ∧
    (ctx = 0xFFFF → finishReplay q f ctx n u = complete q stOk 0 (n.setWidth 128) (endQuiesce f (fnMod f (fun x => { x with frozen := false }) v))))

/-- R318 to R321, R324 to R327. What the model settles there is in log entries 108 to 111, 172. -/
def Obligations.MigrationCommands : Prop :=
  (∀ (s : State) (h : CmdHdr) (p : InProg) (addr len : W64),
    let f := p.target
    let vf := BitVec.ofNat 16 f.key
    (∀ m, Admitted s (migrateKeyRow h addr len (.ok m)) p →
      let t := exec (.migrateKey h addr len (.ok m)) s
      let no := fun (st : W16) (d : W32) (v : State) => settle (goOn p { kxe := true } (.done st d 0) v)
      (msgKind m = 0 →
        let dst := BitVec.ofNat 64 (msgLe m 16 8)
        t = .next (settle (goOn p { dma := true } (.done stOk 0 0)
          (sendHost .pf addr (.migMessage (migOffer s.otp.deviceId dst vf (drawn s)))
            (fnMod f (fun x => { x with nonceS := some (drawn s), migPeer := some (s.otp.deviceId, dst, vf) }) (bumpDraw s)))))) ∧
      (∀ k, msgKind m = 1 → s.ks.identity = some k →
        t = .next (settle (goOn p { kxe := true } (.migrateKey 0 addr (some (.migMessage (migAccept s k m vf)))) s))) ∧
      (∀ st d, msgKind m = 2 → acceptCheck s f m = some (st, d) → t = .next (no st d s)) ∧
      (msgKind m = 2 → acceptCheck s f m = none →
        (encapsulate s m = none → t = .next (no stAuthFailed 0 s)) ∧
        (∀ ct eph key, encapsulate s m = some (ct, eph, key) → t = .next (settle (placeMigration p key addr
          (some (.migMessage (migEncap m ct eph (migConfirm m key)))) (bumpDraw (bumpDraw (bumpDraw s))))))) ∧
      (msgKind m = 3 →
        (∀ key, decapsulate s m = some key → t = .next (settle (placeMigration p key addr none s))) ∧
        (decapsulate s m = none → t = .next (no stAuthFailed 0 s)))) ∧
    (Admitted s (migrateFreezeRow h) p → exec (.migrateFreeze h) s = .next (settle (goOn p {} (.freeze 0) (quiesceVf (hdrTarget h) s)))) ∧
    (∀ kid cursor, Admitted s (migrateSaveRow h kid addr len cursor) p →
      let one := cursorSection cursor == 1
      let v := saveOf s f (!one && cursorPos cursor == 0)
      let todo := if one then (if v.1.header.isSome then [] else [(1, 0)]) ++ [(3, cursorPos cursor)] else v.1.left.getD (imageChunks v.2 f v.1)
      let w := writeChunks f (keyOf v.2 kid) addr todo 0 len.toNat v.1 v.2
      let next := if one then (opened w.2.2.2).toNat else if w.2.1.isEmpty then cursorEnd.toNat else w.2.2.1.pos + w.1
      let u := fnMod f (fun x => { x with save := some (if one then w.2.2.1 else { w.2.2.1 with left := some w.2.1, pos := w.2.2.1.pos + w.1 }) })
        (if one then bumpOpen w.2.2.2 else w.2.2.2)
      exec (.migrateSave h kid addr len cursor) s = .next (settle (if w.1 = 0
        then complete p stOk 0 (resAt 0 w.1 ||| resAt 8 next) u else goOn p { dma := true } (.done stOk 0 (resAt 0 w.1 ||| resAt 8 next)) u))) ∧
    (∀ kid cursor l, Admitted s (migrateRestoreRow h kid cursor (.ok l)) p →
      let mig := if kid = 0 then none else some (keyOf s kid)
      let only := if cursorSection cursor = 1 then some (cursorPos cursor) else none
      let y := applyChunks (segCount s f) only mig (migrationWrap s) (fnOf s f).restore l
      let w := writeSegments f (appliedSegments (segCount s f) only mig (migrationWrap s) (fnOf s f).restore l) s
      (y = none → exec (.migrateRestore h kid cursor (.ok l)) s = .next (settle (complete p stAuthFailed 0 0 (tdiError false f w)))) ∧
      (∀ r, y = some (some r, true) →
        exec (.migrateRestore h kid cursor (.ok l)) s = .next (settle (complete p stOk 0 (cursorEnd.setWidth 128) (endRestore f kid r w)))) ∧
      (∀ r, y = some (some r, false) → only = none → exec (.migrateRestore h kid cursor (.ok l)) s =
        .next (settle (complete p stOk 0 (resAt 0 r.pos) (fnMod f (fun x => { x with restore := some r }) w))))) ∧
    (Admitted s (dirtyLogStartRow h addr len) p →
      let log : DirtyLog := { bufAddr := addr, bufLen := len, activeB := false, pagesA := [], pagesB := [], overflow := false }
      exec (.dirtyLogStart h addr len) s = .next (settle (complete p stOk 0 0 (fnMod f (fun x => { x with dirty := some log })
        { s with staged := s.staged ++ [.clearMarks f.key] })))) ∧
    (Admitted s (dirtyLogStopRow h) p →
      exec (.dirtyLogStop h) s = .next (settle (complete p stOk 0 0 (fnMod f (fun x => { x with dirty := none }) s)))) ∧
    (∀ d, Admitted s (dirtyLogSyncRow h addr len) p → (fnOf s f).dirty = some d →
      exec (.dirtyLogSync h addr len) s = .next (settle (goOn p { boundary := true }
        (.dirtySync addr (if d.activeB then d.pagesB else d.pagesA).length 0)
        { (fnMod f (fun x => { x with dirty := some (if d.activeB then { d with activeB := false, pagesA := [] }
            else { d with activeB := true, pagesB := [] }) }) s) with staged := s.staged ++ [.takeMarks f.key (p.fn, p.idx)] })))) ∧
  (∀ (q : InProg) (kid : W16) (addr : W64) (u : State),
    let v := if kid = 0 then u else activateKid kid (fnMod q.target (fun x => { x with migKids := x.migKids ++ [kid] }) u)
    actMigrateKey q kid addr none u = complete q stOk 0 (kid.setWidth 128) v ∧
    ∀ d, actMigrateKey q kid addr (some d) u = goOn q { dma := true } (.done stOk 0 (kid.setWidth 128)) (sendHost .pf addr d v)) ∧
  (∀ (q : InProg) (u : State),
    (vfIdle u q.target = false → actFreezeVf q 0 u = u) ∧
    (vfIdle u q.target = true →
      let v := fnMod q.target (fun x => { x with frozen := true }) u
      let kids := (v.sends.filter (fun t => t.fn == q.target)).flatMap (fun t => t.kid :: t.next.toList)
        ++ (v.recvs.filter (fun t => t.fn == q.target)).flatMap (fun t => t.kid :: t.next.toList)
      let w := closeStreams (fun g _ => g == q.target) v
      actFreezeVf q 0 u = goOn q { boundary := true, kids := kids } (.freeze 1) { w with staged := w.staged ++ [.freeze q.target.key true] }) ∧
    actFreezeVf q 1 u = complete q stOk 0 0 (freezeViews q.target u) ∧
    (∀ bits d, (fnOf u q.target).dirty = some d → actDirtySync q bits 1 u =
      if d.overflow then complete q stLimits 0x604 (BitVec.ofNat 128 bits) (fnMod q.target (fun x => { x with dirty := some { d with overflow := false } }) u)
      else complete q stOk 0 (BitVec.ofNat 128 bits) u) ∧
    (∀ fn addr bits k, findProg u q.fn q.idx = some q → q.act = .dirtySync addr bits k →
      let m := (fnOf u (fnAt fn)).marks
      let v := fnMod (fnAt fn) (fun x => { x with marks := [] }) u
      takeMarks fn (q.fn, q.idx) u = modProg q.fn q.idx
        (fun x => { x with hold := { x.hold with boundary := false, dma := true }, act := .dirtySync addr (bits + m.length) 1 })
        (sendHost .pf addr (.segmentMap ((segCount v (fnAt fn) + 7) / 8) m) v)))

/-- R357, R359, R360, R362, R363. What the model settles there is in log entries 86, 98, 114, 173, 182, 199. -/
def Obligations.TelemetryAndTraceCommands : Prop :=
  (∀ (s : State) (h : CmdHdr) (p : InProg) (us : W32), Admitted s (telemWindowRow h us) p →
    ∃ n, exec (.telemWindow h us) s = .next (settle (complete p stOk 0 (BitVec.ofNat 128 n)
        (viewMod (viewFor h) (fun w => { w with pending := some n }) s))) ∧
      ((∃ v, h.fn = .vf v) ∨ hasRight s 14 = true → n = us.toNat) ∧
      (h.fn = .pf → hasRight s 14 = false → ∃ k, n = 2 ^ k * 1000 ∧ n ≤ us.toNat ∧ us.toNat < 2 * n)) ∧
  (∀ (s : State) (h : CmdHdr) (p : InProg) (addr : W64) (len : W32) (bad : List Nat),
    Admitted s (telemReadRow h addr len) p →
    ∃ (d : HostData) (n : Nat) (u : State), exec (.telemRead h addr len bad) s =
        .next (settle (goOn p { dma := true } (.done stOk 0 (BitVec.ofNat 128 n)) (sendHost h.fn addr d u))) ∧
      recordBytes (viewFor h) ≤ n ∧ n ≤ len.toNat ∧
      u = { s with tabor := { s.tabor with trace := u.tabor.trace } } ∧
      (let t := mapGet {} s.tabor.trace (sliceFor h s).key
       let t' := mapGet {} u.tabor.trace (sliceFor h s).key
       t'.queue = t.queue ∧ t'.lost = 0 ∧
       (bad = [] → ∃ recs, t.blocks.flatMap (·.recs) = recs ++ t'.blocks.flatMap (·.recs) ∧ n = recordBytes (viewFor h) + 32 * recs.length))) ∧
  (∀ (s : State) (h : CmdHdr) (p : InProg) (share gib : Byte), Admitted s (traceConfigRow h share gib) p →
    ∃ u, exec (.traceConfig h share gib) s = .next (settle (complete p stOk 0 0 u)) ∧ u.tabor.share = share.toNat ∧ u.tabor.gib = gib.toNat ∧
      (gib.toNat = s.tabor.gib → u.tabor.trace = s.tabor.trace) ∧
      (gib.toNat ≠ s.tabor.gib → ∀ e ∈ u.tabor.trace, e.2.queue = [] ∧ e.2.blocks = []) ∧
      (s.tabor.gib ≤ gib.toNat → u = { s with tabor := u.tabor })) ∧
  (∀ (s : State) (f : Fn) (ctx : W16), serving s = true →
    let mine := fun (c : CmdSet) => c.fn == f.key && c.ctx == ctx
    (∀ c, s.tabor.sets.find? mine = some c → ∃ u, exec (.commandStart f ctx) s = .next u ∧
      u.out = s.out ++ [.snapshot f ctx c.counts c.sat false] ∧ (∀ x ∈ u.tabor.sets, mine x = true → x.counts = [] ∧ x.sat = false) ∧
      u.tabor.sets.length = s.tabor.sets.length) ∧
    (s.tabor.sets.find? mine = none → s.tabor.sets.length < 1024 → ∃ u, exec (.commandStart f ctx) s = .next u ∧
      u.out = s.out ++ [.snapshot f ctx [] false false] ∧ u.tabor.sets.length = s.tabor.sets.length + 1) ∧
    (s.tabor.sets.find? mine = none → 1024 ≤ s.tabor.sets.length →
      exec (.commandStart f ctx) s = .next (emit (.snapshot f ctx [] false true) s))) ∧
  (∀ (s : State) (f : Fn), serving s = true →
    ((mapGet {} s.tabor.trace f.key).queue = [] → exec (.traceBlockSeal f) s = .next s) ∧
    ((mapGet {} s.tabor.trace f.key).queue ≠ [] →
      let w := traceSlot f s
      let t := mapGet {} w.tabor.trace f.key
      ∃ u b, exec (.traceBlockSeal f) s = .next u ∧ b.seq = t.seq ∧ b.recs = t.queue.take 7 ∧
        b.image = traceImage (traceKey w f) f t.seq b.recs ∧
        u.out = w.out ++ [.traceWrite (sliceBase w f + 256 * (t.seq % max 1 (sliceBlocks w f))) b.image] ∧
        (let t' := mapGet {} u.tabor.trace f.key
         t'.blocks.getLast? = some b ∧ t'.queue = t.queue.drop 7 ∧ t'.seq = t.seq + 1 ∧
         (t.blocks.length < sliceBlocks w f → t'.blocks = t.blocks ++ [b] ∧ t'.lost = t.lost))))

/-- R356, R357. What the model settles there is in log entries 20, 147. -/
def Obligations.WindowsCountEveryEvent : Prop :=
  (∀ (s : State) (f : Fn) (ctx : W16) (ty fm units tick : Nat), serving s = true →
    (6 < ty ∨ 11 < fm → exec (.taborEvent f ctx ty fm units tick) s = .next s) ∧
    (ty ≤ 6 → fm ≤ 11 → ∃ u l, exec (.taborEvent f ctx ty fm units tick) s = .next (addSet f ctx (12 * ty + fm) units u) ∧
      u = { s with tabor := { s.tabor with events := l } } ∧
      l.Perm ({ fn := f.key, ctx := ctx, counter := 12 * ty + fm, units := units, tick := tick } :: s.tabor.events) ∧
      (s.tabor.events.Pairwise (fun a b => a.tick ≤ b.tick) → l.Pairwise (fun a b => a.tick ≤ b.tick)))) ∧
  (∀ (s : State) (v : ViewId), serving s = true → viewRuns s v = true →
    let w := viewOf s v
    let e := endTick w
    ∃ (u m : State), exec (.windowEnd v) s = .next u ∧ m = applyBefore (viewFn v) (some e) s ∧
      m.tabor.events = s.tabor.events.filter (fun x => !(x.fn == viewFn v && decide (x.tick < e))) ∧
      u.tabor.events = m.tabor.events ∧ u.tabor.counts = m.tabor.counts ∧
      (viewOf u v).closed = some (w.index, w.t0 + w.index * windowTicks w.window, w.window, latchDiff w.start (latch m v)) ∧
      (viewOf u v).start = latch m v ∧
      (w.pending = none → (viewOf u v).index = w.index + 1 ∧ (viewOf u v).t0 = w.t0 ∧ (viewOf u v).window = w.window) ∧
      (∀ us, w.pending = some us → (viewOf u v).index = 0 ∧ (viewOf u v).t0 = e ∧ (viewOf u v).window = us ∧ (viewOf u v).pending = none)) ∧
  (∀ (s : State) (v : ViewId), viewRuns s v = false → exec (.windowEnd v) s = .next s) ∧
  (∀ (a b : FMap Nat) (k : Nat), mapGet 0 (latchDiff a b) k = (mapGet 0 b k + 2 ^ 48 - mapGet 0 a k) % 2 ^ 48) ∧
  (∀ us : Nat, windowTicks us = us * 1050)

/-- R347 to R352. What the model settles there is in log entries 96, 97. -/
def Obligations.DebugRights : Prop :=
  ∀ (s : State) (h : CmdHdr) (p : InProg) (len : W32) (c : Cert),
    (Admitted s (debugGrantRow h len (.ok c)) p →
      ∃ kid u, reserveInt s = (kid, u) ∧ exec (.debugGrant h len (.ok c)) s = .next (settle (goOn p { kxe := true } (.debugGrant c kid) u))) ∧
    (∀ q kid u, certAuth u c = false → actGrant q c kid u = complete q stAuthFailed 0 0 (releaseKid kid u) ∧ (releaseKid kid u).grant = u.grant) ∧
    (∀ q kid u, certAuth u c = true → ∃ w, actGrant q c kid u = complete q stOk 0 ((rightsInForce w).setWidth 128) w ∧
      w = applyGrant c kid u) ∧
    (Admitted s (debugRevokeRow h) p →
      (s.grant = none → exec (.debugRevoke h) s = .next (settle (complete p stOk 0 0 s))) ∧
      (∀ g, s.grant = some g → exec (.debugRevoke h) s = .next (settle (goOn p { kids := [g.kid] } (.done stOk 0 0) (revokeGrant g s))) ∧
        (revokeGrant g s).grant = none ∧ (endPerturb { s with grant := none }).ptb = {})) ∧
    (∀ n : Nat, lowestRight (c.rights &&& ~~~(grantable (lcState s) c.issuer)) = some n →
      (stNotPermitted, BitVec.ofNat 32 n) ∈ (certPermitted s c).filterMap id ∧ c.rights.getLsbD n = true ∧
      (grantable (lcState s) c.issuer).getLsbD n = false)

/-- R84, R86, R95, R97, R50. What the model settles there is in log entries 90, 92, 94, 95, 186. -/
def Obligations.LifeCycleCommands : Prop :=
  ∀ (s : State) (h : CmdHdr) (p : InProg) (addr : W64) (len : W32) (env : StartEnv),
    (Admitted s (lcChallengeRow h addr) p → ∃ u, exec (.lcChallenge h addr) s =
        .next (settle (goOn p { dma := true } (.done stOk 0 0) (sendHost .pf addr (.nonce (drawn s)) u))) ∧
      u = { s with aon := { s.aon with nonce := some (drawn s) }, draws := s.draws + 1 }) ∧
    (∀ r, Admitted s (lcTransitionRow h len (.ok r)) p → exec (.lcTransition h len (.ok r) env) s =
      .next (settle (goOn p { kxe := true } (.lcTransition r env (if lcAuth s r then 0 else 9)) { s with aon := { s.aon with nonce := none } }))) ∧
    (∀ q r u, actLc q r env 9 u = complete q stAuthFailed 0 0 u) ∧
    (∀ q r u, r.kind.toNat ≤ 4 → actLc q r env 0 u = lcEnd r env (complete q stOk 0 (lcResult (lcBegin r u)) (lcBegin r u))) ∧
    (∀ q r u, r.kind = 2 → lcEnd r env (complete q stOk 0 (lcResult u) u) = complete q stOk 0 (lcResult u) u) ∧
    (∀ q r u, 4 < r.kind.toNat → ∃ n, actLc q r env 0 u = goOn q { flash := true } (.lcTransition r env n) (lcBegin r u)) ∧
    (Admitted s (lcStatusRow h addr len) p → exec (.lcStatus h addr len) s =
      .next (settle (goOn p { dma := true } (.done stOk 0 (resAt 0 (lcState s).toNat ||| resAt 1 s.aon.progress.toNat |||
        resAt 2 (BitVec.ofNat 8 (tokensLeft s)).toNat)) (sendHost .pf addr (.lcStatus (lcStatusOf s)) s)))) ∧
    (∀ item it, Admitted s (ownerStoreRow h item len (.ok it)) p → exec (.ownerStore h item len (.ok it)) s =
      .next (settle (if itemOk s it then emit .flashWrite (goOn p { flash := true } (.ownerStore it) s) else complete p stAuthFailed 0 0 s))) ∧
    (∀ q x u, actOwnerStore q (.policy x) u = complete q stOk 0 (x.seq.setWidth 128) { u with flash := { u.flash with policy := some x } }) ∧
    (∀ k, Admitted s (setProfileRow h k) p → exec (.setProfile h k) s =
      .next (settle (complete p stOk 0 (k.setWidth 128) { s with aon := { s.aon with pendingProfile := some (k.setWidth 2) } }))) ∧
    (serving s = true → ∀ f i,
      (∀ q it, findProg s f i = some q → q.act = .ownerStore it → exec (.flashWriteDone (.ownerStore f i) env) s =
        .next (settle (modProg f i (fun q => match q.act with
          | .ownerStore _ => { q with hold := { q.hold with flash := false } }
          | _ => q) s))) ∧
      exec (.kxeOperationDone (.command f i)) s = .next (if s.prog.any (fun q => q.fn == f && q.idx == i && q.hold.kxe)
        then settle (modProg f i (fun q => { q with hold := { q.hold with kxe := false } }) s) else lateDone f i s)) ∧
    (serving s = true → ∃ u, exec (.flashWriteDone .transition env) s = .next (settle u) ∧ u = { s with prog := u.prog } ∧
      u.prog.length = s.prog.length ∧ ∀ (i : Nat) (q x : InProg), s.prog[i]? = some q → u.prog[i]? = some x →
        ((∃ r e n, q.act = .lcTransition r e n) → q.hold.flash = true →
          x.hold = { q.hold with flash := false } ∧ ∃ r e n, q.act = .lcTransition r e n ∧ x.act = .lcTransition r env n) ∧
        (¬ (∃ r e n, q.act = .lcTransition r e n) ∨ q.hold.flash = false → x = q))

/-- R332, R336, R338, R339, R340, R342, R343. What the model settles there is in log entries 99 to 101, 197. -/
def Obligations.BulkContextLife : Prop :=
  ∀ (s : State) (h : CmdHdr) (p : InProg) (bctx : W32),
    let e := bctx.toNat / 16 % 2
    let turn := fun (wait : Act) (t : State) => settle (if Config.bulkQueue ≤ engineLoad s e then goOn p { room := some e } wait s
      else if bulkAhead s (p.fn, p.idx) bctx = [] then t else goOn p { cmds := bulkAhead s (p.fn, p.idx) bctx } wait s)
    (∀ engine mode kid, Admitted s (bulkCtxOpenRow h engine mode kid) p →
      ∃ e k b u, exec (.bulkCtxOpen h engine mode kid) s = .next (settle (complete p stOk 0 ((bctxOf (mapGet 0 s.bulkReuse k) k).setWidth 128) u)) ∧
        bulkPresent s e = true ∧ 16 * e ≤ k ∧ k < 16 * e + 16 ∧ mapFind s.bulk k = none ∧ mapFind u.bulk k = some b ∧
        (∀ j, j ≠ k → mapFind u.bulk j = mapFind s.bulk j) ∧ b.vf = p.fn ∧ b.mode = mode ∧ b.ctx = p.ctx ∧ b.ctxGen = p.ctxGen ∧ b.kid = kid ∧
        b.key = none ∧ (kid ≠ 0 ∨ mode = 4 ∨ mode = 5 → b.state = .idle) ∧ (kid = 0 → mode ≠ 4 → mode ≠ 5 → b.state = .lost)) ∧
    (∀ op aux, Admitted s (bulkOpRow h bctx op aux) p → ∃ k b, bulkFor s p.fn p.ctx bctx = some (k, b) ∧
      exec (.bulkOp h bctx op aux) s = .next (turn (.bulkOp bctx op aux true) (startOp p k b bctx op aux s))) ∧
    (∀ dst fl, Admitted s (bulkCtxSaveRow h bctx dst fl) p → ∃ k b, bulkFor s p.fn p.ctx bctx = some (k, b) ∧
      exec (.bulkCtxSave h bctx dst fl) s = .next (turn (.bulkSave bctx dst (fl.getLsbD 2) true)
        (toEngine p k b (.bulkSave bctx dst (fl.getLsbD 2) false) s))) ∧
    (∀ src fl rec, Admitted s (bulkCtxRestoreRow h bctx src fl rec) p → ∃ k b, bulkFor s p.fn p.ctx bctx = some (k, b) ∧
      exec (.bulkCtxRestore h bctx src fl rec) s = .next (turn (.bulkRestore bctx (fl.getLsbD 2) rec true)
        (startRestore p k b bctx (fl.getLsbD 2) rec s))) ∧
    (Admitted s (bulkCtxCloseRow h bctx) p → ∃ k b, bulkFor s p.fn p.ctx bctx = some (k, b) ∧
      exec (.bulkCtxClose h bctx) s = .next (turn (.bulkClose bctx) (complete p stOk 0 0 (closeBulk k s)))) ∧
    (serving s = true → ∀ f i (r : BulkDone) q, findProg s f i = some q →
      (q.hold.engine = false → exec (.bulkRequestDone f i r) s = .next (lateDone f i s)) ∧
      (∀ b op aux c, q.hold.engine = true → q.act = .bulkOp b op aux false → mapFind s.bulk (b.toNat % 65536) = some c →
        (s.replayEngine = some (b.toNat / 16 % 2) → exec (.bulkRequestDone f i r) s = .next (settle s)) ∧
        (s.replayEngine ≠ some (b.toNat / 16 % 2) →
        ∃ u st n, exec (.bulkRequestDone f i r) s = .next (settle (complete q st 0 n u)) ∧
          (r.dmaOk = false → st = stDmaError ∧ n = BitVec.ofNat 128 (min r.data.length op.length.toNat)) ∧
          (r.dmaOk = true → n = op.length.setWidth 128 ∧ st = (if opRejects s c op aux r then stAuthFailed else stOk)) ∧
          (hashMode c.mode = false → opBytes op r ≠ 0 → ∃ v o, Output.hostWrite v op.dst (.plain (opOut s c op r)) o ∈ u.out) ∧
          (r.dmaOk = true → writesAux op = true → ∃ v o, Output.hostWrite v (op.aux + 32) (.digest (opDigest s c op r)) o ∈ u.out) ∧
          (∃ d, mapFind u.bulk (b.toNat % 65536) = some d ∧ d.kid = c.kid ∧ d.key = c.key ∧
            (opFinal op.flags = true → d.state = .idle ∧ d.chain = {}) ∧
            (opFinal op.flags = false → d.state = c.state ∧ d.chain.msgBytes = c.chain.msgBytes + BitVec.ofNat 64 (opBytes op r) ∧
              d.chain.iv = c.chain.iv)))) ∧
      (∀ b dst w c, q.hold.engine = true → q.act = .bulkSave b dst w false → s.replayEngine ≠ some (b.toNat / 16 % 2) →
        mapFind s.bulk (b.toNat % 65536) = some c → exec (.bulkRequestDone f i r) s = .next (settle (if r.dmaOk
          then complete q stOk 0 384 (sendSpace q.fn dst (.bulkRecord (bulkRecord s q.fn c w)) s) else complete q stDmaError 0 0 s))) ∧
      (∀ b w x c, q.hold.engine = true → q.act = .bulkRestore b w (.ok x) false → s.replayEngine ≠ some (b.toNat / 16 % 2) →
        mapFind s.bulk (b.toNat % 65536) = some c →
        (r.dmaOk = false → exec (.bulkRequestDone f i r) s = .next (settle (complete q stDmaError 0 0 s))) ∧
        (r.dmaOk = true → ∃ u, exec (.bulkRequestDone f i r) s = .next (settle (complete q stOk 0 0 u)) ∧
          mapFind u.bulk (b.toNat % 65536) = some (restored s q.fn c w x))))

/-- R67; the premises say that the command reaches the check in the order of Table 03-21. -/
def Obligations.SelfTestNeedsAFactoryState : Prop :=
  ∀ (s : State) (h : CmdHdr) (p : InProg) (u : W16) (pt : W32) (sd : W64) (r : Option TestRun),
    serving s = true → dispatched s (selfTestRow h u pt sd r) = some p → runningTest s h = none →
    (lcState s = lcProvisioned ∨ lcState s = lcDeployed) → pt ≠ 0 ∨ sd ≠ 0 →
    (∀ st d, (testChecks u pt sd r s).first s h p = some (st, d) → st ≠ stMalformed) →
    exec (.selfTest h u pt sd r) s = .next (settle (complete p stNotPermitted 0 0 s))

/-- R387 to R394. What the model settles there is in log entries 115, 193. -/
def Obligations.SelfTestRuns : Prop :=
  ∀ (s : State) (h : CmdHdr) (u : W16) (pt : W32) (sd : W64),
    let units := (namedUnits s u).map (BitVec.ofNat 16)
    (∀ p run, Admitted s (selfTestRow h u pt sd run) p → runningTest s h = none →
      ∃ w, exec (.selfTest h u pt sd run) s = .next (settle (match run with
          | none => goOn p { engine := true } (.selfTest units (seedOf sd) (patternsOf pt)) w
          | some r => endTest units (seedOf sd) (patternsOf pt) r p w)) ∧
        w.pkg.testing = s.pkg.testing ++ units ∧ w.pkg.bad = s.pkg.bad ∧
        ∀ x ∈ units, ∀ e, unitCache x.toNat = some e → mapGet [] w.ks.caches e = []) ∧
    (∀ q l seed n r, serving s = true → runningTest s h = some (q, l, seed, n) →
      exec (.selfTest h u pt sd none) s = .next s ∧ exec (.selfTest h u pt sd (some r)) s = .next (settle (endTest l seed n r q s))) ∧
    (∀ (q : InProg) (l : List W16) (seed : W64) (n : Nat) (r : TestRun),
      let rest := s.pkg.testing.filter (fun x => !l.contains x)
      let failed := failing true r.units (l.map (·.toNat)) seed n
      (r.limits ≠ 0 → endTest l seed n r q s =
        complete q stLimits (if r.limits = 1 then 0x801 else 0x802) 0 { s with pkg := { s.pkg with testing := rest } }) ∧
      (r.limits = 0 → ∃ w, endTest l seed n r q s = complete q stOk 0 (failBitmap failed) (dropPorts allPorts w) ∧
        w = { s with pkg := w.pkg } ∧ w.pkg.testing = rest ∧ w.pkg.bad = s.pkg.bad ++ failed ∧
        w.pkg.serviceFail = (s.pkg.serviceFail || !failed.isEmpty) ∧
        ∀ x ∈ l, mapFind w.pkg.misr x.toNat = some (seed, n, deltaOf r.units x.toNat)) ∧
      (∀ x ∈ l, x ∈ failed ↔ memoryFails r.units x.toNat = true ∨ logicPass r.units (l.map (·.toNat)) seed n x.toNat = false)) ∧
    (∀ (f : Fin 32) (l : List (Fin 32)) (v : State),
      dropPorts (f :: l) v = dropPorts l (if (portOf v f).up = true ∧ portPresent v f.val = false then portLost f 3 v else v))

/-- R229; 0x28 is CHIME_NOFENCE (Table 13-8). -/
def Obligations.ChimeWithoutFence : Prop :=
  (∀ (s : State) (f : Fn) (port : Fin 32) (b l : List SnareSt) (e : SnareSt) (before after : List ChimeSig) (g : ChimeSig),
    serving s = true → snarePick f port s.snare = some (b, e, l) → e.sigs = before ++ g :: after →
    let u := applySignals f (some e.src) before { s with snare := b ++ l }
    fenceIdx u f g.fence = none →
    exec (.chimeRelease f (some port)) s = .next (settle (retryWaits (traceVf f 0x03 e.dstCtx (chimeData e.sigs)
      (applySignals f (some e.src) after { u with tabor := { u.tabor with counts := bump u.tabor.counts (f.key * 128 + 64 + 0x28) 1 } }))))) ∧
  (∀ (s : State) (f : Fn) (b l : List LocalChime) (e : LocalChime) (before after : List ChimeSig) (g : ChimeSig),
    serving s = true → localPick s f [] s.localSnare = some (b, e, l) → e.sigs = before ++ g :: after →
    let u := applySignals f none before { s with localSnare := b ++ l }
    fenceIdx u f g.fence = none →
    exec (.chimeRelease f none) s = .next (settle (traceVf f 0x03 e.ctx (chimeData e.sigs)
      (applySignals f none after { u with tabor := { u.tabor with counts := bump u.tabor.counts (f.key * 128 + 64 + 0x28) 1 } }))))

/-- R352. What the model settles there is in log entry 97. -/
def Obligations.DebugRevokeEndsTheGrant : Prop :=
  ∀ (s : State) (h : CmdHdr) (p : InProg), Admitted s (debugRevokeRow h) p →
    (s.grant = none → exec (.debugRevoke h) s = .next (settle (complete p stOk 0 0 s))) ∧
    (∀ g, s.grant = some g → lcState s = lcProvisioned ∨ lcState s = lcDeployed ∨ (lcState s = lcAnalysis ∧ s.aon.session = false) →
      ∃ v u, exec (.debugRevoke h) s = .next (settle (goOn p { kids := [g.kid] } (.done stOk 0 0) u)) ∧
      v.ptb = {} ∧ v.loops = [] ∧ (∀ q, (portOf v q).loopDepth = 0) ∧
      u = (listedFns (retireKid g.kid v)).foldl
        (fun w f => asyncRecord f { kind := 4, status := stOk, result := 0 } w) (trace .pf 0x43 0xFFFF 0 (retireKid g.kid v)) ∧
      u.grant = none ∧ rightsInForce u = 0 ∧ u.ptb = {} ∧ u.loops = [] ∧ (∀ q, (portOf u q).loopDepth = 0) ∧ (∀ f, (fnOf u f).tdi = (fnOf s f).tdi))

/-- R122, for the commands of a function that name a KID. -/
def Obligations.ForeignKidsAreUnallocated : Prop :=
  ∀ (s : State) (h : CmdHdr) (kid : W16), (∀ k, mapFind s.ks.kids kid.toNat = some k → k.owner ≠ some h.fn) →
    kidCodeFor s h.fn kid = 0 ∧
    (∀ args, (deriveChecks h kid 2 args s).state.head? = some (some (stBadState, 0))) ∧
    (retireChecks h kid s).state.head? = some (some (stBadState, 0)) ∧
    (∀ wrap rid dir, (parkChecks h kid wrap rid dir s).state.head? = some (some (stBadState, 0))) ∧
    (∀ engine mode, kid ≠ 0 → (openBulkChecks h engine mode kid s).state.head? = some (some (stBadState, 0))) ∧
    ((rotateChecks h kid s).state.head? = some (some (stBadState, 0)))

/-- R413 to R416, R404. What the model settles there is in log entries 120, 122. -/
def Obligations.SetUpRegisterCommands : Prop :=
  ∀ (s : State) (a : RegAcc) (v : W64),
    (earlyAccess a s = true → coversLow a = true →
      exec (.haltClear a) s = .next { s with aon := { s.aon with halt := {} }, flash := { s.flash with haltLog := clearNewest s.flash.haltLog } } ∧
      exec (.recoveryRequest a) s = .next { s with aon := { s.aon with recoveryReq := true } }) ∧
    (earlyAccess a s = false ∨ coversLow a = false → exec (.haltClear a) s = .next s ∧ exec (.recoveryRequest a) s = .next s) ∧
    (pfAccess a s = true → coversLow a = true → exec (.go a) s = .next (eachPort tryUp allPorts { s with fab := { s.fab with go := true } })) ∧
    (pfAccess a s = false ∨ coversLow a = false → exec (.go a) s = .next s) ∧
    (pfAccess a s = false ∨ s.fab.go = true → exec (.routeCommit a v) s = .next s ∧ ∀ b, exec (.routeStage a b v) s = .next s) ∧
    (pfAccess a s = true → s.fab.go = false → a.bytes = 8 →
      (∃ t, exec (.routeStage a true v) s = .next t ∧ t.fab.stage1 = v.setWidth 60 ∧ t = { s with fab := { s.fab with stage1 := t.fab.stage1 } }) ∧
      ∃ t, exec (.routeCommit a v) s = .next t ∧ t.fab.stage0 = 0 ∧ t.fab.stage1 = 0 ∧
        (let d1 := relayField ((routeField v).toNat % 8) s.fab.stage1
         routeEntry t s.fab.dest s.fab.sel = (if routeRefused s (routeField v) d1 then routeField v &&& 0x7FFFFFFFFFFFFFFF else routeField v, d1)) ∧
        (∀ d k, (d, k) ≠ (s.fab.dest, s.fab.sel) → routeEntry t d k = routeEntry s d k) ∧
        t = { s with fab := { s.fab with stage0 := 0, stage1 := 0, routes := t.fab.routes } }) ∧
    (regAccepted a s = true → a.bytes = 8 → (ringOf s a.fn).enabled = false → ready s = true →
      ∀ o : W16, o = 0x1000 ∨ o = 0x1008 ∨ o = 0x1010 → ∃ t, exec (.registerWrite a o v) s = .next t ∧
        readSetup t a.fn (o.toNat - 0x1000) = v ∧ (∀ x, x ≠ o.toNat - 0x1000 → x < 0x28 → readSetup t a.fn x = readSetup s a.fn x) ∧
        ∀ g, g ≠ a.fn → fnOf t g = fnOf s g) ∧
    ((ringOf s a.fn).enabled = true → ∀ o : W16, 0x1000 ≤ o.toNat → o.toNat < 0x2000 → o ≠ 0x1028 → exec (.registerWrite a o v) s = .next s) ∧
    (∀ o : W16, o.toNat < 0x1000 → exec (.registerWrite a o v) s = exec (.wakeWrite a (o.setWidth 12)) s) ∧
    exec (.registerWrite a 0x1028 v) s = (if v.getLsbD 0 then exec (.ringEnable a) s else exec (.ringDisable a) s) ∧
    exec (.registerWrite a 0x2038 v) s = (if v.getLsbD 0 then exec (.recoveryRequest a) s else .next s) ∧
    exec (.registerWrite a 0x3040 v) s = (if v.getLsbD 0 then exec (.haltClear a) s else .next s) ∧
    exec (.registerWrite a 0x4008 v) s = (if v.getLsbD 0 then exec (.go a) s else .next s) ∧
    exec (.registerWrite a 0x4018 v) s = (if coversLow a then exec (.routeCommit a v) s else exec (.routeStage a false v) s) ∧
    exec (.registerWrite a 0x4020 v) s = exec (.routeStage a true v) s ∧ exec (.registerWrite a 0x5000 v) s = exec (.ptbHskWrite a v) s ∧
    exec (.registerWrite a 0x5008 v) s = exec (.ptbBpWrite a v) s ∧ exec (.registerWrite a 0x5010 v) s = exec (.ptbTagholdWrite a v) s ∧
    exec (.registerWrite a 0x5018 v) s = exec (.ptbBeatWrite a v) s ∧ exec (.registerWrite a 0x5020 v) s = exec (.ptbLoopWrite a v) s ∧
    (∀ o : W16, 0x5028 ≤ o.toNat → exec (.registerWrite a o v) s = .next s)

/-- R365, R417, Table 16-26. What the model settles there is in log entries 118, 119. -/
def Obligations.PerturbationWrites : Prop :=
  ∀ (s : State) (a : RegAcc) (v : W64) (c : Instr),
    c ∈ [Instr.ptbHskWrite a v, .ptbBpWrite a v, .ptbTagholdWrite a v, .ptbBeatWrite a v, .ptbLoopWrite a v] →
    (pfAccess a s = false → exec c s = .next s) ∧
    (pfAccess a s = true → perturbActs s = false → exec c s = .next (countPkg 0x14 s)) ∧
    (pfAccess a s = true → perturbActs s = true → coversLow a = false → exec c s = .next s) ∧
    (pfAccess a s = true → perturbActs s = true → coversLow a = true →
      (∃ t, exec (.ptbHskWrite a v) s = .next t ∧ t = { s with ptb := t.ptb } ∧
        (let k := v.toNat / 256 % 64
         readPtb t 0x000 = (if k / 8 < 6 ∧ k % 8 < 6 ∧ k / 8 ≠ k % 8 then v &&& 0x3FFF else 0))) ∧
      (∃ t, exec (.ptbBpWrite a v) s = .next t ∧ t = { s with ptb := t.ptb } ∧ readPtb t 0x008 = v &&& 0xFFFFFFFF) ∧
      (∃ t, exec (.ptbTagholdWrite a v) s = .next t ∧ t = { s with ptb := t.ptb } ∧ readPtb t 0x010 = v &&& 0x1F0FFF) ∧
      (∃ t, exec (.ptbBeatWrite a v) s = .next t ∧ t = { s with ptb := t.ptb } ∧ readPtb t 0x018 = v &&& 0x1FFF) ∧
      (let d := v.toNat / 256 % 8
       let k := v.toNat % 32
       let val : W32 := BitVec.ofNat 32 (v.toNat % 2 ^ 32) &&& 0x001F079F
       (∀ q : Fin 32, v.getLsbD 7 = false → k = q.val →
        let w := endPortLoop q s
        ∃ t, exec (.ptbLoopWrite a v) s = .next t ∧ (∀ r, r ≠ q → portOf t r = portOf s r) ∧
          (portPresent s k = false ∨ 4 < d → t = { w with ptb := { w.ptb with loopLast := 0 } } ∧ (portOf t q).loopDepth = 0) ∧
          (portPresent s k = true → d = 0 → t = { w with ptb := { w.ptb with loopLast := val } } ∧ (portOf t q).loopDepth = 0) ∧
          (portPresent s k = true → 1 ≤ d → d ≤ 4 → intSlotCheck w = none →
            (portOf t q).loopDepth = d ∧ (mapFind t.ptb.loopKids k).isSome = true ∧ t.ptb.loopLast = val ∧
            ∃ f, t.out.getLast? = some (.loopFrame q d f))) ∧
       (v.getLsbD 7 = true → k < 8 →
        let w := endPoolLoop k s
        (d = 0 → poolPresent w k = true → exec (.ptbLoopWrite a v) s = .next { w with ptb := { w.ptb with loopLast := val } }) ∧
        (poolPresent w k = false ∨ 1 < d → exec (.ptbLoopWrite a v) s = .next { w with ptb := { w.ptb with loopLast := 0 } }) ∧
        (d = 1 → poolPresent w k = true → engineRegions w k = 0 → intSlotCheck w = none →
          let x := takeLoopKid (32 + k) w
          exec (.ptbLoopWrite a v) s = .next (loopReads val (startLoop k (mapGet 0 x.ptb.loopKids (32 + k))
            { x with ptb := { x.ptb with poolLoops := x.ptb.poolLoops ++ [k] } }))))))

/-- R379, Table 14-7; R45, R28, R384, R390, R398. What the model settles there is in log entries 81, 82, 124, 127, 198. -/
def Obligations.PowerAndStartRows : Prop :=
  (∀ (s : State) (p : Power) (env : StartEnv),
    (s.pkg.phase = .off → exec (.powerStateRequest p env) s = .next s) ∧
    (∀ n, s.pkg.phase ≠ .off → powerRefusal p s = some n → exec (.powerStateRequest p env) s = .next (emit (.powerAnswer (some n)) s)) ∧
    (s.pkg.phase ≠ .off → powerRefusal p s = none → ∃ t, exec (.powerStateRequest p env) s = .next t ∧
      t = changePower p env (emit (.powerAnswer none) s) ∧
      (s.pkg.power = .a0 → p = .a1 → t.pkg = { s.pkg with power := .a1 }) ∧
      (s.pkg.power = .a1 → p = .a0 → t.pkg = { s.pkg with power := .a0 }) ∧
      (s.pkg.power = .a0 ∨ s.pkg.power = .a1 → p = .a2 → t.pkg.power = .a2) ∧
      (s.pkg.power = .a2 → p = .a3 → t.pkg.power = .a3 ∧ t.ks.caches = [] ∧ t.ks.identity = none ∧ ∀ q, (portOf t q).up = false) ∧
      (p = .off → t.pkg.power = .off ∧ t.ks.slots = [] ∧ t.ks.kids = [] ∧ t.ports = [] ∧ t.prog = [])) ∧
    (s.pkg.phase = .ready → s.pkg.power = .a2 → p = .a3 →
      (s.sends ≠ [] ∨ s.recvs ≠ [] → powerRefusal p s = some 1) ∧
      (s.sends = [] → s.recvs = [] → s.prog ≠ [] → powerRefusal p s = some 2) ∧
      (s.sends = [] → s.recvs = [] → s.prog = [] → (∃ e ∈ s.ks.kids, e.2.st = .retiring) → powerRefusal p s = some 3) ∧
      (s.sends = [] → s.recvs = [] → s.prog = [] → (∀ e ∈ s.ks.kids, e.2.st ≠ .retiring) → (∃ r ∈ s.regions, r.2.leases ≠ []) →
        powerRefusal p s = some 4) ∧
      (s.sends = [] → s.recvs = [] → s.prog = [] → (∀ e ∈ s.ks.kids, e.2.st ≠ .retiring) → (∀ r ∈ s.regions, r.2.leases = []) →
        powerRefusal p s = (if hasHome s then some 5 else none)))) ∧
  (∀ (s : State) (env : StartEnv),
    (s.pkg.phase = .off → exec (.avkPwrokRise env) s = .next (start false env s)) ∧
    (s.pkg.phase ≠ .off → exec (.avkPwrokRise env) s = .next s) ∧
    (∃ t, exec .avkPwrokFall s = .next t ∧ t.otp = s.otp ∧ t.aon = State.reset.aon ∧ t.pkg = State.reset.pkg ∧ t.ks = State.reset.ks ∧
      (∀ e ∈ t.fns, ∃ x, (e.1, x) ∈ s.fns ∧ x.enabled = true ∧ e.2 = { enabled := true, place := x.place, tdi := { state := .error } }) ∧
      t.fns.map (·.1) = (s.fns.filter (fun e => e.2.enabled)).map (·.1) ∧
      t.prog = [] ∧ t.regions = [] ∧ t.homes = [] ∧ t.sends = [] ∧ t.recvs = [] ∧ t.ports = [] ∧ t.pending = s.pending ∧
      (hostUp s = true → t.out = s.out ++ [.linkDisable 0, .linkDisable 1]) ∧ (hostUp s = false → t.out = s.out) ∧
      t.flash = { s.flash with image := if s.pkg.writing then none else s.flash.image }) ∧
    (∀ n, s.pkg.phase = .bistWait n env → exec (.bistLimitRecheck true) s = .next (bootFrom3 true env s) ∧
      (2 ≤ n → exec (.bistLimitRecheck false) s = .next (bootFrom3 false env s)) ∧
      (n < 2 → exec (.bistLimitRecheck false) s = .next { s with pkg := { s.pkg with phase := .bistWait (n + 1) env } })) ∧
    ((∀ n e, s.pkg.phase ≠ .bistWait n e) → ∀ met, exec (.bistLimitRecheck met) s = .next s) ∧
    (ready s = true → s.otp.svn < s.pkg.svn → exec .svnFuseBurn s = .next { s with otp := { s.otp with svn := s.pkg.svn } }) ∧
    (ready s = false ∨ s.pkg.svn ≤ s.otp.svn → exec .svnFuseBurn s = .next s)) ∧
  (State.reset.pkg.phase = .off ∧ State.reset.pending = [] ∧ State.reset.fns = [] ∧ State.reset.ks.slots = [] ∧ State.reset.ks.kids = [] ∧
    State.reset.otp.tansy = 0 ∧ State.reset.otp.owner = 0 ∧ State.reset.otp.drs = 0 ∧ (∀ k, State.reset.otp.state.getD k 0 = 0) ∧
    (∀ k, State.reset.otp.progress.getD k 0 = 0) ∧ State.reset.regions = [] ∧ State.reset.grant = none)

/-- R369 to R374, Table 14-1; R18. What the model settles there is in log entries 83, 123. -/
def Obligations.TamperResponses : Prop :=
  ∀ (s : State),
    let fires := fun (src : TamperSrc) (c : Instr) =>
      (s.pkg.phase = .off → exec c s = .next s) ∧
      (s.pkg.phase ≠ .off → lcState s ≠ lcScrap → lcState s ≠ lcBroken →
        (srcArmed src (notePin src s) = false → exec c s = .next (noteSeen src (notePin src s))) ∧
        (srcArmed src (notePin src s) = true → s.pkg.phase ≠ .halted →
          ∃ t, exec c s = .next t ∧ t.pkg.phase = .halted ∧ t.aon.haltPin = true ∧ t.aon.halt.cause = srcCause src ∧
            t.aon.halt.level = srcLevel src s ∧ t.aon.tocsin = (srcLevel src s).toNat ∧ t.aon.halt.sources = BitVec.ofNat 32 (2 ^ srcBit src) ∧
            t.aon.halt.boot = BitVec.ofNat 64 s.pkg.boot ∧ t.aon.halt.unit = srcUnit src))
    (∀ src, fires src (.tamperSourceFire src)) ∧
    (∀ x y, 1000000 ≤ x → x ≤ 1100000 → 45000 ≤ y → y ≤ 55000 → exec (.clockMonitorMeasure x y) s = .next s) ∧
    (∀ x y, x < 1000000 ∨ 1100000 < x ∨ y < 45000 ∨ 55000 < y → fires .clock (.clockMonitorMeasure x y)) ∧
    exec (.meshPattern false) s = .next s ∧ fires .mesh (.meshPattern true) ∧
    (∀ d, s.pkg.phase = .off → exec (.droopWarning d) s = .next s) ∧
    (∀ d, s.pkg.phase ≠ .off → ∃ t, exec (.droopWarning d) s = .next t ∧ t.out = s.out ++ [.throttle] ∧
      t.aon.droop.toNat = min (s.aon.droop.toNat + 1) 0xFFFF ∧ t = { s with out := t.out, aon := { s.aon with droop := t.aon.droop } }) ∧
    (∀ u, s.pkg.phase = .off → exec (.parityError u) s = .next s) ∧
    (∀ u, s.pkg.phase ≠ .off → s.pkg.phase ≠ .halted → s.pkg.phase ≠ .romHalt → ∃ t, exec (.parityError u) s = .next t ∧
      t.pkg.phase = .halted ∧ t.aon.halt.cause = 7 ∧ t.aon.halt.unit = u ∧ t.aon.halt.level = 1 ∧ t.aon.tocsin = 1 ∧ t.aon.haltPin = true) ∧
    (∀ u, s.pkg.phase = .halted → ∃ t, exec (.parityError u) s = .next t ∧
      t.aon = { s.aon with halt := { s.aon.halt with sources := s.aon.halt.sources ||| 0x80000000 } } ∧
      t = { s with aon := t.aon, flash := t.flash, out := t.out, opens := t.opens })

/-- R142, R143, R169. What the model settles there is in log entries 7, 84. -/
def Obligations.TocsinZeroises : Prop :=
  ∀ (i : HaltInfo) (lv : Byte) (src : W32) (why : Byte) (s : State),
    let t := tocsin i lv src why s
    t.ks.slots = [] ∧ t.ks.kids = [] ∧ t.ks.caches = [] ∧ t.ks.bootNonce = 0 ∧ t.ks.traceRoot = none ∧ t.ks.identity = none ∧
    t.regions = [] ∧ t.jobs = [] ∧ t.exch = [] ∧ t.members = [] ∧ t.bulk = [] ∧ t.sends = [] ∧ t.recvs = [] ∧ t.waits = [] ∧ t.snare = [] ∧
    t.localSnare = [] ∧ t.reads = [] ∧ t.loops = [] ∧ t.parked = [] ∧ t.late = [] ∧ t.tapRevoke = none ∧ t.gone = [] ∧ t.openReqs = [] ∧ t.ide = {} ∧ t.prog = [] ∧ t.grant = none ∧ t.ptb = {} ∧ t.mail0 = {} ∧ t.mail1 = {} ∧ t.aon.nonce = none ∧
    (∀ e ∈ t.fns, e.2.job = none ∧ e.2.jmkKid = 0 ∧ e.2.nonceS = none ∧ e.2.migKids = [] ∧ e.2.save = none ∧ e.2.restore = none ∧
      (e.2.enabled = true → e.2.tdi.state = .error ∧ e.2.tdi.nonce = none)) ∧
    t.fns.map (fun e => (e.1, e.2.gen, e.2.enabled)) = s.fns.map (fun e => (e.1, e.2.gen, e.2.enabled)) ∧
    (Output.linkDisable 0 ∈ t.out ∧ Output.linkDisable 1 ∈ t.out ∧ Output.pcieUncorrectable 0 ∈ t.out ∧ Output.pcieUncorrectable 1 ∈ t.out) ∧
    (lv = 2 → t.otp.owner = s.otp.owner ||| 0xFFFFFF000000 ∧ t.aon.kill = true) ∧ (lv ≠ 2 → t.otp = s.otp) ∧
    t.otp = { s.otp with owner := t.otp.owner } ∧ t.aon.stateWord = s.aon.stateWord ∧ t.aon.progressWord = s.aon.progressWord ∧
    (s.pkg.power ≠ .off → t.flash.haltLog.getLast? = some (t.aon.halt, false) ∧ t.flash.haltLog.length ≤ max 16 s.flash.haltLog.length)

/-- R146 to R154, R156; codes of DMTF SPDM 1.3 (PRESUMED).
What the model settles there is in log entries 128, 130 to 132, 174 to 176, 178, 203, 207. -/
def Obligations.SpdmResponder : Prop :=
  ∀ (s : State) (q : SpdmReq), MailServes s q.port →
    let v := { s with mailArb := ~~~q.port }
    let m := mailOf s q.port
    (∀ i : Byte, exec (.doeDiscovery q.port i) s = .next (emit (.respond q.port
      (if i.toNat < 3 then .doeDiscovery 0x0001 i (if i = 2 then 0 else i + 1) else .doeDiscovery 0xFFFF 0xFF 0)) v)) ∧
    (q.parity = true → ∀ c, mailReq c = some q →
      exec c s = .next (emit (.respond q.port (.error ((opened s).setWidth 8) 0)) (bumpOpen v))) ∧
    (q.parity = false → q.version13 = false → ∀ c, mailReq c = some q → exec c s = .next (emit (.respond q.port (.error 0x41 0)) v)) ∧
    (q.parity = false → q.version13 = true →
      (exec (.getVersion q) s = .next (emit (.respond q.port (.version [0x1300]))
        (mailMod q.port (fun m => { m with phase := .version, owed := none, deferred := false, ready := none }) v))) ∧
      (exec (.getCapabilities q) s = .next (emit (.respond q.port (.capabilities capFlags 16 16384 16384))
        (mailMod q.port (fun m => { m with phase := .capabilities }) v))) ∧
      (∀ o, (offersAll o = true → exec (.negotiateAlgorithms q o) s = .next (emit (.respond q.port (.algorithms selection))
          (mailMod q.port (fun m => { m with phase := .negotiated }) v))) ∧
        (offersAll o = false → exec (.negotiateAlgorithms q o) s = .next (emit (.respond q.port (.error 0x01 0))
          (mailMod q.port (fun m => { m with phase := .capabilities }) v)))) ∧
      (∀ raw n, exec (.getMeasurements q 0xFF false raw n) s = .next (emit (.respond q.port (.measurements (plainBlocks s) 0 none)) v) ∧
        (∀ i, i ≠ 0xFF → i ≠ 0 → ∀ x, block s i = some x →
          exec (.getMeasurements q i false raw n) s = .next (emit (.respond q.port (.measurements [(i, x)] 0 none)) v)) ∧
        (∀ i, i ≠ 0xFF → i ≠ 0 → block s i = none →
          exec (.getMeasurements q i false raw n) s = .next (emit (.respond q.port (.error 0x01 0)) v))) ∧
      (drsUsable s = true →
        let owes := fun (t : State) (r : Resp) (k : Nat) => t.draws = k ∧ (mailOf t q.port).owed = some r ∧
          (mailOf t q.port).deferred = Config.slow k ∧ t.out = s.out ++ (if Config.slow k then [.respond q.port (.error 0x42 0)] else [])
        (exec (.getDigests q) s = .next (emit (.respond q.port (.digests (if (slot1 s).isSome then 3 else 1)
          (([0, 1] : List Byte).filterMap (fun k => (slotChain s k).map Config.sha384)))) v)) ∧
        (∀ slot off len c, slotChain s slot = some c → c.length ≤ 16384 ∧ (off.toNat < c.length →
          exec (.getCertificate q slot off len) s = .next (emit (.respond q.port (.certificate slot off ((c.drop off.toNat).take len.toNat)
            (c.length - off.toNat - min len.toNat (c.length - off.toNat)))) v))) ∧
        (∀ slot n, (slotChain s slot).isSome = true → ∃ t, exec (.challenge q slot n) s = .next t ∧
          owes t (.challengeAuth slot (drawn s) (signed s)) (s.draws + 1)) ∧
        (∀ raw n, ∃ t, exec (.getMeasurements q 0xFF true raw n) s = .next t ∧
          owes t (.measurements (allBlocks s (some n)) (drawn s) (some (signed s))) (s.draws + 1)) ∧
        (∀ slot, m.sessions.length < 4 → intSlotCheck s = none → (slotChain s slot).isSome = true →
          ∃ t, exec (.keyExchange q slot) s = .next t ∧ owes t (.keyExchangeRsp s.nextSession (signed (bumpDraw s))) (s.draws + 1) ∧
            t.nextSession = s.nextSession + 1 ∧
            ∃ kid, (mailOf t q.port).sessions = m.sessions ++ [{ id := s.nextSession, established := false, kid := kid }]) ∧
        (∀ n, (∃ x ∈ m.sessions, x.id = n ∧ x.established = false) →
          exec (.finish q n true) s = .next (emit (.respond q.port .finishRsp) (mailMod q.port (fun m =>
            { m with sessions := m.sessions.map (fun x => if x.id == n then { x with established := true } else x) }) v)) ∧
          exec (.finish q n false) s = .next (emit (.respond q.port (.error 0x06 0)) v))) ∧
      (drsUsable s = false → exec (.getDigests q) s = .next (emit (.respond q.port (.error 0x07 0x81)) v) ∧
        (∀ slot a b, exec (.getCertificate q slot a b) s = .next (emit (.respond q.port (.error 0x07 0x82)) v)) ∧
        (∀ slot n, exec (.challenge q slot n) s = .next (emit (.respond q.port (.error 0x07 0x83)) v)) ∧
        (∀ i raw n, exec (.getMeasurements q i true raw n) s = .next (emit (.respond q.port (.error 0x07 0xE0)) v)) ∧
        (∀ slot, exec (.keyExchange q slot) s = .next (emit (.respond q.port (.error 0x07 0xE4)) v)) ∧
        (∀ n ok, exec (.finish q n ok) s = .next (emit (.respond q.port (.error 0x07 0xE5)) v))) ∧
      (∀ x, sessionOf s q = some x → exec (.endSession q) s = .next (emit (.respond q.port .endSessionAck) (retireKid x.kid
        (mailMod q.port (fun m => { m with sessions := m.sessions.filter (fun y => y.id != x.id) }) v)))) ∧
      (sessionOf s q = none → exec (.endSession q) s = .next (emit (.respond q.port (.error 0x07 0xEC)) v)) ∧
      (∀ code, code ≠ 0xFE ∨ (sessionOf s q).isSome = true →
        exec (.spdmUnsupportedRequest q code) s = .next (emit (.respond q.port (.error 0x07 code)) v)) ∧
      (sessionOf s q = none → exec (.spdmUnsupportedRequest q 0xFE) s = .next (emit (.respond q.port (.error 0x0B 0)) v)) ∧
      (∀ r, m.ready = some r → exec (.respondIfReady q) s = .next (emit (.respond q.port r)
        (mailMod q.port (fun m => { m with ready := none, deferred := false }) v))) ∧
      (m.ready = none → m.owed.isSome = true → exec (.respondIfReady q) s = .next (emit (.respond q.port (.error 0x42 0)) v)))

/-- R158 to R167; error codes of PCI-SIG TDISP (PRESUMED). What the model settles there is in log entries 129, 134, 177, 179. -/
def Obligations.IdeAndTdispMessages : Prop :=
  ∀ (s : State) (q : SpdmReq) (x : SessionSt), MailServes s q.port → q.parity = false → q.version13 = true → sessionOf s q = some x →
    let w := { s with mailArb := ~~~q.port }
    (fieldState s = false → exec (.query q) s = .next (emit (.respond q.port (.error 0x07 0xFE)) w) ∧
      (∀ i key iv, exec (.keyProg q i key iv) s = .next (emit (.respond q.port (.error 0x07 0xFE)) w)) ∧
      ∀ i, exec (.kSetGo q i) s = .next (emit (.respond q.port (.error 0x07 0xFE)) w) ∧
        exec (.kSetStop q i) s = .next (emit (.respond q.port (.error 0x07 0xFE)) w)) ∧
    (fieldState s = true →
      exec (.query q) s = .next (emit (.respond q.port (.queryResp 0 (Config.ideCapability q.port)
        (if q.port = 0 then s.ide.control0 else s.ide.control1))) w) ∧
      (∀ i key iv, ideOk i = true → s.ide.active.contains (ideReg q i) = false → intSlotCheck s = none →
        ∃ t, exec (.keyProg q i key iv) s = .next (emit (.respond q.port (.kpAck true)) t) ∧
          mapFind t.ide.keys (ideReg q i) = some (key, iv) ∧ t.ide.active = s.ide.active) ∧
      (∀ i key iv, ideOk i = false ∨ s.ide.active.contains (ideReg q i) = true ∨ (intSlotCheck s).isSome = true →
        exec (.keyProg q i key iv) s = .next (emit (.respond q.port (.kpAck false)) w)) ∧
      (∀ i, ideOk i = true → (mapFind s.ide.keys (ideReg q i)).isSome = true →
        ∃ t, exec (.kSetGo q i) s = .next (emit (.respond q.port (.goAck true)) t) ∧ ideReg q i ∈ t.ide.active ∧
          ideKey q.port i.stream (~~~i.keySet) i.sub i.dir ∉ t.ide.active ∧ t.ide.keys = s.ide.keys) ∧
      (∀ i, ideOk i = false ∨ mapFind s.ide.keys (ideReg q i) = none →
        exec (.kSetGo q i) s = .next (emit (.respond q.port (.goAck false)) w)) ∧
      (∀ i, ideOk i = true →
        let u := { w with ide := { w.ide with keys := mapErase w.ide.keys (ideReg q i), active := w.ide.active.filter (· != ideReg q i) } }
        (i.stream = 0 ∨ allActive u q.port i.stream = true → exec (.kSetStop q i) s = .next (emit (.respond q.port (.stopAck true)) u)) ∧
        (1 ≤ i.stream → allActive u q.port i.stream = false → exec (.kSetStop q i) s = .next (emit (.respond q.port (.stopAck true))
          (settle (tdisErrorClean false (boundTo u q.port i.stream) u))))) ∧
      (∀ i, ideOk i = false → exec (.kSetStop q i) s = .next (emit (.respond q.port (.stopAck false)) w))) ∧
    (tdispState s = true →
      exec (.getTdispVersion q) s = .next (emit (.respond q.port .tdispVersion) w) ∧
      exec (.getTdispCapabilities q) s = .next (emit (.respond q.port .tdispCapabilities) w) ∧
      (∀ c, exec (.tdispUnsupportedRequest q c) s = .next (emit (.respond q.port (.tdispError 0x0007)) w)) ∧
      (∀ v, ifaceOk s q v = false →
        let no := Host.Outcome.next (emit (.respond q.port (.tdispError 0x0101)) w)
        exec (.getDeviceInterfaceState q v) s = no ∧ exec (.getDeviceInterfaceReport q v) s = no ∧ exec (.stopInterfaceRequest q v) s = no ∧
          (∀ n, exec (.startInterfaceRequest q v n) s = no) ∧ ∀ st a e, exec (.lockInterfaceRequest q v st a e) s = no) ∧
      (∀ v, ifaceOk s q v = true →
        let t := (fnOf s (.vf v)).tdi
        exec (.getDeviceInterfaceState q v) s = .next (emit (.respond q.port (.interfaceState t.state)) w) ∧
        (t.state = .locked ∨ t.state = .run → exec (.getDeviceInterfaceReport q v) s = .next (emit (.respond q.port
          (.interfaceReport v t.stream [(t.place.bar, 0x1000), (t.place.bar + 0x1000, 0x1000)] t.place.msixTable t.place.pendingBits)) w)) ∧
        (t.state = .unlocked ∨ t.state = .error →
          exec (.getDeviceInterfaceReport q v) s = .next (emit (.respond q.port (.tdispError 0x0004)) w)) ∧
        (∀ st a e c, lockError q v st a e t w = some c → exec (.lockInterfaceRequest q v st a e) s = .next (emit (.respond q.port (.tdispError c)) w)) ∧
        (∀ st a e, lockError q v st a e t w = none →
          ∃ u, exec (.lockInterfaceRequest q v st a e) s = .next (emit (.respond q.port (.lockResponse (drawn s))) u) ∧
            (fnOf u (.vf v)).tdi = { t with state := .locked, stream := st, nonce := some (drawn s), place := (fnOf s (.vf v)).place,
                                            lockGen := (fnOf s (.vf v)).gen } ∧
            ∀ g, g ≠ .vf v → fnOf u g = fnOf s g) ∧
        (∀ n, t.state = .locked → t.nonce = some n → exec (.startInterfaceRequest q v n) s = .next (emit (.respond q.port .startResponse)
          (tdiMod v (fun t => { t with state := .run, nonce := none }) w))) ∧
        (∀ n, t.state = .locked → t.nonce ≠ some n → exec (.startInterfaceRequest q v n) s = .next (emit (.respond q.port (.tdispError 0x0102)) w)) ∧
        (∀ n, t.state ≠ .locked → exec (.startInterfaceRequest q v n) s = .next (emit (.respond q.port (.tdispError 0x0004)) w)) ∧
        (t.state = .unlocked ∨ t.state = .error → (fnOf s (.vf v)).cleaning = none →
          exec (.stopInterfaceRequest q v) s = .next (emit (.respond q.port .stopResponse)
            (tdiMod v (fun t => { t with state := .unlocked, nonce := none }) w))) ∧
        (t.state = .unlocked ∨ t.state = .error → (fnOf s (.vf v)).cleaning.isSome = true →
          exec (.stopInterfaceRequest q v) s = .next (tdiMod v (fun t => { t with stopOwed := t.stopOwed ++ [q.port] }) w)) ∧
        (t.state = .locked ∨ t.state = .run → exec (.stopInterfaceRequest q v) s = .next (settle (startCleanup (.vf v) none
          (tdiMod v (fun t => { t with stopOwed := t.stopOwed ++ [q.port] }) w))))))

/-- R162, R165, R168, R315. What the model settles there is in log entries 158, 202. -/
def Obligations.HostLinkAndFunctionResets : Prop :=
  (∀ (s : State) (v : BitVec 12) (tick : Nat) (pl : Placement),
    (s.pkg.phase ≠ .off → s.pkg.phase ≠ .halted → (fnOf s (.vf v)).enabled = false →
      ∃ t, exec (.vfEnable v ⟨tick, pl⟩) s = .next t ∧ fnOf t (.vf v) = { enabled := true, place := pl } ∧ (fnOf t (.vf v)).gen = 1 ∧
        (fnOf t (.vf v)).tdi.state = .unlocked ∧ (viewOf t (.vf v)).t0 = tick ∧ (viewOf t (.pfOf v)).t0 = tick ∧
        (viewOf t (.vf v)).window = 1000 ∧ (∀ g, g ≠ .vf v → fnOf t g = fnOf s g)) ∧
    ((fnOf s (.vf v)).enabled = true → exec (.vfEnable v ⟨tick, pl⟩) s = .next s)) ∧
  (∀ (s : State) (v : BitVec 12) (ev : VfEvent),
    let w := match ev with
      | .config pl => if (fnOf s (.vf v)).enabled then fnMod (.vf v) (fun x => { x with place := pl }) s else s
      | _ => s
    (serving s = true → (fnOf s (.vf v)).tdi.state = .locked ∨ (fnOf s (.vf v)).tdi.state = .run →
      exec (.vfFunctionLevelReset ⟨v, ev⟩) s = .next (settle (startCleanup (.vf v) none
        (fnMod (.vf v) (fun x => { x with tdi := { x.tdi with state := .error, nonce := none } }) w)))) ∧
    (serving s = true → (fnOf s (.vf v)).tdi.state = .unlocked ∨ (fnOf s (.vf v)).tdi.state = .error →
      exec (.vfFunctionLevelReset ⟨v, ev⟩) s = .next (settle w)) ∧
    (serving s = false → exec (.vfFunctionLevelReset ⟨v, ev⟩) s = .next w)) ∧
  (∀ (s : State) (p : BitVec 1), serving s = true →
    (let u := ringMod .pf (fun r => { r with closing := true }) s
     exec .pfFunctionLevelReset s = .next (settle (disableRing .pf (flushFn .pf (squashReads [.pf]
      (abortCmds ((progOf u .pf).filter awaitsSignal) u)))))) ∧
    (∀ n, exec (.ideIntegrityFailure p n) s = .next (settle (tdisErrorClean false (boundTo s p n) s))) ∧
    (∀ l, exec (.pcieControllerUncorrectable p l) s = .next (settle (tdisErrorClean false ((l.filter (fun v => vfPort v == p)).map Fn.vf)
      (emit (.pcieUncorrectable p) s))))) ∧
  (∀ (s : State) (p : BitVec 1) (l : List Fn),
    let vfs := (portFns s p).filter (fun f => f != .pf && (fnOf s f).enabled)
    ∃ u, exec (.linkDown p l) s = .next (if ready s && s.pkg.power != .off
        then settle (tdisErrorClean true vfs (faultRings l (portFns s p) u)) else eachError vfs u) ∧
      mailOf u p = {} ∧ mailOf u (~~~p) = mailOf s (~~~p) ∧ (∀ f ∈ portFns s p, (fnOf u f).tdi.stopOwed = []) ∧
      (∀ k, mapFind u.ide.keys k = if k / 108 = p.toNat then none else mapFind s.ide.keys k) ∧
      (∀ k, k ∈ u.ide.active ↔ k ∈ s.ide.active ∧ k / 108 ≠ p.toNat))

/-- R92, R400, R401. What the model settles there is in log entries 142 to 144. -/
def Obligations.RecoveryMailboxRows : Prop :=
  ∀ (s : State),
    let ans := fun (rcmd : Byte) (st : W16) (body : List Byte) (t : State) => emit (.recoveryResp (rcmd ||| 0x80) st (recImage rcmd st body)) t
    (romServes s = false → exec .recoveryStatus s = .next s ∧ exec .recoveryLcChallenge s = .next s ∧
      (∀ r e, exec (.recoveryLcTransition r e) s = .next s) ∧ (∀ n, exec (.imgBegin n) s = .next s) ∧
      (∀ o n, exec (.imgData o n) s = .next s) ∧ (∀ i, exec (.imgCommit i) s = .next s)) ∧
    (romServes s = true →
      exec .recoveryStatus s = .next (ans 0x01 stOk (lcBytes (lcStatusOf s) ++ [s.pkg.reason, BitVec.ofNat 8 s.otp.svn] ++ le 4 s.pkg.imgGot
        ++ [if s.pkg.writing then 1 else 0]) s) ∧
      (journalWaits s = false → exec .recoveryLcChallenge s = .next (ans 0x02 stBadState [] s) ∧
        ∀ r e, exec (.recoveryLcTransition r e) s = .next (ans 0x03 stBadState [] s)) ∧
      (journalWaits s = true →
        exec .recoveryLcChallenge s = .next (ans 0x02 stOk (be 32 (drawn s).toNat)
          { s with aon := { s.aon with nonce := some (drawn s) }, draws := s.draws + 1 }) ∧
        (∀ r e, firstFail (lcFields s r) ≠ none → exec (.recoveryLcTransition r e) s = .next (ans 0x03 stMalformed [] s)) ∧
        (∀ r e, firstFail (lcFields s r) = none → (∀ k, pendingOwner s = some k → resubmits s r k = false) →
          exec (.recoveryLcTransition r e) s = .next (ans 0x03 stBadState [] s)) ∧
        (∀ r e k, firstFail (lcFields s r) = none → pendingOwner s = some k → resubmits s r k = true →
          (lcAuth s r = false → exec (.recoveryLcTransition r e) s =
            .next (ans 0x03 stAuthFailed [] { s with aon := { s.aon with nonce := none } })) ∧
          (lcAuth s r = true → exec (.recoveryLcTransition r e) s =
            .next (start true e (ans 0x03 stOk [] (finishOwner k r.newOwnerHash { s with aon := { s.aon with nonce := none } })))))) ∧
      (takesImage s = false → (∀ n, exec (.imgBegin n) s = .next (ans 0x10 stBadState [] s)) ∧
        (∀ o n, exec (.imgData o n) s = .next (ans 0x11 stBadState [] s)) ∧ ∀ i, exec (.imgCommit i) s = .next (ans 0x12 stBadState [] s)) ∧
      (takesImage s = true →
        (∀ n, n ≤ 1572864 → exec (.imgBegin n) s = .next (ans 0x10 stOk [] { s with pkg := { s.pkg with imgLen := some n, imgGot := 0 } })) ∧
        (∀ n, 1572864 < n → exec (.imgBegin n) s = .next (ans 0x10 stMalformed [] s)) ∧
        (∀ len n, s.pkg.imgLen = some len →
          (1 ≤ n → n ≤ 65536 → s.pkg.imgGot + n ≤ len → exec (.imgData s.pkg.imgGot n) s =
            .next (ans 0x11 stOk [] { s with pkg := { s.pkg with imgGot := s.pkg.imgGot + n } })) ∧
          (n = 0 ∨ 65536 < n ∨ len < s.pkg.imgGot + n → exec (.imgData s.pkg.imgGot n) s = .next (ans 0x11 stMalformed [] s))) ∧
        (∀ o n, o ≠ s.pkg.imgGot ∨ s.pkg.imgLen = none → exec (.imgData o n) s = .next (ans 0x11 stBadState [] s)) ∧
        (∀ i, s.pkg.imgLen ≠ some s.pkg.imgGot → exec (.imgCommit i) s = .next (ans 0x12 stBadState [] s)) ∧
        (∀ i, s.pkg.imgLen = some s.pkg.imgGot →
          (imageReason s (some i) = 0 → exec (.imgCommit i) s =
            .next (emit .flashWrite (ans 0x12 stOk [] { s with pkg := { s.pkg with writing := true, imgNew := some i } }))) ∧
          (imageReason s (some i) ≠ 0 → exec (.imgCommit i) s = .next (ans 0x12 (commitStatus (imageReason s (some i))) [] s))))) ∧
    (∀ ok env, (s.pkg.writing = true → s.pkg.phase = .recovery → exec (.imageWriteDone ok env) s =
        .next (start true env { s with flash := { s.flash with image := if ok then s.pkg.imgNew else none } })) ∧
      (s.pkg.writing = false ∨ s.pkg.phase ≠ .recovery → exec (.imageWriteDone ok env) s = .next s))

/-- R353, R105, R113, R349, R350, R352; Table 13-4. What the model settles there is in log entries 135 to 141. -/
def Obligations.TapInstructions : Prop :=
  (∀ (c : Instr) (n : Nat) (s : State), tapUnder c = some n → tapRight s n = false → exec c s = .next (emit (.tdo []) s)) ∧
  (∀ (s : State),
    let seen := Host.Outcome.next (bumpOpen (emit (.tdo [opened s]) s))
    (∀ c, exec (.bypass c) s = .next (emit (.tdo []) s)) ∧ exec .idcode s = .next (emit (.tdo [Config.idcode]) s) ∧
    exec .extest s = seen ∧ exec .samplePreload s = seen ∧
    (tapRight s 1 = true → exec .statusRd s = .next (emit (.tdo (statusWords s)) s)) ∧
    (tapRight s 2 = true → exec .ctrRd s = .next (emit (.tapCounts (readView .package .pf 0 [] s).1) s)) ∧
    (tapRight s 11 = true → ∀ k, exec (.ksMetaRd k) s = .next (emit (.tdo (metaWords k s)) s)) ∧
    (tapRight s 12 = true → ∀ k, exec (.otpRd k) s = .next (emit (.tdo [otpWord s.otp k]) s)) ∧
    (∀ k d p h l, otpWord { s.otp with drs := d, pairing := p, authority := h, floor := l } k = otpWord s.otp k) ∧
    (∀ f, tapRight s (if f = .pf then 3 else 15) = true → ∃ t, exec (.traceRd f []) s = .next t ∧
      t.out = s.out ++ [.tapTrace f ((mapGet {} s.tabor.trace f.key).blocks.flatMap (·.recs)) (mapGet {} s.tabor.trace f.key).lost] ∧
      (mapGet {} t.tabor.trace f.key).blocks = [] ∧ t = { s with out := t.out, tabor := { s.tabor with trace := t.tabor.trace } }) ∧
    (tapRight s 9 = true → (∀ v, dataReach s v = true → exec (.tileDbg (.vf v)) s = .next (emit (.debugMaster true) s)) ∧
      (∀ v, dataReach s v = false → exec (.tileDbg (.vf v)) s = .next (emit (.debugMaster false) (countFn .pf 0x2D s))) ∧
      exec (.tileDbg .pf) s = .next (emit (.debugMaster false) (countFn .pf 0x2D s))) ∧
    (let may := tapRight s 5 || tapRight s 6 || tapRight s 7 || tapRight s 8
     (may = false → ∀ t w, exec (.memPort t w) s = .next (emit (.tdo []) s)) ∧
     (may = true → (∀ f a n w, (fwAllows s .debugMaster f a.toNat n w = true →
          exec (.memPort (.memory f a n) w) s = .next (emit (.debugMaster true) (if w then markWrite f a.toNat n s else s))) ∧
        (fwAllows s .debugMaster f a.toNat n w = false →
          exec (.memPort (.memory f a n) w) s = .next (emit (.debugMaster false) (countRefused .pf a.toNat n s)))) ∧
      ∀ e o n l w, exec (.memPort (.pool e o n l) w) s = .next (debugPool e o n l w s))) ∧
    (tapRight s 17 = true → exec .ctrlDbg s = seen) ∧ (tapRight s 19 = true → exec .entropyRd s = seen) ∧
    (tapRight s 20 = true → exec .kxeDbg s = seen) ∧
    (tapRight s 13 = true → exec .scanAon s = .next (afterReset false (bumpOpen (emit (.tdo [opened s]) s)))) ∧
    (tapRight s 18 = true → exec .scanCipher s = .next (afterReset false (bumpOpen (emit (.tdo [opened s]) s)))) ∧
    (lcMailOpen s = true → exec (.lcMbox .status) s = .next (emit (.tapLc stOk 0 (some (lcStatusOf s)) none) s) ∧
      (serving s = false → exec (.lcMbox .challenge) s = .next (emit (.tapLc stBadState ((lcState s).setWidth 32) none none) s) ∧
        ∀ r e, exec (.lcMbox (.transition r e)) s = .next (emit (.tapLc stBadState ((lcState s).setWidth 32) none none) s)) ∧
      (serving s = true → (lcBusy s = none → exec (.lcMbox .challenge) s = .next (emit (.tapLc stOk 0 none (some (drawn s)))
          { s with aon := { s.aon with nonce := some (drawn s) }, draws := s.draws + 1 })) ∧
        ∀ r e, let u := { s with aon := { s.aon with nonce := none } }
          (∀ st d, firstFail (lcFields s r ++ [lcBusy s, lcStateCheck s r, lcLimits s r]) = some (st, d) →
            exec (.lcMbox (.transition r e)) s = .next (emit (.tapLc st d none none) s)) ∧
          (firstFail (lcFields s r ++ [lcBusy s, lcStateCheck s r, lcLimits s r]) = none →
            (lcAuth s r = false → exec (.lcMbox (.transition r e)) s = .next (emit (.tapLc stAuthFailed 0 none none) u)) ∧
            (lcAuth s r = true → exec (.lcMbox (.transition r e)) s = .next (tapRun r e u))))) ∧
    (lcMailOpen s = false → ∀ o, exec (.lcMbox o) s = .next (emit (.tdo []) s)) ∧
    (s.pkg.phase = .off → ∀ o c, exec (.dbgMbox o c) s = .next (emit (.tdo []) s)) ∧
    (s.pkg.phase ≠ .off → ∀ c, (∀ o, o ≠ 0x68 → o ≠ 0x69 → exec (.dbgMbox o c) s = .next (emit (.tapDbg stOk 0 (rightsInForce s)) s)) ∧
      (serving s = false → exec (.dbgMbox 0x68 c) s = .next (emit (.tapDbg stBadState ((lcState s).setWidth 32) (rightsInForce s)) s) ∧
        exec (.dbgMbox 0x69 c) s = .next (emit (.tapDbg stBadState ((lcState s).setWidth 32) (rightsInForce s)) s)) ∧
      (serving s = true →
        (s.grant = none → exec (.dbgMbox 0x69 c) s = .next (emit (.tapDbg stOk 0 (rightsInForce s)) s)) ∧
        (∀ g, s.grant = some g → exec (.dbgMbox 0x69 c) s = .next (settle { revokeGrant g s with tapRevoke := some g.kid })) ∧
        (∀ st d, firstFail (certFields c ++ certPermitted s c ++ [certState s c, certBusy s, intSlotCheck s]) = some (st, d) →
          exec (.dbgMbox 0x68 c) s = .next (emit (.tapDbg st d (rightsInForce s)) s)) ∧
        (firstFail (certFields c ++ certPermitted s c ++ [certState s c, certBusy s, intSlotCheck s]) = none →
          (certAuth s c = false → exec (.dbgMbox 0x68 c) s = .next (emit (.tapDbg stAuthFailed 0 (rightsInForce s)) s)) ∧
          (certAuth s c = true →
            let w := applyGrant c (reserveInt s).1 (reserveInt s).2
            exec (.dbgMbox 0x68 c) s = .next (settle (emit (.tapDbg stOk 0 (rightsInForce w)) w)))))))

/-- R80, R113: over every step, from every state. What the model settles there is in log entry 27. -/
def Obligations.FusesOnlyBurn : Prop :=
  ∀ (s t : State), step s = .next t → OtpLe s.otp t.otp

/-- No command faults, is refused, or touches the queue behind it. What the model settles there is in log entries 4, 6. -/
def Obligations.StepTakesOneCommand : Prop :=
  ∀ (c : Instr) (rest : List Instr) (s : State), ∃ t, step { s with pending := c :: rest } = .next t ∧ t.pending = rest ∧ s.out <+: t.out
end

