-- ==== Sys2Proof/Laws/Map.lean ====
section
/-! SUPPORT. What the sparse tables' operations do: reads after writes, and the canonical form they keep. -/
namespace Sys2Proof.Machine

theorem mapFind_mapSet {β : Type} (m : FMap β) (k j : Nat) (v : β) :
    mapFind (mapSet m k v) j = if j = k then some v else mapFind m j := by
  fun_induction mapSet m k v <;> simp_all [mapFind] <;> grind

@[simp] theorem mapFind_mapSet_self {β : Type} (m : FMap β) (k : Nat) (v : β) : mapFind (mapSet m k v) k = some v := by
  simp [mapFind_mapSet]

theorem mapFind_mapSet_ne {β : Type} (m : FMap β) (k j : Nat) (v : β) (h : j ≠ k) : mapFind (mapSet m k v) j = mapFind m j := by
  simp [mapFind_mapSet, h]

theorem mapFind_mapErase {β : Type} (m : FMap β) (k j : Nat) :
    mapFind (mapErase m k) j = if j = k then none else mapFind m j := by
  fun_induction mapErase m k <;> simp_all [mapFind] <;> grind

@[simp] theorem mapGet_mapSet_self {β : Type} (d : β) (m : FMap β) (k : Nat) (v : β) : mapGet d (mapSet m k v) k = v := by
  simp [mapGet]

theorem mapGet_mapSet_ne {β : Type} (d : β) (m : FMap β) (k j : Nat) (v : β) (h : j ≠ k) :
    mapGet d (mapSet m k v) j = mapGet d m j := by
  simp [mapGet, mapFind_mapSet_ne _ _ _ _ h]

theorem mapGet_mapPut {β : Type} [DecidableEq β] (d : β) (m : FMap β) (k j : Nat) (v : β) :
    mapGet d (mapPut d m k v) j = if j = k then v else mapGet d m j := by
  unfold mapPut mapGet
  split <;> simp [mapFind_mapErase, mapFind_mapSet] <;> split <;> simp_all

@[simp] theorem mapGet_mapMod_self {β : Type} (d : β) (m : FMap β) (k : Nat) (f : β → β) :
    mapGet d (mapMod d m k f) k = f (mapGet d m k) := by simp [mapMod]

theorem mapGet_mapMod_ne {β : Type} (d : β) (m : FMap β) (k j : Nat) (f : β → β) (h : j ≠ k) :
    mapGet d (mapMod d m k f) j = mapGet d m j := mapGet_mapSet_ne _ _ _ _ _ h

theorem mapWf_cons {β : Type} (j : Nat) (w : β) (m : FMap β) :
    mapWf ((j, w) :: m) = true ↔ (∀ e ∈ m, j < e.1) ∧ mapWf m = true := by
  induction m generalizing j w with
  | nil => simp [mapWf]
  | cons e m ih =>
    obtain ⟨k, v⟩ := e
    simp only [mapWf, Bool.and_eq_true, decide_eq_true_eq, ih, List.mem_cons, forall_eq_or_imp]
    constructor
    · rintro ⟨h1, h2, h3⟩; exact ⟨⟨h1, fun a ha => Nat.lt_trans h1 (h2 a ha)⟩, h2, h3⟩
    · rintro ⟨⟨h1, _⟩, h2, h3⟩; exact ⟨h1, h2, h3⟩

theorem mem_mapSet {β : Type} (m : FMap β) (k : Nat) (v : β) (e : Nat × β) : e ∈ mapSet m k v → e = (k, v) ∨ e ∈ m := by
  fun_induction mapSet m k v <;> simp_all <;> grind

theorem mem_mapErase {β : Type} (m : FMap β) (k : Nat) (e : Nat × β) : e ∈ mapErase m k → e ∈ m := by
  fun_induction mapErase m k <;> simp_all <;> grind

theorem mapWf_mapSet {β : Type} (m : FMap β) (k : Nat) (v : β) (h : mapWf m = true) : mapWf (mapSet m k v) = true := by
  fun_induction mapSet m k v with
  | case1 => simp [mapWf]
  | case2 k v j w m hlt => grind [mapWf_cons]
  | case3 k v w m hge => grind [mapWf_cons]
  | case4 k v j w m h1 h2 ih =>
    rw [mapWf_cons] at h ⊢
    refine ⟨fun e he => ?_, ih h.2⟩
    rcases mem_mapSet _ _ _ _ he with rfl | he
    · simp; omega
    · exact h.1 e he

theorem mapWf_mapErase {β : Type} (m : FMap β) (k : Nat) (h : mapWf m = true) : mapWf (mapErase m k) = true := by
  induction m with
  | nil => simp [mapErase, mapWf]
  | cons e m ih =>
    obtain ⟨j, w⟩ := e
    rw [mapWf_cons] at h
    unfold mapErase
    split
    · exact ih h.2
    · rw [mapWf_cons]
      exact ⟨fun e he => h.1 e (mem_mapErase _ _ _ he), ih h.2⟩

end Sys2Proof.Machine
end

