-- ==== Sys2Proof/Laws/State.lean ====
section
/-! SUPPORT. Each named update of the state, field by field. -/
namespace Sys2Proof.Machine

/-! ### `emit` -/

@[simp] theorem emit_pending (o : Output) (s : State) : (emit o s).pending = s.pending := rfl
@[simp] theorem emit_out (o : Output) (s : State) : (emit o s).out = s.out ++ [o] := rfl
@[simp] theorem emit_draws (o : Output) (s : State) : (emit o s).draws = s.draws := rfl
@[simp] theorem emit_opens (o : Output) (s : State) : (emit o s).opens = s.opens := rfl
@[simp] theorem emit_k3s (o : Output) (s : State) : (emit o s).k3s = s.k3s := rfl
@[simp] theorem emit_late (o : Output) (s : State) : (emit o s).late = s.late := rfl
@[simp] theorem emit_tapRevoke (o : Output) (s : State) : (emit o s).tapRevoke = s.tapRevoke := rfl
@[simp] theorem emit_reads (o : Output) (s : State) : (emit o s).reads = s.reads := rfl
@[simp] theorem emit_loops (o : Output) (s : State) : (emit o s).loops = s.loops := rfl
@[simp] theorem emit_parked (o : Output) (s : State) : (emit o s).parked = s.parked := rfl
@[simp] theorem emit_mailArb (o : Output) (s : State) : (emit o s).mailArb = s.mailArb := rfl
@[simp] theorem emit_pkg (o : Output) (s : State) : (emit o s).pkg = s.pkg := rfl
@[simp] theorem emit_otp (o : Output) (s : State) : (emit o s).otp = s.otp := rfl
@[simp] theorem emit_aon (o : Output) (s : State) : (emit o s).aon = s.aon := rfl
@[simp] theorem emit_flash (o : Output) (s : State) : (emit o s).flash = s.flash := rfl
@[simp] theorem emit_fns (o : Output) (s : State) : (emit o s).fns = s.fns := rfl
@[simp] theorem emit_prog (o : Output) (s : State) : (emit o s).prog = s.prog := rfl
@[simp] theorem emit_scan (o : Output) (s : State) : (emit o s).scan = s.scan := rfl
@[simp] theorem emit_ks (o : Output) (s : State) : (emit o s).ks = s.ks := rfl
@[simp] theorem emit_fab (o : Output) (s : State) : (emit o s).fab = s.fab := rfl
@[simp] theorem emit_ports (o : Output) (s : State) : (emit o s).ports = s.ports := rfl
@[simp] theorem emit_sends (o : Output) (s : State) : (emit o s).sends = s.sends := rfl
@[simp] theorem emit_recvs (o : Output) (s : State) : (emit o s).recvs = s.recvs := rfl
@[simp] theorem emit_gone (o : Output) (s : State) : (emit o s).gone = s.gone := rfl
@[simp] theorem emit_sent (o : Output) (s : State) : (emit o s).sent = s.sent := rfl
@[simp] theorem emit_openReqs (o : Output) (s : State) : (emit o s).openReqs = s.openReqs := rfl
@[simp] theorem emit_waits (o : Output) (s : State) : (emit o s).waits = s.waits := rfl
@[simp] theorem emit_snare (o : Output) (s : State) : (emit o s).snare = s.snare := rfl
@[simp] theorem emit_localSnare (o : Output) (s : State) : (emit o s).localSnare = s.localSnare := rfl
@[simp] theorem emit_writes (o : Output) (s : State) : (emit o s).writes = s.writes := rfl
@[simp] theorem emit_nextWrite (o : Output) (s : State) : (emit o s).nextWrite = s.nextWrite := rfl
@[simp] theorem emit_filter (o : Output) (s : State) : (emit o s).filter = s.filter := rfl
@[simp] theorem emit_members (o : Output) (s : State) : (emit o s).members = s.members := rfl
@[simp] theorem emit_nextTag (o : Output) (s : State) : (emit o s).nextTag = s.nextTag := rfl
@[simp] theorem emit_regions (o : Output) (s : State) : (emit o s).regions = s.regions := rfl
@[simp] theorem emit_nextRegion (o : Output) (s : State) : (emit o s).nextRegion = s.nextRegion := rfl
@[simp] theorem emit_made (o : Output) (s : State) : (emit o s).made = s.made := rfl
@[simp] theorem emit_exch (o : Output) (s : State) : (emit o s).exch = s.exch := rfl
@[simp] theorem emit_nextXid (o : Output) (s : State) : (emit o s).nextXid = s.nextXid := rfl
@[simp] theorem emit_jobs (o : Output) (s : State) : (emit o s).jobs = s.jobs := rfl
@[simp] theorem emit_nextJob (o : Output) (s : State) : (emit o s).nextJob = s.nextJob := rfl
@[simp] theorem emit_poolClock (o : Output) (s : State) : (emit o s).poolClock = s.poolClock := rfl
@[simp] theorem emit_homes (o : Output) (s : State) : (emit o s).homes = s.homes := rfl
@[simp] theorem emit_carves (o : Output) (s : State) : (emit o s).carves = s.carves := rfl
@[simp] theorem emit_staged (o : Output) (s : State) : (emit o s).staged = s.staged := rfl
@[simp] theorem emit_fabEpoch (o : Output) (s : State) : (emit o s).fabEpoch = s.fabEpoch := rfl
@[simp] theorem emit_scrub (o : Output) (s : State) : (emit o s).scrub = s.scrub := rfl
@[simp] theorem emit_accesses (o : Output) (s : State) : (emit o s).accesses = s.accesses := rfl
@[simp] theorem emit_tabor (o : Output) (s : State) : (emit o s).tabor = s.tabor := rfl
@[simp] theorem emit_grant (o : Output) (s : State) : (emit o s).grant = s.grant := rfl
@[simp] theorem emit_ptb (o : Output) (s : State) : (emit o s).ptb = s.ptb := rfl
@[simp] theorem emit_mail0 (o : Output) (s : State) : (emit o s).mail0 = s.mail0 := rfl
@[simp] theorem emit_mail1 (o : Output) (s : State) : (emit o s).mail1 = s.mail1 := rfl
@[simp] theorem emit_nextSession (o : Output) (s : State) : (emit o s).nextSession = s.nextSession := rfl
@[simp] theorem emit_ide (o : Output) (s : State) : (emit o s).ide = s.ide := rfl
@[simp] theorem emit_bulk (o : Output) (s : State) : (emit o s).bulk = s.bulk := rfl
@[simp] theorem emit_bulkReuse (o : Output) (s : State) : (emit o s).bulkReuse = s.bulkReuse := rfl
@[simp] theorem emit_replayEngine (o : Output) (s : State) : (emit o s).replayEngine = s.replayEngine := rfl

/-! ### `bumpDraw` -/

@[simp] theorem bumpDraw_pending (s : State) : (bumpDraw s).pending = s.pending := rfl
@[simp] theorem bumpDraw_out (s : State) : (bumpDraw s).out = s.out := rfl
@[simp] theorem bumpDraw_draws (s : State) : (bumpDraw s).draws = s.draws + 1 := rfl
@[simp] theorem bumpDraw_opens (s : State) : (bumpDraw s).opens = s.opens := rfl
@[simp] theorem bumpDraw_k3s (s : State) : (bumpDraw s).k3s = s.k3s := rfl
@[simp] theorem bumpDraw_late (s : State) : (bumpDraw s).late = s.late := rfl
@[simp] theorem bumpDraw_tapRevoke (s : State) : (bumpDraw s).tapRevoke = s.tapRevoke := rfl
@[simp] theorem bumpDraw_reads (s : State) : (bumpDraw s).reads = s.reads := rfl
@[simp] theorem bumpDraw_loops (s : State) : (bumpDraw s).loops = s.loops := rfl
@[simp] theorem bumpDraw_parked (s : State) : (bumpDraw s).parked = s.parked := rfl
@[simp] theorem bumpDraw_mailArb (s : State) : (bumpDraw s).mailArb = s.mailArb := rfl
@[simp] theorem bumpDraw_pkg (s : State) : (bumpDraw s).pkg = s.pkg := rfl
@[simp] theorem bumpDraw_otp (s : State) : (bumpDraw s).otp = s.otp := rfl
@[simp] theorem bumpDraw_aon (s : State) : (bumpDraw s).aon = s.aon := rfl
@[simp] theorem bumpDraw_flash (s : State) : (bumpDraw s).flash = s.flash := rfl
@[simp] theorem bumpDraw_fns (s : State) : (bumpDraw s).fns = s.fns := rfl
@[simp] theorem bumpDraw_prog (s : State) : (bumpDraw s).prog = s.prog := rfl
@[simp] theorem bumpDraw_scan (s : State) : (bumpDraw s).scan = s.scan := rfl
@[simp] theorem bumpDraw_ks (s : State) : (bumpDraw s).ks = s.ks := rfl
@[simp] theorem bumpDraw_fab (s : State) : (bumpDraw s).fab = s.fab := rfl
@[simp] theorem bumpDraw_ports (s : State) : (bumpDraw s).ports = s.ports := rfl
@[simp] theorem bumpDraw_sends (s : State) : (bumpDraw s).sends = s.sends := rfl
@[simp] theorem bumpDraw_recvs (s : State) : (bumpDraw s).recvs = s.recvs := rfl
@[simp] theorem bumpDraw_gone (s : State) : (bumpDraw s).gone = s.gone := rfl
@[simp] theorem bumpDraw_sent (s : State) : (bumpDraw s).sent = s.sent := rfl
@[simp] theorem bumpDraw_openReqs (s : State) : (bumpDraw s).openReqs = s.openReqs := rfl
@[simp] theorem bumpDraw_waits (s : State) : (bumpDraw s).waits = s.waits := rfl
@[simp] theorem bumpDraw_snare (s : State) : (bumpDraw s).snare = s.snare := rfl
@[simp] theorem bumpDraw_localSnare (s : State) : (bumpDraw s).localSnare = s.localSnare := rfl
@[simp] theorem bumpDraw_writes (s : State) : (bumpDraw s).writes = s.writes := rfl
@[simp] theorem bumpDraw_nextWrite (s : State) : (bumpDraw s).nextWrite = s.nextWrite := rfl
@[simp] theorem bumpDraw_filter (s : State) : (bumpDraw s).filter = s.filter := rfl
@[simp] theorem bumpDraw_members (s : State) : (bumpDraw s).members = s.members := rfl
@[simp] theorem bumpDraw_nextTag (s : State) : (bumpDraw s).nextTag = s.nextTag := rfl
@[simp] theorem bumpDraw_regions (s : State) : (bumpDraw s).regions = s.regions := rfl
@[simp] theorem bumpDraw_nextRegion (s : State) : (bumpDraw s).nextRegion = s.nextRegion := rfl
@[simp] theorem bumpDraw_made (s : State) : (bumpDraw s).made = s.made := rfl
@[simp] theorem bumpDraw_exch (s : State) : (bumpDraw s).exch = s.exch := rfl
@[simp] theorem bumpDraw_nextXid (s : State) : (bumpDraw s).nextXid = s.nextXid := rfl
@[simp] theorem bumpDraw_jobs (s : State) : (bumpDraw s).jobs = s.jobs := rfl
@[simp] theorem bumpDraw_nextJob (s : State) : (bumpDraw s).nextJob = s.nextJob := rfl
@[simp] theorem bumpDraw_poolClock (s : State) : (bumpDraw s).poolClock = s.poolClock := rfl
@[simp] theorem bumpDraw_homes (s : State) : (bumpDraw s).homes = s.homes := rfl
@[simp] theorem bumpDraw_carves (s : State) : (bumpDraw s).carves = s.carves := rfl
@[simp] theorem bumpDraw_staged (s : State) : (bumpDraw s).staged = s.staged := rfl
@[simp] theorem bumpDraw_fabEpoch (s : State) : (bumpDraw s).fabEpoch = s.fabEpoch := rfl
@[simp] theorem bumpDraw_scrub (s : State) : (bumpDraw s).scrub = s.scrub := rfl
@[simp] theorem bumpDraw_accesses (s : State) : (bumpDraw s).accesses = s.accesses := rfl
@[simp] theorem bumpDraw_tabor (s : State) : (bumpDraw s).tabor = s.tabor := rfl
@[simp] theorem bumpDraw_grant (s : State) : (bumpDraw s).grant = s.grant := rfl
@[simp] theorem bumpDraw_ptb (s : State) : (bumpDraw s).ptb = s.ptb := rfl
@[simp] theorem bumpDraw_mail0 (s : State) : (bumpDraw s).mail0 = s.mail0 := rfl
@[simp] theorem bumpDraw_mail1 (s : State) : (bumpDraw s).mail1 = s.mail1 := rfl
@[simp] theorem bumpDraw_nextSession (s : State) : (bumpDraw s).nextSession = s.nextSession := rfl
@[simp] theorem bumpDraw_ide (s : State) : (bumpDraw s).ide = s.ide := rfl
@[simp] theorem bumpDraw_bulk (s : State) : (bumpDraw s).bulk = s.bulk := rfl
@[simp] theorem bumpDraw_bulkReuse (s : State) : (bumpDraw s).bulkReuse = s.bulkReuse := rfl
@[simp] theorem bumpDraw_replayEngine (s : State) : (bumpDraw s).replayEngine = s.replayEngine := rfl

/-! ### `bumpOpen` -/

@[simp] theorem bumpOpen_pending (s : State) : (bumpOpen s).pending = s.pending := rfl
@[simp] theorem bumpOpen_out (s : State) : (bumpOpen s).out = s.out := rfl
@[simp] theorem bumpOpen_draws (s : State) : (bumpOpen s).draws = s.draws := rfl
@[simp] theorem bumpOpen_opens (s : State) : (bumpOpen s).opens = s.opens + 1 := rfl
@[simp] theorem bumpOpen_k3s (s : State) : (bumpOpen s).k3s = s.k3s := rfl
@[simp] theorem bumpOpen_late (s : State) : (bumpOpen s).late = s.late := rfl
@[simp] theorem bumpOpen_tapRevoke (s : State) : (bumpOpen s).tapRevoke = s.tapRevoke := rfl
@[simp] theorem bumpOpen_reads (s : State) : (bumpOpen s).reads = s.reads := rfl
@[simp] theorem bumpOpen_loops (s : State) : (bumpOpen s).loops = s.loops := rfl
@[simp] theorem bumpOpen_parked (s : State) : (bumpOpen s).parked = s.parked := rfl
@[simp] theorem bumpOpen_mailArb (s : State) : (bumpOpen s).mailArb = s.mailArb := rfl
@[simp] theorem bumpOpen_pkg (s : State) : (bumpOpen s).pkg = s.pkg := rfl
@[simp] theorem bumpOpen_otp (s : State) : (bumpOpen s).otp = s.otp := rfl
@[simp] theorem bumpOpen_aon (s : State) : (bumpOpen s).aon = s.aon := rfl
@[simp] theorem bumpOpen_flash (s : State) : (bumpOpen s).flash = s.flash := rfl
@[simp] theorem bumpOpen_fns (s : State) : (bumpOpen s).fns = s.fns := rfl
@[simp] theorem bumpOpen_prog (s : State) : (bumpOpen s).prog = s.prog := rfl
@[simp] theorem bumpOpen_scan (s : State) : (bumpOpen s).scan = s.scan := rfl
@[simp] theorem bumpOpen_ks (s : State) : (bumpOpen s).ks = s.ks := rfl
@[simp] theorem bumpOpen_fab (s : State) : (bumpOpen s).fab = s.fab := rfl
@[simp] theorem bumpOpen_ports (s : State) : (bumpOpen s).ports = s.ports := rfl
@[simp] theorem bumpOpen_sends (s : State) : (bumpOpen s).sends = s.sends := rfl
@[simp] theorem bumpOpen_recvs (s : State) : (bumpOpen s).recvs = s.recvs := rfl
@[simp] theorem bumpOpen_gone (s : State) : (bumpOpen s).gone = s.gone := rfl
@[simp] theorem bumpOpen_sent (s : State) : (bumpOpen s).sent = s.sent := rfl
@[simp] theorem bumpOpen_openReqs (s : State) : (bumpOpen s).openReqs = s.openReqs := rfl
@[simp] theorem bumpOpen_waits (s : State) : (bumpOpen s).waits = s.waits := rfl
@[simp] theorem bumpOpen_snare (s : State) : (bumpOpen s).snare = s.snare := rfl
@[simp] theorem bumpOpen_localSnare (s : State) : (bumpOpen s).localSnare = s.localSnare := rfl
@[simp] theorem bumpOpen_writes (s : State) : (bumpOpen s).writes = s.writes := rfl
@[simp] theorem bumpOpen_nextWrite (s : State) : (bumpOpen s).nextWrite = s.nextWrite := rfl
@[simp] theorem bumpOpen_filter (s : State) : (bumpOpen s).filter = s.filter := rfl
@[simp] theorem bumpOpen_members (s : State) : (bumpOpen s).members = s.members := rfl
@[simp] theorem bumpOpen_nextTag (s : State) : (bumpOpen s).nextTag = s.nextTag := rfl
@[simp] theorem bumpOpen_regions (s : State) : (bumpOpen s).regions = s.regions := rfl
@[simp] theorem bumpOpen_nextRegion (s : State) : (bumpOpen s).nextRegion = s.nextRegion := rfl
@[simp] theorem bumpOpen_made (s : State) : (bumpOpen s).made = s.made := rfl
@[simp] theorem bumpOpen_exch (s : State) : (bumpOpen s).exch = s.exch := rfl
@[simp] theorem bumpOpen_nextXid (s : State) : (bumpOpen s).nextXid = s.nextXid := rfl
@[simp] theorem bumpOpen_jobs (s : State) : (bumpOpen s).jobs = s.jobs := rfl
@[simp] theorem bumpOpen_nextJob (s : State) : (bumpOpen s).nextJob = s.nextJob := rfl
@[simp] theorem bumpOpen_poolClock (s : State) : (bumpOpen s).poolClock = s.poolClock := rfl
@[simp] theorem bumpOpen_homes (s : State) : (bumpOpen s).homes = s.homes := rfl
@[simp] theorem bumpOpen_carves (s : State) : (bumpOpen s).carves = s.carves := rfl
@[simp] theorem bumpOpen_staged (s : State) : (bumpOpen s).staged = s.staged := rfl
@[simp] theorem bumpOpen_fabEpoch (s : State) : (bumpOpen s).fabEpoch = s.fabEpoch := rfl
@[simp] theorem bumpOpen_scrub (s : State) : (bumpOpen s).scrub = s.scrub := rfl
@[simp] theorem bumpOpen_accesses (s : State) : (bumpOpen s).accesses = s.accesses := rfl
@[simp] theorem bumpOpen_tabor (s : State) : (bumpOpen s).tabor = s.tabor := rfl
@[simp] theorem bumpOpen_grant (s : State) : (bumpOpen s).grant = s.grant := rfl
@[simp] theorem bumpOpen_ptb (s : State) : (bumpOpen s).ptb = s.ptb := rfl
@[simp] theorem bumpOpen_mail0 (s : State) : (bumpOpen s).mail0 = s.mail0 := rfl
@[simp] theorem bumpOpen_mail1 (s : State) : (bumpOpen s).mail1 = s.mail1 := rfl
@[simp] theorem bumpOpen_nextSession (s : State) : (bumpOpen s).nextSession = s.nextSession := rfl
@[simp] theorem bumpOpen_ide (s : State) : (bumpOpen s).ide = s.ide := rfl
@[simp] theorem bumpOpen_bulk (s : State) : (bumpOpen s).bulk = s.bulk := rfl
@[simp] theorem bumpOpen_bulkReuse (s : State) : (bumpOpen s).bulkReuse = s.bulkReuse := rfl
@[simp] theorem bumpOpen_replayEngine (s : State) : (bumpOpen s).replayEngine = s.replayEngine := rfl

/-! ### `fnMod` -/

@[simp] theorem fnMod_pending (f : Fn) (g : FnSt → FnSt) (s : State) : (fnMod f g s).pending = s.pending := rfl
@[simp] theorem fnMod_out (f : Fn) (g : FnSt → FnSt) (s : State) : (fnMod f g s).out = s.out := rfl
@[simp] theorem fnMod_draws (f : Fn) (g : FnSt → FnSt) (s : State) : (fnMod f g s).draws = s.draws := rfl
@[simp] theorem fnMod_opens (f : Fn) (g : FnSt → FnSt) (s : State) : (fnMod f g s).opens = s.opens := rfl
@[simp] theorem fnMod_k3s (f : Fn) (g : FnSt → FnSt) (s : State) : (fnMod f g s).k3s = s.k3s := rfl
@[simp] theorem fnMod_late (f : Fn) (g : FnSt → FnSt) (s : State) : (fnMod f g s).late = s.late := rfl
@[simp] theorem fnMod_tapRevoke (f : Fn) (g : FnSt → FnSt) (s : State) : (fnMod f g s).tapRevoke = s.tapRevoke := rfl
@[simp] theorem fnMod_reads (f : Fn) (g : FnSt → FnSt) (s : State) : (fnMod f g s).reads = s.reads := rfl
@[simp] theorem fnMod_loops (f : Fn) (g : FnSt → FnSt) (s : State) : (fnMod f g s).loops = s.loops := rfl
@[simp] theorem fnMod_parked (f : Fn) (g : FnSt → FnSt) (s : State) : (fnMod f g s).parked = s.parked := rfl
@[simp] theorem fnMod_mailArb (f : Fn) (g : FnSt → FnSt) (s : State) : (fnMod f g s).mailArb = s.mailArb := rfl
@[simp] theorem fnMod_pkg (f : Fn) (g : FnSt → FnSt) (s : State) : (fnMod f g s).pkg = s.pkg := rfl
@[simp] theorem fnMod_otp (f : Fn) (g : FnSt → FnSt) (s : State) : (fnMod f g s).otp = s.otp := rfl
@[simp] theorem fnMod_aon (f : Fn) (g : FnSt → FnSt) (s : State) : (fnMod f g s).aon = s.aon := rfl
@[simp] theorem fnMod_flash (f : Fn) (g : FnSt → FnSt) (s : State) : (fnMod f g s).flash = s.flash := rfl
@[simp] theorem fnMod_prog (f : Fn) (g : FnSt → FnSt) (s : State) : (fnMod f g s).prog = s.prog := rfl
@[simp] theorem fnMod_scan (f : Fn) (g : FnSt → FnSt) (s : State) : (fnMod f g s).scan = s.scan := rfl
@[simp] theorem fnMod_ks (f : Fn) (g : FnSt → FnSt) (s : State) : (fnMod f g s).ks = s.ks := rfl
@[simp] theorem fnMod_fab (f : Fn) (g : FnSt → FnSt) (s : State) : (fnMod f g s).fab = s.fab := rfl
@[simp] theorem fnMod_ports (f : Fn) (g : FnSt → FnSt) (s : State) : (fnMod f g s).ports = s.ports := rfl
@[simp] theorem fnMod_sends (f : Fn) (g : FnSt → FnSt) (s : State) : (fnMod f g s).sends = s.sends := rfl
@[simp] theorem fnMod_recvs (f : Fn) (g : FnSt → FnSt) (s : State) : (fnMod f g s).recvs = s.recvs := rfl
@[simp] theorem fnMod_gone (f : Fn) (g : FnSt → FnSt) (s : State) : (fnMod f g s).gone = s.gone := rfl
@[simp] theorem fnMod_sent (f : Fn) (g : FnSt → FnSt) (s : State) : (fnMod f g s).sent = s.sent := rfl
@[simp] theorem fnMod_openReqs (f : Fn) (g : FnSt → FnSt) (s : State) : (fnMod f g s).openReqs = s.openReqs := rfl
@[simp] theorem fnMod_waits (f : Fn) (g : FnSt → FnSt) (s : State) : (fnMod f g s).waits = s.waits := rfl
@[simp] theorem fnMod_snare (f : Fn) (g : FnSt → FnSt) (s : State) : (fnMod f g s).snare = s.snare := rfl
@[simp] theorem fnMod_localSnare (f : Fn) (g : FnSt → FnSt) (s : State) : (fnMod f g s).localSnare = s.localSnare := rfl
@[simp] theorem fnMod_writes (f : Fn) (g : FnSt → FnSt) (s : State) : (fnMod f g s).writes = s.writes := rfl
@[simp] theorem fnMod_nextWrite (f : Fn) (g : FnSt → FnSt) (s : State) : (fnMod f g s).nextWrite = s.nextWrite := rfl
@[simp] theorem fnMod_filter (f : Fn) (g : FnSt → FnSt) (s : State) : (fnMod f g s).filter = s.filter := rfl
@[simp] theorem fnMod_members (f : Fn) (g : FnSt → FnSt) (s : State) : (fnMod f g s).members = s.members := rfl
@[simp] theorem fnMod_nextTag (f : Fn) (g : FnSt → FnSt) (s : State) : (fnMod f g s).nextTag = s.nextTag := rfl
@[simp] theorem fnMod_regions (f : Fn) (g : FnSt → FnSt) (s : State) : (fnMod f g s).regions = s.regions := rfl
@[simp] theorem fnMod_nextRegion (f : Fn) (g : FnSt → FnSt) (s : State) : (fnMod f g s).nextRegion = s.nextRegion := rfl
@[simp] theorem fnMod_made (f : Fn) (g : FnSt → FnSt) (s : State) : (fnMod f g s).made = s.made := rfl
@[simp] theorem fnMod_exch (f : Fn) (g : FnSt → FnSt) (s : State) : (fnMod f g s).exch = s.exch := rfl
@[simp] theorem fnMod_nextXid (f : Fn) (g : FnSt → FnSt) (s : State) : (fnMod f g s).nextXid = s.nextXid := rfl
@[simp] theorem fnMod_jobs (f : Fn) (g : FnSt → FnSt) (s : State) : (fnMod f g s).jobs = s.jobs := rfl
@[simp] theorem fnMod_nextJob (f : Fn) (g : FnSt → FnSt) (s : State) : (fnMod f g s).nextJob = s.nextJob := rfl
@[simp] theorem fnMod_poolClock (f : Fn) (g : FnSt → FnSt) (s : State) : (fnMod f g s).poolClock = s.poolClock := rfl
@[simp] theorem fnMod_homes (f : Fn) (g : FnSt → FnSt) (s : State) : (fnMod f g s).homes = s.homes := rfl
@[simp] theorem fnMod_carves (f : Fn) (g : FnSt → FnSt) (s : State) : (fnMod f g s).carves = s.carves := rfl
@[simp] theorem fnMod_staged (f : Fn) (g : FnSt → FnSt) (s : State) : (fnMod f g s).staged = s.staged := rfl
@[simp] theorem fnMod_fabEpoch (f : Fn) (g : FnSt → FnSt) (s : State) : (fnMod f g s).fabEpoch = s.fabEpoch := rfl
@[simp] theorem fnMod_scrub (f : Fn) (g : FnSt → FnSt) (s : State) : (fnMod f g s).scrub = s.scrub := rfl
@[simp] theorem fnMod_accesses (f : Fn) (g : FnSt → FnSt) (s : State) : (fnMod f g s).accesses = s.accesses := rfl
@[simp] theorem fnMod_tabor (f : Fn) (g : FnSt → FnSt) (s : State) : (fnMod f g s).tabor = s.tabor := rfl
@[simp] theorem fnMod_grant (f : Fn) (g : FnSt → FnSt) (s : State) : (fnMod f g s).grant = s.grant := rfl
@[simp] theorem fnMod_ptb (f : Fn) (g : FnSt → FnSt) (s : State) : (fnMod f g s).ptb = s.ptb := rfl
@[simp] theorem fnMod_mail0 (f : Fn) (g : FnSt → FnSt) (s : State) : (fnMod f g s).mail0 = s.mail0 := rfl
@[simp] theorem fnMod_mail1 (f : Fn) (g : FnSt → FnSt) (s : State) : (fnMod f g s).mail1 = s.mail1 := rfl
@[simp] theorem fnMod_nextSession (f : Fn) (g : FnSt → FnSt) (s : State) : (fnMod f g s).nextSession = s.nextSession := rfl
@[simp] theorem fnMod_ide (f : Fn) (g : FnSt → FnSt) (s : State) : (fnMod f g s).ide = s.ide := rfl
@[simp] theorem fnMod_bulk (f : Fn) (g : FnSt → FnSt) (s : State) : (fnMod f g s).bulk = s.bulk := rfl
@[simp] theorem fnMod_bulkReuse (f : Fn) (g : FnSt → FnSt) (s : State) : (fnMod f g s).bulkReuse = s.bulkReuse := rfl
@[simp] theorem fnMod_replayEngine (f : Fn) (g : FnSt → FnSt) (s : State) : (fnMod f g s).replayEngine = s.replayEngine := rfl

/-! ### `ringMod` -/

@[simp] theorem ringMod_pending (f : Fn) (g : RingSt → RingSt) (s : State) : (ringMod f g s).pending = s.pending := rfl
@[simp] theorem ringMod_out (f : Fn) (g : RingSt → RingSt) (s : State) : (ringMod f g s).out = s.out := rfl
@[simp] theorem ringMod_draws (f : Fn) (g : RingSt → RingSt) (s : State) : (ringMod f g s).draws = s.draws := rfl
@[simp] theorem ringMod_opens (f : Fn) (g : RingSt → RingSt) (s : State) : (ringMod f g s).opens = s.opens := rfl
@[simp] theorem ringMod_k3s (f : Fn) (g : RingSt → RingSt) (s : State) : (ringMod f g s).k3s = s.k3s := rfl
@[simp] theorem ringMod_late (f : Fn) (g : RingSt → RingSt) (s : State) : (ringMod f g s).late = s.late := rfl
@[simp] theorem ringMod_tapRevoke (f : Fn) (g : RingSt → RingSt) (s : State) : (ringMod f g s).tapRevoke = s.tapRevoke := rfl
@[simp] theorem ringMod_reads (f : Fn) (g : RingSt → RingSt) (s : State) : (ringMod f g s).reads = s.reads := rfl
@[simp] theorem ringMod_loops (f : Fn) (g : RingSt → RingSt) (s : State) : (ringMod f g s).loops = s.loops := rfl
@[simp] theorem ringMod_parked (f : Fn) (g : RingSt → RingSt) (s : State) : (ringMod f g s).parked = s.parked := rfl
@[simp] theorem ringMod_mailArb (f : Fn) (g : RingSt → RingSt) (s : State) : (ringMod f g s).mailArb = s.mailArb := rfl
@[simp] theorem ringMod_pkg (f : Fn) (g : RingSt → RingSt) (s : State) : (ringMod f g s).pkg = s.pkg := rfl
@[simp] theorem ringMod_otp (f : Fn) (g : RingSt → RingSt) (s : State) : (ringMod f g s).otp = s.otp := rfl
@[simp] theorem ringMod_aon (f : Fn) (g : RingSt → RingSt) (s : State) : (ringMod f g s).aon = s.aon := rfl
@[simp] theorem ringMod_flash (f : Fn) (g : RingSt → RingSt) (s : State) : (ringMod f g s).flash = s.flash := rfl
@[simp] theorem ringMod_prog (f : Fn) (g : RingSt → RingSt) (s : State) : (ringMod f g s).prog = s.prog := rfl
@[simp] theorem ringMod_scan (f : Fn) (g : RingSt → RingSt) (s : State) : (ringMod f g s).scan = s.scan := rfl
@[simp] theorem ringMod_ks (f : Fn) (g : RingSt → RingSt) (s : State) : (ringMod f g s).ks = s.ks := rfl
@[simp] theorem ringMod_fab (f : Fn) (g : RingSt → RingSt) (s : State) : (ringMod f g s).fab = s.fab := rfl
@[simp] theorem ringMod_ports (f : Fn) (g : RingSt → RingSt) (s : State) : (ringMod f g s).ports = s.ports := rfl
@[simp] theorem ringMod_sends (f : Fn) (g : RingSt → RingSt) (s : State) : (ringMod f g s).sends = s.sends := rfl
@[simp] theorem ringMod_recvs (f : Fn) (g : RingSt → RingSt) (s : State) : (ringMod f g s).recvs = s.recvs := rfl
@[simp] theorem ringMod_gone (f : Fn) (g : RingSt → RingSt) (s : State) : (ringMod f g s).gone = s.gone := rfl
@[simp] theorem ringMod_sent (f : Fn) (g : RingSt → RingSt) (s : State) : (ringMod f g s).sent = s.sent := rfl
@[simp] theorem ringMod_openReqs (f : Fn) (g : RingSt → RingSt) (s : State) : (ringMod f g s).openReqs = s.openReqs := rfl
@[simp] theorem ringMod_waits (f : Fn) (g : RingSt → RingSt) (s : State) : (ringMod f g s).waits = s.waits := rfl
@[simp] theorem ringMod_snare (f : Fn) (g : RingSt → RingSt) (s : State) : (ringMod f g s).snare = s.snare := rfl
@[simp] theorem ringMod_localSnare (f : Fn) (g : RingSt → RingSt) (s : State) : (ringMod f g s).localSnare = s.localSnare := rfl
@[simp] theorem ringMod_writes (f : Fn) (g : RingSt → RingSt) (s : State) : (ringMod f g s).writes = s.writes := rfl
@[simp] theorem ringMod_nextWrite (f : Fn) (g : RingSt → RingSt) (s : State) : (ringMod f g s).nextWrite = s.nextWrite := rfl
@[simp] theorem ringMod_filter (f : Fn) (g : RingSt → RingSt) (s : State) : (ringMod f g s).filter = s.filter := rfl
@[simp] theorem ringMod_members (f : Fn) (g : RingSt → RingSt) (s : State) : (ringMod f g s).members = s.members := rfl
@[simp] theorem ringMod_nextTag (f : Fn) (g : RingSt → RingSt) (s : State) : (ringMod f g s).nextTag = s.nextTag := rfl
@[simp] theorem ringMod_regions (f : Fn) (g : RingSt → RingSt) (s : State) : (ringMod f g s).regions = s.regions := rfl
@[simp] theorem ringMod_nextRegion (f : Fn) (g : RingSt → RingSt) (s : State) : (ringMod f g s).nextRegion = s.nextRegion := rfl
@[simp] theorem ringMod_made (f : Fn) (g : RingSt → RingSt) (s : State) : (ringMod f g s).made = s.made := rfl
@[simp] theorem ringMod_exch (f : Fn) (g : RingSt → RingSt) (s : State) : (ringMod f g s).exch = s.exch := rfl
@[simp] theorem ringMod_nextXid (f : Fn) (g : RingSt → RingSt) (s : State) : (ringMod f g s).nextXid = s.nextXid := rfl
@[simp] theorem ringMod_jobs (f : Fn) (g : RingSt → RingSt) (s : State) : (ringMod f g s).jobs = s.jobs := rfl
@[simp] theorem ringMod_nextJob (f : Fn) (g : RingSt → RingSt) (s : State) : (ringMod f g s).nextJob = s.nextJob := rfl
@[simp] theorem ringMod_poolClock (f : Fn) (g : RingSt → RingSt) (s : State) : (ringMod f g s).poolClock = s.poolClock := rfl
@[simp] theorem ringMod_homes (f : Fn) (g : RingSt → RingSt) (s : State) : (ringMod f g s).homes = s.homes := rfl
@[simp] theorem ringMod_carves (f : Fn) (g : RingSt → RingSt) (s : State) : (ringMod f g s).carves = s.carves := rfl
@[simp] theorem ringMod_staged (f : Fn) (g : RingSt → RingSt) (s : State) : (ringMod f g s).staged = s.staged := rfl
@[simp] theorem ringMod_fabEpoch (f : Fn) (g : RingSt → RingSt) (s : State) : (ringMod f g s).fabEpoch = s.fabEpoch := rfl
@[simp] theorem ringMod_scrub (f : Fn) (g : RingSt → RingSt) (s : State) : (ringMod f g s).scrub = s.scrub := rfl
@[simp] theorem ringMod_accesses (f : Fn) (g : RingSt → RingSt) (s : State) : (ringMod f g s).accesses = s.accesses := rfl
@[simp] theorem ringMod_tabor (f : Fn) (g : RingSt → RingSt) (s : State) : (ringMod f g s).tabor = s.tabor := rfl
@[simp] theorem ringMod_grant (f : Fn) (g : RingSt → RingSt) (s : State) : (ringMod f g s).grant = s.grant := rfl
@[simp] theorem ringMod_ptb (f : Fn) (g : RingSt → RingSt) (s : State) : (ringMod f g s).ptb = s.ptb := rfl
@[simp] theorem ringMod_mail0 (f : Fn) (g : RingSt → RingSt) (s : State) : (ringMod f g s).mail0 = s.mail0 := rfl
@[simp] theorem ringMod_mail1 (f : Fn) (g : RingSt → RingSt) (s : State) : (ringMod f g s).mail1 = s.mail1 := rfl
@[simp] theorem ringMod_nextSession (f : Fn) (g : RingSt → RingSt) (s : State) : (ringMod f g s).nextSession = s.nextSession := rfl
@[simp] theorem ringMod_ide (f : Fn) (g : RingSt → RingSt) (s : State) : (ringMod f g s).ide = s.ide := rfl
@[simp] theorem ringMod_bulk (f : Fn) (g : RingSt → RingSt) (s : State) : (ringMod f g s).bulk = s.bulk := rfl
@[simp] theorem ringMod_bulkReuse (f : Fn) (g : RingSt → RingSt) (s : State) : (ringMod f g s).bulkReuse = s.bulkReuse := rfl
@[simp] theorem ringMod_replayEngine (f : Fn) (g : RingSt → RingSt) (s : State) : (ringMod f g s).replayEngine = s.replayEngine := rfl

/-! ### `modProg` -/

@[simp] theorem modProg_pending (f : Fn) (i : W32) (g : InProg → InProg) (s : State) : (modProg f i g s).pending = s.pending := rfl
@[simp] theorem modProg_out (f : Fn) (i : W32) (g : InProg → InProg) (s : State) : (modProg f i g s).out = s.out := rfl
@[simp] theorem modProg_draws (f : Fn) (i : W32) (g : InProg → InProg) (s : State) : (modProg f i g s).draws = s.draws := rfl
@[simp] theorem modProg_opens (f : Fn) (i : W32) (g : InProg → InProg) (s : State) : (modProg f i g s).opens = s.opens := rfl
@[simp] theorem modProg_k3s (f : Fn) (i : W32) (g : InProg → InProg) (s : State) : (modProg f i g s).k3s = s.k3s := rfl
@[simp] theorem modProg_late (f : Fn) (i : W32) (g : InProg → InProg) (s : State) : (modProg f i g s).late = s.late := rfl
@[simp] theorem modProg_tapRevoke (f : Fn) (i : W32) (g : InProg → InProg) (s : State) : (modProg f i g s).tapRevoke = s.tapRevoke := rfl
@[simp] theorem modProg_reads (f : Fn) (i : W32) (g : InProg → InProg) (s : State) : (modProg f i g s).reads = s.reads := rfl
@[simp] theorem modProg_loops (f : Fn) (i : W32) (g : InProg → InProg) (s : State) : (modProg f i g s).loops = s.loops := rfl
@[simp] theorem modProg_parked (f : Fn) (i : W32) (g : InProg → InProg) (s : State) : (modProg f i g s).parked = s.parked := rfl
@[simp] theorem modProg_mailArb (f : Fn) (i : W32) (g : InProg → InProg) (s : State) : (modProg f i g s).mailArb = s.mailArb := rfl
@[simp] theorem modProg_pkg (f : Fn) (i : W32) (g : InProg → InProg) (s : State) : (modProg f i g s).pkg = s.pkg := rfl
@[simp] theorem modProg_otp (f : Fn) (i : W32) (g : InProg → InProg) (s : State) : (modProg f i g s).otp = s.otp := rfl
@[simp] theorem modProg_aon (f : Fn) (i : W32) (g : InProg → InProg) (s : State) : (modProg f i g s).aon = s.aon := rfl
@[simp] theorem modProg_flash (f : Fn) (i : W32) (g : InProg → InProg) (s : State) : (modProg f i g s).flash = s.flash := rfl
@[simp] theorem modProg_fns (f : Fn) (i : W32) (g : InProg → InProg) (s : State) : (modProg f i g s).fns = s.fns := rfl
@[simp] theorem modProg_scan (f : Fn) (i : W32) (g : InProg → InProg) (s : State) : (modProg f i g s).scan = s.scan := rfl
@[simp] theorem modProg_ks (f : Fn) (i : W32) (g : InProg → InProg) (s : State) : (modProg f i g s).ks = s.ks := rfl
@[simp] theorem modProg_fab (f : Fn) (i : W32) (g : InProg → InProg) (s : State) : (modProg f i g s).fab = s.fab := rfl
@[simp] theorem modProg_ports (f : Fn) (i : W32) (g : InProg → InProg) (s : State) : (modProg f i g s).ports = s.ports := rfl
@[simp] theorem modProg_sends (f : Fn) (i : W32) (g : InProg → InProg) (s : State) : (modProg f i g s).sends = s.sends := rfl
@[simp] theorem modProg_recvs (f : Fn) (i : W32) (g : InProg → InProg) (s : State) : (modProg f i g s).recvs = s.recvs := rfl
@[simp] theorem modProg_gone (f : Fn) (i : W32) (g : InProg → InProg) (s : State) : (modProg f i g s).gone = s.gone := rfl
@[simp] theorem modProg_sent (f : Fn) (i : W32) (g : InProg → InProg) (s : State) : (modProg f i g s).sent = s.sent := rfl
@[simp] theorem modProg_openReqs (f : Fn) (i : W32) (g : InProg → InProg) (s : State) : (modProg f i g s).openReqs = s.openReqs := rfl
@[simp] theorem modProg_waits (f : Fn) (i : W32) (g : InProg → InProg) (s : State) : (modProg f i g s).waits = s.waits := rfl
@[simp] theorem modProg_snare (f : Fn) (i : W32) (g : InProg → InProg) (s : State) : (modProg f i g s).snare = s.snare := rfl
@[simp] theorem modProg_localSnare (f : Fn) (i : W32) (g : InProg → InProg) (s : State) : (modProg f i g s).localSnare = s.localSnare := rfl
@[simp] theorem modProg_writes (f : Fn) (i : W32) (g : InProg → InProg) (s : State) : (modProg f i g s).writes = s.writes := rfl
@[simp] theorem modProg_nextWrite (f : Fn) (i : W32) (g : InProg → InProg) (s : State) : (modProg f i g s).nextWrite = s.nextWrite := rfl
@[simp] theorem modProg_filter (f : Fn) (i : W32) (g : InProg → InProg) (s : State) : (modProg f i g s).filter = s.filter := rfl
@[simp] theorem modProg_members (f : Fn) (i : W32) (g : InProg → InProg) (s : State) : (modProg f i g s).members = s.members := rfl
@[simp] theorem modProg_nextTag (f : Fn) (i : W32) (g : InProg → InProg) (s : State) : (modProg f i g s).nextTag = s.nextTag := rfl
@[simp] theorem modProg_regions (f : Fn) (i : W32) (g : InProg → InProg) (s : State) : (modProg f i g s).regions = s.regions := rfl
@[simp] theorem modProg_nextRegion (f : Fn) (i : W32) (g : InProg → InProg) (s : State) : (modProg f i g s).nextRegion = s.nextRegion := rfl
@[simp] theorem modProg_made (f : Fn) (i : W32) (g : InProg → InProg) (s : State) : (modProg f i g s).made = s.made := rfl
@[simp] theorem modProg_exch (f : Fn) (i : W32) (g : InProg → InProg) (s : State) : (modProg f i g s).exch = s.exch := rfl
@[simp] theorem modProg_nextXid (f : Fn) (i : W32) (g : InProg → InProg) (s : State) : (modProg f i g s).nextXid = s.nextXid := rfl
@[simp] theorem modProg_jobs (f : Fn) (i : W32) (g : InProg → InProg) (s : State) : (modProg f i g s).jobs = s.jobs := rfl
@[simp] theorem modProg_nextJob (f : Fn) (i : W32) (g : InProg → InProg) (s : State) : (modProg f i g s).nextJob = s.nextJob := rfl
@[simp] theorem modProg_poolClock (f : Fn) (i : W32) (g : InProg → InProg) (s : State) : (modProg f i g s).poolClock = s.poolClock := rfl
@[simp] theorem modProg_homes (f : Fn) (i : W32) (g : InProg → InProg) (s : State) : (modProg f i g s).homes = s.homes := rfl
@[simp] theorem modProg_carves (f : Fn) (i : W32) (g : InProg → InProg) (s : State) : (modProg f i g s).carves = s.carves := rfl
@[simp] theorem modProg_staged (f : Fn) (i : W32) (g : InProg → InProg) (s : State) : (modProg f i g s).staged = s.staged := rfl
@[simp] theorem modProg_fabEpoch (f : Fn) (i : W32) (g : InProg → InProg) (s : State) : (modProg f i g s).fabEpoch = s.fabEpoch := rfl
@[simp] theorem modProg_scrub (f : Fn) (i : W32) (g : InProg → InProg) (s : State) : (modProg f i g s).scrub = s.scrub := rfl
@[simp] theorem modProg_accesses (f : Fn) (i : W32) (g : InProg → InProg) (s : State) : (modProg f i g s).accesses = s.accesses := rfl
@[simp] theorem modProg_tabor (f : Fn) (i : W32) (g : InProg → InProg) (s : State) : (modProg f i g s).tabor = s.tabor := rfl
@[simp] theorem modProg_grant (f : Fn) (i : W32) (g : InProg → InProg) (s : State) : (modProg f i g s).grant = s.grant := rfl
@[simp] theorem modProg_ptb (f : Fn) (i : W32) (g : InProg → InProg) (s : State) : (modProg f i g s).ptb = s.ptb := rfl
@[simp] theorem modProg_mail0 (f : Fn) (i : W32) (g : InProg → InProg) (s : State) : (modProg f i g s).mail0 = s.mail0 := rfl
@[simp] theorem modProg_mail1 (f : Fn) (i : W32) (g : InProg → InProg) (s : State) : (modProg f i g s).mail1 = s.mail1 := rfl
@[simp] theorem modProg_nextSession (f : Fn) (i : W32) (g : InProg → InProg) (s : State) : (modProg f i g s).nextSession = s.nextSession := rfl
@[simp] theorem modProg_ide (f : Fn) (i : W32) (g : InProg → InProg) (s : State) : (modProg f i g s).ide = s.ide := rfl
@[simp] theorem modProg_bulk (f : Fn) (i : W32) (g : InProg → InProg) (s : State) : (modProg f i g s).bulk = s.bulk := rfl
@[simp] theorem modProg_bulkReuse (f : Fn) (i : W32) (g : InProg → InProg) (s : State) : (modProg f i g s).bulkReuse = s.bulkReuse := rfl
@[simp] theorem modProg_replayEngine (f : Fn) (i : W32) (g : InProg → InProg) (s : State) : (modProg f i g s).replayEngine = s.replayEngine := rfl

/-! ### `dropProg` -/

@[simp] theorem dropProg_pending (p : InProg) (s : State) : (dropProg p s).pending = s.pending := rfl
@[simp] theorem dropProg_out (p : InProg) (s : State) : (dropProg p s).out = s.out := rfl
@[simp] theorem dropProg_draws (p : InProg) (s : State) : (dropProg p s).draws = s.draws := rfl
@[simp] theorem dropProg_opens (p : InProg) (s : State) : (dropProg p s).opens = s.opens := rfl
@[simp] theorem dropProg_k3s (p : InProg) (s : State) : (dropProg p s).k3s = s.k3s := rfl
@[simp] theorem dropProg_late (p : InProg) (s : State) : (dropProg p s).late = s.late := rfl
@[simp] theorem dropProg_tapRevoke (p : InProg) (s : State) : (dropProg p s).tapRevoke = s.tapRevoke := rfl
@[simp] theorem dropProg_reads (p : InProg) (s : State) : (dropProg p s).reads = s.reads := rfl
@[simp] theorem dropProg_loops (p : InProg) (s : State) : (dropProg p s).loops = s.loops := rfl
@[simp] theorem dropProg_parked (p : InProg) (s : State) : (dropProg p s).parked = s.parked := rfl
@[simp] theorem dropProg_mailArb (p : InProg) (s : State) : (dropProg p s).mailArb = s.mailArb := rfl
@[simp] theorem dropProg_pkg (p : InProg) (s : State) : (dropProg p s).pkg = s.pkg := rfl
@[simp] theorem dropProg_otp (p : InProg) (s : State) : (dropProg p s).otp = s.otp := rfl
@[simp] theorem dropProg_aon (p : InProg) (s : State) : (dropProg p s).aon = s.aon := rfl
@[simp] theorem dropProg_flash (p : InProg) (s : State) : (dropProg p s).flash = s.flash := rfl
@[simp] theorem dropProg_fns (p : InProg) (s : State) : (dropProg p s).fns = s.fns := rfl
@[simp] theorem dropProg_scan (p : InProg) (s : State) : (dropProg p s).scan = s.scan := rfl
@[simp] theorem dropProg_ks (p : InProg) (s : State) : (dropProg p s).ks = s.ks := rfl
@[simp] theorem dropProg_fab (p : InProg) (s : State) : (dropProg p s).fab = s.fab := rfl
@[simp] theorem dropProg_ports (p : InProg) (s : State) : (dropProg p s).ports = s.ports := rfl
@[simp] theorem dropProg_sends (p : InProg) (s : State) : (dropProg p s).sends = s.sends := rfl
@[simp] theorem dropProg_recvs (p : InProg) (s : State) : (dropProg p s).recvs = s.recvs := rfl
@[simp] theorem dropProg_gone (p : InProg) (s : State) : (dropProg p s).gone = s.gone := rfl
@[simp] theorem dropProg_sent (p : InProg) (s : State) : (dropProg p s).sent = s.sent := rfl
@[simp] theorem dropProg_openReqs (p : InProg) (s : State) : (dropProg p s).openReqs = s.openReqs := rfl
@[simp] theorem dropProg_waits (p : InProg) (s : State) : (dropProg p s).waits = s.waits := rfl
@[simp] theorem dropProg_snare (p : InProg) (s : State) : (dropProg p s).snare = s.snare := rfl
@[simp] theorem dropProg_localSnare (p : InProg) (s : State) : (dropProg p s).localSnare = s.localSnare := rfl
@[simp] theorem dropProg_writes (p : InProg) (s : State) : (dropProg p s).writes = s.writes := rfl
@[simp] theorem dropProg_nextWrite (p : InProg) (s : State) : (dropProg p s).nextWrite = s.nextWrite := rfl
@[simp] theorem dropProg_filter (p : InProg) (s : State) : (dropProg p s).filter = s.filter := rfl
@[simp] theorem dropProg_members (p : InProg) (s : State) : (dropProg p s).members = s.members := rfl
@[simp] theorem dropProg_nextTag (p : InProg) (s : State) : (dropProg p s).nextTag = s.nextTag := rfl
@[simp] theorem dropProg_regions (p : InProg) (s : State) : (dropProg p s).regions = s.regions := rfl
@[simp] theorem dropProg_nextRegion (p : InProg) (s : State) : (dropProg p s).nextRegion = s.nextRegion := rfl
@[simp] theorem dropProg_made (p : InProg) (s : State) : (dropProg p s).made = s.made := rfl
@[simp] theorem dropProg_exch (p : InProg) (s : State) : (dropProg p s).exch = s.exch := rfl
@[simp] theorem dropProg_nextXid (p : InProg) (s : State) : (dropProg p s).nextXid = s.nextXid := rfl
@[simp] theorem dropProg_jobs (p : InProg) (s : State) : (dropProg p s).jobs = s.jobs := rfl
@[simp] theorem dropProg_nextJob (p : InProg) (s : State) : (dropProg p s).nextJob = s.nextJob := rfl
@[simp] theorem dropProg_poolClock (p : InProg) (s : State) : (dropProg p s).poolClock = s.poolClock := rfl
@[simp] theorem dropProg_homes (p : InProg) (s : State) : (dropProg p s).homes = s.homes := rfl
@[simp] theorem dropProg_carves (p : InProg) (s : State) : (dropProg p s).carves = s.carves := rfl
@[simp] theorem dropProg_staged (p : InProg) (s : State) : (dropProg p s).staged = s.staged := rfl
@[simp] theorem dropProg_fabEpoch (p : InProg) (s : State) : (dropProg p s).fabEpoch = s.fabEpoch := rfl
@[simp] theorem dropProg_scrub (p : InProg) (s : State) : (dropProg p s).scrub = s.scrub := rfl
@[simp] theorem dropProg_accesses (p : InProg) (s : State) : (dropProg p s).accesses = s.accesses := rfl
@[simp] theorem dropProg_tabor (p : InProg) (s : State) : (dropProg p s).tabor = s.tabor := rfl
@[simp] theorem dropProg_grant (p : InProg) (s : State) : (dropProg p s).grant = s.grant := rfl
@[simp] theorem dropProg_ptb (p : InProg) (s : State) : (dropProg p s).ptb = s.ptb := rfl
@[simp] theorem dropProg_mail0 (p : InProg) (s : State) : (dropProg p s).mail0 = s.mail0 := rfl
@[simp] theorem dropProg_mail1 (p : InProg) (s : State) : (dropProg p s).mail1 = s.mail1 := rfl
@[simp] theorem dropProg_nextSession (p : InProg) (s : State) : (dropProg p s).nextSession = s.nextSession := rfl
@[simp] theorem dropProg_ide (p : InProg) (s : State) : (dropProg p s).ide = s.ide := rfl
@[simp] theorem dropProg_bulk (p : InProg) (s : State) : (dropProg p s).bulk = s.bulk := rfl
@[simp] theorem dropProg_bulkReuse (p : InProg) (s : State) : (dropProg p s).bulkReuse = s.bulkReuse := rfl
@[simp] theorem dropProg_replayEngine (p : InProg) (s : State) : (dropProg p s).replayEngine = s.replayEngine := rfl

/-! ### `portMod` -/

@[simp] theorem portMod_pending (p : Fin 32) (g : PortSt → PortSt) (s : State) : (portMod p g s).pending = s.pending := rfl
@[simp] theorem portMod_out (p : Fin 32) (g : PortSt → PortSt) (s : State) : (portMod p g s).out = s.out := rfl
@[simp] theorem portMod_draws (p : Fin 32) (g : PortSt → PortSt) (s : State) : (portMod p g s).draws = s.draws := rfl
@[simp] theorem portMod_opens (p : Fin 32) (g : PortSt → PortSt) (s : State) : (portMod p g s).opens = s.opens := rfl
@[simp] theorem portMod_k3s (p : Fin 32) (g : PortSt → PortSt) (s : State) : (portMod p g s).k3s = s.k3s := rfl
@[simp] theorem portMod_late (p : Fin 32) (g : PortSt → PortSt) (s : State) : (portMod p g s).late = s.late := rfl
@[simp] theorem portMod_tapRevoke (p : Fin 32) (g : PortSt → PortSt) (s : State) : (portMod p g s).tapRevoke = s.tapRevoke := rfl
@[simp] theorem portMod_reads (p : Fin 32) (g : PortSt → PortSt) (s : State) : (portMod p g s).reads = s.reads := rfl
@[simp] theorem portMod_loops (p : Fin 32) (g : PortSt → PortSt) (s : State) : (portMod p g s).loops = s.loops := rfl
@[simp] theorem portMod_parked (p : Fin 32) (g : PortSt → PortSt) (s : State) : (portMod p g s).parked = s.parked := rfl
@[simp] theorem portMod_mailArb (p : Fin 32) (g : PortSt → PortSt) (s : State) : (portMod p g s).mailArb = s.mailArb := rfl
@[simp] theorem portMod_pkg (p : Fin 32) (g : PortSt → PortSt) (s : State) : (portMod p g s).pkg = s.pkg := rfl
@[simp] theorem portMod_otp (p : Fin 32) (g : PortSt → PortSt) (s : State) : (portMod p g s).otp = s.otp := rfl
@[simp] theorem portMod_aon (p : Fin 32) (g : PortSt → PortSt) (s : State) : (portMod p g s).aon = s.aon := rfl
@[simp] theorem portMod_flash (p : Fin 32) (g : PortSt → PortSt) (s : State) : (portMod p g s).flash = s.flash := rfl
@[simp] theorem portMod_fns (p : Fin 32) (g : PortSt → PortSt) (s : State) : (portMod p g s).fns = s.fns := rfl
@[simp] theorem portMod_prog (p : Fin 32) (g : PortSt → PortSt) (s : State) : (portMod p g s).prog = s.prog := rfl
@[simp] theorem portMod_scan (p : Fin 32) (g : PortSt → PortSt) (s : State) : (portMod p g s).scan = s.scan := rfl
@[simp] theorem portMod_ks (p : Fin 32) (g : PortSt → PortSt) (s : State) : (portMod p g s).ks = s.ks := rfl
@[simp] theorem portMod_fab (p : Fin 32) (g : PortSt → PortSt) (s : State) : (portMod p g s).fab = s.fab := rfl
@[simp] theorem portMod_sends (p : Fin 32) (g : PortSt → PortSt) (s : State) : (portMod p g s).sends = s.sends := rfl
@[simp] theorem portMod_recvs (p : Fin 32) (g : PortSt → PortSt) (s : State) : (portMod p g s).recvs = s.recvs := rfl
@[simp] theorem portMod_gone (p : Fin 32) (g : PortSt → PortSt) (s : State) : (portMod p g s).gone = s.gone := rfl
@[simp] theorem portMod_sent (p : Fin 32) (g : PortSt → PortSt) (s : State) : (portMod p g s).sent = s.sent := rfl
@[simp] theorem portMod_openReqs (p : Fin 32) (g : PortSt → PortSt) (s : State) : (portMod p g s).openReqs = s.openReqs := rfl
@[simp] theorem portMod_waits (p : Fin 32) (g : PortSt → PortSt) (s : State) : (portMod p g s).waits = s.waits := rfl
@[simp] theorem portMod_snare (p : Fin 32) (g : PortSt → PortSt) (s : State) : (portMod p g s).snare = s.snare := rfl
@[simp] theorem portMod_localSnare (p : Fin 32) (g : PortSt → PortSt) (s : State) : (portMod p g s).localSnare = s.localSnare := rfl
@[simp] theorem portMod_writes (p : Fin 32) (g : PortSt → PortSt) (s : State) : (portMod p g s).writes = s.writes := rfl
@[simp] theorem portMod_nextWrite (p : Fin 32) (g : PortSt → PortSt) (s : State) : (portMod p g s).nextWrite = s.nextWrite := rfl
@[simp] theorem portMod_filter (p : Fin 32) (g : PortSt → PortSt) (s : State) : (portMod p g s).filter = s.filter := rfl
@[simp] theorem portMod_members (p : Fin 32) (g : PortSt → PortSt) (s : State) : (portMod p g s).members = s.members := rfl
@[simp] theorem portMod_nextTag (p : Fin 32) (g : PortSt → PortSt) (s : State) : (portMod p g s).nextTag = s.nextTag := rfl
@[simp] theorem portMod_regions (p : Fin 32) (g : PortSt → PortSt) (s : State) : (portMod p g s).regions = s.regions := rfl
@[simp] theorem portMod_nextRegion (p : Fin 32) (g : PortSt → PortSt) (s : State) : (portMod p g s).nextRegion = s.nextRegion := rfl
@[simp] theorem portMod_made (p : Fin 32) (g : PortSt → PortSt) (s : State) : (portMod p g s).made = s.made := rfl
@[simp] theorem portMod_exch (p : Fin 32) (g : PortSt → PortSt) (s : State) : (portMod p g s).exch = s.exch := rfl
@[simp] theorem portMod_nextXid (p : Fin 32) (g : PortSt → PortSt) (s : State) : (portMod p g s).nextXid = s.nextXid := rfl
@[simp] theorem portMod_jobs (p : Fin 32) (g : PortSt → PortSt) (s : State) : (portMod p g s).jobs = s.jobs := rfl
@[simp] theorem portMod_nextJob (p : Fin 32) (g : PortSt → PortSt) (s : State) : (portMod p g s).nextJob = s.nextJob := rfl
@[simp] theorem portMod_poolClock (p : Fin 32) (g : PortSt → PortSt) (s : State) : (portMod p g s).poolClock = s.poolClock := rfl
@[simp] theorem portMod_homes (p : Fin 32) (g : PortSt → PortSt) (s : State) : (portMod p g s).homes = s.homes := rfl
@[simp] theorem portMod_carves (p : Fin 32) (g : PortSt → PortSt) (s : State) : (portMod p g s).carves = s.carves := rfl
@[simp] theorem portMod_staged (p : Fin 32) (g : PortSt → PortSt) (s : State) : (portMod p g s).staged = s.staged := rfl
@[simp] theorem portMod_fabEpoch (p : Fin 32) (g : PortSt → PortSt) (s : State) : (portMod p g s).fabEpoch = s.fabEpoch := rfl
@[simp] theorem portMod_scrub (p : Fin 32) (g : PortSt → PortSt) (s : State) : (portMod p g s).scrub = s.scrub := rfl
@[simp] theorem portMod_accesses (p : Fin 32) (g : PortSt → PortSt) (s : State) : (portMod p g s).accesses = s.accesses := rfl
@[simp] theorem portMod_tabor (p : Fin 32) (g : PortSt → PortSt) (s : State) : (portMod p g s).tabor = s.tabor := rfl
@[simp] theorem portMod_grant (p : Fin 32) (g : PortSt → PortSt) (s : State) : (portMod p g s).grant = s.grant := rfl
@[simp] theorem portMod_ptb (p : Fin 32) (g : PortSt → PortSt) (s : State) : (portMod p g s).ptb = s.ptb := rfl
@[simp] theorem portMod_mail0 (p : Fin 32) (g : PortSt → PortSt) (s : State) : (portMod p g s).mail0 = s.mail0 := rfl
@[simp] theorem portMod_mail1 (p : Fin 32) (g : PortSt → PortSt) (s : State) : (portMod p g s).mail1 = s.mail1 := rfl
@[simp] theorem portMod_nextSession (p : Fin 32) (g : PortSt → PortSt) (s : State) : (portMod p g s).nextSession = s.nextSession := rfl
@[simp] theorem portMod_ide (p : Fin 32) (g : PortSt → PortSt) (s : State) : (portMod p g s).ide = s.ide := rfl
@[simp] theorem portMod_bulk (p : Fin 32) (g : PortSt → PortSt) (s : State) : (portMod p g s).bulk = s.bulk := rfl
@[simp] theorem portMod_bulkReuse (p : Fin 32) (g : PortSt → PortSt) (s : State) : (portMod p g s).bulkReuse = s.bulkReuse := rfl
@[simp] theorem portMod_replayEngine (p : Fin 32) (g : PortSt → PortSt) (s : State) : (portMod p g s).replayEngine = s.replayEngine := rfl

/-! ### `regionMod` -/

@[simp] theorem regionMod_pending (k : Nat) (g : RegionSt → RegionSt) (s : State) : (regionMod k g s).pending = s.pending := by
  unfold regionMod; split <;> rfl
@[simp] theorem regionMod_out (k : Nat) (g : RegionSt → RegionSt) (s : State) : (regionMod k g s).out = s.out := by
  unfold regionMod; split <;> rfl
@[simp] theorem regionMod_draws (k : Nat) (g : RegionSt → RegionSt) (s : State) : (regionMod k g s).draws = s.draws := by
  unfold regionMod; split <;> rfl
@[simp] theorem regionMod_opens (k : Nat) (g : RegionSt → RegionSt) (s : State) : (regionMod k g s).opens = s.opens := by
  unfold regionMod; split <;> rfl
@[simp] theorem regionMod_k3s (k : Nat) (g : RegionSt → RegionSt) (s : State) : (regionMod k g s).k3s = s.k3s := by
  unfold regionMod; split <;> rfl
@[simp] theorem regionMod_late (k : Nat) (g : RegionSt → RegionSt) (s : State) : (regionMod k g s).late = s.late := by
  unfold regionMod; split <;> rfl
@[simp] theorem regionMod_tapRevoke (k : Nat) (g : RegionSt → RegionSt) (s : State) : (regionMod k g s).tapRevoke = s.tapRevoke := by
  unfold regionMod; split <;> rfl
@[simp] theorem regionMod_reads (k : Nat) (g : RegionSt → RegionSt) (s : State) : (regionMod k g s).reads = s.reads := by
  unfold regionMod; split <;> rfl
@[simp] theorem regionMod_loops (k : Nat) (g : RegionSt → RegionSt) (s : State) : (regionMod k g s).loops = s.loops := by
  unfold regionMod; split <;> rfl
@[simp] theorem regionMod_parked (k : Nat) (g : RegionSt → RegionSt) (s : State) : (regionMod k g s).parked = s.parked := by
  unfold regionMod; split <;> rfl
@[simp] theorem regionMod_mailArb (k : Nat) (g : RegionSt → RegionSt) (s : State) : (regionMod k g s).mailArb = s.mailArb := by
  unfold regionMod; split <;> rfl
@[simp] theorem regionMod_pkg (k : Nat) (g : RegionSt → RegionSt) (s : State) : (regionMod k g s).pkg = s.pkg := by
  unfold regionMod; split <;> rfl
@[simp] theorem regionMod_otp (k : Nat) (g : RegionSt → RegionSt) (s : State) : (regionMod k g s).otp = s.otp := by
  unfold regionMod; split <;> rfl
@[simp] theorem regionMod_aon (k : Nat) (g : RegionSt → RegionSt) (s : State) : (regionMod k g s).aon = s.aon := by
  unfold regionMod; split <;> rfl
@[simp] theorem regionMod_flash (k : Nat) (g : RegionSt → RegionSt) (s : State) : (regionMod k g s).flash = s.flash := by
  unfold regionMod; split <;> rfl
@[simp] theorem regionMod_fns (k : Nat) (g : RegionSt → RegionSt) (s : State) : (regionMod k g s).fns = s.fns := by
  unfold regionMod; split <;> rfl
@[simp] theorem regionMod_prog (k : Nat) (g : RegionSt → RegionSt) (s : State) : (regionMod k g s).prog = s.prog := by
  unfold regionMod; split <;> rfl
@[simp] theorem regionMod_scan (k : Nat) (g : RegionSt → RegionSt) (s : State) : (regionMod k g s).scan = s.scan := by
  unfold regionMod; split <;> rfl
@[simp] theorem regionMod_ks (k : Nat) (g : RegionSt → RegionSt) (s : State) : (regionMod k g s).ks = s.ks := by
  unfold regionMod; split <;> rfl
@[simp] theorem regionMod_fab (k : Nat) (g : RegionSt → RegionSt) (s : State) : (regionMod k g s).fab = s.fab := by
  unfold regionMod; split <;> rfl
@[simp] theorem regionMod_ports (k : Nat) (g : RegionSt → RegionSt) (s : State) : (regionMod k g s).ports = s.ports := by
  unfold regionMod; split <;> rfl
@[simp] theorem regionMod_sends (k : Nat) (g : RegionSt → RegionSt) (s : State) : (regionMod k g s).sends = s.sends := by
  unfold regionMod; split <;> rfl
@[simp] theorem regionMod_recvs (k : Nat) (g : RegionSt → RegionSt) (s : State) : (regionMod k g s).recvs = s.recvs := by
  unfold regionMod; split <;> rfl
@[simp] theorem regionMod_gone (k : Nat) (g : RegionSt → RegionSt) (s : State) : (regionMod k g s).gone = s.gone := by
  unfold regionMod; split <;> rfl
@[simp] theorem regionMod_sent (k : Nat) (g : RegionSt → RegionSt) (s : State) : (regionMod k g s).sent = s.sent := by
  unfold regionMod; split <;> rfl
@[simp] theorem regionMod_openReqs (k : Nat) (g : RegionSt → RegionSt) (s : State) : (regionMod k g s).openReqs = s.openReqs := by
  unfold regionMod; split <;> rfl
@[simp] theorem regionMod_waits (k : Nat) (g : RegionSt → RegionSt) (s : State) : (regionMod k g s).waits = s.waits := by
  unfold regionMod; split <;> rfl
@[simp] theorem regionMod_snare (k : Nat) (g : RegionSt → RegionSt) (s : State) : (regionMod k g s).snare = s.snare := by
  unfold regionMod; split <;> rfl
@[simp] theorem regionMod_localSnare (k : Nat) (g : RegionSt → RegionSt) (s : State) : (regionMod k g s).localSnare = s.localSnare := by
  unfold regionMod; split <;> rfl
@[simp] theorem regionMod_writes (k : Nat) (g : RegionSt → RegionSt) (s : State) : (regionMod k g s).writes = s.writes := by
  unfold regionMod; split <;> rfl
@[simp] theorem regionMod_nextWrite (k : Nat) (g : RegionSt → RegionSt) (s : State) : (regionMod k g s).nextWrite = s.nextWrite := by
  unfold regionMod; split <;> rfl
@[simp] theorem regionMod_filter (k : Nat) (g : RegionSt → RegionSt) (s : State) : (regionMod k g s).filter = s.filter := by
  unfold regionMod; split <;> rfl
@[simp] theorem regionMod_members (k : Nat) (g : RegionSt → RegionSt) (s : State) : (regionMod k g s).members = s.members := by
  unfold regionMod; split <;> rfl
@[simp] theorem regionMod_nextTag (k : Nat) (g : RegionSt → RegionSt) (s : State) : (regionMod k g s).nextTag = s.nextTag := by
  unfold regionMod; split <;> rfl
@[simp] theorem regionMod_nextRegion (k : Nat) (g : RegionSt → RegionSt) (s : State) : (regionMod k g s).nextRegion = s.nextRegion := by
  unfold regionMod; split <;> rfl
@[simp] theorem regionMod_made (k : Nat) (g : RegionSt → RegionSt) (s : State) : (regionMod k g s).made = s.made := by
  unfold regionMod; split <;> rfl
@[simp] theorem regionMod_exch (k : Nat) (g : RegionSt → RegionSt) (s : State) : (regionMod k g s).exch = s.exch := by
  unfold regionMod; split <;> rfl
@[simp] theorem regionMod_nextXid (k : Nat) (g : RegionSt → RegionSt) (s : State) : (regionMod k g s).nextXid = s.nextXid := by
  unfold regionMod; split <;> rfl
@[simp] theorem regionMod_jobs (k : Nat) (g : RegionSt → RegionSt) (s : State) : (regionMod k g s).jobs = s.jobs := by
  unfold regionMod; split <;> rfl
@[simp] theorem regionMod_nextJob (k : Nat) (g : RegionSt → RegionSt) (s : State) : (regionMod k g s).nextJob = s.nextJob := by
  unfold regionMod; split <;> rfl
@[simp] theorem regionMod_poolClock (k : Nat) (g : RegionSt → RegionSt) (s : State) : (regionMod k g s).poolClock = s.poolClock := by
  unfold regionMod; split <;> rfl
@[simp] theorem regionMod_homes (k : Nat) (g : RegionSt → RegionSt) (s : State) : (regionMod k g s).homes = s.homes := by
  unfold regionMod; split <;> rfl
@[simp] theorem regionMod_carves (k : Nat) (g : RegionSt → RegionSt) (s : State) : (regionMod k g s).carves = s.carves := by
  unfold regionMod; split <;> rfl
@[simp] theorem regionMod_staged (k : Nat) (g : RegionSt → RegionSt) (s : State) : (regionMod k g s).staged = s.staged := by
  unfold regionMod; split <;> rfl
@[simp] theorem regionMod_fabEpoch (k : Nat) (g : RegionSt → RegionSt) (s : State) : (regionMod k g s).fabEpoch = s.fabEpoch := by
  unfold regionMod; split <;> rfl
@[simp] theorem regionMod_scrub (k : Nat) (g : RegionSt → RegionSt) (s : State) : (regionMod k g s).scrub = s.scrub := by
  unfold regionMod; split <;> rfl
@[simp] theorem regionMod_accesses (k : Nat) (g : RegionSt → RegionSt) (s : State) : (regionMod k g s).accesses = s.accesses := by
  unfold regionMod; split <;> rfl
@[simp] theorem regionMod_tabor (k : Nat) (g : RegionSt → RegionSt) (s : State) : (regionMod k g s).tabor = s.tabor := by
  unfold regionMod; split <;> rfl
@[simp] theorem regionMod_grant (k : Nat) (g : RegionSt → RegionSt) (s : State) : (regionMod k g s).grant = s.grant := by
  unfold regionMod; split <;> rfl
@[simp] theorem regionMod_ptb (k : Nat) (g : RegionSt → RegionSt) (s : State) : (regionMod k g s).ptb = s.ptb := by
  unfold regionMod; split <;> rfl
@[simp] theorem regionMod_mail0 (k : Nat) (g : RegionSt → RegionSt) (s : State) : (regionMod k g s).mail0 = s.mail0 := by
  unfold regionMod; split <;> rfl
@[simp] theorem regionMod_mail1 (k : Nat) (g : RegionSt → RegionSt) (s : State) : (regionMod k g s).mail1 = s.mail1 := by
  unfold regionMod; split <;> rfl
@[simp] theorem regionMod_nextSession (k : Nat) (g : RegionSt → RegionSt) (s : State) : (regionMod k g s).nextSession = s.nextSession := by
  unfold regionMod; split <;> rfl
@[simp] theorem regionMod_ide (k : Nat) (g : RegionSt → RegionSt) (s : State) : (regionMod k g s).ide = s.ide := by
  unfold regionMod; split <;> rfl
@[simp] theorem regionMod_bulk (k : Nat) (g : RegionSt → RegionSt) (s : State) : (regionMod k g s).bulk = s.bulk := by
  unfold regionMod; split <;> rfl
@[simp] theorem regionMod_bulkReuse (k : Nat) (g : RegionSt → RegionSt) (s : State) : (regionMod k g s).bulkReuse = s.bulkReuse := by
  unfold regionMod; split <;> rfl
@[simp] theorem regionMod_replayEngine (k : Nat) (g : RegionSt → RegionSt) (s : State) : (regionMod k g s).replayEngine = s.replayEngine := by
  unfold regionMod; split <;> rfl


end Sys2Proof.Machine
end

