-- ==== Sys2Proof/Laws/Ops.lean ====
section
/-! SUPPORT. What the shared operations do: functions and rings, completion records, and the ways a command's row can end. -/
namespace Sys2Proof.Machine

/-! ### Functions and rings -/

theorem key_inj (f g : Fn) : f.key = g.key ↔ f = g := by
  cases f <;> cases g <;> simp [Fn.key] <;> try omega
  rename_i a b
  constructor
  · exact BitVec.eq_of_toNat_eq
  · intro h; rw [h]

@[simp] theorem fnOf_fnMod_self (f : Fn) (g : FnSt → FnSt) (s : State) : fnOf (fnMod f g s) f = g (fnOf s f) := by
  simp [fnOf, fnMod]

theorem fnOf_fnMod_ne (f f' : Fn) (g : FnSt → FnSt) (s : State) (h : f' ≠ f) : fnOf (fnMod f g s) f' = fnOf s f' := by
  simp only [fnOf, fnMod]
  exact mapGet_mapMod_ne _ _ _ _ _ (fun e => h ((key_inj _ _).1 e))

@[simp] theorem ringOf_ringMod_self (f : Fn) (g : RingSt → RingSt) (s : State) : ringOf (ringMod f g s) f = g (ringOf s f) := by
  simp [ringOf, ringMod]

theorem ringOf_ringMod_ne (f f' : Fn) (g : RingSt → RingSt) (s : State) (h : f' ≠ f) : ringOf (ringMod f g s) f' = ringOf s f' := by
  simp only [ringOf, ringMod]
  rw [fnOf_fnMod_ne _ _ _ _ h]

@[simp] theorem fnOf_emit (o : Output) (s : State) (f : Fn) : fnOf (emit o s) f = fnOf s f := rfl
@[simp] theorem ringOf_emit (o : Output) (s : State) (f : Fn) : ringOf (emit o s) f = ringOf s f := rfl
@[simp] theorem fnOf_bumpOpen (s : State) (f : Fn) : fnOf (bumpOpen s) f = fnOf s f := rfl
@[simp] theorem fnOf_bumpDraw (s : State) (f : Fn) : fnOf (bumpDraw s) f = fnOf s f := rfl
@[simp] theorem fnOf_modProg (f' : Fn) (i : W32) (g : InProg → InProg) (s : State) (f : Fn) : fnOf (modProg f' i g s) f = fnOf s f := rfl
@[simp] theorem fnOf_dropProg (p : InProg) (s : State) (f : Fn) : fnOf (dropProg p s) f = fnOf s f := rfl

/-! ### The dirty log, the doorbell record -/

theorem markPage_cases (f : Fn) (k : Nat) (s : State) :
    markPage f k s = s ∨ (∃ d, markPage f k s = fnMod f (fun x => { x with dirty := some d }) s) ∨
    ∃ d o, markPage f k s = emit o (fnMod f (fun x => { x with dirty := some d }) s) := by
  unfold markPage
  split
  · simp
  · dsimp only
    split
    · exact .inr (.inl ⟨_, rfl⟩)
    · repeat' split
      all_goals first | exact .inl rfl | exact .inr (.inr ⟨_, _, rfl⟩)

@[simp] theorem ringOf_markPage (f g : Fn) (k : Nat) (s : State) : ringOf (markPage f k s) g = ringOf s g := by
  have hr : ∀ d, ringOf (fnMod f (fun x => { x with dirty := some d }) s) g = ringOf s g := by
    intro d
    by_cases h : g = f
    · subst h; simp [ringOf]
    · simp [ringOf, fnOf_fnMod_ne _ _ _ _ h]
  rcases markPage_cases f k s with h | ⟨d, h⟩ | ⟨d, o, h⟩ <;> simp [h, hr]

theorem fnOf_markPage_ne (f g : Fn) (k : Nat) (s : State) (h : g ≠ f) : fnOf (markPage f k s) g = fnOf s g := by
  rcases markPage_cases f k s with e | ⟨d, e⟩ | ⟨d, o, e⟩ <;> simp [e, fnOf_fnMod_ne _ _ _ _ h]

@[simp] theorem ringOf_markPages (f g : Fn) (k n : Nat) (s : State) : ringOf (markPages f k n s) g = ringOf s g := by
  induction n generalizing k s with
  | zero => rfl
  | succ n ih => simp [markPages, ih]

theorem fnOf_markPages_ne (f g : Fn) (k n : Nat) (s : State) (h : g ≠ f) : fnOf (markPages f k n s) g = fnOf s g := by
  induction n generalizing k s with
  | zero => rfl
  | succ n ih => simp [markPages, ih, fnOf_markPage_ne _ _ _ _ h]

@[simp] theorem ringOf_markHost (f g : Fn) (a n : Nat) (s : State) : ringOf (markHost f a n s) g = ringOf s g := by
  unfold markHost; split <;> simp

theorem fnOf_markHost_ne (f g : Fn) (a n : Nat) (s : State) (h : g ≠ f) : fnOf (markHost f a n s) g = fnOf s g := by
  unfold markHost; split <;> simp [fnOf_markPages_ne _ _ _ _ _ h]

theorem markHost_off (f : Fn) (a n : Nat) (s : State) (h : (fnOf s f).dirty = none) : markHost f a n s = s := by
  simp [markHost, h]

@[simp] theorem ringOf_postDoorbell (f g : Fn) (s : State) : ringOf (postDoorbell f s) g = ringOf s g := by
  simp [postDoorbell]

theorem fnOf_postDoorbell_ne (f g : Fn) (s : State) (h : g ≠ f) : fnOf (postDoorbell f s) g = fnOf s g := by
  simp [postDoorbell, fnOf_markHost_ne _ _ _ _ _ h]

theorem postDoorbell_off (f : Fn) (s : State) (h : (fnOf s f).dirty = none) :
    postDoorbell f s = emit (.doorbell (viaOf s f) (devHalf (ringOf s f)) (devBytes (devHalf (ringOf s f)))) s := by
  simp [postDoorbell, markHost_off _ _ _ _ h]

theorem fnOf_settleRing_ne (f g : Fn) (s : State) (h : g ≠ f) : fnOf (settleRing f s) g = fnOf s g := by
  unfold settleRing; dsimp only; split
  · simp [ringMod, fnOf_fnMod_ne _ _ _ _ h]
  · rfl

theorem settleRing_on (f : Fn) (s : State) (h : (ringOf s f).ctrl = true) : settleRing f s = s := by
  simp [settleRing, h]

/-! ### Only functions, outputs, counters -/

/-- `t` differs from `s` in its functions, its counters and open values, and in what it has sent since: `o`. -/
def Edge (o : List Output) (s t : State) : Prop :=
  t = { s with out := s.out ++ o, fns := t.fns, tabor := t.tabor, opens := t.opens }

theorem Edge.refl (s : State) : Edge [] s s := by simp [Edge]
theorem Edge.trans {o o' : List Output} {s t u : State} (h : Edge o s t) (h' : Edge o' t u) : Edge (o ++ o') s u := by
  unfold Edge at *; rw [h', h]; simp [List.append_assoc]
theorem Edge.out {o : List Output} {s t : State} (h : Edge o s t) : t.out = s.out ++ o := by rw [h]
theorem edge_emit (o : Output) (s : State) : Edge [o] s (emit o s) := by simp [Edge, emit]
theorem edge_fnMod (f : Fn) (g : FnSt → FnSt) (s : State) : Edge [] s (fnMod f g s) := by simp [Edge, fnMod]
theorem edge_ringMod (f : Fn) (g : RingSt → RingSt) (s : State) : Edge [] s (ringMod f g s) := edge_fnMod _ _ _
theorem edge_trace (f : Fn) (k : Nat) (c : W16) (d : BitVec 128) (s : State) : Edge [] s (trace f k c d s) := by simp [Edge, trace]
theorem edge_traceVf (f : Fn) (k : Nat) (c : W16) (d : BitVec 128) (s : State) : Edge [] s (traceVf f k c d s) := by
  cases f
  · exact .refl s
  · exact edge_trace _ _ _ _ _

@[simp] theorem fnOf_traceVf (f g : Fn) (k : Nat) (c : W16) (d : BitVec 128) (s : State) : fnOf (traceVf f k c d s) g = fnOf s g := by
  cases f <;> rfl
@[simp] theorem ringOf_traceVf (f g : Fn) (k : Nat) (c : W16) (d : BitVec 128) (s : State) : ringOf (traceVf f k c d s) g = ringOf s g := by
  cases f <;> rfl

/-- Outputs that are not completion records. -/
def noRecord (o : List Output) : Prop := ∀ v n r i, Output.record v n r i ∉ o

theorem edge_markPage (f : Fn) (k : Nat) (s : State) : ∃ o, noRecord o ∧ Edge o s (markPage f k s) := by
  unfold markPage
  split
  · exact ⟨[], by simp [noRecord], .refl s⟩
  · dsimp only
    repeat' split
    all_goals first
      | exact ⟨[], by simp [noRecord], .refl s⟩
      | exact ⟨[], by simp [noRecord], edge_fnMod _ _ _⟩
      | exact ⟨[_], by simp [noRecord], (edge_fnMod _ _ s).trans (edge_emit _ _)⟩

theorem edge_markPages (f : Fn) (k n : Nat) (s : State) : ∃ o, noRecord o ∧ Edge o s (markPages f k n s) := by
  induction n generalizing k s with
  | zero => exact ⟨[], by simp [noRecord], .refl s⟩
  | succ n ih =>
    obtain ⟨o, ho, h⟩ := edge_markPage f k s
    obtain ⟨o', ho', h'⟩ := ih (k + 1) (markPage f k s)
    exact ⟨o ++ o', by simp_all [noRecord], h.trans h'⟩

theorem edge_markHost (f : Fn) (a n : Nat) (s : State) : ∃ o, noRecord o ∧ Edge o s (markHost f a n s) := by
  unfold markHost
  split
  · exact ⟨[], by simp [noRecord], .refl s⟩
  · exact edge_markPages _ _ _ _

theorem edge_postDoorbell (f : Fn) (s : State) : ∃ o, noRecord o ∧ Edge o s (postDoorbell f s) := by
  obtain ⟨o, ho, h⟩ := edge_markHost f ((ringOf s f).dbrecBase.toNat + 64) 64 s
  exact ⟨o ++ [_], by simp_all [noRecord], h.trans (edge_emit _ _)⟩

theorem edge_raiseMsix (f : Fn) (s : State) : ∃ o, noRecord o ∧ Edge o s (raiseMsix f s) := by
  unfold raiseMsix
  split
  · exact ⟨[], by simp [noRecord], .refl s⟩
  · exact ⟨[_], by simp [noRecord], (edge_ringMod _ _ s).trans (edge_emit _ _)⟩

theorem edge_signalEvent (f : Fn) (s : State) : ∃ o, noRecord o ∧ Edge o s (signalEvent f s) := by
  unfold signalEvent
  dsimp only
  split
  all_goals
    obtain ⟨o, ho, h⟩ := edge_raiseMsix f (ringMod f _ s)
    exact ⟨[] ++ o, by simpa using ho, (edge_ringMod _ _ s).trans h⟩

theorem edge_settleRing (f : Fn) (s : State) : Edge [] s (settleRing f s) := by
  unfold settleRing; dsimp only; split
  · exact edge_ringMod _ _ _
  · exact .refl s

/-- What a record's write does. -/
theorem writeRecord_spec (f : Fn) (mk : Bool → CplRec) (s : State) (h : (ringOf s f).hostWriteFailed = false) :
    (∃ o, Edge (o ++ [.record (viaOf s f) ((ringOf s f).cplTail.toNat % cplEntries (ringOf s f)) (mk (phaseBit (ringOf s f) (ringOf s f).cplTail))
      (cplBytes (mk (phaseBit (ringOf s f) (ringOf s f).cplTail)))]) s (writeRecord f mk s)) ∧
    ringOf (writeRecord f mk s) f = { ringOf s f with cplTail := (ringOf s f).cplTail + 1 } := by
  simp only [writeRecord, h]
  constructor
  · obtain ⟨o, -, h⟩ := edge_markHost f ((ringOf s f).cplBase.toNat + 32 * ((ringOf s f).cplTail.toNat % cplEntries (ringOf s f))) 32 s
    exact ⟨o, by simpa using (h.trans (edge_emit _ _)).trans (edge_ringMod f _ _)⟩
  · simp [h]

theorem writeRecord_dropped (f : Fn) (mk : Bool → CplRec) (s : State) (h : (ringOf s f).hostWriteFailed = true) :
    writeRecord f mk s = s := by simp [writeRecord, h]

/-! ### The ways a command's row can end -/

/-- A row whose command has not been dispatched, or that comes while the controller does not run, changes nothing. -/
theorem runCmd_idle (r : Row) (f : InProg → State → State) (s : State) (hd : serving s = false ∨ dispatched s r = none) :
    runCmd r f s = s := by
  unfold runCmd
  rcases hd with hd | hd
  · simp [hd]
  · simp [hd]

/-- A refused command completes with its first failing check. -/
theorem runCmd_refused (r : Row) (f : InProg → State → State) (s : State) (p : InProg) (st : W16) (d : W32) (a : Refused s r p st d) :
    runCmd r f s = complete p st d 0 s := by
  simp [runCmd, a.live, a.found, a.fails]

/-- An admitted command runs. -/
theorem runCmd_admitted (r : Row) (f : InProg → State → State) (s : State) (p : InProg) (a : Admitted s r p) : runCmd r f s = f p s := by
  simp [runCmd, a.live, a.found, a.passes]

/-- The command that a row finds is the scan's, with the row's header, opcode and operands. -/
theorem dispatched_spec {s : State} {r : Row} {p : InProg} (e : dispatched s r = some p) :
    p ∈ s.prog ∧ p.fn = r.hdr.fn ∧ p.idx = r.hdr.idx ∧ p.opcode = r.opcode ∧ p.tag = r.hdr.tag ∧ p.event = r.hdr.event ∧ p.ctx = r.hdr.ctx ∧
      p.ctxGen = r.hdr.ctxGen ∧ p.tvf = (if r.hdr.tvValid then some r.hdr.tv else none) ∧ p.started = false ∧ rawHas p.raw r.fields = true := by
  unfold dispatched at e
  split at e
  · rename_i q hq
    split at e
    · rename_i hr
      cases e
      have hm := List.mem_of_find?_eq_some hq
      have hs := List.find?_some hq
      simp only [rowOf, Bool.and_eq_true, beq_iff_eq] at hr
      obtain ⟨⟨⟨⟨⟨⟨⟨⟨a, b⟩, c⟩, d⟩, e⟩, f⟩, g⟩, i⟩, j⟩ := hr
      exact ⟨hm, a, b, c, d, e, f, g, i, by simpa using hs, j⟩
    · cases e
  · cases e

theorem firstFail_none {l : List Check} (h : firstFail l = none) : ∀ c ∈ l, c = none := by
  induction l with
  | nil => simp
  | cons a l ih =>
    cases a with
    | none => simpa [firstFail] using ih h
    | some c => simp [firstFail] at h

/-- Every check of an admitted command passes. -/
theorem first_none {c : Checks} {s : State} {h : CmdHdr} {p : InProg} (e : c.first s h p = none) :
    firstField (p.rsvd.map (fun o => (stMalformed, BitVec.ofNat 32 o)) :: c.malformed) = none ∧ (∀ x ∈ c.buffer, x = none) ∧
    ringAllows p.opcode h.fn = true ∧ (∀ x ∈ c.permitted, x = none) ∧ ctxStale s (hdrTarget h) h = none ∧ (∀ x ∈ c.unit, x = none) ∧
    ctxDead s (hdrTarget h) h = none ∧ (∀ x ∈ c.state, x = none) ∧ (∀ x ∈ c.limits, x = none) ∧ (∀ x ∈ c.busy, x = none) ∧
    (∀ x ∈ c.slots, x = none) := by
  have h' := firstFail_none e
  simp only [List.mem_append, List.mem_singleton, or_imp, forall_and, forall_eq] at h'
  obtain ⟨⟨⟨⟨⟨⟨⟨⟨⟨⟨a, b⟩, c⟩, d⟩, e⟩, f⟩, g⟩, i⟩, j⟩, k⟩, l⟩ := h'
  refine ⟨a, b, ?_, d, e, f, g, i, j, k, l⟩
  simpa [failIf] using c

theorem runRow_admitted {s : State} {r : Row} {p : InProg} (a : Admitted s r p) (f : InProg → State → State) :
    runRow r f s = settle (f p s) := by
  unfold runRow; rw [runCmd_admitted r f s p a]

theorem runRow_refused {s : State} {r : Row} {p : InProg} {st : W16} {d : W32} (a : Refused s r p st d) (f : InProg → State → State) :
    runRow r f s = settle (complete p st d 0 s) := by
  unfold runRow; rw [runCmd_refused r f s p st d a]

theorem whenLive_live (f : State → State) (s : State) (h : serving s = true) : whenLive f s = f s := by simp [whenLive, h]
theorem whenLive_idle (f : State → State) (s : State) (h : serving s = false) : whenLive f s = s := by simp [whenLive, h]

end Sys2Proof.Machine
end

