-- ==== Sys2Proof/Laws/Keys.lean ====
section
/-! SUPPORT. What reserving, placing and retiring of KIDs do. -/
namespace Sys2Proof.Machine

theorem firstFree_spec (used : Nat → Bool) (n k j : Nat) (h : firstFree used n k = some j) : used j = false ∧ k ≤ j ∧ j < k + n := by
  fun_induction firstFree used n k with
  | case1 => simp at h
  | case2 n k hu ih => obtain ⟨a, b, c⟩ := ih h; exact ⟨a, by omega, by omega⟩
  | case3 n k hu => simp at h; subst h; exact ⟨by simpa using hu, by omega, by omega⟩

theorem freeKidIn_spec (s : State) (first last from_ k : Nat) (hf : first ≤ last) (h : freeKidIn s first last from_ = some k) :
    mapFind s.ks.kids k = none ∧ k ≤ last := by
  unfold freeKidIn at h
  dsimp only at h
  split at h
  · rename_i j hj
    obtain ⟨a, b, c⟩ := firstFree_spec _ _ _ _ hj
    simp at h; subst h
    exact ⟨by simpa using a, by omega⟩
  · obtain ⟨a, b, c⟩ := firstFree_spec _ _ _ _ h
    exact ⟨by simpa using a, by omega⟩

theorem freeKid_spec (s : State) (k : Nat) (h : freeKid s = some k) : mapFind s.ks.kids k = none ∧ (BitVec.ofNat 16 k).toNat = k := by
  obtain ⟨a, b⟩ := freeKidIn_spec s _ _ _ k (by decide) h
  refine ⟨a, ?_⟩
  have : Config.kidLast < 2 ^ 16 := by decide
  rw [BitVec.toNat_ofNat]; exact Nat.mod_eq_of_lt (by omega)

theorem slotCheck_none (s : State) (h : slotCheck s = none) : ∃ sl k, freeSlot s = some sl ∧ freeKid s = some k := by
  unfold slotCheck at h
  split at h
  · simp at h
  · rename_i sl hs
    split at h
    · simp at h
    · rename_i k hk
      exact ⟨sl, k, hs, hk⟩

/-- A key placed for a completing command: its KID was UNALLOCATED, is LIVE, and maps to the slot as given. -/
theorem placed_spec (f : Fn) (x : SlotSt) (s : State) (h : slotCheck s = none) :
    let k := (reserveKid f s).1
    let v := activateKid k (placeKey k x (reserveKid f s).2)
    mapFind s.ks.kids k.toNat = none ∧ kidCode (mapFind v.ks.kids k.toNat) = 1 ∧ slotOf v k = some { x with kid := k } ∧
    v.draws = s.draws ∧ v.fns = s.fns ∧ v.out = s.out := by
  obtain ⟨sl, k, hs, hk⟩ := slotCheck_none s h
  obtain ⟨hn, hb⟩ := freeKid_spec s k hk
  have hv : reserveKid f s = (BitVec.ofNat 16 k,
      { s with ks := { s.ks with kids := mapSet s.ks.kids k { st := .reserved f, slot := sl, owner := some f }
                                 lastKid := k, lastBank := sl / Config.bankSlots } }) := by
    simp [reserveKid, hs, hk]
  simp [hv, hb, hn, activateKid, kidReserved, placeKey, setKid, traceKid, trace, kidCode, slotOf]

/-- The end of a retirement touches the key store and the trace alone. -/
theorem finishRetire_frame (kid : W16) (s : State) :
    finishRetire kid s = { s with ks := (finishRetire kid s).ks, opens := (finishRetire kid s).opens, tabor := (finishRetire kid s).tabor } := by
  unfold finishRetire
  split
  · split <;> simp [traceKid, trace]
  · rfl

/-- Filling an engine's cache touches the key store and the trace alone. -/
theorem cacheKid_frame (e : Nat) (kid : W16) (s : State) :
    cacheKid e kid s = { s with ks := (cacheKid e kid s).ks, opens := (cacheKid e kid s).opens, tabor := (cacheKid e kid s).tabor } := by
  unfold cacheKid
  dsimp only
  split
  · rfl
  · split
    · exact finishRetire_frame _ _
    · rfl

end Sys2Proof.Machine
end

