-- ==== Sys2Proof/Machine/Domains.lean ====
section
/-! DEFINITION. The 139 power domains of Table 02-6 (R40, R41). A domain keeps no state of its own beyond what the rules of its unit say
is lost; whether it may be off follows from the rest of the state. -/
namespace Sys2Proof.Machine

/-- A separately switched power domain (Table 02-6). -/
inductive Domain where
  | linkDatapath (engine : Fin 34) | linkCache (engine : Fin 34)
  | poolCipher (engine : Fin 8) | poolCounters (engine : Fin 8) | poolWalker (engine : Fin 8)
  | bulkEngine (engine : Fin 2)
  | kxe
  | keyBank (bank : Fin 16)
  | taborSection (section_ : Fin 4)
  | core | sram | ringDoe
  | fabricPort (port : Fin 8)
  | checker (checker : Fin 12)
  | dsmPort
  deriving DecidableEq, Repr

/-- Every domain, in the order of Table 02-6. -/
def domains : List Domain :=
  (List.finRange 34).map .linkDatapath ++ (List.finRange 34).map .linkCache ++ (List.finRange 8).map .poolCipher
    ++ (List.finRange 8).map .poolCounters ++ (List.finRange 8).map .poolWalker ++ (List.finRange 2).map .bulkEngine ++ [.kxe]
    ++ (List.finRange 16).map .keyBank ++ (List.finRange 4).map .taborSection ++ [.core, .sram, .ringDoe]
    ++ (List.finRange 8).map .fabricPort ++ (List.finRange 12).map .checker ++ [.dsmPort]

/-- A link engine serves a port that is present. -/
def engineServes (s : State) (e : Nat) : Bool := (List.range 32).any (fun p => portPresent s p && engineOfPort s p == e)
/-- A pool engine is permitted and usable and some region is bound to it, or its local loop runs. -/
def poolInUse (s : State) (e : Nat) : Bool := s.ptb.poolLoops.contains e || (poolPresent s e && s.regions.any (fun r => r.2.engine == e))
/-- Some unit behind a fabric port is enabled (R43). -/
def fabricInUse (s : State) (f : Nat) : Bool :=
  (List.range 4).any (fun i => portPresent s (4 * f + i)) || poolPresent s f || bulkPresent s f

/-- R40: the condition under which Table 02-6 lets a domain be switched off; while a start runs, none is. -/
def mayBeOff (s : State) (d : Domain) : Bool :=
  let off := s.pkg.power == .off
  let deep := off || s.pkg.power == .a3
  let walk := deep || s.pkg.power == .a2
  (s.pkg.phase == .ready || s.pkg.phase == .halted) &&
    (match d with
     | .linkDatapath e => deep || !engineServes s e.val
     | .linkCache e => deep || !engineServes s e.val
     | .poolCipher e => deep || !poolInUse s e.val
     | .poolCounters e => walk || !poolInUse s e.val
     | .poolWalker e => walk || !poolInUse s e.val
     | .bulkEngine e => !(bulkPresent s e.val && s.bulk.any (fun b => b.1 / 16 == e.val))
     | .kxe => deep
     | .keyBank b => off || !bankUsable s b.val
     | .taborSection _ => deep
     | .core => deep
     | .sram => off
     | .ringDoe => deep
     | .fabricPort f => deep || !fabricInUse s f.val
     | .checker _ => deep
     | .dsmPort => off)

end Sys2Proof.Machine
end

