-- ==== Sys2Proof/WellFormed.lean ====
section
/-! DEFINITION. Which terms of `Instr` stand for a command: the lists that an operand holds have the lengths their fields state, and
numbers fit the fields they come from. Values that the manual itself refuses are well formed: their refusal is the machine's. -/
namespace Sys2Proof

/-- A number fits a field of `n` bits. -/
def fits (n k : Nat) : Bool := decide (k < 2 ^ n)

/-- The data of a DATA or RETURN frame is as long as LENGTH states (Tables 07-6, 08-8). -/
def DataPay.wf (p : DataPay) : Bool := p.data.length == p.length.toNat
/-- A chime payload lists its COUNT signals (Table 08-3), none where COUNT is out of range. -/
def ChimePay.wf (p : ChimePay) : Bool := p.sigs.length == (if p.count.toNat ≤ 15 then p.count.toNat else 0)
/-- The data of a pool write or reduction is as long as LENGTH states (Table 09-10). -/
def PoolPay.wf (p : PoolPay) : Bool := p.data.isEmpty || p.data.length == p.length.toNat
/-- The surroundings of a start name units, detectors and profiles that exist. -/
def StartEnv.wf (e : StartEnv) : Bool :=
  e.vll.length == 24 && e.dies.length == 4 && e.badDetectors.all (fun d => decide (d < 24))
    && (match e.flash with | some f => f.profileBad.all (fun p => decide (p.1 < 4)) | none => true)
/-- An access to in-package memory has a length. -/
def MemAccess.wf (m : MemAccess) : Bool := decide (1 ≤ m.len)
/-- The stream, sub-stream and port of an IDE_KM message fit their fields (R158). -/
def IdeSel.wf (i : IdeSel) : Bool := fits 8 i.stream && fits 3 i.sub
/-- The byte strings of an encapsulation have the lengths of Table 05-3. -/
def Encap.wf (e : Encap) : Bool := e.mlkemCt.length == 1568 && e.ecdhEph.length == 97 && e.wrappedJmk.length == 40
/-- WRAPPED of a blob has 48 bytes (Table 05-10). -/
def Blob.wf (b : Blob) : Bool := b.wrapped.length == 48
/-- STATE and KEY_BLOB of a bulk record have 296 and 56 bytes (Table 12-5). -/
def BulkRec.wf (r : BulkRec) : Bool := r.state.length == 296 && r.blob.length == 56
/-- A relay list holds at most 5 relays (R191). -/
def relaysWf (l : List (BitVec 12)) : Bool := decide (l.length ≤ 5)

/-- The term stands for a command. -/
def Instr.wf (i : Instr) : Bool :=
  match i with
  | .reduce _ _ _ _ _ length _ (.ok d) => d.length == length.toNat
  | .joinJob _ _ _ _ (.ok e) => e.wf
  | .keyAlloc _ _ _ (.ok b) => b.wf
  | .bulkCtxRestore _ _ _ _ (.ok r) => r.wf
  | .resetPackage _ env => env.wf
  | .replayContext _ count (.ok l) => l.length == count.toNat
  | .lcTransition _ _ _ env => env.wf
  | .sealRequest q => decide (q.payload.length ≤ 4096)
  | .chimeRequest _ p => p.wf
  | .localChimeRequest _ _ _ _ p => p.wf
  | .taborEvent _ _ type format units tick => fits 8 type && fits 8 format && fits 40 units && fits 64 tick
  | .data _ _ p => p.wf
  | .chime _ _ p => p.wf
  | .return_ _ _ p => p.wf
  | .poolWrite _ _ p => p.wf
  | .poolReduce _ _ p => p.wf
  | .poolRead _ _ p => p.data.isEmpty
  | .firewallAccess m => m.wf
  | .writeLines _ h l => l.length == h.count.toNat
  | .readNodes _ r l => l.length == r.hdr.count.toNat
  | .writeNodes _ h l => l.length == h.count.toNat
  | .openAck _ _ _ _ _ _ relays _ => relaysWf relays
  | .budgetReport draws => draws.all (fits 32)
  | .powerStateRequest _ env => env.wf
  | .avkPwrokRise env => env.wf
  | .keyProg _ i _ _ => i.wf
  | .kSetGo _ i => i.wf
  | .kSetStop _ i => i.wf
  | .recoveryLcTransition _ env => env.wf
  | .imgBegin length => fits 32 length
  | .imgData offset bytes => fits 32 offset && fits 32 bytes
  | .imageWriteDone _ env => env.wf
  | .flashWriteDone _ env => env.wf
  | .lcMbox (.transition _ env) => env.wf
  | .vfEnable _ start => fits 64 start.tick
  | _ => true

end Sys2Proof
end

