-- ==== Sys2Proof/Tests/Slice0.lean ====
section
/-! SUPPORT. Tests of the model: ill-formed terms refused, results taken from the manual's own examples and tables, and for every
statement with premises a state and operands that meet them. -/
set_option Elab.async false
namespace Sys2Proof.Tests
open Sys2Proof Sys2Proof.Machine

/-! ### States to test on -/

/-- A DEPLOYED package, ready in A0, with the capabilities of the example of R425. -/
def base : State :=
  { State.reset with
    pkg := { phase := .ready, boot := 1, cap0 := 0xFFFFFFFF000002F0, cap1 := 0x01002703FFFFFF7F, cap2 := 0x000001FF0FFFDFFF
             cap3 := 0x00FFFFFF3C00FDFF, paired := 15 }
    otp := { deviceId := 0xD1, owners := [0xAB, 0, 0, 0, 0, 0, 0, 0], owner := 0x010101 }
    aon := { stateWord := 0x1F, owners := 1, armed := 15 }
    fab := { id := 0x012, go := true, routes := [(0x13 * 4, (0x8000000000000000, 0))] } }

def v3 : Fn := .vf 3
def v4 : Fn := .vf 4
/-- An enabled ring with 64 entries each way, one descriptor fetched. -/
def ringUp : RingSt := { cmdLog2 := 6, cplLog2 := 6, ctrl := true, enabled := true, cmdTail := 1, cmdHead := 1 }
/-- A slot with a key of a kind. -/
def slotFor (kid : W16) (kind : KeyKind) (use : Byte) (f : Fn) : SlotSt :=
  { key := kid.setWidth 256, kind := kind, use := use, kid := kid, owner := f, job := 0x21, ctx := 0xFFFF, ctxGen := 0, epoch := 0
    subject := 0, parent := 0 }
def sendTo (cls ord : BitVec 4) (kid : W16) : SendSt :=
  { job := 0x21, sid := streamId 0x012 0x013 cls ord, fn := v3, ctx := 0xFFFF, ctxGen := 0, e0 := 0x10001, epoch := 0x10001, index := 0
    kid := kid, next := none, routeSel := 0, port := 0, relays := [], closing := false }
def recvFrom (cls ord : BitVec 4) (kid : W16) : RecvSt :=
  { job := 0x21, sid := streamId 0x013 0x012 cls ord, fn := v3, ctx := 0xFFFF, ctxGen := 0, e0 := 0x10001, epoch := 0x10001, index := 0
    kid := kid, next := none, relays := [], closing := false }
/-- The slot of a stream's key. -/
def slotOfStream (kid : W16) (use : Byte) (sid : W32) : SlotSt :=
  { slotFor kid .stream use v3 with epoch := 0x10001, subject := sid.setWidth 40, parent := 1 }
def liveKid (slot : Nat) (f : Option Fn) : KidSt := { st := .live, slot := slot, owner := f }
/-- VF 3 with a job, a context, an object, a fence; VF 4 with its TDI in RUN and no job. -/
def world : State :=
  { base with
    fns := [(3, { ring := ringUp, enabled := true, job := some 0x21, jmkKid := 1, ctxs := [(0, { gen := 1, live := true })]
                  objs := [(0, { rights := 3, ctx := 0xFFFF, base := 0x10000, size := 0x10000, unmapping := false, scrub := false })]
                  fences := [(0, { value := 0x3F, local_ := 0, refs := [0] })], migKids := [0xFE00], tdi := { state := .run } }),
            (4, { ring := ringUp, enabled := true, tdi := { state := .run } }),
            (4096, { ring := ringUp })]
    ks := { slots := [(0, slotFor 1 .job 0x10 v3), (1, slotFor 2 .tenant useBulk v3), (2, slotOfStream 3 useSeal (streamId 0x012 0x013 0 0))
                      , (3, slotOfStream 4 useOpen (streamId 0x013 0x012 0 0)), (4, slotFor 5 .region usePool v3), (5, slotFor 6 .directory usePool v3)
                      , (6, slotFor 0xFE00 .migration useWrap v3)
                      , (7, slotOfStream 7 useOpen (streamId 0x013 0x012 4 0))]
            kids := [(1, liveKid 0 (some v3)), (2, liveKid 1 (some v3)), (3, liveKid 2 (some v3)), (4, liveKid 3 (some v3)),
                     (5, liveKid 4 (some v3)), (6, liveKid 5 (some v3)), (7, liveKid 7 (some v3)), (0xFE00, liveKid 6 none)]
            lastKid := 7, lastInt := 0xFE00, caches := [(0, [3, 4]), (34, [5, 6]), (42, [2])] }
    ports := [(0, { trained := true, up := true, nbr := some 0x013, nbrBoot := some 7, credits := List.replicate 15 64 })]
    sends := [sendTo 0 0 3, sendTo 1 0 3, sendTo 2 0 3, sendTo 3 0 3, sendTo 4 0 3]
    recvs := [recvFrom 0 0 4, recvFrom 4 0 7]
    carves := [(9, { base := 0, limit := 0x400000 })]
    regions := [(0, newRegion v3 0x21 7 7 0xFFFF 0 1 0x012 0x4000 0x013 0 5 .live 0 0 0),
                (1, newRegion v3 0x21 dirRid 0xFFFFFFF012 0xFFFF 0 1 0x012 0x4000 0x013 0 6 .live (2 ^ 48) 0 0)]
    nextRegion := 2
    bulk := [(3, { vf := v3, mode := 3, ctx := 0xFFFF, ctxGen := 0, kid := 2, key := none, state := .idle, decrypt := false, duLog2 := 0
                   chain := {} })] }

def hdr (f : Fn) (ctx gen : W16) (tv : Option (BitVec 12)) : CmdHdr :=
  { fn := f, tag := 0x77, event := false, ordered := false, ctx := ctx, ctxGen := gen, tvValid := tv.isSome, tv := tv.getD 0, idx := 0 }
/-- On VF 3's ring for its context, for the VF; on VF 4's ring; on the admin ring, on VF 3 and on VF 4. -/
def hC : CmdHdr := hdr v3 0 1 none
def hV : CmdHdr := hdr v3 0xFFFF 0 none
def hW : CmdHdr := hdr v4 0xFFFF 0 none
def hA : CmdHdr := hdr .pf 0xFFFF 0 none
def hT : CmdHdr := hdr .pf 0xFFFF 0 (some 3)
def hU : CmdHdr := hdr .pf 0xFFFF 0 (some 4)
/-- A command in progress of a header and an opcode. -/
def got (h : CmdHdr) (op : Byte) : InProg :=
  { fn := h.fn, idx := h.idx, raw := 0, opcode := op, tag := h.tag, event := h.event, ctx := h.ctx, ctxGen := h.ctxGen
    tvf := if h.tvValid then some h.tv else none, gen := 1, rsvd := none, started := false, hold := {}, act := .none }
/-- A descriptor that holds a row's operands. -/
def rawOf (l : OpFields) : BitVec 512 := BitVec.ofNat 512 ((l.map (fun x => x.2.2 * 2 ^ (8 * x.1))).sum)
/-- A command's own row; SELF_TEST's too. -/
def rowFor (c : Instr) : Row :=
  match c with
  | .selfTest h u pt sd r => selfTestRow h u pt sd r
  | _ => (ownRow c).getD { hdr := hA, opcode := 0 }
/-- The command in progress that a row stands for. -/
def entry (r : Row) : InProg := { got r.hdr r.opcode with raw := rawOf r.fields }
/-- The state with that command dispatched. -/
def given (c : Instr) (s : State) : State := { s with prog := [entry (rowFor c)] }
/-- What a command leaves, as `f` sees it. -/
def after {α : Type} (c : Instr) (s : State) (f : State → α) : Option α :=
  match exec c s with
  | .next t => some (f t)
  | _ => none
/-- Status, DETAIL and RESULT of the records written. -/
def recs (s : State) : List (List Nat) :=
  s.out.filterMap (fun o => match o with | .record _ _ r _ => some [r.status.toNat, r.detail.toNat, r.result.toNat] | _ => none)
/-- What a command leaves, as numbers. -/
def left (c : Instr) (s : State) (f : State → List (List Nat)) : List (List Nat) := (after c s f).getD []
/-- What a command leaves where it has been dispatched. -/
def run (c : Instr) (s : State) (f : State → List (List Nat)) : List (List Nat) := left c (given c s) f

/-! ### Ill-formed terms -/

def okEnv : StartEnv :=
  { strap := 0, weakPairs := 0, entropyFails := 0, bistLimitsOk := true, units := [], badDetectors := [], dies := List.replicate 4 []
    vll := List.replicate 24 700, pinsLow := 0, trained := 0, flash := none }
def okReq : LcReq :=
  { format := 1, kind := 6, target := 5, signer := 2, ownerSlot := 1, rsvd6 := 0, deviceId := 0xD1, identityHash := 0, nonce := 0
    newOwnerHash := 0xCD, rsvd144 := 0, signerHash := 0xAB, ecOk := true, pqOk := true }
/-- A frame of these words and bytes with a clean HOP_CRC, at port 0. -/
def mkArr (hop : Hop) (route : W32) (tail : List Byte) : Arrival :=
  { port := 0, hop := hop, route := route, tail := tail, crc := crc32 (wireImage hop route tail) }
def hop0 : Hop :=
  { kind := 1, vc := 0, routeSel := 0, hopIndex := 0, unitsM1 := 0, linkSeq := 0, ackSeq := 0, ackValid := false, nak := false, crdVc := 0
    crdCount := 0 }
def arr0 : Arrival := mkArr hop0 (streamId 0x013 0x012 0 0) []
def seal0 : SealHdr :=
  { sid := 0, seq := 0x1000100000000, jobId := 0x21, units := 1, dstCtx := 0, dstCtxGen := 1, batch := 0, batchGen := 0, tagOk := true }
def home0 : HomeHdr := { xid := 1, hop := 0x10, hstat := 0, count := 1, hflags := 0, jobId := 0x21, regionId := 7, baseItem := 0 }
def data0 : DataPay := { object := 0, length := 2, offset := 0, rsvdOk := true, data := [1, 2] }
def chime0 : ChimePay := { count := 1, rsvdOk := true, sigs := [{ fence := 0, op := 1, value := 0x40 }] }
def pool0 : PoolPay :=
  { pop := 2, redOp := 0, redFormat := 0, retOrdinal := 0, ptag := 9, regionId := 7, offset := 0, length := 2, pstat := 0, rsvdOk := true
    data := [1, 2] }
def q0 : SpdmReq := { port := 0, parity := false, version13 := true, session := none }
def okEncap : Encap :=
  { format := 1, jobId := 0x22, packageId := 0x012, rsvd6 := 0, keHash := 0, mlkemCt := zeros 1568, ecdhEph := zeros 97, rsvd1721 := 0
    wrappedJmk := zeros 40 }
def okBlob : Blob := { format := 2, wrap := 0, rsvd := 0, wrapped := zeros 48 }
def okRec : BulkRec :=
  { format := 5, mode := 3, rflags := 0, vf := 3, duLog2 := 0, rsvd7 := 0, kid := 2, rsvd10 := 0, state := zeros 296, blob := zeros 56 }
def ide0 : IdeSel := { stream := 1, keySet := 0, sub := 0, dir := 0, portIndex := 0 }
def req0 : SealReq :=
  { fn := v3, ctx := 0, cls := 0, peer := 0x013, ordinal := 0, ftype := 1, units := 1, dstCtx := 0, dstCtxGen := 1, batch := 0, batchGen := 0
    payload := [1, 2], fport := 0 }

/-- Every check of `Instr.wf` refuses a term. -/
theorem test_ill_formed_terms_are_refused :
    ([.reduce hV 7 1 3 0 64 0x10000 (.ok [1]),
      .joinJob hV 0x22 0x012 1764 (.ok { okEncap with mlkemCt := [] }), .joinJob hV 0x22 0x012 1764 (.ok { okEncap with ecdhEph := zeros 96 }),
      .joinJob hV 0x22 0x012 1764 (.ok { okEncap with wrappedJmk := zeros 41 }), .keyAlloc hC 1 56 (.ok { okBlob with wrapped := zeros 47 }),
      .bulkCtxRestore hV 3 0 0 (.ok { okRec with state := [] }), .bulkCtxRestore hV 3 0 0 (.ok { okRec with blob := [] }),
      .resetPackage hA { okEnv with vll := [700] }, .resetPackage hA { okEnv with dies := [] },
      .powerStateRequest .a1 { okEnv with badDetectors := [24] },
      .avkPwrokRise { okEnv with flash := some { profileBad := [(4, 1)] } },
      .replayContext hT 2 (.ok []),
      .lcTransition hA 7572 (.ok okReq) { okEnv with vll := [] },
      .sealRequest { req0 with payload := List.replicate 4097 0 },
      .chimeRequest req0 { chime0 with count := 2 },
      .localChimeRequest v3 0 0 0 { chime0 with count := 16 },
      .taborEvent v3 0 256 0 1 0, .taborEvent v3 0 0 256 1 0, .taborEvent v3 0 0 0 (2 ^ 40) 0, .taborEvent v3 0 0 0 1 (2 ^ 64),
      .data arr0 seal0 { data0 with length := 3 },
      .chime arr0 seal0 { chime0 with sigs := [] },
      .return_ arr0 seal0 { data0 with data := [] },
      .poolWrite arr0 seal0 { pool0 with data := [1] },
      .poolReduce arr0 seal0 { pool0 with data := [1, 2, 3] },
      .poolRead arr0 seal0 pool0,
      .firewallAccess { id := 0, cls := .compute, fn := v3, addr := 0, len := 0, write := false },
      .writeLines arr0 home0 [],
      .readNodes arr0 { hdr := home0 } [1, 2],
      .writeNodes arr0 home0 [],
      .openAck arr0 0 0x21 0 0 0 [1, 2, 3, 4, 5, 6] true,
      .budgetReport [2 ^ 32],
      .keyProg q0 { ide0 with stream := 256 } 0 0,
      .kSetGo q0 { ide0 with sub := 8 },
      .kSetStop q0 { ide0 with sub := 8 },
      .recoveryLcTransition okReq { okEnv with vll := [] },
      .imgBegin (2 ^ 32), .imgData (2 ^ 32) 1, .imgData 0 (2 ^ 32),
      .imageWriteDone true { okEnv with badDetectors := [99] },
      .flashWriteDone .transition { okEnv with vll := [] },
      .lcMbox (.transition okReq { okEnv with vll := [] }),
      .vfEnable 3 { tick := 2 ^ 64 }] : List Instr).all (fun c => !c.wf) = true := by decide +kernel

/-- Terms at the edge of those checks are commands. -/
theorem test_terms_at_the_edge_are_well_formed :
    ([.reduce hV 7 1 3 0 2 0x10000 (.ok [1, 2]), .joinJob hV 0x22 0x012 1764 (.ok okEncap), .keyAlloc hC 1 56 (.ok okBlob),
      .bulkCtxRestore hV 3 0 0 (.ok okRec), .resetPackage hA okEnv, .replayContext hT 0 (.ok []),
      .sealRequest { req0 with payload := List.replicate 4096 0 }, .chimeRequest req0 chime0, .chimeRequest req0 { chime0 with count := 16, sigs := [] },
      .taborEvent v3 0 255 255 (2 ^ 40 - 1) (2 ^ 64 - 1), .data arr0 seal0 data0, .poolWrite arr0 seal0 pool0,
      .poolRead arr0 seal0 { pool0 with data := [] }, .writeLines arr0 home0 [(0, 0)], .openAck arr0 0 0x21 0 0 0 [1, 2, 3, 4, 5] true,
      .keyProg q0 { ide0 with stream := 255, sub := 7 } 0 0, .imgData (2 ^ 32 - 1) (2 ^ 32 - 1), .avkPwrokRise okEnv] : List Instr).all Instr.wf
      = true := by decide +kernel

/-! ### The manual's worked examples -/

/-- Table 05-15: the KDF input of a region key. -/
theorem test_kdf_input_of_a_region_key :
    kdfInput 1 lblRegion (regionCtx 0x0A21004C07 3 0x038) 256 =
      [0x00, 0x00, 0x00, 0x01, 0x41, 0x56, 0x4B, 0x31, 0x2D, 0x52, 0x45, 0x47, 0x49, 0x4F, 0x4E, 0x00, 0x0A, 0x21, 0x00, 0x4C, 0x07,
       0x00, 0x00, 0x00, 0x03, 0x00, 0x38, 0x00, 0x00, 0x01, 0x00] := by decide +kernel

/-- Chapter 07's example: stream id, E0, header, first nonce and KDF input of a stream. -/
theorem test_first_frame_of_a_stream :
    streamId 0x012 0x021 0 0 = 0x01202100 ∧
    firstEpoch { base with pkg := { base.pkg with boot := 1207 } } 0x0A21 0x01202100 = 0x04B70001 ∧
    frameIv 0x01202100 0x04B7000100000000 = 0x0120210004B7000100000000 ∧
    headerBytes { sid := 0x01202100, seq := 0x04B7000100000000, jobId := 0x0A21, units := 0x10, dstCtx := 3, dstCtxGen := 1, batch := 0
                  batchGen := 0, tagOk := true } 0x01 =
      [0x01, 0x20, 0x21, 0x00, 0x04, 0xB7, 0x00, 0x01, 0x00, 0x00, 0x00, 0x00, 0x0A, 0x21, 0x01, 0x10, 0x00, 0x03, 0x00, 0x01, 0x00, 0x00,
       0x00, 0x00] ∧
    kdfInput 1 lblStream (streamCtx 0x01202100 0x04B70001) 256 =
      [0x00, 0x00, 0x00, 0x01, 0x41, 0x56, 0x4B, 0x31, 0x2D, 0x53, 0x54, 0x52, 0x45, 0x41, 0x4D, 0x00, 0x01, 0x20, 0x21, 0x00, 0x04, 0xB7,
       0x00, 0x01, 0x00, 0x00, 0x01, 0x00] := by decide +kernel

/-- Chapter 07's example: the hop word's first bytes before and after relay 0x013. -/
theorem test_hop_word_bytes :
    (hopBytes { hop0 with unitsM1 := 15 }).take 2 = [0x10, 0x07] ∧ (hopBytes { hop0 with unitsM1 := 15, vc := 1, hopIndex := 1 }).take 2 = [0x11, 0x17] := by
  decide +kernel
/-- The check value of the CRC-32 over the digits 1 to 9. -/
theorem test_crc32 : crc32 [0x31, 0x32, 0x33, 0x34, 0x35, 0x36, 0x37, 0x38, 0x39] = 0xCBF43926 := by decide +kernel
/-- R40. -/
theorem test_power_domains : domains.length = 139 := by decide +kernel

/-- Chapter 09's example: counter blocks of line 1,000,000, its ancestors, and the bytes a home stores for 6 GiB (Table 09-5). -/
theorem test_pool_geometry :
    counterBlock 1 0 1000000 (0, 1) 0 = 0x100001E8480000000000000000004000 ∧
    counterBlock 2 0 1000000 (0, 1) 0 = 0x200001E8480000000000000000004000 ∧
    (1000000 / 64, 1000000 % 64, 15625 / 64, 15625 % 64, 244 / 64, 244 % 64) = (15625, 0, 244, 9, 3, 52) ∧
    treeDepth (6 * 2 ^ 30 / 256) = 5 ∧ homeBytes (6 * 2 ^ 30) = 6672538584 := by decide +kernel

/-- Table 08-14: SET of 0x40 on a fence at 0x3F. R225: a step of more than 2^62 sets ERR and leaves VALUE; a smaller value changes
nothing. -/
theorem test_fence_rules :
    run (.fenceSignal hC 0 0x40) world recs = [[0, 0, 0x40]] ∧
    run (.fenceSignal hC 0 0x400000000000003F) world recs = [[0, 0, 0x400000000000003F]] ∧
    run (.fenceSignal hC 0 0x4000000000000040) world recs = [[0x0005, 0, 0x3F]] ∧
    run (.fenceSignal hC 0 0x3E) world recs = [[0, 0, 0x3F]] := by decide +kernel

/-- The signal of chapter 08's example, from the snare. -/
def chimed : State :=
  { world with snare := [{ port := 0, fn := v3, src := 0x013, job := 0x21, sid := streamId 0x013 0x012 0 0, seq := 0x1000100000000, dstCtx := 0xFFFF
                           sigs := [{ fence := 0, op := 1, value := 0x40 }], writes := [], jobs := [], met := some 1 }] }
theorem test_snare_releases_a_chime :
    after (.chimeRelease v3 (some 0)) chimed (fun t => ((fnOf t v3).fences.map (·.2.value), t.snare.length)) = some ([0x40], 0) ∧
    after (.chimeRelease v3 (some 0)) { chimed with snare := chimed.snare.map (fun e => { e with writes := [4], met := none }) }
      (fun t => ((fnOf t v3).fences.map (·.2.value), t.snare.length)) = some ([0x3F], 1) := by decide +kernel

/-- Chapter 14's example: trims of a detector with V_LL 694 mV and floor 610 mV. -/
theorem test_detector_trims : trim true 694 610 = (694, 610, 634) ∧ trim false 694 610 = (0, 610, 640) := by decide +kernel

/-- A package whose cipher detector 7 stands at those trims, under L2_SOURCES 0x10. -/
def glitched : State :=
  { base with aon := { base.aon with trims := List.replicate 7 (0, 0, 0) ++ [(694, 610, 634)], l2Sources := 0x10, l2Armed := true } }
/-- Table 14-13: cause 0x11 at level 2, unit 7, WHERE with the three voltages, 24 kill bits, AVK_HALT_n. -/
theorem test_glitch_to_level_2 :
    left (.tamperSourceFire (.lowVolt 7)) glitched (fun t =>
      [[t.aon.halt.cause.toNat, t.aon.halt.level.toNat, t.aon.halt.unit.toNat, t.aon.halt.whereF.toNat, t.aon.halt.lcState.toNat,
        t.otp.owner.toNat, t.aon.haltPin.toNat]]) = [[0x11, 2, 7, 0x0000027A026202B6, 0x05, 0xFFFFFF010101, 1]] ∧
    left (.tamperSourceFire (.lowVolt 7)) { glitched with aon := { glitched.aon with l2Sources := 0 } } (fun t =>
      [[t.aon.halt.level.toNat, t.otp.owner.toNat]]) = [[1, 0x010101]] := by decide +kernel

/-- Chapter 13's example: the PF asks 3,000 us of a VF's view and gets 2,000; a window of 50 us is 52,500 ticks. -/
theorem test_telemetry_windows :
    run (.telemWindow hT 3000) world recs = [[0, 0, 0x7D0]] ∧ run (.telemWindow hV 50) world recs = [[0, 0, 50]] ∧
    run (.telemWindow hA 999) world recs = [[0x0004, 14, 0]] ∧
    windowTicks 50 = 52500 ∧ endTick { window := 50, t0 := 3150000, index := 1 } = 3255000 ∧
    endTick { window := 2000, t0 := 2100000, index := 0 } = 4200000 := by decide +kernel

/-- The VF view of that example with the operation's event stamped one tick before window 1 ends, the frame's at its end. -/
def ticked : State :=
  { world with tabor := { world.tabor with
      vfViews := [(3, { window := 50, t0 := 3150000, index := 1 })]
      events := [{ fn := 3, ctx := 0, counter := 38, units := 3, tick := 3254999 }, { fn := 3, ctx := 0, counter := 95, units := 16, tick := 3255000 }] } }
/-- Table 13-14: the operation falls into window 1, the frame after it. -/
theorem test_window_placement :
    left (.windowEnd (.vf 3)) ticked (fun t =>
      ((viewOf t (.vf 3)).closed.toList.map (fun c => [c.1, c.2.1, c.2.2.1] ++ c.2.2.2.flatMap (fun e => [e.1, e.2])))
        ++ [t.tabor.events.map (·.counter), [(viewOf t (.vf 3)).index]]) = [[1, 3202500, 50, 38, 3], [95], [2]] := by decide +kernel
/-- R360: the command-start snapshot holds the units before it, and the set restarts. -/
theorem test_command_start_snapshot :
    after (.commandStart v3 0x13) { world with tabor := { world.tabor with sets := [{ fn := 3, ctx := 0x13, counts := [(38, 3)], sat := false }] } }
      (fun t => (t.out, t.tabor.sets.map (·.counts))) = some ([.snapshot v3 0x13 [(38, 3)] false false], [[]]) := by decide +kernel

def bulk3 : BulkCtx :=
  { vf := v3, mode := 3, ctx := 0xFFFF, ctxGen := 0, kid := 2, key := none, state := .idle, decrypt := false, duLog2 := 0, chain := {} }
/-- Engine 0 with contexts 0 to 2 open, and context 3 closed once. -/
def reopening : State := { world with bulk := [(0, bulk3), (1, bulk3), (2, bulk3)], bulkReuse := [(3, 1)] }
/-- Chapter 12's example: index 3 opens again under reuse count 1, its state LOST, and the old handle names nothing. -/
theorem test_bulk_handle_on_reopening :
    run (.bulkCtxOpen hV 0 1 0) reopening recs = [[0, 0, 0x00010003]] ∧
    after (.bulkCtxOpen hV 0 1 0) (given (.bulkCtxOpen hV 0 1 0) reopening) (fun t => (mapFind t.bulk 3).map (·.state)) = some (some .lost) ∧
    after (.bulkCtxOpen hV 0 1 0) (given (.bulkCtxOpen hV 0 1 0) reopening) (fun t => (bulkFor t v3 0xFFFF 3).isSome) = some false := by decide +kernel
/-- R343: closing advances the reuse count. -/
theorem test_bulk_close :
    run (.bulkCtxClose hV 3) world (fun t => recs t ++ [[t.bulk.length, (mapGet 0 t.bulkReuse 3).toNat]]) = [[0, 0, 0], [0, 1]] := by
  decide +kernel

/-- Table 03-4: the scan stands at VF 12; of VF 17 and VF 40, VF 17 is nearest; with the pointer at VF 30, VF 40. -/
def contended : State := { base with fns := [(17, { ring := { ringUp with cmdTail := 1, cmdHead := 0 } }), (40, { ring := { ringUp with cmdTail := 1, cmdHead := 0 } })] }
theorem test_scan_takes_the_nearest_ring :
    nearest { contended with scan := 13 } = some (.vf 17) ∧ nearest { contended with scan := 31 } = some (.vf 40) ∧
    nearest { contended with scan := 18 } = some (.vf 40) := by decide +kernel

/-- A firmware image of a security version that checks (Table 15-5). -/
def imageOf (svn : W16) : FwImage :=
  { format := 0x000A, svn := svn, version := 1, codeLen := 1302528, entry := 0, codeHash := 3, rsvdOk := true, signerHash := 0x77, ecOk := true
    pqOk := true, codeSha := 3, measurement := 9 }
/-- Keeper 0x03A before its start (Table 15-9): DEPLOYED, pair 860 burned, LE7, PE5 and KS bank 9 to fail, profile 2 strapped. -/
def keeper : State :=
  { State.reset with
    otp := { state := [0x1F, 0x1F, 0x1F], deviceId := 0xA3, authority := 0x77, owner := 0x010101, bootPairs := 861, svn := 4
             pairing := [0, 0, 0, 0] }
    flash := { image := some (imageOf 5) } }
/-- What the self-tests find: other MISRs at LE7 and PE5, and 6 failing rows in a memory of bank 9. The dies, whose answers are HMACs, are
left unpaired. -/
def keeperEnv : StartEnv :=
  { okEnv with strap := 2, units := [{ unit := 0x07, delta := 1, rows := [] }, { unit := 0x35, delta := 1, rows := [] },
                                     { unit := 0x69, delta := 0, rows := [(1, 6)] }] }
/-- The page that firmware publishes once the four dies are paired. -/
def pairedAll (s : State) : State := publish { s with pkg := { s.pkg with paired := 15 } }
def pfAcc : RegAcc := { fn := .pf, bytes := 8, low := true, trusted := false }
/-- Table 16-28. -/
theorem test_package_page_of_keeper_03A :
    left (.avkPwrokRise keeperEnv) keeper (fun t => [[0x2000, 0x2008, 0x2010, 0x2018, 0x2020, 0x2028].map (fun o => (readReg pfAcc o (pairedAll t)).toNat)]) =
      [[0x0000035E00000501, 0xFFFFFFFF000002F0, 0x01002703FFFFFF7F, 0x000001FF0FFFDFFF, 0x00FFFFFF3C00FDFF, 0x202]] := by decide +kernel
/-- Tables 02-15 and 15-9: boot count, the spare for LP7, PE5 absent. -/
theorem test_units_of_keeper_03A :
    left (.avkPwrokRise keeperEnv) keeper (fun t =>
      [[t.pkg.boot, engineOfPort (pairedAll t) 7, (portPresent (pairedAll t) 7).toNat, (poolPresent t 5).toNat, (poolPresent t 6).toNat, (bankUsable t 9).toNat]]) =
      [[862, 32, 1, 0, 1, 0]] := by decide +kernel
/-- R398: the fuse of the security version. An image below the fused version leaves the package in recovery mode, REASON 0x03. -/
theorem test_security_version :
    after .svnFuseBurn { base with pkg := { base.pkg with svn := 5 }, otp := { base.otp with svn := 4 } } (·.otp.svn) = some 5 ∧
    after (.avkPwrokRise keeperEnv) { keeper with flash := { image := some (imageOf 3) } }
      (fun t => (t.pkg.phase, t.pkg.reason)) = some (.recovery, 0x03) := by decide +kernel

/-! ### Results of single commands -/

/-- Chapter 10's example: context 0x0012 at generation 4 with an object, a fence at 0x8C that context 0x0013 waits on. -/
def reaped : State :=
  { base with
    fns := [(7, { ring := { ringUp with cmdTail := 2, cmdHead := 2 }, enabled := true, job := some 0x0A21
                  ctxs := [(0x12, { gen := 4, live := true }), (0x13, { gen := 2, live := true })]
                  objs := [(7, { rights := 3, ctx := 0x12, base := 0x4200000000, size := 0x40000000, unmapping := false, scrub := false })]
                  objReuse := [(7, 1)], fences := [(0x40, { value := 0x8C, local_ := 0x12, refs := [0x12, 0x13] })], fenceReuse := [(0x40, 2)] })]
    carves := [(22, { base := 0x4100000000, limit := 0x5000000000 })]
    prog := [entry (rowFor (.contextAbandon (hdr (.vf 7) 0x12 4 none))),
             { got (hdr (.vf 7) 0x13 2 none) 0x47 with idx := 1, started := true, hold := { signal := true }, act := .fenceWait 0x40 0x90 }] }
/-- Table 10-7: the wait ends FENCE_ABANDONED with DETAIL 0x12 and RESULT 0x8C; the command's RESULT is the context's new generation;
the object's reuse count advances and its range goes to the scrubber; context 0x13 still holds the fence. -/
theorem test_context_abandon :
    left (.contextAbandon (hdr (.vf 7) 0x12 4 none)) reaped recs = [[0x0006, 0x12, 0x8C], [0, 0, 5]] ∧
    left (.contextAbandon (hdr (.vf 7) 0x12 4 none)) reaped (fun t =>
      [[(mapGet 0 (fnOf t (.vf 7)).objReuse 7).toNat, (fnOf t (.vf 7)).objs.length], t.scrub.flatMap (fun r => [r.lo, r.hi]),
       (fnOf t (.vf 7)).fences.flatMap (fun e => e.2.refs.map (·.toNat))]) = [[2, 0], [0x4200000000, 0x4240000000], [0x13]] := by decide +kernel

/-- Table 04-17: the state word through ANALYSIS; its marks as the progress byte; 3 tokens consumed leave 13. -/
theorem test_analysis_words :
    lcDecode 0x1F false = lcDeployed ∧ lcDecode 0x11F false = lcAnalysis ∧ lcDecode 0x21F false = lcScrap ∧ lcDecode 0x15 false = lcBroken ∧
    progressByte 0x3 = 0x72 ∧ progressByte 0x7 = 0x73 ∧ tokensLeft { base with aon := { base.aon with tansy := tokenMajority { base.otp with tansy := 0x1FF } } } = 13 := by decide +kernel

/-- R408, R60: a wake at offset 0 reads the doorbell record, another offset does nothing. -/
theorem test_wake :
    after (.wakeWrite { fn := .vf 3, bytes := 4, low := true, trusted := true } 0) world (·.out) = some [.recordRead (viaOf world v3)] ∧
    after (.wakeWrite { fn := .vf 3, bytes := 4, low := true, trusted := true } 4) world (·.out) = some [] := by decide +kernel

def woken : State := { world with fns := mapMod {} world.fns 3 (fun x => { x with ring := { x.ring with dbRead := .issued } }) }
/-- R60, Table 03-2: a tail further ahead than the ring has entries faults with 0x0001. -/
theorem test_doorbell_tail :
    left (.doorbellReadDone v3 (.ok 65)) woken (fun t =>
      [[(ringOf t v3).cmdTail.toNat, (ringOf t v3).faulted.toNat]]) = [[65, 0]] ∧
    left (.doorbellReadDone v3 (.ok 66)) woken (fun t =>
      [[(ringOf t v3).cmdTail.toNat, (ringOf t v3).faulted.toNat, (ringOf t v3).faultCode.toNat]]) = [[1, 1, 1]] := by decide +kernel

/-- R70: EVENT_PENDING saturates with EVT_OVF. -/
theorem test_event_pending_saturates :
    (ringOf (signalEvent v3 { base with fns := [(3, { ring := { ringUp with eventPending := 0xFFFFFFFF } })] }) v3).evtOvf = true ∧
    (ringOf (signalEvent v3 { base with fns := [(3, { ring := { ringUp with eventPending := 0xFFFFFFFE } })] }) v3).eventPending = 0xFFFFFFFF := by
  decide +kernel

/-- R136: a KID in an engine's cache is RETIRING until the engine confirms; R138: it is UNALLOCATED two quarantine epochs on. -/
def retiring : State := { world with ks := { world.ks with kids := [(2, { st := .retiring, slot := 1, owner := some v3 })], caches := [(42, [2])], epoch := 412 }, bulk := [] }
theorem test_retirement :
    after (.keyRetire hV 2) (given (.keyRetire hV 2) world) (fun t => kidCode (mapFind t.ks.kids 2)) = some 3 ∧
    after (.flushConfirm 2 42) retiring (fun t => (mapFind t.ks.kids 2).map (·.st)) = some (some (.quarantined 412)) ∧
    after .quarantineEpoch { retiring with ks := { retiring.ks with kids := [(2, { st := .quarantined 411, slot := 1, owner := none }), (3, { st := .quarantined 412, slot := 1, owner := none })] } }
      (fun t => t.ks.kids.map (·.1)) = some [3] := by decide +kernel

/-- R244: the epoch is N × 2^16 + boot count; ALLOC goes out to the home. -/
theorem test_region_create :
    run (.regionCreate hV 8 0x4000 0x013 0) { world with made := [(0x21, 8, 2)] } (fun t =>
      (mapFind t.regions 2).toList.map (fun r => [r.epoch.toNat, r.size, r.base, r.kid.toNat]) ++ t.exch.map (fun e => [e.2.op.toNat, e.2.arg.toNat])) =
      [[0x20001, 0x4000, 0, 8], [1, 0x4000]] := by decide +kernel
/-- R280: a directory created in boot 1 with N = 2 has BASE 1 × 2^48 + 2 × 2^40. -/
theorem test_directory_base :
    run (.regionCreate hV 0xFFFFFFFFFF 0x4000 0x013 0) { world with regions := [], made := [(0x21, dirRid, 2)] } (fun t =>
      (mapFind t.regions 2).toList.map (fun r => [r.base, r.homeRid.toNat])) = [[0x1020000000000, 0xFFFFFFF012]] := by decide +kernel

/-- Relay 0x013 of chapter 07's example. -/
def relay : State :=
  { base with
    fab := { id := 0x013, go := true, routes := [(0x21 * 4, (0x8000000000001600, 0))] }
    ports := [(9, { trained := true, up := true, nbr := some 0x012, nbrBoot := some 7 }),
              (22, { trained := true, up := true, nbr := some 0x021, nbrBoot := some 7, credits := List.replicate 15 64 })] }
/-- A frame of 16 units on VC 0 leaves the relay on LP22 with VC 1 and HOP_INDEX 1, its content as it came under a new HOP_CRC. -/
theorem test_relay_rewrites_the_hop_word :
    left (.relayForward { mkArr { hop0 with unitsM1 := 15 } 0x01202100 [1, 2, 3] with port := 9 }) relay (fun t =>
      t.out.filterMap (fun o => match o with
        | .frame p f => if f.hop.kind = 1 then some ([p.val, f.hop.kind.toNat, f.hop.vc.toNat, f.hop.routeSel.toNat, f.hop.hopIndex.toNat, f.hop.unitsM1.toNat] ++ (bodyBytes f.body).map (·.toNat) ++ [(f.crc == crc32 (wireImage f.hop f.route (bodyBytes f.body))).toNat])
                        else none
        | _ => none)) = [[22, 1, 1, 0, 1, 15, 1, 2, 3, 1]] := by decide +kernel

/-- The arrival of a sealed frame; its ciphertext and tag, which no test looks at, are left out. -/
def frameAt (route : W32) (vc : BitVec 4) (h : SealHdr) (b : FrameBody) : Arrival :=
  mkArr { hop0 with vc := vc } route ((headerBytes h (BitVec.ofNat 8 (ftypeOf b))).drop 4)
def seal1 (ok : Bool) : SealHdr := { seal0 with dstCtxGen := 1, seq := 0x1000100000000, tagOk := ok }
/-- R212, R187: the frame due is placed at its object and the stream's INDEX advances; a failed tag halts the package with cause 1. -/
theorem test_data_frame :
    left (.data (frameAt (streamId 0x013 0x012 0 0) 0 (seal1 true) (.data data0)) (seal1 true) data0) world (fun t =>
      t.out.filterMap (fun o => match o with | .plainWrite _ f a d => some ([f.key, a] ++ d.map (·.toNat)) | _ => none)
        ++ (t.recvs.map (fun r => [r.index])).take 1) = [[3, 0x10000, 1, 2], [1]] ∧
    left (.data (frameAt (streamId 0x013 0x012 0 0) 0 (seal1 false) (.data data0)) (seal1 false) data0) world (fun t =>
      [[t.aon.halt.cause.toNat, t.aon.halt.streamId.toNat, t.aon.halt.whereF.toNat, t.ks.slots.length, t.aon.haltPin.toNat]]) =
      [[1, 0x01301200, 0x1000100000000, 0, 1]] := by decide +kernel

/-- R294: a grown carve-out is in force from the next fabric epoch boundary. -/
theorem test_carve_grow :
    run (.carveGrow hU 0 0x400000 0x600000) world (fun t => recs t ++ [[(carveAt t 12).limit]]) = [[0]] ∧
    left .fabricEpochBoundary { world with
        prog := [{ got hU 0x40 with started := true, hold := { boundary := true }, act := .carve 12 0x400000 0x600000 3 }]
        staged := [.setEntry 12 0x400000 0x600000] } (fun t => recs t ++ [[(carveAt t 12).base, (carveAt t 12).limit]]) =
      [[0, 0, 0], [0x400000, 0x600000]] := by decide +kernel

/-- R292: VF 3 reaches its carve-out, VF 4 does not. -/
theorem test_firewall :
    after (.firewallAccess { id := 1, cls := .compute, fn := v3, addr := 0x3FFFFF, len := 1, write := true }) world (·.out) = some [.accessOk 1] ∧
    after (.firewallAccess { id := 1, cls := .compute, fn := v3, addr := 0x3FFFFF, len := 2, write := true }) world (·.out) = some [.accessRefused 1] ∧
    after (.firewallAccess { id := 1, cls := .compute, fn := v4, addr := 0, len := 1, write := false }) world (·.out) = some [.accessRefused 1] := by
  decide +kernel

/-- R314: the VF reset record, kind 3; RESET_VF answers with the VF's next reset generation and disables its ring. -/
theorem test_reset_vf :
    left (.resetVf hU) (given (.resetVf hU) { base with fns := [(4, { ring := ringUp, enabled := true, gen := 9 }), (4096, { ring := ringUp })] })
      (fun t => recs t ++ [[(fnOf t v4).gen.toNat, (ringOf t v4).enabled.toNat]]) = [[0, 3, 0x000A], [0, 0, 0x000A], [10, 0]] := by decide +kernel
/-- R306: the generation after 0xFFFF is 0x0001. -/
theorem test_generation_wraps : nextGen 0xFFFF = 1 ∧ nextGen 9 = 0x000A := by decide +kernel

/-- R162, R164: a lock binds the TDI and answers with a nonce; a start needs the lock. -/
def inSession : State :=
  { base with
    fns := [(5, { enabled := true })], mail0 := { phase := .negotiated, sessions := [{ id := 1, established := true, kid := 0xFE00 }] }
    ide := { active := (List.range 108).map (fun k => k) } }
def qS : SpdmReq := { port := 0, parity := false, version13 := true, session := some 1 }
theorem test_tdisp :
    after (.getDeviceInterfaceState qS 5) inSession (·.out) = some [.respond 0 (.interfaceState .unlocked)] ∧
    after (.startInterfaceRequest qS 5 0) inSession (·.out) = some [.respond 0 (.tdispError 0x0004)] ∧
    after (.query { qS with session := none }) inSession (·.out) = some [.respond 0 (.error 0x0B 0)] := by decide +kernel

/-- R353: without its right a TAP instruction shifts out nothing; OTP_RD shows the device id, never the DRS (R113). -/
theorem test_tap :
    after .statusRd base (·.out) = some [.tdo []] ∧
    after (.bypass 0xFF) base (·.out) = some [.tdo []] := by decide +kernel

/-- R84, R101: LC_STATUS answers with state, progress and tokens left. -/
theorem test_lc_status :
    run (.lcStatus hA 0 128) { world with aon := { world.aon with tansy := 7 } } (fun t =>
      t.prog.flatMap (fun p => match p.act with | .done st d r => [[st.toNat, d.toNat, r.toNat]] | _ => [])) = [[0, 0, 0x0D0005]] := by decide +kernel

/-! ### Premises of the statements

Each theorem shows a state and operands that meet the premises of the statement it is named after, one conjunct for each clause.
`admits` is the premise `Admitted` (`admits_sound`). -/

/-- The row's own checks pass on the state where its command has just been dispatched. -/
def admits (x : Instr × State) : Bool :=
  match ownRow x.1 with
  | none => false
  | some r => let s := given x.1 x.2
    serving s && dispatched s r == some (entry r) && (r.checks s).first s r.hdr (entry r) == none

theorem admits_sound (c : Instr) (s : State) (hyp : admits (c, s) = true) :
    ∃ r, ownRow c = some r ∧ Admitted (given c s) r (entry r) := by
  unfold admits at hyp
  cases hr : ownRow c with
  | none => simp [hr] at hyp
  | some r =>
    simp only [hr, Bool.and_eq_true, beq_iff_eq] at hyp
    exact ⟨r, rfl, ⟨hyp.1.1, hyp.1.2, hyp.2⟩⟩

/-- The row's command has been dispatched, and `st` with `d` is its first failing check. -/
def refuses (x : Instr × State) (st : W16) (d : W32) : Bool :=
  let s := given x.1 x.2
  let r := rowFor x.1
  serving s && dispatched s r == some (entry r) && (r.checks s).first s r.hdr (entry r) == some (st, d)

theorem refuses_sound (c : Instr) (s : State) (st : W16) (d : W32) (hyp : refuses (c, s) st d = true) :
    Refused (given c s) (rowFor c) (entry (rowFor c)) st d := by
  simp only [refuses, Bool.and_eq_true, beq_iff_eq] at hyp
  exact ⟨hyp.1.1, hyp.1.2, hyp.2⟩

/-- A command of header and opcode has started and waits. -/
def waitingFor (h : CmdHdr) (op : Byte) (a : Act) (hold : Hold) (s : State) : State :=
  { s with prog := [{ got h op with started := true, hold := hold, act := a }] }
def acc3 : RegAcc := { fn := v3, bytes := 8, low := true, trusted := true }
def onRing (f : RingSt → RingSt) (s : State) : State := ringMod v3 f s

theorem test_premises_StepRunsFrontCommand : State.reset.pending = [] := by decide +kernel

theorem test_premises_RingRegisterWrites :
    (regTriggers acc3 world = true ∧ (ringOf world v3).enabled = true ∧ world.pkg.power ≠ .a2 ∧ world.pkg.power ≠ .a3) ∧
    regTriggers { acc3 with trusted := false } world = false ∧ regTriggers { acc3 with bytes := 4, low := false } world = false ∧ (ringOf base v3).enabled = false ∧
    (let s := onRing (fun _ => { cmdLog2 := 6, cplLog2 := 6 }) world
     regTriggers acc3 s = true ∧ (ringOf s v3).ctrl = false ∧ (ringOf s v3).enabled = false ∧ (ringOf s v3).enabling = false ∧ enableRefusal s v3 = 0) ∧
    (let s := onRing (fun _ => { cmdLog2 := 5, cplLog2 := 6 }) world
     regTriggers acc3 s = true ∧ (ringOf s v3).ctrl = false ∧ (ringOf s v3).enabled = false ∧ (ringOf s v3).enabling = false ∧ enableRefusal s v3 = 2) ∧
    (let s := onRing (fun r => { r with enabled := false, enabling := true }) world
     ready s = true ∧ (ringOf s v3).enabling = true ∧ (ringOf s v3).ctrl = true ∧ (fnOf s v3).dirty = none) := by decide +kernel

theorem test_premises_RefusedCommandHasNoEffect :
    refuses (.keyRetire hV 9, world) stBadState 0 = true ∧ refuses (.selfTest hA 0xB0 0 0 none, world) stMalformed 18 = true ∧
    ownRow (.keyRetire hV 9) = some (rowFor (.keyRetire hV 9)) ∧
    serving State.reset = false ∧ dispatched base (keyRetireRow hV 9) = none ∧ runningTest (given (.selfTest hA 0xB0 0 0 none) world) hA = none :=
  ⟨by decide +kernel, by decide +kernel, rfl, by decide +kernel⟩

theorem test_premises_CompletionRecordAndFrame :
    (ringOf world v3).hostWriteFailed = false ∧ (ringOf (onRing (fun r => { r with hostWriteFailed := true }) world) v3).hostWriteFailed = true := by
  decide +kernel

/-- R70: events taken one below, at and above those pending; none taken leaves the interrupt standing. -/
theorem test_events_taken :
    (let s := onRing (fun r => { r with eventPending := 5, interrupt := true }) world
     [0, 4, 5, 6].map (fun k => ((ringOf (takeEvents v3 { cmdTail := 1, cplHead := 0, eventTake := BitVec.ofNat 32 k, evtOvfClr := false } s) v3).eventPending.toNat,
       (ringOf (takeEvents v3 { cmdTail := 1, cplHead := 0, eventTake := BitVec.ofNat 32 k, evtOvfClr := false } s) v3).interrupt))) =
      [(5, true), (1, true), (0, false), (0, false)] := by decide +kernel

theorem test_premises_DoorbellReadActs :
    (serving woken = true ∧ (ringOf woken v3).dbRead = .issued) ∧
    (let s := onRing (fun r => { r with dbRead := .again }) world
     serving s = true ∧ (ringOf s v3).dbRead = .again ∧ s.pkg.power = .a0) := by decide +kernel

/-- VF 3's ring holds one descriptor that has not been fetched. -/
def fetching : State := onRing (fun r => { r with cmdHead := 0 }) world
theorem test_premises_ScanTurn :
    (serving world = true ∧ nearest world = none) ∧ (serving fetching = true ∧ nearest fetching = some v3) ∧
    (rawByte 0x020F 1 / 2 % 2 = 1 ∧ progOf { fetching with prog := [got hV 0x0F] } v3 ≠ []) ∧
    (progOf fetching v3 = [] ∧ headerFault v3 0xFFFF000F = none) ∧ headerFault v3 0xFFFF0003 = some 0 ∧ headerFault v3 0xFFFF040F = some 1 ∧
    headerFault v3 0x0400000F = some 2 ∧ headerFault v3 0x03FF000F = none := by decide +kernel

theorem test_premises_NopAndHostDma :
    admits (.nop hC, world) = true ∧ serving world = true ∧ (ringOf world v3).enabled = true ∧
    (let s := waitingFor hA 0x72 (.done stOk 0 0) { dma := true } world
     serving s = true ∧ (findProg s .pf 0).map (fun q => (q.started, q.hold.dma)) = some (true, true)) := by decide +kernel

/-- What a wrapped blob holds is the unwrap's, which is uninterpreted: the clauses on it divide all cases between them. -/
theorem test_premises_KeyAllocAndDerive :
    (admits (.keyAlloc hC 0 0 .failed, world) = true ∧ admits (.keyAlloc hC 1 56 (.ok okBlob), world) = true ∧
      admits (.keyDerive hC 0xFFFF 1 0x0001000101301200, world) = true ∧ admits (.keyDerive hC 2 2 5, world) = true) ∧
    ((∃ k, blobKey world v3 okBlob = some k) ∨ blobKey world v3 okBlob = none) :=
  ⟨by decide +kernel, by cases h : blobKey world v3 okBlob <;> simp⟩

theorem test_premises_RetirementOfKeys :
    admits (.keyRetire hV 2, world) = true ∧
    (mapFind world.ks.kids 2 = some (liveKid 1 (some v3)) ∧ cachedIn world 2 = [42]) ∧
    (mapFind world.ks.kids 1 = some (liveKid 0 (some v3)) ∧ cachedIn world 1 = []) ∧
    (serving retiring = true ∧ kidCode (mapFind retiring.ks.kids 2) = 3 ∧ (cachedIn retiring 2).contains 42 = true ∧ engineIdle retiring 2 42 = true) ∧
    ¬ (kidCode (mapFind retiring.ks.kids 3) = 3) := by decide +kernel

theorem test_premises_JoinLeaveRotateBegin :
    admits (.joinJob hW 0x22 0x012 1764 (.ok okEncap), world) = true ∧ admits (.leaveJob hV 0x21, world) = true ∧
    admits (.keyRotate hV 3, world) = true := by decide +kernel

def checkpointing : State := waitingFor hV 0x14 (.park 0 1 5 3 true 4 0) { checkpoint := true } world
theorem test_premises_ParkResumeCheckpoint :
    admits (.park hV 5 0 7 3, world) = true ∧ admits (.park hV 5 0 7 63, world) = true ∧ admits (.resume hV 0 0 8 3, world) = true ∧
    (serving checkpointing = true ∧ dirOf checkpointing 0x21 = some 1 ∧ (regionAt checkpointing 1).isSome = true ∧
      checkpointing.prog.any (awaitsCheckpoint 1) = true ∧ regionClean checkpointing 1 = true) ∧
    (serving world = true ∧ dirOf world 0x21 = some 1 ∧ (regionAt world 1).isSome = true ∧ world.prog.any (awaitsCheckpoint 1) = false) := by
  decide +kernel

theorem test_premises_RegionCreateAllocates :
    admits (.regionCreate hV 8 0x4000 0x013 0, world) = true ∧ admits (.regionCreate hV 8 0x100000000000 0xFFF 7, world) = true ∧
    admits (.regionCreate hV 0xFFFFFFFFFF 0x4000 0x013 0, { world with regions := [] }) = true := by decide +kernel

def regMod (f : RegionSt → RegionSt) : State := { world with regions := world.regions.map (fun e => (e.1, if e.1 = 0 then f e.2 else e.2)) }
def fill64 : Fetched (List Byte) := .ok (List.replicate 64 1)
def handing : State := waitingFor hV 0x22 (.handover 0 0x013 1) {} (regMod (fun r => { r with state := .handover }))
theorem test_premises_RegionFreeHandoverReduce :
    admits (.regionFree hV 7, world) = true ∧ admits (.keeperHandover hV 7 0x013, world) = true ∧
    admits (.reduce hV 7 1 3 0 64 0x10000 fill64, world) = true ∧
    (let s := regMod (fun r => { r with state := .lost })
     admits (.reduce hV 7 1 3 0 64 0x10000 fill64, s) = true ∧ (regionAt s 0).map (·.state) = some .lost) ∧
    admits (.reduce hV 7 1 3 0 0 0x10000 (.ok []), world) = true ∧
    (let s := regMod (fun r => { r with fenced := [(0, 1)] })
     admits (.reduce hV 7 1 3 0 64 0x10000 fill64, s) = true ∧ ((regionAt s 0).bind (fun r => r.firstFenced 0 1)) = some 0) ∧
    ((regionAt world 0).map (fun r => (r.state, r.firstFenced 0 1)) = some (.live, none) ∧ fwAllows world .engine v3 0x10000 64 false = true) ∧
    (let s := { world with carves := [] }
     admits (.reduce hV 7 1 3 0 64 0x10000 fill64, s) = true ∧ fwAllows s .engine v3 0x10000 64 false = false) ∧
    (serving handing = true ∧ (findProg handing v3 0).map (·.act) = some (.handover 0 0x013 1)) := by decide +kernel

theorem test_premises_StreamOpenAndClose :
    ([1, 2, 3] : List Byte).all (fun d => admits (.streamOpen hV 0x013 0 1 d, world)) = true ∧
    ([1, 2, 3] : List Byte).all (fun d => admits (.streamClose hV 0x013 0 0 d, world)) = true ∧
    (findSend world 0x21 (streamId 0x012 0x013 0 0)).isSome = true := by decide +kernel

/-- The receiving stream's sid, and a frame that waits for the epoch's key. -/
def inSid : W32 := streamId 0x013 0x012 0 0
def heldFrame : WaitSt := { arr := frameAt inSid 0 seal0 (.data data0), hdr := { seal0 with sid := inSid }, body := .data data0 }
def opening : State := waitingFor hV 0x30 (.openRecv (streamId 0x013 0x012 0 1) 0x013 8 5 none true false 0 0) { signal := true } world
theorem test_premises_StreamTimeLimits :
    (serving opening = true ∧ (findProg opening v3 0).map (·.act) =
      some (.openRecv (streamId 0x013 0x012 0 1) 0x013 8 5 none true false 0 0)) ∧
    (let s := waitingFor hV 0x30 (.openSend (streamId 0x012 0x013 0 1) 0x013 8) { signal := true } world
     serving s = true ∧ (findProg s v3 0).map (·.act) = some (.openSend (streamId 0x012 0x013 0 1) 0x013 8)) ∧
    (let s := waitingFor hV 0x31 (.close (streamId 0x012 0x013 0 0) 0x21 false true) {} world
     serving s = true ∧ (findProg s v3 0).map (·.act) = some (.close (streamId 0x012 0x013 0 0) 0x21 false true) ∧
       swapSid (streamId 0x012 0x013 0 0) = inSid ∧ (findRecv s 0x21 inSid).isSome = true) ∧
    (let s := { world with exch := [(1, exchFor 0 (newRegion v3 0x21 7 7 0xFFFF 0 1 0x012 0x4000 0x013 0 5 .live 0 0 0) 0x10 [0])] }
     serving s = true ∧ (mapFind s.exch 1).isSome = true) ∧
    (serving world = true ∧ (retryWaits world).waits = []) ∧
    (let s := { world with waits := [heldFrame], recvs := [{ recvFrom 0 0 0 with kid := 0 }]
                           pkg := { world.pkg with cap3 := 0 }, ks := {} }
     serving s = true ∧ (retryWaits s).waits.find? (fun w => w.hdr.jobId == 0x21 && w.hdr.sid == inSid) = some heldFrame ∧
       (findRecv (retryWaits s) 0x21 inSid).map (·.kid) = some 0) ∧
    (let s := { world with waits := [heldFrame], pkg := { world.pkg with power := .a2 } }
     serving s = true ∧ (retryWaits s).waits.find? (fun w => w.hdr.jobId == 0x21 && w.hdr.sid == inSid) = some heldFrame ∧
       (findRecv (retryWaits s) 0x21 inSid).map (·.kid) = some 4 ∧ findRecv { s with recvs := [] } 0x21 inSid = none) := by decide +kernel

def errFence (e : FenceErr) : State := fenceMod v3 0 (fun x => { x with err := e }) world
theorem test_premises_FenceSignals :
    fenceIdx world hC.fn 0 = some 0 ∧ admits (.fenceSignal hC 0 0x40, world) = true ∧ admits (.fenceWait hC 0 0x40, world) = true ∧
    (admits (.fenceSignal hC 0 0x40, errFence .range) = true ∧ admits (.fenceWait hC 0 0x40, errFence .range) = true ∧
      (fenceOf (errFence .range) v3 0).err ≠ .none) ∧
    (fenceOf world v3 0).err = .none ∧ (fenceOf world v3 0).value = 0x3F := by decide +kernel

theorem test_premises_FenceCreateRelease :
    (admits (.fenceCreate hC 5 9, world) = true ∧ pickIdx (fun i => (mapFind (fnOf world v3).fences i).isSome) 9 = some 9 ∧
      pickIdx (fun i => (mapFind (fnOf world v3).fences i).isSome) 0 = some 1 ∧ pickIdx (fun i => (mapFind (fnOf world v3).fences i).isSome) 0xFFFF = some 0xFFFF) ∧
    (admits (.fenceRelease hC 0, world) = true ∧ fenceIdx world v3 0 = some 0) ∧
    (serving world = true ∧ fenceIdx world v3 1 = none ∧ refsFull world v3 0 5 = false ∧
      refsFull (fenceMod v3 0 (fun x => { x with refs := (List.range 16).map (BitVec.ofNat 16) }) world) v3 0 0x20 = true) := by decide +kernel

def writing : State :=
  { world with writes := [(4, { fn := v3, job := 0x21, sid := inSid, obj := some (3, 0), e0 := 0x10001, batch := some 5, addr := 0x10000, len := 2 }),
                          (5, { fn := v3, job := 0x21, sid := inSid, obj := some (3, 0), e0 := 0x10001, batch := none, addr := 0x10000, len := 2 })]
               filter := [(5, { claimed := true, job := 0x21, gen := 1, inFlight := 1 })] }
theorem test_premises_BatchesWritesChimes :
    admits (.batchCancel hV 5, world) = true ∧ admits (.batchCancel hV 4095, world) = true ∧ mapFind world.writes 4 = none ∧
    ((mapFind writing.writes 4).map (·.batch) = some (some 5) ∧ (mapFind writing.writes 5).map (·.batch) = some none) ∧
    (let r : LocalRead := { id := 9, fport := 0, fn := v3, ctx := 0, gen := 1, job := 5 }
     mapFind world.writes 9 = none ∧ ({ world with reads := [r] } : State).reads.find? (fun e => e.id == 9) = some r ∧
       world.reads.find? (fun e => e.id == 9) = none) ∧
    (serving chimed = true ∧ (snarePick v3 0 chimed.snare).isSome = true) := by decide +kernel

theorem test_premises_CarveOutsChangeAtBoundaries :
    admits (.carveGrow hU 0 0x400000 0x600000, world) = true ∧ admits (.carveGrow hU 2 0xAFBFE00000 0xAFC0000000, world) = true ∧
    admits (.carveShrink hT 0 0 0x200000, world) = true ∧ admits (.carveShrink hT 0 0 0, { world with fns := mapMod {} world.fns 3 (fun x => { x with objs := [] }) }) = true ∧
    serving world = true ∧ ((carveAt world 9).state ≠ .shrinking ∧ (carveAt world 9).base ≠ (carveAt world 9).limit) ∧
    (let s := { world with carves := [(9, { base := 0, limit := 0x400000, state := .blocked })] }
     (carveAt s 9).state = .blocked ∧ s.scrub.any (fun r => r.carve == some 9) = false) := by decide +kernel

theorem test_premises_ContextsAndObjects :
    (admits (.contextCreate hT, world) = true ∧ freeCtx world v3 = some 1) ∧ admits (.contextAbandon hC, world) = true ∧
    admits (.contextAbandon (hdr .pf 0 1 (some 3)), world) = true ∧
    (admits (.memMap hC 1 0x20000 0x1000 7, world) = true ∧ pickIdx (fun i => (mapFind (fnOf world v3).objs i).isSome) 7 = some 7 ∧
      admits (.memMap hC 3 0x3FF000 0x1000 0, world) = true) ∧
    (admits (.memUnmap hC 0, world) = true ∧ objIdx world v3 0 = some 0) := by decide +kernel

def touch (a : BitVec 48) (n : Nat) : MemAccess := { id := 1, cls := .compute, fn := v3, addr := a, len := n, write := true }
theorem test_premises_FirewallIsolatesFunctions :
    (ready world = true ∧ mapFind world.accesses 1 = none) ∧ fwAllows world .compute v3 0x3FFFFF 1 true = true ∧
    fwAllows world .compute v3 0x3FFFFF 2 true = false ∧
    ((carveAt world (carveKey v3 0)).state = .open_ ∧
      meets (carveAt world (carveKey v3 0)).base (carveAt world (carveKey v3 0)).limit (carveAt world (carveKey v4 0)).base (carveAt world (carveKey v4 0)).limit
        = false) ∧
    (let s := { world with carves := [(9, { base := 0, limit := 0x400000, state := .shrinking, keepLo := 0, keepHi := 0x200000 })] }
     fwAllows s .compute v3 0x1FFFFF 1 true = true ∧ fwAllows s .compute v3 0x200000 1 true = false ∧ (carveAt s (carveKey v3 0)).state = .shrinking) := by
  decide +kernel

theorem test_premises_ScrubberAndSwitches :
    (ready world = true ∧ world.scrub = []) ∧
    (let s := { world with scrub := [{ lo := 0, hi := 0x200000, opcode := 0x41, carve := none }] }
     ready s = true ∧ s.scrub = [{ lo := 0, hi := 0x200000, opcode := 0x41, carve := none }]) ∧
    (serving world = true ∧ (0 : W16) ≠ 0xFFFF) := by decide +kernel

/-- `PortServes`, as a test. -/
theorem portServes_of (s : State) (f : Fn) (h : (serving s && !quiescing s && !holding s f) = true) : PortServes s f := by
  simp only [Bool.and_eq_true, Bool.not_eq_true'] at h
  exact ⟨h.1.1, h.1.2, h.2⟩
def tok0 : TokenPay :=
  { tokenTag := 0x05000001, batchGen := 0, nchoice := 1, retOrdinal := 0, expert := 0, length := 2, retObject := 0, retOffset := 0, rsvdOk := true
    data := [1, 2] }
theorem test_premises_RequestsAtFabricPorts :
    PortServes world req0.fn ∧ (streamFor world req0.fn req0.peer req0.cls req0.ordinal = some (sendTo 0 0 3) ∧
      (1 ≤ req0.units.toNat ∧ req0.units.toNat ≤ 32 ∧ req0.payload.length ≤ 256 * req0.units.toNat)) ∧
    streamFor world req0.fn 0x013 2 0 = some (sendTo 2 0 3) ∧ streamFor world req0.fn 0x014 0 0 = none ∧
    (streamFor world req0.fn 0x013 1 0 = some (sendTo 1 0 3) ∧ 32 + tok0.data.length ≤ 256 * req0.units.toNat ∧
      32 + 224 ≤ 256 * req0.units.toNat) ∧
    (let n := payBatch (tokenBytes tok0)
     (filterOf world n).claimed = false ∧
     (filterOf { world with filter := [(n, { claimed := true, job := 0x44, gen := 0, inFlight := 0 })] } n).claimed = true ∧
     (filterOf { world with filter := [(n, { claimed := true, job := 0x44, gen := 0, inFlight := 0 })] } n).job ≠ (sendTo 1 0 3).job) ∧
    (req0.peer ≠ world.fab.id ∧ chimeOk chime0 = true ∧ chimeOk { chime0 with count := 15, sigs := List.replicate 15 { fence := 0, op := 1, value := 1 } } = true) ∧
    (let s := { world with fns := mapMod {} world.fns 3 (fun x => { x with quiesced := true }) }
     serving s = true ∧ quiescing s = false ∧ holding s req0.fn = true) ∧
    (let s := waitingFor hA 0x71 (.lcTransition okReq okEnv 1) { flash := true } world
     serving s = true ∧ quiescing s = true) :=
  ⟨portServes_of _ _ (by decide +kernel), by decide +kernel⟩

def poolReq0 : PoolReq :=
  { fn := v3, ctx := 0, pop := 1, redOp := 0, redFormat := 0, regionId := 7, offset := 0, length := 256, data := [], buffer := 0x10000 }
theorem test_premises_RefusalsAndLocalRequests :
    PortServes world v3 ∧ PortServes world poolReq0.fn ∧
    (serving world = true ∧ (let sid := streamId world.fab.id 0x013 2 ((tok0.retOrdinal).setWidth 4)
      (findSend world 0x21 sid).map (fun t => (t.closing, exhausted t)) = some (false, false))) ∧
    (findSend world 0x21 (streamId world.fab.id 0x014 2 0) = none ∧ vfOfJob world 0x21 = some v3) ∧
    ([{ sendTo 2 0 3 with closing := true }, { sendTo 2 0 3 with epoch := 0x1FFFF, index := lastIndex + 1 }].all (fun t =>
      (findSend { world with sends := [t] } 0x21 (streamId world.fab.id 0x013 2 0)).any (fun t => t.closing || exhausted t))) = true ∧
    (chimeOk chime0 = true ∧ fabricEntries world 0 < Config.fabricSnare) ∧
    (streamFor world poolReq0.fn 0x013 3 0 = some (sendTo 3 0 3) ∧
      (world.members.filter (fun e => e.2.fp == (sendTo 3 0 3).port.val / 4)).length < Config.memberTable ∧
      unitsFor (poolBytes poolReq0 0 (freeTag world)).length ≤ 32) ∧
    (poolShapeOk poolReq0.pop poolReq0.redOp poolReq0.redFormat true 0 256 = true ∧ (fnOf world poolReq0.fn).job = some 0x21 ∧
      admitRegion world 0x21 7 0 256 = .inr 0) ∧
    admitRegion world 0x21 7 0x3F01 256 = .inl (stLimits, 0x402) ∧ admitRegion world 0x21 7 0x3F00 256 = .inr 0 :=
  ⟨portServes_of _ _ (by decide +kernel), portServes_of _ _ (by decide +kernel), by decide +kernel⟩

/-- A grant of every right that DEPLOYED may see, over every VF. -/
def granted : State := { world with grant := some { rights := 0x1FFE, scope := 0xC000, owner := true, kid := 0xFE00 } }
/-- The scratch region of engine 2's local loop, of one leaf. -/
def scratch : RegionSt := { newRegion .pf 0 0 0 0xFFFF 0 0 0x012 16384 0x012 2 0xFE01 .live 0 0 0 with loop := true }
def scratched : State := { granted with regions := [(0, scratch)] }
theorem test_premises_DebugMasterReach :
    serving granted = true ∧
    after (.debugMasterRequest (.memory (.vf 9) 0 1) false) { granted with carves := [(27, { base := 0, limit := 0x200000 })] } (·.out) =
      some [.debugMaster true] ∧
    after (.debugMasterRequest (.memory v3 0 1) false) granted (·.out) = some [.debugMaster false] ∧
    ((∀ r ∈ granted.regions, ¬ (r.2.loop = true ∧ r.2.engine = (2 : BitVec 3).toNat)) ∧ hasRight world 7 = false) ∧
    (scratched.regions.find? (fun r => r.2.loop && r.2.engine == (2 : BitVec 3).toNat) = some (0, scratch) ∧ hasRight scratched 7 = true ∧
      poolShapeOk 1 0 0 true 0 8160 = true ∧ poolShapeOk 2 0 0 true 0 8160 = true ∧ 0 + 8160 ≤ scratch.size ∧ 16384 - 1 + 1 ≤ scratch.size) := by
  decide +kernel

/-- The premises of `FrameDue`, as a test. -/
def due (s : State) (w : WaitSt) (t : RecvSt) : Bool :=
  let v := (hopChecks w.arr s).st
  let u := keyRecv w.hdr.jobId w.hdr.sid v
  (hopChecks w.arr s).mine && !(hopChecks w.arr s).retry && serving v && w.hdr.units.toNat == w.arr.hop.unitsM1.toNat + 1
    && v.pkg.power != .a2 && !behind v w && findRecv u w.hdr.jobId w.hdr.sid == some t && t.kid != 0 && recvKeyed u t
    && decide (t.e0.toNat ≤ w.hdr.seq.toNat / 2 ^ 32 ∧ t.index ≤ lastIndex) && w.hdr.seq == expectedSeq t
    && decide (snareCount u w.arr.port < Config.openSnare)

theorem due_sound (s : State) (w : WaitSt) (t : RecvSt) (h : due s w t = true) :
    FrameDue s (keyRecv w.hdr.jobId w.hdr.sid (hopChecks w.arr s).st) w t := by
  simp only [due, Bool.and_eq_true, Bool.not_eq_true', beq_iff_eq, bne_iff_ne, ne_eq, decide_eq_true_eq] at h
  obtain ⟨⟨⟨⟨⟨⟨⟨⟨⟨⟨⟨h1, h2⟩, h3⟩, h4⟩, h5⟩, h6⟩, h7⟩, h8⟩, h9⟩, h10⟩, h11⟩, h12⟩ := h
  exact ⟨⟨h1, h2, rfl⟩, h3, h4, h5, h6, rfl, h7, ⟨h8, h9⟩, ⟨h10.1, h10.2, h11⟩, fun _ _ => h12⟩

/-- A frame on VF 3's class-0 and class-4 streams, with one unit. -/
def frameOf (cls : BitVec 4) (b : FrameBody) : WaitSt :=
  { arr := frameAt (streamId 0x013 0x012 cls 0) (3 * cls) seal0 b, hdr := { seal0 with sid := streamId 0x013 0x012 cls 0 }, body := b }
/-- The state when step 8 is reached. -/
def atStep8 (w : WaitSt) : State := keyRecv w.hdr.jobId w.hdr.sid (hopChecks w.arr world).st

theorem test_premises_SealedFrameIsVerified :
    due world { frameOf 0 (.data data0) with hdr := { (frameOf 0 (.data data0)).hdr with tagOk := false } } (recvFrom 0 0 4) = true ∧
    (due world (frameOf 0 (.epochEnd 0x1000200000001)) (recvFrom 0 0 4) = true ∧
      breaksEpoch (frameOf 0 (.epochEnd 0x1000200000001)) (recvFrom 0 0 4)) ∧
    (due world (frameOf 0 (.data { data0 with object := 5 })) (recvFrom 0 0 4) = true ∧
      postTag (atStep8 (frameOf 0 (.data { data0 with object := 5 }))) (recvFrom 0 0 4) (frameOf 0 (.data { data0 with object := 5 })) = some 3) ∧
    ([FrameBody.data data0, .chime chime0, .epochEnd 0x1000200000000, .close] : List FrameBody).all (fun b =>
      due world (frameOf 0 b) (recvFrom 0 0 4) && (postTag (atStep8 (frameOf 0 b)) (recvFrom 0 0 4) (frameOf 0 b)).isNone) = true ∧
    (sealedRow (.data arr0 seal0 data0) = some (arr0, seal0, .data data0) ∧
      [FrameBody.data data0, .chime chime0, .epochEnd 0x1000200000000, .close].all (fun b => sealSpelt (frameOf 0 b).arr seal0 b) = true) :=
  ⟨by decide +kernel, ⟨by decide +kernel, 0x1000200000001, rfl, by decide +kernel⟩, by decide +kernel⟩

def member3 : MemberSt := { fn := v3, ctx := 0xFFFF, keeper := 0x013, read := true, buffer := 0x10000, gen := 1, fp := 0 }
/-- A read that a member of this package has outstanding under PTAG 9. -/
def asked : State := { world with members := [(9, member3)], recvs := [recvFrom 3 0 4] }
theorem test_premises_DeliveredFramesAct :
    (placement world (recvFrom 0 0 4) seal0 data0 = some (0, 0x10000) ∧
      placement world (recvFrom 0 0 4) seal0 { data0 with length := 224, offset := 0xFF20 } = some (0, 0x1FF20)) ∧
    ((0x81 : Byte).getLsbD 7 = true ∧ (0x01 : Byte).getLsbD 7 = false ∧ mapFind asked.members pool0.ptag.toNat = some member3 ∧
      member3.gen = genOf asked member3.fn ∧ member3.read = true) ∧
    findRecv world (recvFrom 0 0 4).job (recvFrom 0 0 4).sid = some (recvFrom 0 0 4) := by decide +kernel

def poolRd : PoolPay :=
  { pop := 1, redOp := 0, redFormat := 0, retOrdinal := 0, ptag := 9, regionId := 7, offset := 0, length := 256, pstat := 0, rsvdOk := true, data := [] }
theorem test_premises_KeeperAnswersPoolRequests :
    poolShapeOk poolRd.pop 0 0 true 0 0 = false ∧ poolShapeOk poolRd.pop 0 0 true 0 8161 = false ∧
    (poolShapeOk poolRd.pop 0 0 true 0 1 = true ∧ poolShapeOk poolRd.pop 0 0 true 0 8160 = true) ∧
    (admitRegion world (recvFrom 3 0 4).job 7 0x4000 1 = .inl (stLimits, 0x402) ∧ admitRegion world (recvFrom 3 0 4).job 7 0x3FFF 1 = .inr 0) := by
  decide +kernel

/-- A home with a home carve-out of 2 MiB that stores a region of 64 lines for keeper 0x013, one line of it leased. -/
def homeR : HomeSt :=
  { job := 0x21, rid := 7, keeper := 0x013, size := 0x4000, depth := 1, base := 0, lines := [(1, 5)], lineMacs := [], nodes := [], nodeMacs := []
    leases := [], waiting := [] }
def home : State := { base with ports := world.ports, carves := [(12288, { base := 0, limit := 0x200000 })], homes := [homeR], opens := 0 }
/-- A HOME frame from the keeper. -/
def homeTail (tail : List Byte) : Arrival := mkArr { hop0 with kind := 2, vc := 9 } (streamId 0x013 0x012 3 0) tail
def homeArr : Arrival := homeTail []
def atHome (s : State) : State := returnCredits homeArr.port homeArr.hop.vc (frameCredits homeArr.hop) (hopChecks homeArr s).st

theorem placeIn_isSome (need : Nat) (l : List (Nat × Nat)) (n : Nat) (h : n < placesFor need l) : (placeIn need l n).isSome = true := by
  induction l generalizing n with
  | nil => simp [placesFor] at h
  | cons r l ih =>
    obtain ⟨lo, hi⟩ := r
    simp only [placesFor, List.map_cons, List.sum_cons] at h
    simp only [placeIn]
    generalize (if lo + need ≤ hi then hi - lo - need + 1 else 0) = k at h ⊢
    by_cases hk : n < k
    · simp [hk]
    · simp only [hk, if_false]
      exact ih _ (by simp only [placesFor]; omega)

theorem test_homePlace_finds_a_place : ∃ b, homePlace (atHome home) 0x4000 = some b := by
  rw [← Option.isSome_iff_exists]
  have h : placesFor (homeBytes 0x4000) (homeGaps (atHome home)) ≠ 0 := by decide +kernel
  simp only [homePlace, h, if_false]
  exact placeIn_isSome _ _ _ (Nat.mod_lt _ (Nat.pos_of_ne_zero h))

def nodesHdr (n : Byte) : HomeHdr := { home0 with count := n, baseItem := 0x8000000000 }
/-- The arrival of a HOME request of one unit; its trailer, which no test looks at, is left out. -/
def homeFrame (h : HomeHdr) (payload : List Byte) : Arrival := homeTail (homeHdrBytes h ++ payload)
/-- A HOME request's row is spelt by its frame, which reaches the package in a state as `f` asks. -/
def homeMeets (h : HomeHdr) (payload : List Byte) (c : Arrival → Instr) (f : State → Arrival → Bool) : Bool :=
  let a := homeFrame h payload
  let r := hopChecks a home
  spelt (c a) home && r.mine && !r.retry && f (returnCredits a.port a.hop.vc (frameCredits a.hop) r.st) a
def opHdr (op : Byte) : HomeHdr := { home0 with hop := op }
def finds (h : HomeHdr) (n : Nat) (nodes : Bool) (s : State) (a : Arrival) : Bool := homeCheck s a h n nodes == .inr homeR
theorem test_home_requests_reach_their_region :
    homeMeets { opHdr 0x01 with regionId := 8 } (be 8 0x4000 ++ [1]) (.alloc · { opHdr 0x01 with regionId := 8 } 0x4000 1)
      (fun s _ => hasHome s && homeShape { opHdr 0x01 with regionId := 8 } 1 false && (homeOf s { opHdr 0x01 with regionId := 8 }).isNone) = true ∧
    homeMeets (opHdr 0x02) [] (.free · (opHdr 0x02)) (finds (opHdr 0x02) 1 false) = true ∧
    homeMeets (opHdr 0x03) (be 2 0x14) (.rebind · (opHdr 0x03) 0x14) (finds (opHdr 0x03) 1 false) = true ∧
    homeMeets home0 [] (.readLines · { hdr := home0 }) (finds home0 31 false) = true ∧
    homeMeets (opHdr 0x14) [] (.leaseRelease · (opHdr 0x14)) (finds (opHdr 0x14) 31 false) = true ∧
    homeMeets (opHdr 0x55) [] (.leaseRelease · (opHdr 0x55)) (fun s _ => hasHome s && reservedHop 0x55) = true := by decide +kernel
def nodeHdr (op : Byte) : HomeHdr := { opHdr op with baseItem := 0x8000000000 }
set_option maxRecDepth 100000 in
theorem test_home_requests_with_data_reach_their_region :
    homeMeets (opHdr 0x11) (lineUnits [5] [6]) (.writeLines · (opHdr 0x11) [(5, 6)]) (finds (opHdr 0x11) 31 false) = true ∧
    homeMeets (nodeHdr 0x12) (addrUnit [0x100000000]) (.readNodes · { hdr := nodeHdr 0x12 } [0x100000000]) (finds (nodeHdr 0x12) 31 true) = true ∧
    homeMeets (nodeHdr 0x13) (addrUnit [0x100000000] ++ nodeUnits 1 [nodeRecBytes 7 8 false]) (.writeNodes · (nodeHdr 0x13) [(0x100000000, 7, 8)])
      (finds (nodeHdr 0x13) 28 true) = true := by decide +kernel
/-- Other bytes spell another row. -/
theorem test_home_row_not_spelt : spelt (.alloc (homeFrame (opHdr 0x01) (be 8 0x4000 ++ [1])) (opHdr 0x01) 0x8000 1) home = false := by decide +kernel

theorem test_premises_HomeStoresWhatKeepersWrite :
    ((hopChecks homeArr home).mine = true ∧ (hopChecks homeArr home).retry = false) ∧
    (hasHome (atHome home) = true ∧ homeShape { home0 with regionId := 8 } 1 false = true ∧ homeOf (atHome home) { home0 with regionId := 8 } = none) ∧
    homeCheck (atHome home) homeArr home0 1 false = .inr homeR ∧
    (let s := { home with homes := [{ homeR with leases := [0] }] }
     homeCheck (atHome s) homeArr home0 1 false = .inr { homeR with leases := [0] }) ∧
    (homeCheck (atHome home) homeArr { home0 with baseItem := 64 } 31 false = .inr homeR ∧ linesOut homeR { home0 with baseItem := 64 } = true) ∧
    ([0, 1, 2, 3] : List Byte).all (fun f => homeCheck (atHome home) homeArr { home0 with count := 31, baseItem := 33, hflags := f } 31 false == .inr homeR
      && !linesOut homeR { home0 with count := 31, baseItem := 33, hflags := f }) = true ∧
    (homeCheck (atHome home) homeArr (nodesHdr 31) 31 true = .inr homeR ∧ homeCheck (atHome home) homeArr (nodesHdr 28) 28 true = .inr homeR ∧
      homeCheck (atHome home) homeArr (nodesHdr 29) 28 true = .inl 7 ∧ nodesOut homeR [0x100000000] = false ∧ nodesOut homeR [0x100000001] = true) ∧
    homeCheck (atHome home) homeArr { home0 with regionId := 9 } 31 false = .inl 2 ∧
    homeCheck (atHome { home with homes := [{ homeR with keeper := 0x014 }] }) homeArr home0 31 false = .inl 4 := by decide +kernel

theorem test_premises_StoredItemsReadBack :
    ¬ (homeR.job = home0.jobId ∧ homeR.rid = ({ home0 with regionId := 8 } : HomeHdr).regionId) ∧
    mapGet 0 (storeItems 0 3 [7, 8] [(4, 1), (5, 2)]) 3 = 7 ∧ mapGet 0 (storeItems 0 3 [7, 8] [(4, 1), (5, 2)]) 4 = 8 ∧
    mapGet 0 (storeItems 0 3 [7, 8] [(4, 1), (5, 2)]) 5 = 2 ∧ mapWfD 0 ([(4, 1), (5, 2)] : FMap Line) = true := by decide +kernel

/-! Frames at the hop. -/
def withSeq (n : BitVec 11) : Arrival := mkArr { hop0 with linkSeq := n } arr0.route []
/-- A frame for another package that NAKs, and a frame that stands unacknowledged. -/
def naked : Arrival := mkArr { hop0 with nak := true, ackValid := true, ackSeq := 5 } (streamId 0x013 0x014 0 0) []
def stuck0 : Frame := { hop := { arr0.hop with linkSeq := 6 }, route := 0, body := .credit [], crc := 0 }
theorem test_premises_HopsOfAFrame :
    (spelt (.reservedKindFrame arr0) world = false ∧ spelt (.reservedKindFrame { arr0 with hop := { hop0 with kind := 10 } }) world = true ∧
      spelt (.relayForward naked) world = true ∧ spelt (.relayForward arr0) world = false) ∧
    (arrivalOf (.relayForward arr0) = some arr0 ∧ arrivalOf (.close arr0 seal0) = some arr0 ∧ arrivalOf (.homeResponse arr0 home0 ⟨0, 0, 0, [], []⟩) = some arr0) ∧
    (crcOk { arr0 with crc := 0 } = false ∧ (hopChecks { arr0 with crc := 0 } world).mine = false ∧ (hopChecks { arr0 with crc := 0 } world).retry = false) ∧
    ((hopChecks naked { world with ports := [(0, { portOf world 0 with resends := Config.retryLimit, replay := [stuck0] })] }).mine = false ∧
      (hopChecks naked { world with ports := [(0, { portOf world 0 with resends := Config.retryLimit, replay := [stuck0] })] }).retry = true) ∧
    (serving State.reset = false ∧ (portOf world 1).up = false ∧ (portOf { world with ports := [(0, { up := true, loopDepth := 1 })] } 0).loopDepth ≠ 0) ∧
    (serving world = true ∧ (portOf world 0).up = true ∧ (portOf world 0).loopDepth = 0) ∧
    [1, 1023, 1024, 2047, 0].map (fun n => ((withSeq n).hop.linkSeq - (portOf world 0).rxSeq).toNat) = [1, 1023, 1024, 2047, 0] ∧
    hopOk { arr0 with hop := { arr0.hop with vc := 1 } } = false ∧
    (hopOk { arr0 with route := streamId 0x013 0x014 0 0 } = true ∧ (portOf world 0).nbrLost = false ∧ routedKind arr0.hop.kind = true ∧
      sidDst (streamId 0x013 0x014 0 0) ≠ world.fab.id) := by decide +kernel

/-- The frame goes on at this package, which is then in a state as `f` asks. -/
def reaches (a : Arrival) (s : State) (f : State → Bool) : Bool := (hopChecks a s).mine && !(hopChecks a s).retry && f (hopChecks a s).st
/-- The arrival of a control frame of a kind, with its body, from package 0x013. -/
def ctlArr (k : BitVec 4) (b : Body) : Arrival := mkArr { hop0 with kind := k, vc := 15 } (streamId 0x013 0x012 0 0) (bodyBytes b)
/-- A control frame of a kind and body reaches the package and spells its row. -/
def comes (k : BitVec 4) (b : Body) (c : Arrival → Instr) (s : State) (f : State → Bool) : Bool :=
  spelt (c (ctlArr k b)) s && reaches (ctlArr k b) s f
def port0 (g : PortSt → PortSt) : State := { world with ports := [(0, g (portOf world 0))] }
def beats (fl : Byte) (s : State) (f : PortSt → Bool) : Bool :=
  comes kBeat (.beat 7 3 fl) (.beat · 7 3 fl) s (fun v => f (portOf v 0))
set_option maxRecDepth 100000 in
theorem test_premises_ControlFramesAct :
    beats 0 world (fun p => p.nbrBoot == some 7 && !p.nbrLost && !p.nbrLending) = true ∧
    beats 5 (port0 (fun p => { p with nbrBoot := none })) (fun p => p.nbrBoot == none) = true ∧
    beats 7 (port0 (fun p => { p with nbrLost := true, nbr := none })) (fun p => p.nbrLost) = true ∧
    beats 2 (port0 (fun p => { p with lostSeen := true })) (fun p => p.lostSeen) = true ∧
    beats 0 (port0 (fun p => { p with nbrBoot := some 6 })) (fun p => p.nbrBoot == some 6 && !p.nbrLost && !p.nbrLending) = true ∧
    beats 2 world (fun p => p.nbrBoot == some 7 && !p.nbrLost && !p.lostSeen && !p.nbrLending) = true ∧
    comes kKnell (.knell 7 3) (.knell · 7 3) world (fun _ => true) = true ∧
    comes kProxyKnell (.proxyKnell 0x021 2 9) (.proxyKnell · 0x021 2 9) world (fun _ => true) = true ∧
    comes kCredit (.credit [(1, 2)]) (.credit · [(1, 2)]) world (fun _ => true) = true := by decide +kernel

def looped : State := port0 (fun p => { p with loopDepth := 1 })
def loopArr : Arrival := mkArr { hop0 with kind := kLoop, vc := 15 } 0 []
theorem test_premises_PortEvents :
    (serving world = true ∧ serving looped = true ∧ loopArr.hop.kind = kLoop ∧ loopOf looped loopArr.port = some 0 ∧
      loopOf world loopArr.port = none ∧
      (let s := { world with ports := [(5, { loopDepth := 2, loopPartner := 0 })] }
       serving s = true ∧ loopOf s loopArr.port = some 5 ∧ (portOf s 5).loopDepth ≠ 1)) ∧
    (portOf (port0 (fun p => { p with nbrLost := true })) 0).nbrLost = true ∧
    ((portOf world 0).nbrLost = false ∧ (portOf world 0).nbr = some 0x013 ∧ (portOf world 0).up = true) ∧
    (quiescing world = false ∧ world.fab.go = true ∧ (portOf world 1).up = false ∧ portPresent world 1 = true ∧ portPresent world 31 = true) := by
  decide +kernel

def asksOpen (s : State) (f : State → Bool) : Bool :=
  comes kOpenReq (.openReq (streamId 0x012 0x013 0 1) 0x21 5) (.openReq · (streamId 0x012 0x013 0 1) 0x21 5) s f
def acksOpen (s : State) (f : State → Bool) : Bool :=
  comes kOpenAck (.openAck (streamId 0x013 0x012 0 1) 0x21 2 0x10001 5 [0x021] 0) (.openAck · (streamId 0x013 0x012 0 1) 0x21 2 0x10001 5 [0x021] true) s f
set_option maxRecDepth 100000 in
theorem test_premises_OpenExchangeAnswers :
    asksOpen world (fun v => v.openReqs.isEmpty && (senderOf v 0x21 (streamId 0x012 0x013 0 1)).isNone) = true ∧
    asksOpen { world with openReqs := List.replicate 255 { job := 1, sid := 1, challenge := 0 } } (fun v => decide (v.openReqs.length < 256)) = true ∧
    asksOpen { world with openReqs := List.replicate 256 { job := 1, sid := 1, challenge := 0 } } (fun v => decide (256 ≤ v.openReqs.length)
      && v.openReqs.all (fun q => q.job != 0x21)) = true ∧
    asksOpen (waitingFor hV 0x30 (.openSend (streamId 0x012 0x013 0 1) 0x013 8) { signal := true } world)
      (fun v => (senderOf v 0x21 (streamId 0x012 0x013 0 1)).isSome) = true ∧
    acksOpen world (fun v => (receiverOf v 0x21 (streamId 0x013 0x012 0 1) 5).isNone) = true ∧
    acksOpen (waitingFor hV 0x30 (.openRecv (streamId 0x013 0x012 0 1) 0x013 8 5 none false false 0 0) { signal := true } world)
      (fun v => (receiverOf v 0x21 (streamId 0x013 0x012 0 1) 5).map (·.act) == some (.openRecv (streamId 0x013 0x012 0 1) 0x013 8 5 none false false 0 0))
      = true := by decide +kernel

def x16 : ExchSt := exchFor 0 (newRegion v3 0x21 7 7 0xFFFF 0 1 0x012 0x4000 0x013 0 5 .live 0 0 0) 0x10 [0]
def asking : State := { world with exch := [(1, x16)] }
def respHdr : HomeHdr := { home0 with hop := 0x90 }
def resp0 : HomeResp := { ueMap := 0, macUe := 0, ceCount := 3, lines := [{ plain := 5, macOk := true }], nodes := [] }
/-- The response of one line: header, line, MAC unit, trailer. -/
def respArr (h : HomeHdr) : Arrival :=
  mkArr { hop0 with kind := 2, vc := 9, unitsM1 := 1 } (streamId 0x013 0x012 3 0) (homeHdrBytes h ++ lineUnits [5] [6] ++ be 8 0 ++ be 4 3 ++ zeros 4)
def answers (h : HomeHdr) (s : State) (f : State → Bool) : Bool :=
  respSpelt (respArr h) h resp0 && reaches (respArr h) s (fun v => f (returnCredits 0 9 (frameCredits (respArr h).hop) v))
set_option maxRecDepth 100000 in
theorem test_premises_KeeperTakesHomeAnswers :
    answers respHdr asking (fun v => mapFind v.exch 1 == some x16) = true ∧
    answers { respHdr with hop := 0x91 } asking (fun v => mapFind v.exch 1 == some x16) = true ∧
    answers respHdr world (fun v => (mapFind v.exch 1).isNone) = true ∧
    (respHdr.hop = x16.op ||| 0x80 ∧ sidSrc (respArr respHdr).route = x16.home ∧ x16.held = false ∧ (0x91 : Byte) ≠ x16.op ||| 0x80 ∧
      sidSrc (streamId 0x014 0x012 3 0) ≠ x16.home ∧ respHdr.hstat = 0 ∧ ({ respHdr with hstat := 2 } : HomeHdr).hstat ≠ 0) ∧
    (serving asking = true ∧ mapFind asking.exch 1 = some x16 ∧ mapFind asking.exch 2 = none) ∧
    (regionKeyOf world 0x21 7 = some 0 ∧ regionKeyOf world 0x21 8 = none) := by decide +kernel

/-! Recovery, migration, telemetry, life cycle. -/
/-- A migration key message: KIND, LENGTH, the source's device and VF, and further bytes from offset 32. -/
def migMsg (k : Byte) (length : Nat) (more : List Byte) : MigMsg :=
  { bytes := migHead k length (if k = 0 then 0 else 0xD1) 0xD2 (if k = 0 then 0 else 3) 0 ++ more, chainOk := true, leafDevice := 0xD2
    leafKey := [], leafHash := 0, sigsOk := true }
/-- An ACCEPT of a unit in DEPLOYED under this one's owner, with a certificate for its keys. -/
def acceptMsg : MigMsg :=
  let m := migMsg 2 9160 (zeros 1745 ++ [5, 0, 0] ++ zeros 12 ++ be 48 0xAB ++ zeros 2592)
  { m with leafHash := Config.sha384 (m.leafKey ++ msgBytes m 1840 2592) }
def noRegion : State := { world with regions := [] }
def only3 (g : FnSt → FnSt) (s : State) : State := { s with fns := mapMod {} s.fns 3 g }
def frozen3 : State := only3 (fun x => { x with frozen := true }) noRegion
def dirty3 : DirtyLog := { bufAddr := 0x8000, bufLen := 64, activeB := false, pagesA := [4], pagesB := [], overflow := false }
def logging : State := only3 (fun x => { x with dirty := some dirty3 }) world
def suspect3 : State := only3 (fun x => { x with ctxs := [(0, { gen := 1, live := true, suspect := true })] }) world
/-- VF 4 with a restore in progress under content key 5. -/
def restoring : RestoreSt :=
  { contentKey := 5, header := 0, srcDevice := 0xD1, jobId := 0x21, carveSizes := [0, 0, 0], lastIndex := 2, items := [], filter := none, segments := []
    segMap := [], pos := 80 }
def quiet4 : State := { world with fns := mapMod {} world.fns 4 (fun x => { x with quiesced := true, ring := {}, restore := some restoring }) }
/-- The end chunk of that image, and one whose CKIND is another's. -/
def endChunk : Chunk :=
  let c : Chunk := { format := 3, ckind := 6, rsvd3 := 0, length := 8, index := 3, segment := 0, rsvd20 := 0, imageId := 0, rsvd48 := 0
                     body := .last 3, tag := 0 }
  { c with tag := Config.gcmTag 5 (chunkIv 3) (chunkAad c 0) (bodyImage c.body) }
def wrongChunk : Chunk := { endChunk with ckind := 2 }
def hP : CmdHdr := hdr .pf 0 1 (some 3)
/-- Saved descriptors of context 0 at generation 1: a NOP, and a BULK_OP on a handle. -/
def nop1 : ReplayDesc := { raw := 0x0F + 2 ^ 80, aux := .failed, record := .failed }
def okAux : Aux := { iv := 0, aadLen := 0, duLog2 := 0, aadAddr := 0, digest := 0, rsvdOk := true }
def op1 (bctx : Nat) : ReplayDesc :=
  { raw := BitVec.ofNat 512 (0x79 + 2 ^ 80 + bctx * 2 ^ 160 + 0x1000 * 2 ^ 256 + 64 * 2 ^ 320 + 0x2000 * 2 ^ 384), aux := .ok okAux, record := .failed }
def bulked : State :=
  { suspect3 with bulk := [(3, { vf := v3, mode := 3, ctx := 0, ctxGen := 1, kid := 2, key := none, state := .idle, decrypt := false, duLog2 := 0
                                 chain := {} })] }
/-- A reset of VF 4 beside another of it. -/
def resetting : State :=
  { world with prog := [entry (resetVfRow hU), { entry (resetVfRow hU) with idx := 1, started := true, act := .reset v4 9 }] }

theorem test_premises_QuiesceResetAndReplay :
    admits (.quiesceVf hT, world) = true ∧
    (let s := given (.resetVf hU) world
     admits (.resetVf hU, world) = true ∧ otherResets s v4 (entry (resetVfRow hU)) = [] ∧ privileged s v4 = false) ∧
    (let s := given (.resetVf hT) world
     admits (.resetVf hT, world) = true ∧ otherResets s v3 (entry (resetVfRow hT)) = [] ∧ privileged s v3 = true) ∧
    (serving resetting = true ∧ dispatched resetting (resetVfRow hU) = some (entry (resetVfRow hU)) ∧ stuckElsewhere resetting v4 = false ∧
      otherResets resetting v4 (entry (resetVfRow hU)) ≠ []) ∧
    admits (.resetPackage hA okEnv, world) = true ∧
    (admits (.replayContext hP 0 (.ok []), suspect3) = true ∧ admits (.replayContext hP 1 (.ok [nop1]), suspect3) = true ∧ hP.ctx ≠ 0xFFFF ∧
      admits (.replayContext hT 0 (.ok []), frozen3) = true ∧ hT.ctx = 0xFFFF ∧ (fnOf frozen3 v3).frozen = true) ∧
    (admits (.replayContext hP 1 (.ok [op1 9]), bulked) = true ∧ descFault bulked v3 0 (op1 9) = some (stBadState, 0)) ∧
    (descFault bulked v3 0 nop1 = none ∧ rawByte nop1.raw 0 = 0x0F) ∧
    (descFault bulked v3 0 (op1 3) = none ∧ rawByte (op1 3).raw 0 ≠ 0x0F ∧ (bulkFor bulked v3 0 (descBctx (op1 3))).isSome = true) ∧
    ((descFinish v3 (op1 3) { dmaOk := true, data := zeros 64, aad := [] } bulked).1 = stOk ∧
      (descFinish v3 (op1 3) { dmaOk := false, data := [], aad := [] } bulked).1 = stDmaError) := by decide +kernel

def asked3 : State := only3 (fun x => { x with nonceS := some 0 }) world
def keyed : State := { world with ks := { world.ks with identity := some { ecD := 1, xi := 2, kemD := 3, kemZ := 4, keD := 5 } } }
/-- What encapsulation and decapsulation give is uninterpreted: the clauses on it divide all cases between them. -/
theorem test_premises_MigrationCommands :
    ((admits (.migrateKey hT 0 64 (.ok (migMsg 0 64 [])), world) = true ∧ msgKind (migMsg 0 64 []) = 0) ∧
     (admits (.migrateKey hT 0 64 (.ok (migMsg 1 64 (zeros 32))), keyed) = true ∧ msgKind (migMsg 1 64 (zeros 32)) = 1 ∧
       keyed.ks.identity.isSome = true) ∧
     (admits (.migrateKey hT 0 9160 (.ok { acceptMsg with chainOk := false }), asked3) = true ∧
       acceptCheck (given (.migrateKey hT 0 9160 (.ok { acceptMsg with chainOk := false })) asked3) v3 { acceptMsg with chainOk := false }
         = some (stAuthFailed, 0)) ∧
     (admits (.migrateKey hT 0 9160 (.ok acceptMsg), asked3) = true ∧ msgKind acceptMsg = 2) ∧
     (admits (.migrateKey hT 0 1752 (.ok (migMsg 3 1752 (zeros 1720))), world) = true ∧ msgKind (migMsg 3 1752 (zeros 1720)) = 3)) ∧
    (admits (.migrateFreeze hT, noRegion) = true ∧ vfIdle (given (.park hV 5 0 7 3) world) v3 = false ∧ vfIdle noRegion v3 = true) ∧
    (admits (.migrateSave hT 0xFE00 0 0x100000 0, frozen3) = true ∧ admits (.migrateSave hT 0xFE00 0 0x100000 (2 ^ 62 + 1), logging) = true ∧
      admits (.migrateSave hT 0xFE00 0 0x100000 (2 ^ 62 + 2), logging) = false) ∧
    (admits (.migrateRestore hU 0 0 (.ok [endChunk]), quiet4) = true ∧ admits (.migrateRestore hU 0 0 (.ok [wrongChunk]), quiet4) = true ∧
      admits (.migrateRestore hU 0 0 (.ok []), quiet4) = true ∧
      applyChunks 0 none none (migrationWrap quiet4) (fnOf quiet4 v4).restore [wrongChunk] = none ∧
      applyChunks 0 none none (migrationWrap quiet4) (fnOf quiet4 v4).restore [] = some (some restoring, false)) ∧
    admits (.dirtyLogStart hT 0x8000 64, world) = true ∧ admits (.dirtyLogStop hT, logging) = true ∧
    (admits (.dirtyLogSync hT 0x8000 64, logging) = true ∧ (fnOf (given (.dirtyLogSync hT 0x8000 64) logging) v3).dirty = some dirty3) := by
  decide +kernel
/-- An ACCEPT that passes the source's checks. -/
theorem test_accept_checks : acceptCheck asked3 v3 acceptMsg = none := by
  have h : acceptMsg.leafHash = Config.sha384 (acceptMsg.leafKey ++ msgBytes acceptMsg 1840 2592) := rfl
  simp only [acceptCheck, h, beq_self_eq_true, Bool.and_true]
  decide +kernel
/-- The end of an image. -/
theorem test_image_ends :
    ∃ r, applyChunks 0 none none (migrationWrap quiet4) (fnOf quiet4 v4).restore [endChunk] = some (some r, true) := by
  have h : (fnOf quiet4 v4).restore = some restoring := by decide +kernel
  refine ⟨{ restoring with lastIndex := 3, pos := restoring.pos + chunkSize endChunk }, ?_⟩
  have ht : Config.gcmTag restoring.contentKey (chunkIv endChunk.index) (chunkAad endChunk restoring.header) (bodyImage endChunk.body)
    = endChunk.tag := rfl
  simp only [applyChunks, applyChunk, h, applySealed, ht, ne_eq, not_true_eq_false, false_or]
  rfl

def traced (n : Nat) : State :=
  { world with tabor := { world.tabor with gib := 1, trace := [(3, { queue := List.replicate n { tick := 0, kind := 1, ctx := 0, data := 0 }, blocks := [] })] } }
def setFor (k : Nat) : CmdSet := { fn := 3, ctx := BitVec.ofNat 16 k, counts := [(38, 3)], sat := false }
theorem test_premises_TelemetryAndTraceCommands :
    (admits (.telemWindow hV 1, world) = true ∧ admits (.telemWindow hV 1000000, world) = true ∧ admits (.telemWindow hT 3000, world) = true ∧
      hasRight world 14 = false ∧ admits (.telemWindow hT 1, { world with grant := some { rights := 0x4000, scope := 0x8000, owner := true, kid := 0xFE00 } }) = true) ∧
    (admits (.telemRead hV 0 1088 [], world) = true ∧ admits (.telemRead hA 0 4608 [], world) = true ∧ admits (.telemRead hV 0 1087 [], world) = false) ∧
    (admits (.traceConfig hA 5 2, world) = true ∧ ((2 : Byte).toNat = world.tabor.gib ∨ (2 : Byte).toNat ≠ world.tabor.gib)) ∧
    (let s := { world with tabor := { world.tabor with sets := [setFor 0] } }
     serving s = true ∧ s.tabor.sets.find? (fun c => c.fn == v3.key && c.ctx == 0) = some (setFor 0) ∧
       s.tabor.sets.find? (fun c => c.fn == v3.key && c.ctx == 1) = none ∧ s.tabor.sets.length < 1024) ∧
    (let s := { world with tabor := { world.tabor with sets := List.replicate 1024 (setFor 0) } }
     s.tabor.sets.find? (fun c => c.fn == v3.key && c.ctx == 1) = none ∧ 1024 ≤ s.tabor.sets.length) ∧
    (serving (traced 8) = true ∧ (mapGet {} (traced 8).tabor.trace v3.key).queue ≠ [] ∧ (mapGet {} (traced 0).tabor.trace v3.key).queue = [] ∧
      (mapGet {} (traceSlot v3 (traced 8)).tabor.trace v3.key).blocks.length < sliceBlocks (traceSlot v3 (traced 8)) v3 ∧
      (2 : Byte).toNat ≠ world.tabor.gib ∧ world.tabor.gib ≤ (2 : Byte).toNat) := by decide +kernel

theorem test_premises_WindowsCountEveryEvent :
    serving ticked = true ∧ (6 < 7 ∨ 11 < 0) ∧ ((6 : Nat) ≤ 6 ∧ (11 : Nat) ≤ 11) ∧
    ticked.tabor.events.Pairwise (fun a b => a.tick ≤ b.tick) ∧
    ([ViewId.vf 3, .pfOf 3, .package].all (viewRuns ticked)) = true ∧ viewRuns ticked (.vf 9) = false ∧
    ((viewOf ticked (.vf 3)).pending = none ∧
      (viewOf (viewMod (.vf 3) (fun w => { w with pending := some 1 }) ticked) (.vf 3)).pending = some 1) := by decide +kernel

def okCert : Cert :=
  { format := 7, issuer := 2, rsvd3 := 0, scope := 0x4000, rsvd6 := 0, deviceId := 0xD1, identityHash := 0, rights := 0x4, bootFirst := 0, bootLast := 9
    ownerHash := 0xAB, serial := 0, rsvd144 := 0, signerHash := 0xAB, ecOk := true, pqOk := true }
theorem test_premises_DebugRights :
    (admits (.debugGrant hA 7572 (.ok okCert), world) = true ∧ certAuth world { okCert with deviceId := 0xD2 } = false ∧
      certAuth world { okCert with identityHash := unitIdentity world } = true) ∧
    (admits (.debugRevoke hA, world) = true ∧ world.grant = none) ∧ (admits (.debugRevoke hA, granted) = true ∧ granted.grant.isSome = true) := by
  refine ⟨⟨by decide +kernel, by decide +kernel, ?_⟩, by decide +kernel⟩
  simp [certAuth, okCert]; decide +kernel

def okPol : Policy :=
  { format := 0x0B, rsvd2 := 0, ownerSlot := 0, flags := 0, tamperPins := 15, l2Sources := 0, deviceId := 0xD1, seq := 1, rsvd24 := 0
    signerHash := 0xAB, sigsOk := true }
def challenged : State := { world with aon := { world.aon with nonce := some 0 } }
theorem test_premises_LifeCycleCommands :
    admits (.lcChallenge hA 0, world) = true ∧ admits (.lcTransition hA 7572 (.ok okReq) okEnv, challenged) = true ∧
    admits (.lcStatus hA 0 128, world) = true ∧ admits (.ownerStore hA 1 7476 (.ok (.policy okPol)), world) = true ∧
    admits (.setProfile hA 1, world) = true ∧
    (let s := waitingFor hA 0x73 (.ownerStore (.policy okPol)) { flash := true } world
     serving s = true ∧ (findProg s .pf 0).map (·.act) = some (.ownerStore (.policy okPol))) ∧
    (let s := waitingFor hA 0x71 (.lcTransition okReq okEnv 1) { flash := true } world
     serving s = true ∧ (s.prog[0]?).map (fun q => (q.act, q.hold.flash)) = some (.lcTransition okReq okEnv 1, true)) := by decide +kernel

def okOp : BulkOperands := { src := 0, dst := 0x1000, length := 64, flags := 1, aux := 0x2000 }
/-- VF 3's command on its bulk context is at the engine. -/
def bulkWait (a : Act) : State := waitingFor hV 0x79 a { engine := true } world
def hmac3 : BulkCtx := { vf := v3, mode := 6, ctx := 0xFFFF, ctxGen := 0, kid := 2, key := none, state := .message, decrypt := true, duLog2 := 0, chain := {} }
theorem test_premises_BulkContextLife :
    ([(1, 0), (3, 2), (4, 0)] : List (Byte × W16)).all (fun m => admits (.bulkCtxOpen hV 0xFF m.1 m.2, world)) = true ∧
    admits (.bulkOp hV 3 okOp (.ok okAux), world) = true ∧ admits (.bulkCtxSave hV 3 0x3000 0, world) = true ∧
    admits (.bulkCtxRestore hV 3 0x3000 0 (.ok okRec), world) = true ∧ admits (.bulkCtxClose hV 3, world) = true ∧
    (bulkFor world v3 0xFFFF 3).isSome = true ∧
    (let s := bulkWait (.bulkOp 3 okOp .failed false)
     serving s = true ∧ (findProg s v3 0).map (fun q => (q.hold.engine, q.act)) = some (true, .bulkOp 3 okOp .failed false) ∧
       s.replayEngine ≠ some ((3 : W32).toNat / 16 % 2) ∧ (mapFind s.bulk 3).isSome = true ∧
       { s with replayEngine := some 0 }.replayEngine = some ((3 : W32).toNat / 16 % 2)) ∧
    ((hashMode 3 = false ∧ opBytes okOp { dmaOk := true, data := [], aad := [] } ≠ 0) ∧
      (opFinal okOp.flags = true ∧ writesAux okOp = true ∧ opFinal { okOp with flags := 0 }.flags = false) ∧
      opRejects world hmac3 { okOp with flags := 3 } .failed { dmaOk := true, data := [], aad := [] } = true) ∧
    (let s := bulkWait (.bulkSave 3 0x3000 false false)
     (findProg s v3 0).map (fun q => (q.hold.engine, q.act)) = some (true, .bulkSave 3 0x3000 false false)) ∧
    (let s := bulkWait (.bulkRestore 3 false (.ok okRec) false)
     (findProg s v3 0).map (fun q => (q.hold.engine, q.act)) = some (true, .bulkRestore 3 false (.ok okRec) false)) ∧
    ((findProg (waitingFor hV 0x14 .none {} world) v3 0).map (·.hold.engine) = some false) := by decide +kernel

theorem test_premises_SelfTestNeedsAFactoryState :
    let c : Instr := .selfTest hA 0xFFFF 1 0 none
    let s := given c world
    serving s = true ∧ dispatched s (selfTestRow hA 0xFFFF 1 0 none) = some (entry (rowFor c)) ∧ runningTest s hA = none ∧ lcState s = lcDeployed ∧
      (1 : W32) ≠ 0 ∧ (testChecks 0xFFFF 1 0 none s).first s hA (entry (rowFor c)) = some (stNotPermitted, 0) ∧ stNotPermitted ≠ stMalformed := by decide +kernel

/-- SELF_TEST of a unit: its row passes its checks where it has been dispatched. -/
def tests (u : W16) (run : Option TestRun) (s : State) : Bool :=
  let c : Instr := .selfTest hA u 0 0 run
  let r := rowFor c
  let t := given c s
  serving t && dispatched t r == some (entry r) && (r.checks t).first t r.hdr (entry r) == none && (runningTest t hA).isNone
theorem test_premises_SelfTestRuns :
    (tests 0x40 none { base with fns := world.fns } = true ∧ tests 0x40 (some { limits := 0, units := [] }) { base with fns := world.fns } = true ∧
      (unitCache 0x40).isSome = true) ∧
    (let s := waitingFor hA 0x7F (.selfTest [0x40] 5 8192) { engine := true } world
     serving s = true ∧ (runningTest s hA).map (·.2) = some ([0x40], 5, 8192)) ∧
    ((1 : BitVec 2) ≠ 0 ∧ memoryFails [{ unit := 0x69, delta := 0, rows := [(1, 6)] }] 0x69 = true ∧
      logicPass [{ unit := 0x07, delta := 1, rows := [] }] [6, 7, 8] 5 8192 7 = false ∧
      logicPass [{ unit := 0x07, delta := 1, rows := [] }] [6, 7, 8] 5 8192 6 = true) ∧
    ((portOf world 0).up = true ∧ portPresent { world with pkg := { world.pkg with bad := [0x70] } } 0 = false ∧ portPresent world 0 = true) := by
  decide +kernel

/-- A chime of two signals, the first to a fence that is not live. -/
def sigs2 : List ChimeSig := [{ fence := 9, op := 1, value := 0x40 }, { fence := 0, op := 1, value := 0x40 }]
theorem test_premises_ChimeWithoutFence :
    (let s := { chimed with snare := chimed.snare.map (fun e => { e with sigs := sigs2 }) }
     serving s = true ∧ (snarePick v3 0 s.snare).map (fun r => r.2.1.sigs) = some ([] ++ { fence := 9, op := 1, value := 0x40 } :: sigs2.drop 1) ∧
       (snarePick v3 0 s.snare).map (fun r => fenceIdx (applySignals v3 (some r.2.1.src) [] { s with snare := r.1 ++ r.2.2 }) v3 9) = some none) ∧
    (let s := { world with localSnare := [{ fn := v3, ctx := 0, fport := 0, sigs := sigs2, jobs := [], tags := [] }] }
     serving s = true ∧ (localPick s v3 [] s.localSnare).map (fun r => r.2.1.sigs) = some ([] ++ { fence := 9, op := 1, value := 0x40 } :: sigs2.drop 1) ∧
       (localPick s v3 [] s.localSnare).map (fun r => fenceIdx (applySignals v3 none [] { s with localSnare := r.1 ++ r.2.2 }) v3 9) = some none) := by
  decide +kernel

theorem test_premises_DebugRevokeEndsTheGrant :
    (admits (.debugRevoke hA, granted) = true ∧ granted.grant.isSome = true ∧ lcState (given (.debugRevoke hA) granted) = lcDeployed) ∧
    (admits (.debugRevoke hA, world) = true ∧ world.grant = none) := by decide +kernel

theorem test_premises_ForeignKidsAreUnallocated :
    (∀ k, mapFind world.ks.kids (2 : W16).toNat = some k → k.owner ≠ some hW.fn) ∧ mapFind world.ks.kids (0xFFFF : W16).toNat = none ∧
    (∀ k, mapFind world.ks.kids (0xFE00 : W16).toNat = some k → k.owner ≠ some hV.fn) := by
  refine ⟨?_, by decide +kernel, ?_⟩
  · rw [show mapFind world.ks.kids (2 : W16).toNat = some (liveKid 1 (some v3)) from by decide +kernel]
    rintro k ⟨⟩
    decide +kernel
  · rw [show mapFind world.ks.kids (0xFE00 : W16).toNat = some (liveKid 6 none) from by decide +kernel]
    rintro k ⟨⟩
    decide +kernel

/-! Registers, power, tamper responses. -/
def accA : RegAcc := { fn := .pf, bytes := 8, low := true, trusted := false }
def staging : State := { world with fab := { world.fab with go := false } }
def testOpen : State := { world with aon := { world.aon with stateWord := 0x3 } }
theorem test_premises_SetUpRegisterCommands :
    (earlyAccess accA world = true ∧ coversLow accA = true ∧ pfAccess accA world = true) ∧
    (earlyAccess { accA with bytes := 2 } world = false ∧ coversLow { accA with bytes := 4, low := false } = false ∧ pfAccess acc3 world = false) ∧
    (world.fab.go = true ∧ pfAccess accA staging = true ∧ staging.fab.go = false ∧ accA.bytes = 8) ∧
    (regAccepted { acc3 with fn := v4 } quiet4 = true ∧ (ringOf quiet4 v4).enabled = false ∧ ready quiet4 = true) ∧
    ((ringOf world v3).enabled = true ∧ 0x1000 ≤ (0x1000 : W16).toNat ∧ (0x1FFF : W16).toNat < 0x2000 ∧ (0x0FFF : W16).toNat < 0x1000 ∧
      0x5028 ≤ (0x5028 : W16).toNat) := by decide +kernel

theorem test_premises_PerturbationWrites :
    (pfAccess acc3 world = false ∧ pfAccess accA world = true ∧ perturbActs world = false) ∧
    (perturbActs testOpen = true ∧ pfAccess accA testOpen = true ∧ coversLow { accA with bytes := 4, low := false } = false ∧ coversLow accA = true) ∧
    ([0x0, 0x100, 0x400] : List W64).map (fun v => (v.getLsbD 7, v.toNat % 32, v.toNat / 256 % 8)) = [(false, 0, 0), (false, 0, 1), (false, 0, 4)] ∧
    (portPresent testOpen 0 = true ∧ intSlotCheck (endPortLoop 0 testOpen) = none) ∧
    ([0x82, 0x182, 0x282] : List W64).map (fun v => (v.getLsbD 7, v.toNat % 32, v.toNat / 256 % 8)) = [(true, 2, 0), (true, 2, 1), (true, 2, 2)] ∧
    (poolPresent (endPoolLoop 2 testOpen) 2 = true ∧ poolPresent (endPoolLoop 5 testOpen) 5 = false ∧ engineRegions (endPoolLoop 2 testOpen) 2 = 0 ∧
      intSlotCheck (endPoolLoop 2 testOpen) = none) := by decide +kernel

def asleep (p : Power) (s : State) : State := { s with pkg := { s.pkg with power := p }, sends := [], recvs := [] }
def waitingBist (n : Nat) : State := { base with pkg := { base.pkg with phase := .bistWait n okEnv } }
theorem test_premises_PowerAndStartRows :
    (State.reset.pkg.phase = .off ∧ world.pkg.phase ≠ .off) ∧
    (powerRefusal .a1 world = none ∧ powerRefusal .a2 world = some 1 ∧ powerRefusal .a2 { world with bulk := [] } = none ∧
      powerRefusal .a3 (asleep .a2 world) = none ∧ powerRefusal .off { world with pkg := { world.pkg with phase := .halted } } = none) ∧
    (world.pkg.power = .a0 ∧ (asleep .a1 world).pkg.power = .a1 ∧ (asleep .a2 world).pkg.phase = .ready ∧ (asleep .a2 world).pkg.power = .a2 ∧ (asleep .a2 world).prog = []) ∧
    (world.sends ≠ [] ∧ world.recvs ≠ []) ∧ (given (.nop hV) (asleep .a2 world)).prog ≠ [] ∧
    ((asleep .a2 retiring).prog = [] ∧ (asleep .a2 retiring).ks.kids.any (fun e => e.2.st == .retiring) = true) ∧
    ((asleep .a2 world).ks.kids.all (fun e => e.2.st != .retiring) = true ∧ (asleep .a2 world).regions.all (fun r => r.2.leases.isEmpty) = true ∧
      (regMod (fun r => { r with leases := [3] })).regions.any (fun r => !r.2.leases.isEmpty) = true ∧ hasHome home = true ∧ hasHome world = false) ∧
    ((waitingBist 1).pkg.phase = .bistWait 1 okEnv ∧ (waitingBist 2).pkg.phase = .bistWait 2 okEnv ∧ (2 : Nat) ≤ 2 ∧ ¬ (2 : Nat) ≤ 1) ∧
    (let s := { base with pkg := { base.pkg with svn := 5 } }
     ready s = true ∧ s.otp.svn < s.pkg.svn) ∧ (ready State.reset = false ∧ base.pkg.svn ≤ base.otp.svn) ∧
    (hostUp world = true ∧ hostUp State.reset = false) := by decide +kernel

theorem test_premises_TamperResponses :
    (world.pkg.phase ≠ .off ∧ lcState world ≠ lcScrap ∧ lcState world ≠ lcBroken ∧ world.pkg.phase ≠ .halted ∧ world.pkg.phase = .ready) ∧
    (srcArmed (.pin 2) (notePin (.pin 2) world) = true ∧ srcArmed .clock (notePin .clock world) = true ∧
      srcArmed (.pin 2) (notePin (.pin 2) { world with aon := { world.aon with armed := 0 } }) = false ∧ srcArmed .mesh (notePin .mesh testOpen) = false) ∧
    (1000000 ≤ 1100000 ∧ 45000 ≤ 55000 ∧ 999999 < 1000000 ∧ 1100000 < 1100001 ∧ 44999 < 45000 ∧ 55000 < 55001) ∧
    ({ world with pkg := { world.pkg with phase := .halted } } : State).pkg.phase = .halted := by decide +kernel

theorem test_premises_TocsinZeroises : (1 : Byte) ≠ 2 ∧ world.pkg.power ≠ .off ∧ (world.fns.any (fun e => e.2.enabled)) = true := by decide +kernel

/-! The host-facing protocols. -/
def chain1 : OwnerChain := { bytes := zeros 2000, rootHash := 0xAB, certsOk := true, leafIsIdentity := true }
def attesting : State := { inSession with flash := { inSession.flash with chain := some chain1 }, mail0 := { inSession.mail0 with ready := some (.version [0x1300]) } }
def shaking : State := { inSession with mail0 := { inSession.mail0 with sessions := [{ id := 2, established := false, kid := 0xFE01 }] } }
/-- `MailServes`, as a test. -/
theorem mailServes_of (s : State) (p : BitVec 1)
    (h : (ready s && (s.pkg.power == .a0 || s.pkg.power == .a1) && !mailBusy s p) = true) : MailServes s p := by
  simp only [Bool.and_eq_true, Bool.or_eq_true, beq_iff_eq, Bool.not_eq_true'] at h
  exact ⟨h.1.1, h.1.2, h.2⟩

theorem test_premises_SpdmResponder :
    MailServes attesting qS.port ∧ MailServes shaking qS.port ∧
    (qS.version13 = true ∧ ({ qS with version13 := false } : SpdmReq).version13 = false) ∧
    (drsUsable attesting = true ∧ slotChain attesting 1 = some (zeros 2000) ∧ (zeros 2000).length ≤ 16384 ∧ (1999 : W16).toNat < (zeros 2000).length ∧
      (slotChain attesting 0).isSome = true ∧
      (mailOf attesting 0).sessions.length < 4 ∧ intSlotCheck attesting = none) ∧
    ((mailOf shaking 0).sessions.any (fun x => x.id == 2 && !x.established)) = true ∧
    drsUsable testOpen = false ∧ (mailReq (.getVersion { qS with parity := true }) = some { qS with parity := true }) ∧
    (offersAll selection = true ∧ offersAll { selection with baseHash := 0 } = false ∧ (block attesting 5).isSome = true ∧ block attesting 0x33 = none) ∧
    (mailOf { attesting with mail0 := { attesting.mail0 with owed := some .finishRsp, ready := none } } 0).owed.isSome = true ∧ (sessionOf attesting qS).isSome = true ∧ sessionOf attesting { qS with session := none } = none ∧
    (mailOf attesting 0).ready = some (.version [0x1300]) :=
  ⟨mailServes_of _ _ (by decide +kernel), mailServes_of _ _ (by decide +kernel), by decide +kernel⟩

def tdi5 (t : TdiSt) (x : FnSt) : State := { inSession with fns := [(5, { x with enabled := true, tdi := t })] }
def inTest : State := { inSession with aon := { inSession.aon with stateWord := 0x3 } }
theorem test_premises_IdeAndTdispMessages :
    MailServes inSession qS.port ∧ MailServes inTest qS.port ∧
    ((sessionOf inSession qS).isSome = true ∧ (sessionOf inTest qS).isSome = true ∧ qS.version13 = true) ∧
    (fieldState inTest = false ∧ fieldState inSession = true ∧ tdispState inSession = true) ∧
    (let s := { inSession with ide := { active := [], keys := [(ideReg qS ide0, (0, 0))] } }
     ideOk ide0 = true ∧ s.ide.active.contains (ideReg qS ide0) = false ∧ intSlotCheck s = none ∧ (mapFind s.ide.keys (ideReg qS ide0)).isSome = true) ∧
    (ideOk { ide0 with stream := 9 } = false ∧ ideOk { ide0 with stream := 8, sub := 2 } = true ∧ inSession.ide.active.contains (ideReg qS ide0) = true ∧
      ideOk { ide0 with stream := 0 } = true) ∧
    (allActive { inSession with ide := { active := (List.range 108).filter (· != ideReg qS ide0) } } 0 1 = true ∧
      allActive { inSession with ide := {} } 0 1 = false ∧ (1 : Nat) ≤ ide0.stream) ∧
    (ifaceOk inSession qS 6 = false ∧ ifaceOk inSession qS 2048 = false ∧ ifaceOk inSession qS 5 = true) ∧
    (lockError qS 5 0 true true {} inSession).isSome = true ∧
    lockError qS 5 8 true true (fnOf inSession (.vf 5)).tdi inSession = none ∧ (fnOf inSession (.vf 5)).tdi.state = .unlocked ∧
    (fnOf inSession (.vf 5)).cleaning = none ∧
    ((fnOf (tdi5 { state := .locked, nonce := some 9 } {}) (.vf 5)).tdi.state = .locked ∧
      (fnOf (tdi5 { state := .locked, nonce := some 9 } {}) (.vf 5)).tdi.nonce = some 9) ∧
    ((fnOf (tdi5 { state := .run } {}) (.vf 5)).tdi.state = .run ∧ (fnOf (tdi5 { state := .error } {}) (.vf 5)).tdi.state = .error) :=
  ⟨mailServes_of _ _ (by decide +kernel), mailServes_of _ _ (by decide +kernel), by decide +kernel⟩

theorem test_premises_HostLinkAndFunctionResets :
    (world.pkg.phase ≠ .off ∧ world.pkg.phase ≠ .halted ∧ (fnOf world (.vf 7)).enabled = false ∧ (fnOf world v3).enabled = true) ∧
    (serving world = true ∧ (fnOf world v3).tdi.state = .run) ∧ (fnOf inSession (.vf 5)).tdi.state = .unlocked := by decide +kernel

def recovering : State := { base with pkg := { base.pkg with phase := .recovery, reason := 1, imgLen := some 1572864, imgGot := 1507328 } }
/-- A claim that stopped after its second mark with no journal. -/
def journaled : State :=
  { base with pkg := { base.pkg with phase := .recovery, reason := 6 }, otp := { base.otp with owner := 0, owners := List.replicate 8 0 }
              aon := { base.aon with stateWord := 0xF, progressWord := 0xC0, journalWait := true, nonce := some 0 } }
def claim : LcReq := { okReq with kind := 5, target := lcDeployed, signer := lcSigner journaled 5, ownerSlot := 0 }
theorem test_premises_RecoveryMailboxRows :
    (romServes world = false ∧ romServes recovering = true ∧ journalWaits recovering = false ∧ takesImage recovering = true) ∧
    (recovering.pkg.imgLen = some 1572864 ∧ 1 ≤ 65536 ∧ recovering.pkg.imgGot + 65536 ≤ 1572864 ∧ 1 ≠ recovering.pkg.imgGot) ∧
    (let s := { recovering with pkg := { recovering.pkg with imgGot := 1572864 } }
     s.pkg.imgLen = some s.pkg.imgGot ∧ imageReason { s with otp := { s.otp with authority := 0x77 } } (some (imageOf 5)) = 0 ∧
       imageReason s (some (imageOf 5)) = 2) ∧
    (romServes journaled = true ∧ journalWaits journaled = true ∧ takesImage journaled = false ∧ firstFail (lcFields journaled claim) = none ∧
      pendingOwner journaled = some 0 ∧ resubmits journaled claim 0 = true ∧ lcAuth journaled { claim with deviceId := 0xD2 } = false) := by decide +kernel
theorem test_recovery_claim_authenticates :
    lcAuth journaled { claim with identityHash := unitIdentity journaled, signerHash := expectedSigner journaled claim } = true := by
  have h : claim.deviceId = journaled.otp.deviceId ∧ journaled.aon.nonce = some claim.nonce := by decide +kernel
  simp [lcAuth, h]; decide +kernel

def tapped (r : W64) : State := { world with grant := some { rights := r, scope := 0xC000, owner := true, kid := 0xFE00 } }
theorem test_premises_TapInstructions :
    (tapUnder .statusRd = some 1 ∧ tapRight world 1 = false ∧ world.grant = none) ∧
    ([1, 2, 3, 9, 11, 12].all (fun n => tapRight (tapped 0x1FFE) n)) = true ∧
    ([13, 15, 17, 18, 19, 20].all (fun n => tapRight { tapped 0 with aon := { world.aon with stateWord := 0x3 } } n)) = true ∧
    (fwAllows { tapped 0x1FFE with fns := [], carves := [(27, { base := 0, limit := 0x200000 })] } .debugMaster (.vf 9) 0 1 false = true ∧
      fwAllows (tapped 0x1FFE) .debugMaster v3 0 1 false = false) ∧
    ((mapGet {} (traced 3).tabor.trace v3.key).queue.length = 3 ∧ (tapped 0).tapRevoke = none ∧
      firstFail (certFields okCert ++ certPermitted world okCert ++ [certState world okCert, certBusy world, intSlotCheck world]) = none ∧
      firstFail (certFields { okCert with issuer := 3 } ++ certPermitted world okCert ++ [certState world okCert, certBusy world, intSlotCheck world]) =
        some (stMalformed, bufDetail 2)) ∧
    (dataReach { tapped 0x1FFE with fns := [] } 9 = true ∧ dataReach (tapped 0x1FFE) 3 = false) ∧
    (lcMailOpen world = true ∧ serving world = true ∧ lcBusy world = none ∧ lcMailOpen State.reset = false) ∧
    (let s := { world with pkg := { world.pkg with phase := .halted } }
     lcMailOpen s = true ∧ serving s = false ∧ s.pkg.phase ≠ .off) ∧ world.grant = none := by decide +kernel

theorem test_premises_FusesOnlyBurn : step world = .next world := rfl

/-- `step` takes the command in front. -/
theorem test_premises_StepTakesOneCommand :
    (match step { world with pending := [.nop hC, .svnFuseBurn] } with | .next t => t.pending == [.svnFuseBurn] | _ => false) = true := by decide +kernel

end Sys2Proof.Tests
end

section
/-! SUPPORT. The set-up registers (16_register_map.md): what an accepted write of a register does, what ignores it, and which
register each offset of REGISTER_WRITE reaches. -/
namespace Sys2Proof.Machine

/-! ### The rows' meanings -/

theorem exec_haltClear (a : RegAcc) (s : State) : exec (.haltClear a) s = .next (haltClear a s) := rfl
theorem exec_recoveryRequest (a : RegAcc) (s : State) : exec (.recoveryRequest a) s = .next (recoveryRequest a s) := rfl
theorem exec_go (a : RegAcc) (s : State) : exec (.go a) s = .next (setGo a s) := rfl
theorem exec_routeStage (a : RegAcc) (b : Bool) (v : W64) (s : State) :
    exec (.routeStage a b v) s = .next (routeStage a b v s) := rfl
theorem exec_routeCommit (a : RegAcc) (v : W64) (s : State) : exec (.routeCommit a v) s = .next (routeCommit a v s) := rfl
theorem exec_registerWrite (a : RegAcc) (o : W16) (v : W64) (s : State) :
    exec (.registerWrite a o v) s = .next (registerWrite a o v s) := rfl
theorem exec_wakeWrite (a : RegAcc) (o : BitVec 12) (s : State) : exec (.wakeWrite a o) s = .next (wakeWrite a o s) := rfl

/-! ### Halt record, recovery request and GO (R413 to R415) -/

theorem haltClear_accepted (a : RegAcc) (s : State) (he : earlyAccess a s = true) (hl : coversLow a = true) :
    haltClear a s = { s with aon := { s.aon with halt := {} }, flash := { s.flash with haltLog := clearNewest s.flash.haltLog } } := by
  simp [haltClear, he, hl]

theorem haltClear_ignored (a : RegAcc) (s : State) (h : earlyAccess a s = false ∨ coversLow a = false) : haltClear a s = s := by
  rcases h with h | h <;> simp [haltClear, h]

theorem recoveryRequest_accepted (a : RegAcc) (s : State) (he : earlyAccess a s = true) (hl : coversLow a = true) :
    recoveryRequest a s = { s with aon := { s.aon with recoveryReq := true } } := by
  simp [recoveryRequest, he, hl]

theorem recoveryRequest_ignored (a : RegAcc) (s : State) (h : earlyAccess a s = false ∨ coversLow a = false) :
    recoveryRequest a s = s := by
  rcases h with h | h <;> simp [recoveryRequest, h]

theorem setGo_accepted (a : RegAcc) (s : State) (hp : pfAccess a s = true) (hl : coversLow a = true) :
    setGo a s = eachPort tryUp allPorts { s with fab := { s.fab with go := true } } := by
  simp [setGo, hp, hl]

theorem setGo_ignored (a : RegAcc) (s : State) (h : pfAccess a s = false ∨ coversLow a = false) : setGo a s = s := by
  rcases h with h | h <;> simp [setGo, h]

/-! ### Accesses of 8 bytes (R405) -/

theorem ofNat_halves (v : W64) : BitVec.ofNat 64 (v.toNat / 2 ^ 32 * 2 ^ 32 + v.toNat % 2 ^ 32) = v := by
  rw [Nat.div_add_mod', BitVec.ofNat_toNat, BitVec.setWidth_eq]

theorem coversLow_of_eight (a : RegAcc) (h : a.bytes = 8) : coversLow a = true := by simp [coversLow, h]

theorem coversHigh_of_eight (a : RegAcc) (h : a.bytes = 8) : coversHigh a = true := by simp [coversHigh, h]

theorem mergeReg_of_eight (a : RegAcc) (old v : W64) (h : a.bytes = 8) : mergeReg a old v = v := by
  simp only [mergeReg, coversLow_of_eight a h, coversHigh_of_eight a h, if_true, ofNat_halves]

/-! ### The route table (R416) -/

theorem routeStage_ignored (a : RegAcc) (b : Bool) (v : W64) (s : State) (h : pfAccess a s = false ∨ s.fab.go = true) :
    routeStage a b v s = s := by
  rcases h with h | h <;> simp [routeStage, h]

theorem routeCommit_ignored (a : RegAcc) (v : W64) (s : State) (h : pfAccess a s = false ∨ s.fab.go = true) :
    routeCommit a v s = s := by
  rcases h with h | h <;> simp [routeCommit, h]

theorem routeStage_relays_of_eight (a : RegAcc) (v : W64) (s : State) (hp : pfAccess a s = true) (hg : s.fab.go = false)
    (h8 : a.bytes = 8) : routeStage a true v s = { s with fab := { s.fab with stage1 := v.setWidth 60 } } := by
  simp [routeStage, hp, hg, mergeReg_of_eight a _ v h8]

/-- The entry that an 8-byte write of AVK_ROUTE_DATA0 commits: the written fields with the staged relays, VALID at 0 where R416
refuses it. -/
def committedEntry (s : State) (v : W64) : W64 × BitVec 60 :=
  let d1 := relayField ((routeField v).toNat % 8) s.fab.stage1
  (if routeRefused s (routeField v) d1 then routeField v &&& 0x7FFFFFFFFFFFFFFF else routeField v, d1)

theorem routeCommit_of_eight (a : RegAcc) (v : W64) (s : State) (hp : pfAccess a s = true) (hg : s.fab.go = false)
    (h8 : a.bytes = 8) :
    routeCommit a v s = { s with fab := { s.fab with
      stage0 := 0, stage1 := 0
      routes := mapPut (0, 0) s.fab.routes (s.fab.dest.toNat * 4 + s.fab.sel.toNat) (committedEntry s v) } } := by
  simp only [routeCommit, hp, hg, coversLow_of_eight a h8, coversHigh_of_eight a h8, if_true, ofNat_halves, committedEntry]
  simp

/-- Destinations and selectors have slots of their own in the route table. -/
theorem routeSlot_inj (d e : BitVec 12) (k l : BitVec 2) : d.toNat * 4 + k.toNat = e.toNat * 4 + l.toNat ↔ (d, k) = (e, l) := by
  rw [Prod.mk.injEq, BitVec.toNat_eq, BitVec.toNat_eq (x := k)]
  have hk := k.isLt
  have hl := l.isLt
  omega

theorem routeEntry_routeCommit (a : RegAcc) (v : W64) (s : State) (hp : pfAccess a s = true) (hg : s.fab.go = false)
    (h8 : a.bytes = 8) (d : BitVec 12) (k : BitVec 2) :
    routeEntry (routeCommit a v s) d k = if (d, k) = (s.fab.dest, s.fab.sel) then committedEntry s v else routeEntry s d k := by
  rw [routeCommit_of_eight a v s hp hg h8]
  simp only [routeEntry, mapGet_mapPut, routeSlot_inj]

/-! ### The ring's registers (R76, R409) -/

/-- What the registers below AVK_RING_CTRL show of a ring. -/
def ringRegister (r : RingSt) (o : Nat) : W64 :=
  if o = 0x000 then r.cmdBase else if o = 0x008 then r.cplBase else if o = 0x010 then r.dbrecBase
  else if o = 0x018 then BitVec.ofNat 64 (r.cplLog2.toNat * 2 ^ 8 + r.cmdLog2.toNat)
  else if o = 0x020 then r.vector.setWidth 64 else 0

/-- A ring with the base address at offset `o` written. -/
def withBase (o : Nat) (v : W64) (r : RingSt) : RingSt :=
  if o = 0x000 then { r with cmdBase := v } else if o = 0x008 then { r with cplBase := v } else { r with dbrecBase := v }

theorem readSetup_ring (s : State) (f : Fn) (o : Nat) (h : o < 0x28) : readSetup s f o = ringRegister (ringOf s f) o := by
  have hctrl : o ≠ 0x028 ∧ o ≠ 0x030 ∧ o ≠ 0x100 ∧ o ≠ 0x108 ∧ o ≠ 0x110 ∧ o ≠ 0x118 ∧ o ≠ 0x120 := by omega
  simp [readSetup, ringRegister, hctrl]

theorem ringRegister_withBase_self (o : Nat) (v : W64) (r : RingSt) (h : o = 0x000 ∨ o = 0x008 ∨ o = 0x010) :
    ringRegister (withBase o v r) o = v := by
  rcases h with rfl | rfl | rfl <;> rfl

theorem ringRegister_withBase_ne (o x : Nat) (v : W64) (r : RingSt) (h : o = 0x000 ∨ o = 0x008 ∨ o = 0x010) (hx : x ≠ o) :
    ringRegister (withBase o v r) x = ringRegister r x := by
  rcases h with rfl | rfl | rfl <;> simp [ringRegister, withBase, hx]

theorem writeRing_base (a : RegAcc) (o : Nat) (v : W64) (s : State) (ha : regAccepted a s = true) (h8 : a.bytes = 8)
    (hoff : (ringOf s a.fn).enabled = false) (ho : o = 0x000 ∨ o = 0x008 ∨ o = 0x010) :
    writeRing a o v s = ringMod a.fn (withBase o v) s := by
  rcases ho with rfl | rfl | rfl <;> simp [writeRing, ha, hoff, mergeReg_of_eight a _ v h8] <;> rfl

theorem writeRing_enabled (a : RegAcc) (o : Nat) (v : W64) (s : State) (h : (ringOf s a.fn).enabled = true) :
    writeRing a o v s = s := by
  simp [writeRing, h]

theorem fnOf_ringMod_ne (f f' : Fn) (g : RingSt → RingSt) (s : State) (h : f' ≠ f) : fnOf (ringMod f g s) f' = fnOf s f' :=
  fnOf_fnMod_ne _ _ _ _ h

/-! ### The register at an offset (R404) -/

theorem registerWrite_doorbell (a : RegAcc) (o : W16) (v : W64) (s : State) (h : o.toNat < 0x1000) :
    registerWrite a o v s = wakeWrite a (o.setWidth 12) s := by
  simp [registerWrite, h]

theorem registerWrite_ring (a : RegAcc) (o : W16) (v : W64) (s : State) (hlo : 0x1000 ≤ o.toNat) (hhi : o.toNat < 0x2000)
    (hc : o ≠ 0x1028) : registerWrite a o v s = writeRing a (o.toNat - 0x1000) v s := by
  have hc' : o.toNat ≠ 0x1028 := fun e => hc (BitVec.eq_of_toNat_eq e)
  simp [registerWrite, Nat.not_lt.2 hlo, hc', hhi]

/-- Beyond AVK_PTB_LOOP no offset is named. -/
theorem registerWrite_unnamed (a : RegAcc) (o : W16) (v : W64) (s : State) (h : 0x5028 ≤ o.toNat) : registerWrite a o v s = s := by
  have hpage : ¬ o.toNat < 0x1000 ∧ ¬ o.toNat < 0x2000 := by omega
  have hreg : ∀ k, k < 0x5028 → o.toNat ≠ k := by omega
  simp [registerWrite, hpage, hreg]

/-- An 8-byte write of a base register of a ring that is off. -/
theorem registerWrite_base (a : RegAcc) (o : W16) (v : W64) (s : State) (ha : regAccepted a s = true) (h8 : a.bytes = 8)
    (hoff : (ringOf s a.fn).enabled = false) (ho : o = 0x1000 ∨ o = 0x1008 ∨ o = 0x1010) :
    registerWrite a o v s = ringMod a.fn (withBase (o.toNat - 0x1000) v) s ∧
      (o.toNat - 0x1000 = 0x000 ∨ o.toNat - 0x1000 = 0x008 ∨ o.toNat - 0x1000 = 0x010) := by
  have hbase : o.toNat - 0x1000 = 0x000 ∨ o.toNat - 0x1000 = 0x008 ∨ o.toNat - 0x1000 = 0x010 := by
    rcases ho with rfl | rfl | rfl <;> simp
  have hpage : 0x1000 ≤ o.toNat ∧ o.toNat < 0x2000 ∧ o ≠ 0x1028 := by
    rcases ho with rfl | rfl | rfl <;> decide
  obtain ⟨hlo, hhi, hc⟩ := hpage
  exact ⟨by rw [registerWrite_ring a o v s hlo hhi hc, writeRing_base a _ v s ha h8 hoff hbase], hbase⟩

/-- A bit that asks for an action: the register write is the action, or nothing. -/
theorem next_ite (b : Bool) (s t : State) :
    (.next (if b then s else t) : Host.Outcome State Fault Refusal) = if b then .next s else .next t := by
  cases b <;> rfl

end Sys2Proof.Machine
end

section
/-! SUPPORT. The statement on the set-up register commands. -/
namespace Sys2Proof.Machine

/-- Settles O49: each clause is the lemma of the register it speaks of. The offsets of other rows' registers are branches of
`registerWrite`, so their clauses hold by computing the branch, and by `next_ite` where a bit of the value chooses. -/
theorem setUpRegisterCommands : Obligations.SetUpRegisterCommands := by
  intro s a v
  refine ⟨?early, ?notEarly, ?go, ?notGo, ?locked, ?route, ?base, ?enabled, ?doorbell,
    next_ite _ _ _, next_ite _ _ _, next_ite _ _ _, next_ite _ _ _, next_ite _ _ _, rfl, rfl, rfl, rfl, rfl, rfl, ?unnamed⟩
  case early =>
    intro he hl
    rw [exec_haltClear, exec_recoveryRequest, haltClear_accepted a s he hl, recoveryRequest_accepted a s he hl]
    exact ⟨rfl, rfl⟩
  case notEarly =>
    intro h
    rw [exec_haltClear, exec_recoveryRequest, haltClear_ignored a s h, recoveryRequest_ignored a s h]
    exact ⟨rfl, rfl⟩
  case go =>
    intro hp hl
    rw [exec_go, setGo_accepted a s hp hl]
  case notGo =>
    intro h
    rw [exec_go, setGo_ignored a s h]
  case locked =>
    intro h
    refine ⟨?_, fun b => ?_⟩
    · rw [exec_routeCommit, routeCommit_ignored a v s h]
    · rw [exec_routeStage, routeStage_ignored a b v s h]
  case route =>
    intro hp hg h8
    have hstage := routeStage_relays_of_eight a v s hp hg h8
    have hcommit := routeCommit_of_eight a v s hp hg h8
    have hentry := routeEntry_routeCommit a v s hp hg h8
    refine ⟨⟨_, exec_routeStage a true v s, ?_, ?_⟩, _, exec_routeCommit a v s, ?_, ?_, ?_, fun d k hne => ?_, ?_⟩
    · rw [hstage]
    · rw [hstage]
    · rw [hcommit]
    · rw [hcommit]
    · exact (hentry _ _).trans (if_pos rfl)
    · exact (hentry d k).trans (if_neg hne)
    · rw [hcommit]
  case base =>
    intro ha h8 hoff _ o ho
    obtain ⟨hw, hbase⟩ := registerWrite_base a o v s ha h8 hoff ho
    refine ⟨_, by rw [exec_registerWrite, hw], ?_, fun x hx hlt => ?_, fun g hg => fnOf_ringMod_ne _ _ _ _ hg⟩
    · rw [readSetup_ring _ _ _ (by omega), ringOf_ringMod_self, ringRegister_withBase_self _ _ _ hbase]
    · rw [readSetup_ring _ _ _ hlt, readSetup_ring _ _ _ hlt, ringOf_ringMod_self, ringRegister_withBase_ne _ _ _ _ hbase hx]
  case enabled =>
    intro hon o hlo hhi hc
    rw [exec_registerWrite, registerWrite_ring a o v s hlo hhi hc, writeRing_enabled a _ v s hon]
  case doorbell =>
    intro o h
    rw [exec_registerWrite, exec_wakeWrite, registerWrite_doorbell a o v s h]
  case unnamed =>
    intro o h
    rw [exec_registerWrite, registerWrite_unnamed a o v s h]

end Sys2Proof.Machine
end

section
/-! SUPPORT. Link ports: what a change of one port leaves of the others, a neighbour's loss, a port that comes up, the ends of loops,
and the budgets of lending. -/
namespace Sys2Proof.Machine

/-! ### A change of one port -/

@[simp] theorem portOf_portMod_self (q : Fin 32) (g : PortSt → PortSt) (s : State) : portOf (portMod q g s) q = g (portOf s q) :=
  mapGet_mapMod_self _ _ _ _

theorem portOf_portMod_ne (q r : Fin 32) (g : PortSt → PortSt) (s : State) (h : r ≠ q) : portOf (portMod q g s) r = portOf s r :=
  mapGet_mapMod_ne _ _ _ _ _ (fun e => h (Fin.ext e))

@[simp] theorem serving_portMod (q : Fin 32) (g : PortSt → PortSt) (s : State) : serving (portMod q g s) = serving s := rfl
@[simp] theorem quiescing_portMod (q : Fin 32) (g : PortSt → PortSt) (s : State) : quiescing (portMod q g s) = quiescing s := rfl
@[simp] theorem portPresent_portMod (q : Fin 32) (g : PortSt → PortSt) (s : State) (n : Nat) :
    portPresent (portMod q g s) n = portPresent s n := rfl

/-! ### The rows' meanings -/

theorem exec_neighbourLostSilence (q : Fin 32) (s : State) : exec (.neighbourLostSilence q) s =
    .next (whenLive (fun s => if (portOf s q).up then settle (neighbourLost q 1 s) else s) s) := rfl
theorem exec_portDown (q : Fin 32) (s : State) : exec (.portDown q) s = .next (portDown q s) := rfl
theorem exec_beatSend (q : Fin 32) (s : State) : exec (.beatSend q) s = .next (whenLive (beatSend q) s) := rfl
theorem exec_lendingCheck (x y : BitVec 32) (s : State) : exec (.lendingCheck x y) s = .next (whenLive (lendingCheck x y) s) := rfl
theorem exec_bankRestoreDone (q : Fin 32) (h : Bool) (s : State) : exec (.bankRestoreDone q h) s =
    .next (portMod q (fun p => if h then { p with restOpen := false } else { p with restSeal := false }) s) := rfl
theorem exec_loop (a : Arrival) (ok : Bool) (s : State) (h : a.hop.kind = kLoop) :
    exec (.loop a ok) s = .next (settle (loop a ok s)) := by
  have hexec : exec (.loop a ok) s = .next (settle (if a.hop.kind == kLoop then loop a ok s else s)) := rfl
  rw [hexec, if_pos (beq_iff_eq.2 h)]

/-! ### Loss of a neighbour (R202, R203) -/

theorem neighbourLost_of_lost (q : Fin 32) (cause : Byte) (s : State) (h : (portOf s q).nbrLost = true) :
    neighbourLost q cause s = s := by
  simp [neighbourLost, h]

/-- The port's own record of the loss of its neighbour, and the frames that it forwards to it no more (Table 07-10). -/
def markLost (q : Fin 32) (s : State) : State :=
  purgeForwards q (portMod q (fun p => { p with nbrLost := true, lostId := p.nbr, nbr := none }) s)

/-- The neighbour itself is told of its loss, over a port that is up (R203). -/
def tellLost (q : Fin 32) (pkg : BitVec 12) (cause : Byte) (boot : W64) (s : State) : State :=
  sendControl q kProxyKnell 0 0 (ctlRoute s pkg) (.proxyKnell pkg cause boot) (portMod q (addThrough [s.fab.id, pkg]) s)

theorem neighbourLost_of_known (q : Fin 32) (cause : Byte) (pkg : BitVec 12) (s : State) (hl : (portOf s q).nbrLost = false)
    (hn : (portOf s q).nbr = some pkg) (hu : (portOf s q).up = true) :
    let boot := (portOf s q).nbrBoot.getD 0
    let v := tellLost q pkg cause boot (markLost q s)
    neighbourLost q cause s =
      peerLoss pkg (proxyKnells q pkg cause boot ((portOf s q).through.filter (fun d => d != pkg && d != v.fab.id)) v) := by
  simp only [neighbourLost, hl, hn, hu, Bool.false_eq_true, if_false, if_true]
  rfl

theorem portDown_of_serving (q : Fin 32) (s : State) (h : serving s = true) :
    let u := portMod q (fun p => { p with trained := false }) s
    portDown q s = if (portOf s q).up then settle (portLost q 3 u) else u := by
  simp [portDown, h]

/-! ### A port comes up (R415) -/

/-- The link state of a port that comes up: no neighbour, numbers and credits fresh. -/
def freshLink (p : PortSt) : PortSt :=
  { p with up := true, nbr := none, nbrBoot := none, txSeq := 0, rxSeq := 0, rxAny := false, nak := false, replay := [], resends := 0,
           credits := List.replicate 15 0, held := List.replicate 15 0, queue := [], due := List.replicate 15 0, nakDue := false, through := [] }

theorem tryUp_comesUp (q : Fin 32) (s : State) (hs : serving s = true) (hq : quiescing s = false) (hg : s.fab.go = true)
    (ht : (portOf s q).trained = true) (hu : (portOf s q).up = false) (hp : portPresent s q.val = true) :
    tryUp q s = grantAll q (portMod q freshLink s) := by
  simp only [tryUp, hs, hq, hg, ht, hu, hp]
  rfl

/-- A port that its die reports trained. -/
def withTrained (p : PortSt) : PortSt := { p with trained := true }

theorem exec_portTrained (q : Fin 32) (s : State) : exec (.portTrained q) s = .next (tryUp q (portMod q withTrained s)) := rfl

theorem exec_portTrained_comesUp (q : Fin 32) (s : State) (hs : serving s = true) (hq : quiescing s = false) (hg : s.fab.go = true)
    (hu : (portOf s q).up = false) (hp : portPresent s q.val = true) :
    exec (.portTrained q) s = .next (grantAll q (portMod q freshLink (portMod q withTrained s))) := by
  have ht : (portOf (portMod q withTrained s) q).trained = true := by simp [withTrained]
  have hu' : (portOf (portMod q withTrained s) q).up = false := by simpa [withTrained] using hu
  rw [exec_portTrained, tryUp_comesUp q (portMod q withTrained s) hs hq hg ht hu' hp]

/-! ### Ends of loops (R208) -/

theorem loop_outside (a : Arrival) (ok : Bool) (s : State) (h : loopOf s a.port = none) : loop a ok s = arrive a true id s := by
  simp only [loop, h]

theorem loop_of_end (a : Arrival) (ok : Bool) (s : State) (r : Fin 32) (hs : serving s = true) (h : loopOf s a.port = some r) :
    loop a ok s = sendLoop r (loopChecks a (portOf s r).loopDepth ok s) := by
  simp only [loop, h, hs, if_true]

theorem loopChecks_eq (a : Arrival) (depth : Nat) (ok : Bool) (s : State) : loopChecks a depth ok s =
    if depth ≠ 1 ∧ crcOk a = false then countPort a.port 0 s else if ok then s else countPort a.port 0x0E s := by
  simp only [loopChecks, Bool.not_eq_true']

/-! ### Budgets (R240) -/

/-- The lendable budget of each engine, from what was measured of it. -/
def lendables (l : List Nat) : List Nat := (l.zip (List.range l.length)).map (fun d => lendable d.2 d.1)

theorem exec_budgetReport (l : List Nat) (s : State) :
    exec (.budgetReport l) s = .next (whenLive (emit (.budget (lendables l))) s) := rfl

@[simp] theorem length_lendables (l : List Nat) : (lendables l).length = l.length := by simp [lendables]

theorem getD_lendables (l : List Nat) (k : Nat) (h : k < l.length) : (lendables l).getD k 0 = lendable k (l.getD k 0) := by
  simp [lendables, h]

end Sys2Proof.Machine
end

section
/-! SUPPORT. The statement on port events. -/
namespace Sys2Proof.Machine

/-- Settles O34: each clause is the lemma of the row it speaks of; while the controller runs, `whenLive` adds nothing to a row. -/
theorem portEvents : Obligations.PortEvents := by
  intro s q
  refine ⟨fun hs => ⟨?silence, ?down, ?beat, ?loop, ?lending, ?budget⟩, ?outside,
    fun cause hl => neighbourLost_of_lost q cause s hl, ?known, ?up, fun h => exec_bankRestoreDone q h s⟩
  case silence =>
    rw [exec_neighbourLostSilence, whenLive_live _ _ hs]
  case down =>
    rintro u rfl
    rw [exec_portDown, portDown_of_serving q s hs]
  case beat =>
    rw [exec_beatSend, whenLive_live _ _ hs, beatSend]
  case loop =>
    intro a ok r hk hr
    rw [exec_loop a ok s hk, loop_of_end a ok s r hs hr, loopChecks_eq]
  case lending =>
    intro x y
    rw [exec_lendingCheck, whenLive_live _ _ hs, lendingCheck]
  case budget =>
    intro l
    exact ⟨lendables l, by rw [exec_budgetReport, whenLive_live _ _ hs], length_lendables l, getD_lendables l⟩
  case outside =>
    intro a ok hk hn
    rw [exec_loop a ok s hk, loop_outside a ok s hn]
  case known =>
    intro cause pkg hl hn hu
    exact neighbourLost_of_known q cause pkg s hl hn hu
  case up =>
    intro hs hq hg hu hp
    have hself : portOf (portMod q freshLink (portMod q withTrained s)) q = freshLink (withTrained (portOf s q)) := by simp
    refine ⟨_, exec_portTrained_comesUp q s hs hq hg hu hp, ?_⟩
    rw [hself]
    refine ⟨rfl, rfl, rfl, rfl, rfl, rfl, rfl, rfl, rfl, fun r hr => ?_⟩
    rw [portOf_portMod_ne _ _ _ _ hr, portOf_portMod_ne _ _ _ _ hr]

end Sys2Proof.Machine
end

section
/-! SUPPORT. Serving a link port's queue: what sealing and sending frames leaves as it was. -/
namespace Sys2Proof.Machine

/-- `t` differs from `s` only in what the sending of frames reaches: the link ports, the frames sent, the streams open for sending
with their records and keys, the return filter, the member's pending requests, and the counters with their open values. -/
def SendsOnly (s t : State) : Prop :=
  t = { s with ports := t.ports, out := t.out, sends := t.sends, sent := t.sent, ks := t.ks, filter := t.filter
               members := t.members, tabor := t.tabor, opens := t.opens }

namespace SendsOnly

theorem refl (s : State) : SendsOnly s s := rfl

theorem trans {s t u : State} (h : SendsOnly s t) (h' : SendsOnly t u) : SendsOnly s u := by
  unfold SendsOnly at h h' ⊢
  rw [h', h]

theorem pkg {s t : State} (h : SendsOnly s t) : t.pkg = s.pkg := by rw [h]

theorem ite {c : Prop} [Decidable c] {s t u : State} (ht : SendsOnly s t) (hu : SendsOnly s u) : SendsOnly s (if c then t else u) := by
  split
  · exact ht
  · exact hu

end SendsOnly

/-! ### Ports, outputs, counters -/

theorem sendsOnly_emit (o : Output) (s : State) : SendsOnly s (emit o s) := rfl
theorem sendsOnly_portMod (p : Fin 32) (g : PortSt → PortSt) (s : State) : SendsOnly s (portMod p g s) := rfl
theorem sendsOnly_countPort (p : Fin 32) (c : Nat) (s : State) : SendsOnly s (countPort p c s) := rfl
theorem sendsOnly_countFn (f : Fn) (c : Nat) (s : State) : SendsOnly s (countFn f c s) := rfl
theorem sendsOnly_countOp (f : Fn) (c n : Nat) (s : State) : SendsOnly s (countOp f c n s) := rfl
theorem sendsOnly_modSend (job : W16) (sid : W32) (g : SendSt → SendSt) (s : State) : SendsOnly s (modSend job sid g s) := rfl
theorem sendsOnly_noteSent (job : W16) (sid epoch : W32) (s : State) : SendsOnly s (noteSent job sid epoch s) := rfl
theorem sendsOnly_setSends (l : List SendSt) (s : State) : SendsOnly s { s with sends := l } := rfl
theorem sendsOnly_traceKid (kid : W16) (old new : Nat) (s : State) : SendsOnly s (traceKid kid old new s) := rfl
theorem sendsOnly_dropMember (l : List Byte) (s : State) : SendsOnly s (dropMember l s) := rfl
theorem sendsOnly_wire (p : Fin 32) (kind vc : BitVec 4) (rs hi : BitVec 2) (units : Nat) (route : W32) (body : Body) (s : State) :
    SendsOnly s (wire p kind vc rs hi units route body s) := rfl

theorem sendsOnly_eachPort (g : Fin 32 → State → State) (hg : ∀ p s, SendsOnly s (g p s)) (l : List (Fin 32)) (s : State) :
    SendsOnly s (eachPort g l s) := by
  induction l generalizing s with
  | nil => exact .refl s
  | cons p l ih => exact (hg p s).trans (ih _)

theorem sendsOnly_returnCredits (p : Fin 32) (vc : BitVec 4) (n : Nat) (s : State) : SendsOnly s (returnCredits p vc n s) :=
  .ite (.refl s) (sendsOnly_portMod ..)

theorem sendsOnly_addSet (f : Fn) (ctx : W16) (c n : Nat) (s : State) : SendsOnly s (addSet f ctx c n s) :=
  .ite (.refl s) (.ite rfl (.ite rfl (.refl s)))

theorem sendsOnly_countSealed (f : Fn) (ctx : W16) (n : Nat) (s : State) : SendsOnly s (countSealed f ctx n s) :=
  (sendsOnly_countOp ..).trans (sendsOnly_addSet ..)

theorem sendsOnly_claimBatch (b : Nat) (job : W16) (s : State) : SendsOnly s (claimBatch b job s) :=
  .ite (.refl s) rfl

/-! ### The keys of a sending stream -/

theorem sendsOnly_finishRetire (kid : W16) (s : State) : SendsOnly s (finishRetire kid s) := by
  rw [finishRetire_frame]; rfl

theorem sendsOnly_cacheKid (e : Nat) (kid : W16) (s : State) : SendsOnly s (cacheKid e kid s) := by
  rw [cacheKid_frame]; rfl

theorem sendsOnly_setKid (kid : W16) (st : KidState) (s : State) : SendsOnly s (setKid kid st s) := by
  unfold setKid; split <;> rfl

theorem sendsOnly_placeKey (kid : W16) (x : SlotSt) (s : State) : SendsOnly s (placeKey kid x s) := by
  unfold placeKey; split <;> rfl

theorem sendsOnly_releaseKid (kid : W16) (s : State) : SendsOnly s (releaseKid kid s) := by
  unfold releaseKid
  split
  · split <;> rfl
  · rfl

theorem sendsOnly_reserveKid (f : Fn) (s : State) : SendsOnly s (reserveKid f s).2 := by
  unfold reserveKid; split <;> rfl

theorem sendsOnly_activateKid (kid : W16) (s : State) : SendsOnly s (activateKid kid s) :=
  .ite ((sendsOnly_setKid ..).trans (sendsOnly_traceKid ..)) (.refl s)

/-- A retirement's first two steps (R136), with its end where no engine caches the key. -/
theorem sendsOnly_beginRetire (kid : W16) (code : Nat) (s : State) :
    SendsOnly s (finishRetire kid (traceKid kid code 3 (setKid kid .retiring s))) :=
  ((sendsOnly_setKid ..).trans (sendsOnly_traceKid ..)).trans (sendsOnly_finishRetire ..)

theorem sendsOnly_retireKid (kid : W16) (s : State) : SendsOnly s (retireKid kid s) := by
  unfold retireKid
  split
  · split
    · exact sendsOnly_beginRetire ..
    · exact sendsOnly_beginRetire ..
    · exact .ite (sendsOnly_beginRetire ..) (sendsOnly_releaseKid ..)
    · exact .refl s
  · exact .refl s

theorem sendsOnly_retireKids (l : List W16) (s : State) : SendsOnly s (retireKids l s) := by
  induction l generalizing s with
  | nil => exact .refl s
  | cons k l ih => exact (sendsOnly_retireKid k s).trans (ih _)

theorem sendsOnly_placeStream {f : Fn} {job ctx ctxGen : W16} {sid epoch : W32} {use : Byte} {s t : State} {k : W16}
    (h : placeStream f job ctx ctxGen sid epoch use s = some (k, t)) : SendsOnly s t := by
  unfold placeStream at h
  split at h
  · cases h
    split
    · exact sendsOnly_placeKey ..
    · exact .refl s
  · split at h
    · cases h
    · cases h
      exact (sendsOnly_reserveKid ..).trans (sendsOnly_placeKey ..)

theorem sendsOnly_placeNext (x : SendSt) (s : State) : SendsOnly s (placeNext x s) := by
  unfold placeNext
  split
  · exact .refl s
  · split
    · next h => exact (sendsOnly_placeStream h).trans (sendsOnly_modSend ..)
    · exact .refl s

theorem sendsOnly_prepareSend (x : SendSt) (s : State) : SendsOnly s (prepareSend x s) := by
  refine (sendsOnly_placeNext x s).trans ?_
  unfold prepareSend
  dsimp only
  split
  · split
    · exact sendsOnly_activateKid ..
    · exact .refl _
  · exact .refl _

theorem sendsOnly_rollSend (job : W16) (sid : W32) (s : State) : SendsOnly s (rollSend job sid s) := by
  unfold rollSend
  split
  · exact .refl s
  · split
    · exact ((sendsOnly_modSend ..).trans (sendsOnly_retireKid ..)).trans (sendsOnly_noteSent ..)
    · exact .refl s

theorem sendsOnly_endSend (job : W16) (sid : W32) (s : State) : SendsOnly s (endSend job sid s) := by
  unfold endSend
  split
  · exact (sendsOnly_setSends _ s).trans (sendsOnly_retireKids ..)
  · exact .refl s

/-! ### Sealing and sending -/

/-- The frame goes out and is counted, the stream's keys follow its INDEX, and its end or its rollover comes last (R175, R185). -/
theorem sendsOnly_sealFrame (x : SendSt) (ctx : W16) (ftype : Byte) (units : Nat) (dc dg b bg : W16) (payload : List Byte) (s : State) :
    SendsOnly s (sealFrame x ctx ftype units dc dg b bg payload s) := by
  have hsent : ∀ t, SendsOnly s t → SendsOnly s (countSealed x.fn ctx units (cacheKid (engineOfPort t x.port.val) x.kid t)) :=
    fun t h => (h.trans (sendsOnly_cacheKid ..)).trans (sendsOnly_countSealed ..)
  have hkeys : ∀ (c : Prop) [Decidable c] t, SendsOnly s t → SendsOnly s (if c then prepareSend x t else t) :=
    fun _ _ t h => .ite (h.trans (sendsOnly_prepareSend ..)) h
  have hend : ∀ (c d : Prop) [Decidable c] [Decidable d] t, SendsOnly s t →
      SendsOnly s (if c then endSend x.job x.sid t else if d then rollSend x.job x.sid t else t) :=
    fun _ _ _ _ t h => .ite (h.trans (sendsOnly_endSend ..)) (.ite (h.trans (sendsOnly_rollSend ..)) h)
  exact hend _ _ _ ((hkeys _ _ (hsent _ ((sendsOnly_wire ..).trans (sendsOnly_portMod ..)))).trans (sendsOnly_modSend ..))

theorem sendsOnly_sealToken (x : SendSt) (ctx : W16) (units : Nat) (dc dg : W16) (payload : List Byte) (s : State) :
    SendsOnly s (sealToken x ctx units dc dg payload s) :=
  .ite ((sendsOnly_countFn ..).trans (sendsOnly_emit ..)) ((sendsOnly_claimBatch ..).trans (sendsOnly_sealFrame ..))

theorem sendsOnly_unsealed (x : SendSt) (ctx : W16) (ftype : Byte) (payload : List Byte) (s : State) :
    SendsOnly s (unsealed x ctx ftype payload s) :=
  .ite (sendsOnly_emit ..) (.ite ((sendsOnly_dropMember ..).trans (sendsOnly_emit ..)) (.refl s))

theorem sendsOnly_sendItem (p : Fin 32) (i : TxItem) (s : State) : SendsOnly s (sendItem p i s) := by
  match i with
  | .seal job sid ftype units dc dg b bg payload ctx =>
    unfold sendItem
    dsimp only
    split
    · exact .ite (sendsOnly_countPort ..) (.ite (sendsOnly_unsealed ..) (.ite (sendsOnly_sealToken ..) (sendsOnly_sealFrame ..)))
    · exact sendsOnly_countPort ..
  | .ready vc kind rs hi units route body ret =>
    have hcredits : ∀ g, SendsOnly s (if vc = 15 then wire p kind vc rs hi units route body s
        else portMod p g (wire p kind vc rs hi units route body s)) :=
      fun g => .ite (sendsOnly_wire ..) ((sendsOnly_wire ..).trans (sendsOnly_portMod ..))
    cases ret with
    | none => exact hcredits _
    | some r => exact (hcredits _).trans (sendsOnly_returnCredits ..)

theorem sendsOnly_pumpGo (p : Fin 32) (n : Nat) (blocked : List Nat) (s : State) : SendsOnly s (pumpGo p n blocked s) := by
  induction n generalizing blocked s with
  | zero => exact .refl s
  | succ n ih =>
    unfold pumpGo
    split
    · exact .refl s
    · split
      · exact .refl s
      · exact .ite (((sendsOnly_portMod ..).trans (sendsOnly_sendItem ..)).trans (ih _ _)) (ih _ _)

theorem sendsOnly_sendControl (p : Fin 32) (kind : BitVec 4) (rs hi : BitVec 2) (route : W32) (body : Body) (s : State) :
    SendsOnly s (sendControl p kind rs hi route body s) :=
  .ite ((sendsOnly_portMod ..).trans (sendsOnly_pumpGo ..)) (.refl s)

theorem sendsOnly_sendBeat (p : Fin 32) (s : State) : SendsOnly s (sendBeat p s) := sendsOnly_sendControl ..

theorem sendsOnly_endLending (p : Fin 32) (s : State) : SendsOnly s (endLending p s) :=
  .ite (sendsOnly_portMod ..) (.refl s)

end Sys2Proof.Machine
end

section
/-! SUPPORT. Power states (Table 14-7): the first condition that refuses a change, what each change leaves in force, and the ports
that A3 takes down. -/
namespace Sys2Proof.Machine

/-! ### Ports that are up -/

/-- A change of a port that leaves whether it is up. -/
theorem portOf_portMod_up (p q : Fin 32) (g : PortSt → PortSt) (s : State) (hg : ∀ x, (g x).up = x.up) :
    (portOf (portMod p g s) q).up = (portOf s q).up := by
  by_cases h : q = p
  · subst h; rw [portOf_portMod_self, hg]
  · rw [portOf_portMod_ne _ _ _ _ h]

/-- A change of a port that takes it down. -/
theorem portOf_portMod_down (p q : Fin 32) (g : PortSt → PortSt) (s : State) (hg : ∀ x, (g x).up = false) :
    (portOf (portMod p g s) q).up = ((portOf s q).up && q != p) := by
  by_cases h : q = p
  · subst h; simp [hg]
  · simp [portOf_portMod_ne _ _ _ _ h, h]

theorem eachPort_up (g : Fin 32 → State → State) (q : Fin 32) (hg : ∀ p s, (portOf (g p s) q).up = (portOf s q).up)
    (l : List (Fin 32)) (s : State) : (portOf (eachPort g l s) q).up = (portOf s q).up := by
  induction l generalizing s with
  | nil => rfl
  | cons p l ih => exact (ih _).trans (hg p s)

theorem returnCredits_up (p q : Fin 32) (vc : BitVec 4) (n : Nat) (s : State) :
    (portOf (returnCredits p vc n s) q).up = (portOf s q).up := by
  unfold returnCredits
  split
  · rfl
  · exact portOf_portMod_up _ _ _ _ fun _ => rfl

theorem returnQueued_up (l : List TxItem) (q : Fin 32) (s : State) : (portOf (returnQueued l s) q).up = (portOf s q).up := by
  fun_induction returnQueued l s with
  | case1 => rfl
  | case2 s vc kind rs hi units route body p avc n l ih => rw [ih, returnCredits_up]
  | case3 s i l h ih => exact ih

/-- A port that goes down: its queue, its replay buffer and its credits are empty (R196). -/
def downPort (p : PortSt) : PortSt :=
  { p with up := false, queue := [], replay := [], credits := List.replicate 15 0, held := List.replicate 15 0
           due := List.replicate 15 0, nak := false, nakDue := false, resends := 0 }

/-- What came over port `p` waits in this port's queue no more. -/
def dropArrived (p : Fin 32) (x : PortSt) : PortSt := { x with queue := x.queue.filter (fun i => !cameOver p i) }

/-- What came over port `p` waits in no receive buffer. -/
def dropWaits (p : Fin 32) (s : State) : State := { s with waits := s.waits.filter (fun w => w.arr.port != p) }

theorem takeDown_eq (p : Fin 32) (s : State) : takeDown p s =
    returnQueued (portOf s p).queue (eachPort (fun r => portMod r (dropArrived p)) allPorts (dropWaits p (portMod p downPort s))) := rfl

theorem takeDown_up (p q : Fin 32) (s : State) : (portOf (takeDown p s) q).up = ((portOf s q).up && q != p) := by
  have harrived : ∀ r t, (portOf (portMod r (dropArrived p) t) q).up = (portOf t q).up :=
    fun r t => portOf_portMod_up r q _ t fun _ => rfl
  rw [takeDown_eq, returnQueued_up, eachPort_up _ q harrived]
  exact portOf_portMod_down p q downPort s fun _ => rfl

theorem sleepPort_up (p q : Fin 32) (s : State) : (portOf (sleepPort p s) q).up = ((portOf s q).up && q != p) := by
  have htrained : ∀ t, (portOf (if (portOf t p).trained then portMod p (fun x => { x with trained := false }) t else t) q).up
      = (portOf t q).up := by
    intro t
    split
    · exact portOf_portMod_up _ _ _ _ fun _ => rfl
    · rfl
  unfold sleepPort
  dsimp only
  rw [htrained]
  split
  · exact takeDown_up p q s
  · next h =>
    by_cases hq : q = p
    · subst hq; simpa using h
    · simp [hq]

/-- A port of the list is down once every port of the list sleeps. -/
theorem eachPort_sleepPort_up (l : List (Fin 32)) (q : Fin 32) (s : State) :
    (portOf (eachPort sleepPort l s) q).up = ((portOf s q).up && !l.contains q) := by
  induction l generalizing s with
  | nil => simp [eachPort]
  | cons p l ih =>
    have hcons : eachPort sleepPort (p :: l) s = eachPort sleepPort l (sleepPort p s) := rfl
    rw [hcons, ih, sleepPort_up, List.contains_cons, Bool.not_or, Bool.and_assoc]
    rfl

/-! ### The Tabor gate leaves the ports -/

@[simp] theorem closeWindow_ports (v : ViewId) (s : State) : (closeWindow v s).ports = s.ports := by
  cases v <;> rfl

@[simp] theorem closeViews_ports (l : List Fn) (s : State) : (closeViews l s).ports = s.ports := by
  fun_induction closeViews l s with
  | case1 => rfl
  | case2 s i l ih => rw [ih]; split <;> simp
  | case3 s l ih => exact ih

@[simp] theorem applyEvents_ports (l : List TaborEv) (s : State) : (applyEvents l s).ports = s.ports := by
  induction l generalizing s with
  | nil => rfl
  | cons e l ih => exact ih _

@[simp] theorem taborOff_ports (s : State) : (taborOff s).ports = s.ports := by simp [taborOff]

/-! ### What a change leaves in force -/

@[simp] theorem setPower_ports (p : Power) (s : State) : (setPower p s).ports = s.ports := rfl

theorem enterA2_power (s : State) : (enterA2 s).pkg.power = .a2 := rfl

theorem enterA3_asleep (s : State) :
    (enterA3 s).pkg.power = .a3 ∧ (enterA3 s).ks.caches = [] ∧ (enterA3 s).ks.identity = none := ⟨rfl, rfl, rfl⟩

theorem enterA3_portDown (s : State) (q : Fin 32) : (portOf (enterA3 s) q).up = false := by
  have hports : (enterA3 s).ports = (eachPort sleepPort allPorts s).ports := by simp only [enterA3, setPower_ports, taborOff_ports]
  rw [portOf, hports, ← portOf, eachPort_sleepPort_up]
  simp [allPorts]

theorem enterOff_lost (s : State) :
    (enterOff s).pkg.power = .off ∧ (enterOff s).ks.slots = [] ∧ (enterOff s).ks.kids = [] ∧ (enterOff s).ports = [] ∧
      (enterOff s).prog = [] := ⟨rfl, rfl, rfl, rfl, rfl⟩

/-! ### The changes -/

theorem changePower_a0_a1 (env : StartEnv) (s : State) (h : s.pkg.power = .a0) :
    (changePower .a1 env s).pkg = { s.pkg with power := .a1 } := by
  unfold changePower
  simp only [h, setPower, (sendsOnly_eachPort endLending sendsOnly_endLending allPorts s).pkg]

theorem changePower_a1_a0 (env : StartEnv) (s : State) (h : s.pkg.power = .a1) :
    (changePower .a0 env s).pkg = { s.pkg with power := .a0 } := by
  unfold changePower
  simp only [h, (sendsOnly_eachPort sendBeat sendsOnly_sendBeat _ _).pkg, setPower]

theorem changePower_a2_of_awake (env : StartEnv) (s : State) (h : s.pkg.power = .a0 ∨ s.pkg.power = .a1) :
    changePower .a2 env s = enterA2 s := by
  unfold changePower
  rcases h with h | h <;> simp [h]

theorem changePower_a2_a3 (env : StartEnv) (s : State) (h : s.pkg.power = .a2) : changePower .a3 env s = enterA3 s := by
  unfold changePower
  rw [h]

theorem changePower_off (env : StartEnv) (s : State) : changePower .off env s = enterOff s := by
  unfold changePower
  cases s.pkg.power <;> rfl

/-! ### Requests of the power manager (R379) -/

theorem exec_powerStateRequest (p : Power) (env : StartEnv) (s : State) :
    exec (.powerStateRequest p env) s = .next (powerRequest p env s) := rfl

theorem powerRequest_off (p : Power) (env : StartEnv) (s : State) (h : s.pkg.phase = .off) : powerRequest p env s = s := by
  simp [powerRequest, h]

theorem powerRequest_refused (p : Power) (env : StartEnv) (s : State) (n : Nat) (h : s.pkg.phase ≠ .off)
    (hr : powerRefusal p s = some n) : powerRequest p env s = emit (.powerAnswer (some n)) s := by
  simp [powerRequest, h, hr]

theorem powerRequest_accepted (p : Power) (env : StartEnv) (s : State) (h : s.pkg.phase ≠ .off) (hr : powerRefusal p s = none) :
    powerRequest p env s = changePower p env (emit (.powerAnswer none) s) := by
  simp [powerRequest, h, hr]

/-- Table 14-7, A2 to A3: the conditions in their order. -/
theorem powerRefusal_a2_a3 (s : State) (hready : s.pkg.phase = .ready) (ha2 : s.pkg.power = .a2) :
    powerRefusal .a3 s =
      if s.sends ≠ [] ∨ s.recvs ≠ [] then some 1
      else if s.prog ≠ [] then some 2
      else if ∃ e ∈ s.ks.kids, e.2.st = .retiring then some 3
      else if ∃ r ∈ s.regions, r.2.leases ≠ [] then some 4
      else if hasHome s then some 5
      else none := by
  have hopen : (!(s.sends.isEmpty && s.recvs.isEmpty)) = true ↔ s.sends ≠ [] ∨ s.recvs ≠ [] := by
    simp [Classical.or_iff_not_imp_left]
  have hprog : (!s.prog.isEmpty) = true ↔ s.prog ≠ [] := by simp
  have hretiring : s.ks.kids.any (fun e => e.2.st == .retiring) = true ↔ ∃ e ∈ s.ks.kids, e.2.st = .retiring := by simp
  have hlease : s.regions.any (fun r => !r.2.leases.isEmpty) = true ↔ ∃ r ∈ s.regions, r.2.leases ≠ [] := by simp
  simp only [powerRefusal, hready, ha2, reduceCtorEq, or_self, if_false, ne_eq, not_true]
  exact ite_congr (propext hopen) (fun _ => rfl) fun _ => ite_congr (propext hprog) (fun _ => rfl) fun _ =>
    ite_congr (propext hretiring) (fun _ => rfl) fun _ => ite_congr (propext hlease) (fun _ => rfl) fun _ => rfl

end Sys2Proof.Machine
end

section
/-! SUPPORT. The start and its rows (R45, R384, R390, R398): the rise and fall of AVK_PWROK, the BIST limits, the version fuse. -/
namespace Sys2Proof.Machine

theorem exec_avkPwrokRise (env : StartEnv) (s : State) :
    exec (.avkPwrokRise env) s = .next (if s.pkg.phase = .off then start false env s else s) := rfl
theorem exec_avkPwrokFall (s : State) : exec .avkPwrokFall s = .next (pwrokFall s) := rfl
theorem exec_bistLimitRecheck (met : Bool) (s : State) : exec (.bistLimitRecheck met) s = .next (bistRecheck met s) := rfl
theorem exec_svnFuseBurn (s : State) : exec .svnFuseBurn s =
    .next (if ready s && decide (s.otp.svn < s.pkg.svn) then { s with otp := { s.otp with svn := s.pkg.svn } } else s) := rfl

/-! ### AVK_PWROK falls -/

/-- The block as the fall of AVK_PWROK finds it: an image being written is broken (R401). -/
def withBrokenImage (s : State) : State :=
  { s with flash := { s.flash with image := if s.pkg.writing then none else s.flash.image } }

@[simp] theorem hostUp_withBrokenImage (s : State) : hostUp (withBrokenImage s) = hostUp s := rfl

theorem pwrokFall_eq (s : State) : pwrokFall s = afterReset false (withBrokenImage s) := by
  unfold pwrokFall withBrokenImage
  split <;> rfl

theorem afterReset_fns_mem (warm : Bool) (s : State) (e : Nat × FnSt) (h : e ∈ (afterReset warm s).fns) :
    ∃ x, (e.1, x) ∈ s.fns ∧ x.enabled = true ∧ e.2 = { enabled := true, place := x.place, tdi := { state := .error } } := by
  obtain ⟨⟨k, x⟩, hmem, rfl⟩ := List.mem_map.1 h
  obtain ⟨hx, hon⟩ := List.mem_filter.1 hmem
  exact ⟨x, hx, hon, by simp only [fnAfterReset, show x.enabled = true from hon]⟩

theorem afterReset_fns_keys (warm : Bool) (s : State) :
    (afterReset warm s).fns.map (·.1) = (s.fns.filter (fun e => e.2.enabled)).map (·.1) := by
  simp [afterReset]

theorem afterReset_out (warm : Bool) (s : State) :
    (afterReset warm s).out = if hostUp s then s.out ++ [.linkDisable 0, .linkDisable 1] else s.out := by
  simp [afterReset, hostLost]

/-! ### The BIST limits and the version fuse -/

theorem bistRecheck_waiting (met : Bool) (n : Nat) (env : StartEnv) (s : State) (h : s.pkg.phase = .bistWait n env) :
    bistRecheck met s = if met then bootFrom3 true env s
      else if 2 ≤ n then bootFrom3 false env s
      else { s with pkg := { s.pkg with phase := .bistWait (n + 1) env } } := by
  simp only [bistRecheck, h]

theorem bistRecheck_idle (met : Bool) (s : State) (h : ∀ n env, s.pkg.phase ≠ .bistWait n env) : bistRecheck met s = s := by
  unfold bistRecheck
  split
  · next n env hw => exact absurd hw (h n env)
  · rfl

end Sys2Proof.Machine
end

section
/-! SUPPORT. The statement on power requests and the rows of the start. -/
namespace Sys2Proof.Machine

/-- Settles O51: the requests of the power manager by the lemma of the change they ask for, the rows of the start by theirs. -/
theorem powerAndStartRows : Obligations.PowerAndStartRows := by
  refine ⟨fun s p env => ⟨?off, ?refused, ?accepted, ?conditions⟩,
    fun s env => ⟨?riseOff, ?riseOn, ?fall, ?waiting, ?notWaiting, ?burn, ?noBurn⟩, ?reset⟩
  case off =>
    intro h
    rw [exec_powerStateRequest, powerRequest_off p env s h]
  case refused =>
    intro n h hr
    rw [exec_powerStateRequest, powerRequest_refused p env s n h hr]
  case accepted =>
    intro h hr
    refine ⟨_, by rw [exec_powerStateRequest, powerRequest_accepted p env s h hr], rfl, ?_, ?_, ?_, ?_, ?_⟩
    · rintro hp rfl
      exact changePower_a0_a1 env _ hp
    · rintro hp rfl
      exact changePower_a1_a0 env _ hp
    · rintro hp rfl
      rw [changePower_a2_of_awake env (emit _ s) hp]
      exact enterA2_power _
    · rintro hp rfl
      rw [changePower_a2_a3 env (emit _ s) hp]
      obtain ⟨hpower, hcaches, hidentity⟩ := enterA3_asleep (emit (.powerAnswer none) s)
      exact ⟨hpower, hcaches, hidentity, enterA3_portDown _⟩
    · rintro rfl
      rw [changePower_off]
      exact enterOff_lost _
  case conditions =>
    rintro hready ha2 rfl
    rw [powerRefusal_a2_a3 s hready ha2]
    have hopen : s.sends = [] → s.recvs = [] → ¬(s.sends ≠ [] ∨ s.recvs ≠ []) := by simp_all
    have hnone : (∀ e ∈ s.ks.kids, e.2.st ≠ .retiring) → ¬∃ e ∈ s.ks.kids, e.2.st = .retiring := by simp
    have hfree : (∀ r ∈ s.regions, r.2.leases = []) → ¬∃ r ∈ s.regions, r.2.leases ≠ [] := by simp
    refine ⟨fun h => if_pos h, fun hs hr hprog => ?_, fun hs hr hprog hret => ?_, fun hs hr hprog hret hlease => ?_,
      fun hs hr hprog hret hlease => ?_⟩
    · rw [if_neg (hopen hs hr), if_pos hprog]
    · rw [if_neg (hopen hs hr), if_neg (Classical.not_not.2 hprog), if_pos hret]
    · rw [if_neg (hopen hs hr), if_neg (Classical.not_not.2 hprog), if_neg (hnone hret), if_pos hlease]
    · rw [if_neg (hopen hs hr), if_neg (Classical.not_not.2 hprog), if_neg (hnone hret), if_neg (hfree hlease)]
  case riseOff =>
    intro h
    rw [exec_avkPwrokRise, if_pos h]
  case riseOn =>
    intro h
    rw [exec_avkPwrokRise, if_neg h]
  case fall =>
    refine ⟨afterReset false (withBrokenImage s), by rw [exec_avkPwrokFall, pwrokFall_eq], rfl, rfl, rfl, rfl,
      afterReset_fns_mem _ _, afterReset_fns_keys _ _, rfl, rfl, rfl, rfl, rfl, rfl, rfl, fun h => ?_, fun h => ?_, rfl⟩
    · exact (afterReset_out _ _).trans (if_pos h)
    · exact (afterReset_out _ _).trans (if_neg (by simp [h]))
  case waiting =>
    intro n h
    simp only [exec_bistLimitRecheck, bistRecheck_waiting _ n env s h]
    exact ⟨rfl, fun hn => by simp [hn], fun hn => by simp [Nat.not_le.2 hn]⟩
  case notWaiting =>
    intro h met
    rw [exec_bistLimitRecheck, bistRecheck_idle met s h]
  case burn =>
    intro hr hlt
    simp [exec_svnFuseBurn, hr, hlt]
  case noBurn =>
    rintro (h | h)
    · simp [exec_svnFuseBurn, h]
    · simp [exec_svnFuseBurn, Nat.not_lt.2 h]
  case reset =>
    have hblank : ∀ k, ([0, 0, 0] : List W64).getD k 0 = 0 := fun | 0 | 1 | 2 | _ + 3 => rfl
    exact ⟨rfl, rfl, rfl, rfl, rfl, rfl, rfl, rfl, hblank, hblank, rfl, rfl⟩

end Sys2Proof.Machine
end

section
/-! SUPPORT. Descriptor commands: the row that each one's own command runs, and the order of Table 03-21's first checks. -/
namespace Sys2Proof.Machine

/-! ### The rows' meanings -/

/-- A descriptor command of Table 03-6 runs its row; `f` is its own effect once it is admitted. -/
theorem exec_of_ownRow {c : Instr} {x : Row} (s : State) (h : ownRow c = some x) :
    ∃ f : InProg → State → State, exec c s = .next (runRow x f s) := by
  unfold ownRow at h
  split at h <;> cases h <;> exact ⟨_, rfl⟩

theorem exec_selfTest (h : CmdHdr) (u : W16) (pt : W32) (sd : W64) (r : Option TestRun) (s : State) :
    exec (.selfTest h u pt sd r) s = .next (selfTest h u pt sd r s) := rfl

/-- A SELF_TEST whose run has not begun runs its row. -/
theorem exec_selfTest_of_idle (h : CmdHdr) (u : W16) (pt : W32) (sd : W64) (r : Option TestRun) (s : State)
    (hn : runningTest s h = none) :
    exec (.selfTest h u pt sd r) s = .next (runRow (selfTestRow h u pt sd r) (startTest u pt sd r) s) := by
  simp only [exec_selfTest, selfTest, hn]

theorem exec_nop (h : CmdHdr) (s : State) : exec (.nop h) s = .next (runRow (nopRow h) (fun p => complete p stOk 0 0) s) := rfl

/-- A row whose command has not been dispatched, or that comes while the controller does not run, only lets go on what waits. -/
theorem runRow_idle (r : Row) (f : InProg → State → State) (s : State) (hd : serving s = false ∨ dispatched s r = none) :
    runRow r f s = settle s := by
  unfold runRow; rw [runCmd_idle r f s hd]

/-! ### Checks in order (R73, R421) -/

theorem mem_of_firstField {l : List Check} {x : W16 × W32} (h : firstField l = some x) : some x ∈ l := by
  induction l generalizing x with
  | nil => simp [firstField] at h
  | cons a l ih =>
    cases a with
    | none => exact List.mem_cons_of_mem _ (ih (by simpa [firstField] using h))
    | some c =>
      simp only [firstField] at h
      split at h
      case h_1 d hd =>
        split at h
        · exact List.mem_cons_of_mem _ (ih (hd.trans h))
        · simp [h]
      case h_2 => simp [h]

theorem badField_status {b : Bool} {o : Nat} {x : W16 × W32} (h : badField b o = some x) : x.1 = stMalformed := by
  cases b <;> simp [badField, failIf] at h
  simp [← h]

/-- A descriptor's fields come first in Table 03-21. -/
theorem first_of_field {c : Checks} {s : State} {h : CmdHdr} {p : InProg} {x : W16 × W32}
    (e : firstField (p.rsvd.map (fun o => (stMalformed, BitVec.ofNat 32 o)) :: c.malformed) = some x) : c.first s h p = some x := by
  simp [Checks.first, e, firstFail]

/-- Sound fields and no buffer: a command whose first check of permission refuses it is not permitted, whatever its ring (R66). -/
theorem first_notPermitted {c : Checks} {s : State} {h : CmdHdr} {p : InProg} {l : List Check}
    (hm : firstField (p.rsvd.map (fun o => (stMalformed, BitVec.ofNat 32 o)) :: c.malformed) = none) (hb : c.buffer = [])
    (hp : c.permitted = some (stNotPermitted, 0) :: l) : c.first s h p = some (stNotPermitted, 0) := by
  cases hr : ringAllows p.opcode h.fn <;> simp [Checks.first, hm, hb, hp, hr, failIf, firstFail]

/-! ### SELF_TEST (R67) -/

theorem bootOnly_of_fielded {s : State} (h : lcState s = lcProvisioned ∨ lcState s = lcDeployed) : bootOnly s = true := by
  rcases h with h | h <;> simp [bootOnly, h, lcProvisioned, lcDeployed, lcTestOpen, lcAssembled, lcAnalysis]

/-- Every field of SELF_TEST's descriptor that offends answers MALFORMED. -/
theorem testChecks_field_status {u : W16} {pt : W32} {sd : W64} {r : Option TestRun} {s : State} {p : InProg} {x : W16 × W32}
    (e : firstField (p.rsvd.map (fun o => (stMalformed, BitVec.ofNat 32 o)) :: (testChecks u pt sd r s).malformed) = some x) :
    x.1 = stMalformed := by
  have hx := mem_of_firstField e
  simp only [testChecks, List.mem_cons, List.not_mem_nil, or_false] at hx
  obtain hx | hx | hx := hx
  · obtain ⟨o, -, rfl⟩ := Option.map_eq_some_iff.1 hx.symm
    rfl
  · exact badField_status hx.symm
  · exact badField_status hx.symm

theorem testChecks_notPermitted {u : W16} {pt : W32} {sd : W64} {r : Option TestRun} {s : State} {h : CmdHdr} {p : InProg}
    (hl : lcState s = lcProvisioned ∨ lcState s = lcDeployed) (hne : pt ≠ 0 ∨ sd ≠ 0)
    (hf : ∀ st d, (testChecks u pt sd r s).first s h p = some (st, d) → st ≠ stMalformed) :
    (testChecks u pt sd r s).first s h p = some (stNotPermitted, 0) := by
  have hwell : firstField (p.rsvd.map (fun o => (stMalformed, BitVec.ofNat 32 o)) :: (testChecks u pt sd r s).malformed) = none := by
    rw [Option.eq_none_iff_forall_ne_some]
    exact fun x hx => hf x.1 x.2 (first_of_field hx) (testChecks_field_status hx)
  have hperm : (bootOnly s && (pt != 0 || sd != 0)) = true := by simpa [bootOnly_of_fielded hl] using hne
  refine first_notPermitted hwell rfl (l := [failIf (u != 0xFFFF && (bitmapBit u.toNat).isNone) stNotPermitted 0]) ?_
  simp only [testChecks, hperm]
  rfl

end Sys2Proof.Machine
end

section
/-! SUPPORT. The statements on refused commands and on SELF_TEST in the field. -/
namespace Sys2Proof.Machine

/-- Settles O3: every descriptor command runs its row, and a row that is refused or that is not due does nothing of its own. -/
theorem refusedCommandHasNoEffect : Obligations.RefusedCommandHasNoEffect := by
  intro c s h x p st d
  refine ⟨fun hx => ?own, fun u pt sd r hc hn => ?selfTest⟩
  case own =>
    obtain ⟨f, hf⟩ := exec_of_ownRow s hx
    rw [hf]
    exact ⟨fun a => by rw [runRow_refused a f], fun hd => by rw [runRow_idle x f s hd]⟩
  case selfTest =>
    rw [hc, exec_selfTest_of_idle h u pt sd r s hn]
    exact ⟨fun a => by rw [runRow_refused a], fun hd => by rw [runRow_idle _ _ s hd]⟩

/-- Settles O44: with well-formed operands, the first check that fails is the first one of permission. -/
theorem selfTestNeedsAFactoryState : Obligations.SelfTestNeedsAFactoryState := by
  intro s h p u pt sd r hlive hfound hn hl hne hf
  have a : Refused s (selfTestRow h u pt sd r) p stNotPermitted 0 := ⟨hlive, hfound, testChecks_notPermitted hl hne hf⟩
  rw [exec_selfTest_of_idle h u pt sd r s hn, runRow_refused a]

end Sys2Proof.Machine
end

section
/-! SUPPORT. A function's rings: what events, faults, records and waiting records do to the ring they act on, and what they leave of the
block. -/
namespace Sys2Proof.Machine

/-! ### Changes that stay with one function's rings -/

/-- `t` comes from `s` by operations on the rings of `f`: outputs, counters and the state of `f` may differ, but not where `f` stands with
the host (R56, R162). -/
structure RingLocal (f : Fn) (s t : State) : Prop where
  edge : ∃ o, Edge o s t
  others : ∀ g, g ≠ f → fnOf t g = fnOf s g
  tdi : (fnOf t f).tdi = (fnOf s f).tdi

namespace RingLocal

theorem refl (f : Fn) (s : State) : RingLocal f s s := ⟨⟨_, .refl s⟩, fun _ _ => rfl, rfl⟩

theorem trans {f : Fn} {s t u : State} (h : RingLocal f s t) (h' : RingLocal f t u) : RingLocal f s u := by
  obtain ⟨⟨o, e⟩, a, b⟩ := h
  obtain ⟨⟨o', e'⟩, a', b'⟩ := h'
  exact ⟨⟨_, e.trans e'⟩, fun g hg => (a' g hg).trans (a g hg), b'.trans b⟩

theorem ite {f : Fn} {c : Prop} [Decidable c] {s t u : State} (ht : RingLocal f s t) (hu : RingLocal f s u) :
    RingLocal f s (if c then t else u) := by
  split
  · exact ht
  · exact hu

theorem via {f : Fn} {s t : State} (h : RingLocal f s t) : viaOf t f = viaOf s f := by simp [viaOf, h.tdi]
theorem pkg {f : Fn} {s t : State} (h : RingLocal f s t) : t.pkg = s.pkg := by obtain ⟨o, e⟩ := h.edge; rw [e]
theorem prog {f : Fn} {s t : State} (h : RingLocal f s t) : t.prog = s.prog := by obtain ⟨o, e⟩ := h.edge; rw [e]
theorem scan {f : Fn} {s t : State} (h : RingLocal f s t) : t.scan = s.scan := by obtain ⟨o, e⟩ := h.edge; rw [e]
theorem ring_ne {f g : Fn} {s t : State} (h : RingLocal f s t) (hg : g ≠ f) : ringOf t g = ringOf s g := by
  simp [ringOf, h.others g hg]

end RingLocal

theorem ringLocal_emit (f : Fn) (o : Output) (s : State) : RingLocal f s (emit o s) := ⟨⟨_, edge_emit o s⟩, fun _ _ => rfl, rfl⟩

theorem ringLocal_fnMod (f : Fn) (g : FnSt → FnSt) (s : State) (hg : ∀ x, (g x).tdi = x.tdi) : RingLocal f s (fnMod f g s) :=
  ⟨⟨_, edge_fnMod f g s⟩, fun _ h => fnOf_fnMod_ne _ _ _ _ h, by simp [hg]⟩

theorem ringLocal_ringMod (f : Fn) (g : RingSt → RingSt) (s : State) : RingLocal f s (ringMod f g s) := ringLocal_fnMod f _ s fun _ => rfl

theorem ringLocal_traceVf (f : Fn) (k : Nat) (c : W16) (d : BitVec 128) (s : State) : RingLocal f s (traceVf f k c d s) :=
  ⟨⟨_, edge_traceVf f k c d s⟩, fun _ _ => fnOf_traceVf .., by simp⟩

theorem ringLocal_markPage (f : Fn) (k : Nat) (s : State) : RingLocal f s (markPage f k s) := by
  obtain h | ⟨d, h⟩ | ⟨d, o, h⟩ := markPage_cases f k s <;> rw [h]
  · exact .refl f s
  · exact ringLocal_fnMod f _ s fun _ => rfl
  · exact (ringLocal_fnMod f (fun x => { x with dirty := some d }) s fun _ => rfl).trans (ringLocal_emit ..)

theorem ringLocal_markPages (f : Fn) (k n : Nat) (s : State) : RingLocal f s (markPages f k n s) := by
  induction n generalizing k s with
  | zero => exact .refl f s
  | succ n ih => exact (ringLocal_markPage f k s).trans (ih ..)

theorem ringLocal_markHost (f : Fn) (a n : Nat) (s : State) : RingLocal f s (markHost f a n s) :=
  .ite (.refl f s) (ringLocal_markPages ..)

theorem ringLocal_postDoorbell (f : Fn) (s : State) : RingLocal f s (postDoorbell f s) :=
  (ringLocal_markHost ..).trans (ringLocal_emit ..)

theorem ringLocal_raiseMsix (f : Fn) (s : State) : RingLocal f s (raiseMsix f s) :=
  .ite (.refl f s) ((ringLocal_ringMod ..).trans (ringLocal_emit ..))

theorem ringLocal_signalEvent (f : Fn) (s : State) : RingLocal f s (signalEvent f s) :=
  (RingLocal.ite (ringLocal_ringMod ..) (ringLocal_ringMod ..)).trans (ringLocal_raiseMsix ..)

theorem ringLocal_settleRing (f : Fn) (s : State) : RingLocal f s (settleRing f s) := .ite (ringLocal_ringMod ..) (.refl f s)

theorem ringLocal_writeRecord (f : Fn) (mk : Bool → CplRec) (s : State) : RingLocal f s (writeRecord f mk s) :=
  .ite (.refl f s) (((ringLocal_markHost ..).trans (ringLocal_emit ..)).trans (ringLocal_ringMod ..))

theorem ringLocal_drainAsync (n : Nat) (f : Fn) (s : State) : RingLocal f s (drainAsync n f s) := by
  induction n generalizing s with
  | zero => exact .refl f s
  | succ n ih =>
    unfold drainAsync
    split
    · exact .refl f s
    · exact .ite (((ringLocal_ringMod ..).trans (ringLocal_writeRecord ..)).trans (ih _)) (.refl f s)

theorem ringLocal_ringFault (f : Fn) (code : W16) (s : State) : RingLocal f s (ringFault f code s) :=
  .ite (.ite (ringLocal_ringMod ..) (.refl f s)) ((ringLocal_ringMod ..).trans (ringLocal_postDoorbell ..))

theorem ringLocal_takeEvents (f : Fn) (d : DrvHalf) (s : State) : RingLocal f s (takeEvents f d s) :=
  (ringLocal_ringMod ..).trans (.ite (ringLocal_raiseMsix ..) (.refl ..))

theorem ringLocal_wakeRing (f : Fn) (s : State) : RingLocal f s (wakeRing f s) := by
  unfold wakeRing
  split
  case h_1 =>
    exact .ite ((ringLocal_ringMod ..).trans (ringLocal_emit ..)) (.ite
      (((ringLocal_ringMod ..).trans (ringLocal_emit ..)).trans (ringLocal_emit ..)) ((ringLocal_ringMod ..).trans (ringLocal_emit ..)))
  case h_3 => exact ringLocal_ringMod ..
  all_goals exact .refl f s

/-! ### Events (R70, R71) -/

/-- A change of a ring is what it makes of the ring as it stands. -/
theorem ringMod_congr {f : Fn} {g g' : RingSt → RingSt} {s : State} (h : g (ringOf s f) = g' (ringOf s f)) :
    ringMod f g s = ringMod f g' s := by
  have h' : g (mapGet {} s.fns f.key).ring = g' (mapGet {} s.fns f.key).ring := h
  simp only [ringMod, fnMod, mapMod, h']

theorem ringOf_raiseMsix (f : Fn) (s : State) : ringOf (raiseMsix f s) f = { ringOf s f with interrupt := true } := by
  cases h : (ringOf s f).interrupt
  · simp [raiseMsix, h]
  · simp only [raiseMsix, h, if_true]
    rw [← h]

theorem raiseMsix_out (f : Fn) (s : State) :
    (raiseMsix f s).out = s.out ++ (if (ringOf s f).interrupt then [] else [.msix (viaOf s f) (ringOf s f).vector]) := by
  cases h : (ringOf s f).interrupt
  · simp [raiseMsix, h]
  · simp [raiseMsix, h]

/-- A ring that has counted one more event. -/
def withEvent (r : RingSt) : RingSt :=
  { r with eventPending := if r.eventPending = 0xFFFFFFFF then 0xFFFFFFFF else r.eventPending + 1
           evtOvf := r.evtOvf || r.eventPending == 0xFFFFFFFF }

theorem signalEvent_eq (f : Fn) (s : State) : signalEvent f s = raiseMsix f (ringMod f withEvent s) := by
  unfold signalEvent
  dsimp only
  split
  case isTrue h =>
    rw [ringMod_congr (g' := withEvent)]
    simp only [withEvent, if_pos h, beq_iff_eq.2 h, Bool.or_true]
    rw [h]
  case isFalse h =>
    rw [ringMod_congr (g' := withEvent)]
    simp only [withEvent, if_neg h, beq_eq_false_iff_ne.2 h, Bool.or_false]

theorem ringOf_signalEvent (f : Fn) (s : State) :
    ringOf (signalEvent f s) f = { withEvent (ringOf s f) with interrupt := true } := by
  rw [signalEvent_eq, ringOf_raiseMsix, ringOf_ringMod_self]

theorem signalEvent_out (f : Fn) (s : State) :
    (signalEvent f s).out = s.out ++ (if (ringOf s f).interrupt then [] else [.msix (viaOf s f) (ringOf s f).vector]) := by
  rw [signalEvent_eq, raiseMsix_out, (ringLocal_ringMod f withEvent s).via, ringOf_ringMod_self]
  rfl

/-- The events that the driver half `d` shows taken since the wake before. -/
def eventsTaken (d : DrvHalf) (r : RingSt) : Nat := (d.eventTake - r.eventTake).toNat

/-- A ring after a wake that shows the driver half `d`, before its vector is raised again. -/
def withTaken (d : DrvHalf) (r : RingSt) : RingSt :=
  { r with eventTake := d.eventTake, eventPending := BitVec.ofNat 32 (r.eventPending.toNat - eventsTaken d r)
           interrupt := if d.eventTake - r.eventTake = 0 then r.interrupt else false
           evtOvf := r.evtOvf && !d.evtOvfClr, evqOvf := r.evqOvf && !d.evtOvfClr }

theorem withTaken_pending (d : DrvHalf) (r : RingSt) : (withTaken d r).eventPending.toNat = r.eventPending.toNat - eventsTaken d r :=
  BitVec.toNat_ofNat .. |>.trans (Nat.mod_eq_of_lt (by omega))

theorem eventsTaken_eq_zero (d : DrvHalf) (r : RingSt) : d.eventTake - r.eventTake = 0 ↔ eventsTaken d r = 0 := BitVec.toNat_eq

/-- Events are left exactly where fewer are taken than were pending. -/
theorem withTaken_pending_eq_zero (d : DrvHalf) (r : RingSt) :
    (withTaken d r).eventPending = 0 ↔ r.eventPending.toNat ≤ eventsTaken d r := by
  rw [← Nat.sub_eq_zero_iff_le, ← withTaken_pending]
  exact BitVec.toNat_eq

theorem takeEvents_eq (f : Fn) (d : DrvHalf) (s : State) :
    takeEvents f d s = if eventsTaken d (ringOf s f) ≠ 0 ∧ eventsTaken d (ringOf s f) < (ringOf s f).eventPending.toNat
      then raiseMsix f (ringMod f (withTaken d) s) else ringMod f (withTaken d) s := by
  have hc : d.eventTake - (ringOf s f).eventTake ≠ 0 ∧ (withTaken d (ringOf s f)).eventPending ≠ 0 ↔
      eventsTaken d (ringOf s f) ≠ 0 ∧ eventsTaken d (ringOf s f) < (ringOf s f).eventPending.toNat := by
    rw [Ne, Ne, eventsTaken_eq_zero, withTaken_pending_eq_zero, Nat.not_le]
  have htake : takeEvents f d s =
      if d.eventTake - (ringOf s f).eventTake ≠ 0 ∧ (withTaken d (ringOf s f)).eventPending ≠ 0
        then raiseMsix f (ringMod f (withTaken d) s) else ringMod f (withTaken d) s := by
    unfold takeEvents
    dsimp only
    rw [ringMod_congr (g' := withTaken d)]
    · rfl
    · rfl
  rw [htake]
  exact ite_congr (propext hc) (fun _ => rfl) fun _ => rfl

theorem ringOf_takeEvents (f : Fn) (d : DrvHalf) (s : State) :
    ringOf (takeEvents f d s) f = { withTaken d (ringOf s f) with
      interrupt := if eventsTaken d (ringOf s f) = 0 then (ringOf s f).interrupt
        else decide (eventsTaken d (ringOf s f) < (ringOf s f).eventPending.toNat) } := by
  rw [takeEvents_eq]
  split
  case isTrue h => rw [ringOf_raiseMsix, ringOf_ringMod_self, if_neg h.1, decide_eq_true h.2]
  case isFalse h =>
    rw [ringOf_ringMod_self]
    by_cases hk : eventsTaken d (ringOf s f) = 0
    · rw [if_pos hk, withTaken, if_pos ((eventsTaken_eq_zero ..).2 hk)]
    · rw [if_neg hk, withTaken, if_neg (mt (eventsTaken_eq_zero ..).1 hk), decide_eq_false fun hlt => h ⟨hk, hlt⟩]

theorem takeEvents_out (f : Fn) (d : DrvHalf) (s : State) :
    (takeEvents f d s).out = s.out ++
      (if eventsTaken d (ringOf s f) ≠ 0 ∧ eventsTaken d (ringOf s f) < (ringOf s f).eventPending.toNat
        then [.msix (viaOf s f) (ringOf s f).vector] else []) := by
  rw [takeEvents_eq]
  split
  case isTrue h =>
    have hi : (withTaken d (ringOf s f)).interrupt = false := if_neg (mt (eventsTaken_eq_zero ..).1 h.1)
    rw [raiseMsix_out, (ringLocal_ringMod f (withTaken d) s).via, ringOf_ringMod_self, hi]
    rfl
  case isFalse => exact (List.append_nil _).symm

/-! ### Faults (R59) -/

/-- A ring faulted with `code`: the first fault stands. -/
def withFault (code : W16) (r : RingSt) : RingSt :=
  { r with faulted := true, faultCode := if r.faulted then r.faultCode else code, hostWriteFailed := r.hostWriteFailed || code == 4 }

theorem ringOf_ringFault (f : Fn) (code : W16) (s : State) : ringOf (ringFault f code s) f = withFault code (ringOf s f) := by
  unfold ringFault
  dsimp only
  cases hf : (ringOf s f).faulted
  case false => simp [withFault, hf]
  case true =>
    rw [if_pos rfl]
    split
    case isTrue hc => simp [withFault, hf, hc]
    case isFalse hc => rw [withFault, hf, if_pos rfl, beq_eq_false_iff_ne.2 hc, Bool.or_false, ← hf]

/-! ### Records (R68, R69) -/

/-- A record moves CPL_TAIL of its ring at most. -/
theorem ringOf_writeRecord (f : Fn) (mk : Bool → CplRec) (s : State) :
    ∃ n, ringOf (writeRecord f mk s) f = { ringOf s f with cplTail := n } := by
  cases h : (ringOf s f).hostWriteFailed
  case false => exact ⟨_, (writeRecord_spec f mk s h).2⟩
  case true => exact ⟨_, by rw [writeRecord_dropped f mk s h]⟩

theorem ringOf_writeAsync (f : Fn) (a : AsyncRec) (s : State) :
    ∃ n, ringOf (writeAsync f a s) f = { ringOf s f with cplTail := n } := ringOf_writeRecord f _ s

/-- Waiting records that go out move CPL_TAIL and leave the queue. -/
theorem ringOf_drainAsync (k : Nat) (f : Fn) (s : State) :
    ∃ n l, ringOf (drainAsync k f s) f = { ringOf s f with cplTail := n, waiting := l } := by
  induction k generalizing s with
  | zero => exact ⟨_, _, rfl⟩
  | succ k ih =>
    unfold drainAsync
    split
    case h_1 => exact ⟨_, _, rfl⟩
    case h_2 a rest _ =>
      split
      case isFalse => exact ⟨_, _, rfl⟩
      case isTrue =>
        obtain ⟨n, l, h⟩ := ih (writeAsync f a (ringMod f (fun r => { r with waiting := rest }) s))
        obtain ⟨m, hm⟩ := ringOf_writeAsync f a (ringMod f (fun r => { r with waiting := rest }) s)
        exact ⟨n, l, by rw [h, hm, ringOf_ringMod_self]⟩

theorem cplTail_settleRing (f : Fn) (s : State) : (ringOf (settleRing f s) f).cplTail = (ringOf s f).cplTail := by
  unfold settleRing
  dsimp only
  split <;> simp

end Sys2Proof.Machine
end

section
/-! SUPPORT. The statement on events. -/
namespace Sys2Proof.Machine

/-- Settles O5: a signal counts on the ring, then raises the vector; a wake takes on the ring, then raises it where events are left. -/
theorem eventCounting : Obligations.EventCounting := by
  intro f d s
  dsimp only
  rw [ringOf_signalEvent, signalEvent_out, ringOf_takeEvents, takeEvents_out]
  exact ⟨rfl, rfl, rfl, rfl, withTaken_pending d _, rfl, rfl, rfl, rfl, rfl⟩

end Sys2Proof.Machine
end

section
/-! SUPPORT. A command's end: its record, then the event, the trace, the doorbell half and the ring's disabling. -/
namespace Sys2Proof.Machine

/-- The record of a command's end (R68), with its PHASE. -/
def endRecord (p : InProg) (st : W16) (d : W32) (res : BitVec 128) (s : State) (ph : Bool) : CplRec :=
  { tag := p.tag, status := st, opcode := p.opcode, phase := ph, async := false, cmdIndex := p.idx.setWidth 16, vfGen := genOf s p.fn,
    detail := d, result := res }

/-- What follows the record of a command's end: its event where it asks for one, the trace, the doorbell half, the ring's disabling. -/
def announce (p : InProg) (st : W16) (s : State) : State :=
  settleRing p.fn (postDoorbell p.fn (traceVf p.fn 0x02 p.ctx ((p.opcode.setWidth 128) ||| (st.setWidth 128 <<< 16))
    (if p.event then signalEvent p.fn s else s)))

theorem complete_eq (p : InProg) (st : W16) (d : W32) (res : BitVec 128) (s : State) :
    complete p st d res s = announce p st (writeRecord p.fn (endRecord p st d res s) (dropProg p s)) := rfl

theorem ringLocal_announce (p : InProg) (st : W16) (s : State) : RingLocal p.fn s (announce p st s) :=
  (((RingLocal.ite (ringLocal_signalEvent ..) (.refl ..)).trans (ringLocal_traceVf ..)).trans (ringLocal_postDoorbell ..)).trans
    (ringLocal_settleRing ..)

theorem cplTail_announce (p : InProg) (st : W16) (s : State) : (ringOf (announce p st s) p.fn).cplTail = (ringOf s p.fn).cplTail := by
  rw [announce, cplTail_settleRing, ringOf_postDoorbell, ringOf_traceVf]
  split
  case isTrue => rw [ringOf_signalEvent]; rfl
  case isFalse => rfl

theorem noRecord_append {o o' : List Output} (h : noRecord o) (h' : noRecord o') : noRecord (o ++ o') := by
  intro v n r i hm
  exact (List.mem_append.1 hm).elim (h v n r i) (h' v n r i)

/-- What follows a command's record sends no other. -/
theorem edge_announce (p : InProg) (st : W16) (s : State) : ∃ o, noRecord o ∧ Edge o s (announce p st s) := by
  have hevent : ∃ o, noRecord o ∧ Edge o s (if p.event then signalEvent p.fn s else s) := by
    split
    · exact edge_signalEvent p.fn s
    · exact ⟨[], by simp [noRecord], .refl s⟩
  obtain ⟨o, ho, he⟩ := hevent
  have htrace := he.trans (edge_traceVf p.fn 0x02 p.ctx ((p.opcode.setWidth 128) ||| (st.setWidth 128 <<< 16)) _)
  obtain ⟨o', ho', he'⟩ := edge_postDoorbell p.fn (traceVf p.fn 0x02 p.ctx ((p.opcode.setWidth 128) ||| (st.setWidth 128 <<< 16))
    (if p.event then signalEvent p.fn s else s))
  refine ⟨_, ?_, (htrace.trans he').trans (edge_settleRing p.fn _)⟩
  simpa using noRecord_append ho ho'

/-- Other functions keep their state when a command ends. -/
theorem fnOf_complete_ne (p : InProg) (st : W16) (d : W32) (res : BitVec 128) (s : State) (g : Fn) (h : g ≠ p.fn) :
    fnOf (complete p st d res s) g = fnOf s g := by
  rw [complete_eq, (ringLocal_announce ..).others g h, (ringLocal_writeRecord ..).others g h, fnOf_dropProg]

/-- A command ends on a ring whose writes still go out. -/
theorem complete_written (p : InProg) (st : W16) (d : W32) (res : BitVec 128) (s : State)
    (h : (ringOf s p.fn).hostWriteFailed = false) :
    (∃ o, Edge o (dropProg p s) (complete p st d res s) ∧
      .record (viaOf s p.fn) ((ringOf s p.fn).cplTail.toNat % cplEntries (ringOf s p.fn))
        (endRecord p st d res s (phaseBit (ringOf s p.fn) (ringOf s p.fn).cplTail))
        (cplBytes (endRecord p st d res s (phaseBit (ringOf s p.fn) (ringOf s p.fn).cplTail))) ∈ o) ∧
    (ringOf (complete p st d res s) p.fn).cplTail = (ringOf s p.fn).cplTail + 1 := by
  obtain ⟨⟨o, ho⟩, hr⟩ := writeRecord_spec p.fn (endRecord p st d res s) (dropProg p s) h
  obtain ⟨o', -, ho'⟩ := edge_announce p st (writeRecord p.fn (endRecord p st d res s) (dropProg p s))
  rw [complete_eq]
  refine ⟨⟨_, ho.trans ho', ?_⟩, ?_⟩
  · exact List.mem_append_left _ (List.mem_append_right _ (List.mem_singleton_self _))
  · rw [cplTail_announce, hr]
    rfl

/-- A command ends on a ring whose writes have failed (R59). -/
theorem complete_dropped (p : InProg) (st : W16) (d : W32) (res : BitVec 128) (s : State)
    (h : (ringOf s p.fn).hostWriteFailed = true) :
    (∃ o, noRecord o ∧ Edge o (dropProg p s) (complete p st d res s)) ∧
    (ringOf (complete p st d res s) p.fn).cplTail = (ringOf s p.fn).cplTail := by
  rw [complete_eq, writeRecord_dropped _ _ (dropProg p s) h]
  exact ⟨edge_announce .., cplTail_announce ..⟩

end Sys2Proof.Machine
end

section
/-! SUPPORT. The statement on a command's record. -/
namespace Sys2Proof.Machine

/-- Settles O4: the record is the one output of its kind, and the parts of a command's end stay with the ring's function. -/
theorem completionRecordAndFrame : Obligations.CompletionRecordAndFrame := by
  intro p st d res s
  dsimp only
  cases hw : (ringOf s p.fn).hostWriteFailed
  case false =>
    obtain ⟨⟨o, he, hm⟩, ht⟩ := complete_written p st d res s hw
    exact ⟨o, he, fnOf_complete_ne p st d res s, fun _ => ⟨hm, ht⟩, fun h => Bool.noConfusion h⟩
  case true =>
    obtain ⟨⟨o, hn, he⟩, ht⟩ := complete_dropped p st d res s hw
    exact ⟨o, he, fnOf_complete_ne p st d res s, fun h => Bool.noConfusion h, fun _ => ⟨ht, hn⟩⟩

end Sys2Proof.Machine
end

section
/-! SUPPORT. The read of a wake (R60): what its data make of the ring, and the read that follows where one is owed. -/
namespace Sys2Proof.Machine

/-! ### The driver half (R58) -/

/-- A ring that takes CMD_TAIL, or is faulted where `bad` says that it is out of range. -/
def takeTail (bad : Bool) (d : DrvHalf) (r : RingSt) : RingSt :=
  { r with cmdTail := if bad then r.cmdTail else d.cmdTail, faulted := r.faulted || bad
           faultCode := if bad && !r.faulted then 0x0001 else r.faultCode }

/-- A ring that takes CPL_HEAD, or is faulted where `bad` says that it is out of range. -/
def takeHead (bad : Bool) (d : DrvHalf) (r : RingSt) : RingSt :=
  { r with cplHead := if bad then r.cplHead else d.cplHead, faulted := r.faulted || bad
           faultCode := if bad && !r.faulted then 0x0002 else r.faultCode }

theorem ringOf_takeTail (bad : Bool) (f : Fn) (d : DrvHalf) (s : State) :
    ringOf (if bad then ringFault f 0x0001 s else ringMod f (fun r => { r with cmdTail := d.cmdTail }) s) f =
      takeTail bad d (ringOf s f) := by
  cases bad
  case false => simp [takeTail]
  case true =>
    rw [if_pos rfl, ringOf_ringFault]
    cases h : (ringOf s f).faulted <;> simp [withFault, takeTail, h]

theorem ringOf_takeHead (bad : Bool) (f : Fn) (d : DrvHalf) (s : State) :
    ringOf (if bad then ringFault f 0x0002 s else ringMod f (fun r => { r with cplHead := d.cplHead }) s) f =
      takeHead bad d (ringOf s f) := by
  cases bad
  case false => simp [takeHead]
  case true =>
    rw [if_pos rfl, ringOf_ringFault]
    cases h : (ringOf s f).faulted <;> simp [withFault, takeHead, h]

theorem ringLocal_actOnRecord (f : Fn) (d : DrvHalf) (s : State) : RingLocal f s (actOnRecord f d s) := by
  have hcounts : RingLocal f s (drainAsync Config.asyncDepth f _) :=
    (((ringLocal_takeEvents f d s).trans (.ite (c := badTail (ringOf s f) d) (ringLocal_ringFault f 0x0001 _)
      (ringLocal_ringMod f (fun r => { r with cmdTail := d.cmdTail }) _))).trans
      (.ite (c := badHead (ringOf s f) d) (ringLocal_ringFault f 0x0002 _)
        (ringLocal_ringMod f (fun r => { r with cplHead := d.cplHead }) _))).trans (ringLocal_drainAsync ..)
  exact .ite hcounts (hcounts.trans (ringLocal_postDoorbell ..))

/-- The driver half taken: events first, then CMD_TAIL, then CPL_HEAD; the records that then go out move CPL_TAIL and the queue. -/
theorem ringOf_actOnRecord (f : Fn) (d : DrvHalf) (s : State) :
    ∃ n l, ringOf (actOnRecord f d s) f =
      { takeHead (badHead (ringOf s f) d) d (takeTail (badTail (ringOf s f) d) d (ringOf (takeEvents f d s) f)) with
        cplTail := n, waiting := l } := by
  have hpost : ∀ (c : Prop) [Decidable c] (t : State), ringOf (if c then t else postDoorbell f t) f = ringOf t f := by
    intro c _ t
    split
    · rfl
    · exact ringOf_postDoorbell ..
  unfold actOnRecord
  dsimp only
  rw [hpost, ← ringOf_takeTail, ← ringOf_takeHead]
  exact ringOf_drainAsync ..

/-- The code of a ring that finds both counts of the driver half: the first fault stands (R59). -/
theorem firstFault_stands (was tail head : Bool) (code : W16) :
    (if head && !(was || tail) then 0x0002 else if tail && !was then 0x0001 else code) =
      if was then code else if tail then 0x0001 else if head then 0x0002 else code := by
  cases was
  case true => simp
  case false => cases tail <;> simp

/-- What R60 says of a ring `q` that took the driver half `d` as the ring `r`. -/
structure TookRecord (d : DrvHalf) (r q : RingSt) : Prop where
  cmdTail : q.cmdTail = if badTail r d then r.cmdTail else d.cmdTail
  cplHead : q.cplHead = if badHead r d then r.cplHead else d.cplHead
  eventTake : q.eventTake = d.eventTake
  faulted : q.faulted = (r.faulted || badTail r d || badHead r d)
  faultCode : q.faultCode = if r.faulted then r.faultCode else if badTail r d then 0x0001 else if badHead r d then 0x0002 else r.faultCode

theorem tookRecord_actOnRecord (f : Fn) (d : DrvHalf) (s : State) : TookRecord d (ringOf s f) (ringOf (actOnRecord f d s) f) := by
  obtain ⟨n, l, h⟩ := ringOf_actOnRecord f d s
  rw [h, ringOf_takeEvents]
  exact ⟨rfl, rfl, rfl, rfl, firstFault_stands ..⟩

theorem dbRead_actOnRecord (f : Fn) (d : DrvHalf) (s : State) : (ringOf (actOnRecord f d s) f).dbRead = (ringOf s f).dbRead := by
  obtain ⟨n, l, h⟩ := ringOf_actOnRecord f d s
  rw [h, ringOf_takeEvents]
  rfl

/-! ### The read and the one after it -/

/-- The data of a wake's read, acted on. -/
def actOnRead (f : Fn) (x : Fetched (BitVec 512)) (s : State) : State :=
  match x with
  | .failed => ringFault f 0x0003 s
  | .ok raw => actOnRecord f (drvOf raw) s

theorem ringLocal_actOnRead (f : Fn) (x : Fetched (BitVec 512)) (s : State) : RingLocal f s (actOnRead f x s) := by
  cases x with
  | failed => exact ringLocal_ringFault ..
  | ok raw => exact ringLocal_actOnRecord ..

/-- A ring whose wake's read stands at `b`. -/
def withRead (b : DbRead) (r : RingSt) : RingSt := { r with dbRead := b }

/-- The state of the read has no part in what the driver half makes of the ring. -/
theorem TookRecord.withRead {d : DrvHalf} {r q : RingSt} {a : DbRead} (h : TookRecord d (withRead a r) q) (b : DbRead) :
    TookRecord d r (withRead b q) :=
  ⟨h.cmdTail, h.cplHead, h.eventTake, h.faulted, h.faultCode⟩

theorem dbRead_actOnRead (f : Fn) (x : Fetched (BitVec 512)) (s : State) :
    (ringOf (actOnRead f x s) f).dbRead = (ringOf s f).dbRead := by
  cases x with
  | failed =>
    rw [actOnRead, ringOf_ringFault]
    rfl
  | ok raw => exact dbRead_actOnRecord ..

theorem doorbellReadDone_eq (f : Fn) (x : Fetched (BitVec 512)) (s : State) (hs : serving s = true)
    (hr : (ringOf s f).dbRead = .issued ∨ (ringOf s f).dbRead = .again) :
    doorbellReadDone f x s = if (ringOf s f).dbRead = .again then wakeRing f (actOnRead f x (ringMod f (withRead .idle) s))
      else actOnRead f x (ringMod f (withRead .idle) s) := by
  have hread : ((ringOf s f).dbRead == .issued || (ringOf s f).dbRead == .again) = true := by simpa using hr
  simp only [doorbellReadDone, hs, hread]
  cases x <;> rfl

theorem exec_doorbellReadDone (f : Fn) (x : Fetched (BitVec 512)) (s : State) :
    exec (.doorbellReadDone f x) s = .next (doorbellReadDone f x s) := rfl

/-- A wake changes no more of its ring than the state of its read. -/
theorem ringOf_wakeRing (f : Fn) (s : State) : ∃ b, ringOf (wakeRing f s) f = withRead b (ringOf s f) := by
  unfold wakeRing
  split
  case h_1 =>
    split
    · exact ⟨.owed, by simp [withRead]⟩
    · exact ⟨.issued, by split <;> simp [withRead]⟩
  case h_3 => exact ⟨.again, by simp [withRead]⟩
  all_goals exact ⟨(ringOf s f).dbRead, rfl⟩

theorem wakeRing_awake (f : Fn) (s : State) (hi : (ringOf s f).dbRead = .idle) (hp : s.pkg.power = .a0) :
    wakeRing f s = emit (.recordRead (viaOf s f)) (ringMod f (withRead .issued) s) := by
  simp only [wakeRing, hi, hp]
  rfl

end Sys2Proof.Machine
end

section
/-! SUPPORT. The statement on a wake's read. -/
namespace Sys2Proof.Machine

/-- Settles O6: the data are acted on with the read at its end; the read that follows changes the read's state alone. -/
theorem doorbellReadActs : Obligations.DoorbellReadActs := by
  intro s f x hs hr
  have ht := doorbellReadDone_eq f x s hs hr
  obtain ⟨v, hv⟩ : ∃ v, v = actOnRead f x (ringMod f (withRead .idle) s) := ⟨_, rfl⟩
  rw [← hv] at ht
  have hlocal : RingLocal f s v := by
    rw [hv]
    exact (ringLocal_ringMod f (withRead .idle) s).trans (ringLocal_actOnRead f x _)
  have hidle : (ringOf v f).dbRead = .idle := by
    rw [hv, dbRead_actOnRead, ringOf_ringMod_self]
    rfl
  have hring : ∃ b, ringOf (doorbellReadDone f x s) f = withRead b (ringOf v f) := by
    rw [ht]
    split
    · exact ringOf_wakeRing f v
    · exact ⟨(ringOf v f).dbRead, rfl⟩
  obtain ⟨b, hb⟩ := hring
  refine ⟨_, exec_doorbellReadDone f x s, fun g hg => ?others, fun h => ?once, fun h hp => ?again, fun h => ?failed, fun raw h => ?ok⟩
  case others =>
    have hnext : RingLocal f s (doorbellReadDone f x s) := by
      rw [ht]
      exact .ite (hlocal.trans (ringLocal_wakeRing f v)) hlocal
    exact hnext.ring_ne hg
  case once =>
    rw [ht, if_neg (by simp [h])]
    exact hidle
  case again =>
    rw [ht, if_pos h, wakeRing_awake f v hidle (hlocal.pkg ▸ hp), hlocal.via]
    exact ⟨by simp [withRead], by simp⟩
  case failed =>
    subst h
    rw [hb, hv, actOnRead, ringOf_ringFault, ringOf_ringMod_self]
    exact ⟨rfl, rfl, rfl, rfl, rfl⟩
  case ok =>
    subst h
    have htook := tookRecord_actOnRecord f (drvOf raw) (ringMod f (withRead .idle) s)
    rw [ringOf_ringMod_self] at htook
    obtain ⟨htail, hhead, htake, hfaulted, hcode⟩ := htook.withRead b
    rw [hb, hv, actOnRead]
    exact ⟨htail, hhead, htake, hfaulted, hcode⟩

end Sys2Proof.Machine
end

section
/-! SUPPORT. The scan (R61): the ring that a turn serves and what it makes of the descriptor it reads; NOP and the ends of host DMA. -/
namespace Sys2Proof.Machine

/-! ### The ring served -/

/-- The nearer of two rings, the earlier listed one where both are as near. -/
def nearer (scan : Nat) (a : Option Fn) (f : Fn) : Option Fn :=
  match a with
  | none => some f
  | some g => if scanDist scan f < scanDist scan g then some f else some g

theorem nearest_eq (s : State) : nearest s = ((listedFns s).filter (eligible s)).foldl (nearer s.scan) none := rfl

/-- Going through a list finds the first ring of the least distance. -/
theorem foldl_nearer (scan : Nat) (g : Fn) (l : List Fn) :
    ∃ f, l.foldl (nearer scan) (some g) = some f ∧ f ∈ g :: l ∧ ∀ x ∈ g :: l, scanDist scan f ≤ scanDist scan x := by
  induction l generalizing g with
  | nil => exact ⟨g, rfl, List.mem_singleton_self g, fun x hx => Nat.le_of_eq (congrArg _ (List.mem_singleton.1 hx).symm)⟩
  | cons h l ih =>
    rw [List.foldl_cons]
    by_cases hlt : scanDist scan h < scanDist scan g
    · obtain ⟨f, hf, hm, hle⟩ := ih h
      refine ⟨f, by rw [nearer, if_pos hlt, hf], List.mem_cons_of_mem g hm, fun x hx => ?_⟩
      obtain rfl | hx := List.mem_cons.1 hx
      · exact Nat.le_trans (hle h List.mem_cons_self) (Nat.le_of_lt hlt)
      · exact hle x hx
    · obtain ⟨f, hf, hm, hle⟩ := ih g
      refine ⟨f, by rw [nearer, if_neg hlt, hf], ?_, fun x hx => ?_⟩
      · obtain rfl | hm := List.mem_cons.1 hm
        · exact List.mem_cons_self
        · exact List.mem_cons_of_mem g (List.mem_cons_of_mem h hm)
      · obtain rfl | hx := List.mem_cons.1 hx
        · exact hle x List.mem_cons_self
        · obtain rfl | hx := List.mem_cons.1 hx
          · exact Nat.le_trans (hle g List.mem_cons_self) (Nat.not_lt.1 hlt)
          · exact hle x (List.mem_cons_of_mem g hx)

theorem nearest_none {s : State} (h : nearest s = none) : ∀ f ∈ listedFns s, eligible s f = false := by
  rw [nearest_eq] at h
  cases hl : (listedFns s).filter (eligible s) with
  | nil => exact fun f hf => Bool.eq_false_iff.2 (List.filter_eq_nil_iff.1 hl f hf)
  | cons g l =>
    obtain ⟨f, hf, -⟩ := foldl_nearer s.scan g l
    rw [hl, List.foldl_cons, nearer, hf] at h
    cases h

theorem nearest_some {s : State} {f : Fn} (h : nearest s = some f) :
    eligible s f = true ∧ ∀ g ∈ listedFns s, eligible s g = true → scanDist s.scan f ≤ scanDist s.scan g := by
  rw [nearest_eq] at h
  cases hl : (listedFns s).filter (eligible s) with
  | nil =>
    rw [hl] at h
    cases h
  | cons g l =>
    obtain ⟨f', hf, hm, hle⟩ := foldl_nearer s.scan g l
    rw [hl, List.foldl_cons, nearer, hf] at h
    cases h
    rw [← hl] at hm hle
    exact ⟨(List.mem_filter.1 hm).2, fun x hx he => hle x (List.mem_filter.2 ⟨hx, he⟩)⟩

/-! ### A turn -/

theorem exec_scanDispatch (x : Fetched (BitVec 512)) (s : State) : exec (.scanDispatch x) s = .next (scanDispatch x s) := rfl

theorem scanDispatch_none (x : Fetched (BitVec 512)) (s : State) (h : nearest s = none) : scanDispatch x s = s := by
  simp only [scanDispatch, h]
  split <;> rfl

section
variable {s : State} {f : Fn} (hs : serving s = true) (hf : nearest s = some f)
include hs hf

theorem scanDispatch_failed : scanDispatch .failed s = ringFault f 0x0003 { s with scan := scanPos f } := by
  simp only [scanDispatch, hs, hf]
  rfl

/-- An ORDERED descriptor of a ring with commands in progress is passed over. -/
theorem scanDispatch_ordered {raw : BitVec 512} (ho : rawByte raw 1 / 2 % 2 = 1 ∧ progOf s f ≠ []) :
    scanDispatch (.ok raw) s = ringMod f (fun r => { r with headOrdered := true }) s := by
  simp only [scanDispatch, hs, hf, if_pos ho]
  rfl

theorem scanDispatch_dispatched {raw : BitVec 512} (ho : ¬ (rawByte raw 1 / 2 % 2 = 1 ∧ progOf s f ≠ [])) :
    scanDispatch (.ok raw) s = dispatchRaw f raw { s with scan := scanPos f } := by
  simp only [scanDispatch, hs, hf, if_neg ho]
  rfl

end

/-- A ring whose descriptor at CMD_HEAD has been dispatched. -/
def headTaken (r : RingSt) : RingSt := { r with cmdHead := r.cmdHead + 1, headOrdered := false }

/-- The state once CMD_HEAD has advanced past the descriptor of command `p` and its doorbell half has gone out. -/
def advanced (p : InProg) (s : State) : State :=
  postDoorbell p.fn (traceVf p.fn 0x01 p.ctx (p.opcode.setWidth 128) (ringMod p.fn headTaken s))

theorem ringLocal_advanced (p : InProg) (s : State) : RingLocal p.fn s (advanced p s) :=
  ((ringLocal_ringMod ..).trans (ringLocal_traceVf ..)).trans (ringLocal_postDoorbell ..)

theorem ringOf_advanced (p : InProg) (s : State) : ringOf (advanced p s) p.fn = headTaken (ringOf s p.fn) := by simp [advanced]

theorem dispatchRaw_sound (f : Fn) (raw : BitVec 512) (s : State) (h : headerFault f raw = none) :
    dispatchRaw f raw s = { advanced (cmdOf s f raw) s with prog := (advanced (cmdOf s f raw) s).prog ++ [cmdOf s f raw] } := by
  simp only [dispatchRaw, h]
  rfl

theorem dispatchRaw_fault (f : Fn) (raw : BitVec 512) (s : State) (o : Nat) (h : headerFault f raw = some o) :
    dispatchRaw f raw s = settle (complete (cmdOf s f raw) stMalformed (BitVec.ofNat 32 o) 0 (advanced (cmdOf s f raw) s)) := by
  simp only [dispatchRaw, h]
  rfl

/-! ### Host DMA (R59) -/

theorem exec_hostDmaDone (what : DmaWhat) (ok : Bool) (s : State) : exec (.hostDmaDone what ok) s = .next (hostDmaDone what ok s) := rfl

theorem hostDmaDone_recordWrite (f : Fn) (ok : Bool) (s : State) (hs : serving s = true) :
    hostDmaDone (.recordWrite f) ok s = if ok = false ∧ (ringOf s f).enabled = true then ringFault f 0x0004 s else s := by
  cases ok
  case true => simp [hostDmaDone, hs]
  case false => cases he : (ringOf s f).enabled <;> simp [hostDmaDone, hs, he]

theorem hostDmaDone_command (f : Fn) (i : W32) (ok : Bool) (s : State) (q : InProg) (hs : serving s = true)
    (hq : findProg s f i = some q) (hstart : q.started = true) (hdma : q.hold.dma = true) :
    hostDmaDone (.command f i) ok s = settle (if ok then modProg f i (fun q => { q with hold := { q.hold with dma := false } }) s
      else complete q stDmaError 0 0 (releaseHolds q s)) := by
  cases ok <;> simp [hostDmaDone, hs, hq, hstart, hdma]

end Sys2Proof.Machine
end

section
/-! SUPPORT. The statements on the scan and on NOP. -/
namespace Sys2Proof.Machine

/-- Settles O7: the ring served has the least distance, and a turn is its read's failure, a pass or a dispatch. -/
theorem scanTurn : Obligations.ScanTurn := by
  intro s x hs
  refine ⟨fun hn => ?none, fun f hf => ?some⟩
  case none =>
    rw [exec_scanDispatch, scanDispatch_none x s hn]
    exact ⟨rfl, nearest_none hn⟩
  case some =>
    obtain ⟨helig, hleast⟩ := nearest_some hf
    refine ⟨helig, hleast, _, exec_scanDispatch x s, fun hx => ?failed, fun raw hx => ?read⟩
    case failed =>
      have hlocal := ringLocal_ringFault f 0x0003 { s with scan := scanPos f }
      rw [hx, scanDispatch_failed hs hf, ringOf_ringFault]
      exact ⟨hlocal.scan, hlocal.prog, rfl, rfl⟩
    case read =>
      have hlocal := ringLocal_advanced (cmdOf s f raw) { s with scan := scanPos f }
      have hhead := congrArg RingSt.cmdHead (ringOf_advanced (cmdOf s f raw) { s with scan := scanPos f })
      rw [hx]
      refine ⟨fun ho => scanDispatch_ordered hs hf ho, fun ho hh => ?sound, fun o ho hh => ?fault⟩
      case sound =>
        rw [scanDispatch_dispatched hs hf ho, dispatchRaw_sound _ _ _ hh]
        exact ⟨hlocal.scan, congrArg (· ++ [cmdOf s f raw]) hlocal.prog, hhead⟩
      case fault =>
        rw [scanDispatch_dispatched hs hf ho, dispatchRaw_fault _ _ _ o hh]
        exact ⟨_, rfl, hlocal.prog, hlocal.scan, hhead⟩

/-- Settles O8: NOP's row, the end of a ring's write and the end of a command's own transfer are each one lemma. -/
theorem nopAndHostDma : Obligations.NopAndHostDma := by
  intro s h p q f i ok
  refine ⟨fun a => ?nop, fun hs => ?recordWrite, fun hs hq hstart hdma => ?command⟩
  case nop => rw [exec_nop, runRow_admitted a]
  case recordWrite => rw [exec_hostDmaDone, hostDmaDone_recordWrite f ok s hs]
  case command => rw [exec_hostDmaDone, hostDmaDone_command f i ok s q hs hq hstart hdma]

end Sys2Proof.Machine
end

section
/-! SUPPORT. An admitted command's checks, one by one, and the rows of the key commands. -/
namespace Sys2Proof
open Sys2Proof.Machine

/-! ### What admission gives -/

namespace Admitted

variable {s : State} {r : Row} {p : InProg}

theorem fn_eq (a : Admitted s r p) : p.fn = r.hdr.fn := by
  obtain ⟨-, hfn, -⟩ := dispatched_spec a.found
  exact hfn

theorem unit (a : Admitted s r p) : ∀ x ∈ (r.checks s).unit, x = none := by
  obtain ⟨-, -, -, -, -, hunit, -, -, -, -, -⟩ := first_none a.passes
  exact hunit

theorem state (a : Admitted s r p) : ∀ x ∈ (r.checks s).state, x = none := by
  obtain ⟨-, -, -, -, -, -, -, hstate, -, -, -⟩ := first_none a.passes
  exact hstate

theorem busy (a : Admitted s r p) : ∀ x ∈ (r.checks s).busy, x = none := by
  obtain ⟨-, -, -, -, -, -, -, -, -, hbusy, -⟩ := first_none a.passes
  exact hbusy

theorem slots (a : Admitted s r p) : ∀ x ∈ (r.checks s).slots, x = none := by
  obtain ⟨-, -, -, -, -, -, -, -, -, -, hslots⟩ := first_none a.passes
  exact hslots

end Admitted
end Sys2Proof

namespace Sys2Proof.Machine

@[simp] theorem failIf_eq_none {b : Bool} {st : W16} {d : W32} : failIf b st d = none ↔ b = false := by
  cases b <;> simp [failIf]

/-! ### The rows' meanings -/

theorem exec_joinJob (h : CmdHdr) (job pkg : W16) (len : W32) (buf : Fetched Encap) (s : State) :
    exec (.joinJob h job pkg len buf) s = .next (runRow (joinJobRow h job pkg len buf) (startJoin job buf) s) := rfl
theorem exec_leaveJob (h : CmdHdr) (job : W16) (s : State) :
    exec (.leaveJob h job) s = .next (runRow (leaveJobRow h job) (startLeave job) s) := rfl
theorem exec_keyAlloc (h : CmdHdr) (source : Byte) (len : W32) (buf : Fetched Blob) (s : State) :
    exec (.keyAlloc h source len buf) s = .next (runRow (keyAllocRow h source len buf) (startAlloc source buf) s) := rfl
theorem exec_keyDerive (h : CmdHdr) (parent : W16) (label : Byte) (args : BitVec 128) (s : State) :
    exec (.keyDerive h parent label args) s = .next (runRow (keyDeriveRow h parent label args) (startDerive parent label args) s) := rfl
theorem exec_keyRotate (h : CmdHdr) (kid : W16) (s : State) :
    exec (.keyRotate h kid) s = .next (runRow (keyRotateRow h kid) (startRotate kid) s) := rfl
theorem exec_keyRetire (h : CmdHdr) (kid : W16) (s : State) :
    exec (.keyRetire h kid) s = .next (runRow (keyRetireRow h kid) (startRetire kid) s) := rfl
theorem exec_flushConfirm (kid : W16) (engine : Nat) (s : State) :
    exec (.flushConfirm kid engine) s = .next (whenLive (flushConfirm kid engine) s) := rfl
theorem exec_quarantineEpoch (s : State) : exec .quarantineEpoch s = .next (whenLive quarantineTick s) := rfl

/-! ### Keys placed by command (R120, R121) -/

@[simp] theorem slotCheck_bumpDraw (s : State) : slotCheck (bumpDraw s) = slotCheck s := rfl

/-- A command that ends in placing a key `x`: its KID was UNALLOCATED, and before the completion it is LIVE and maps to `x`. -/
theorem completeKey_spec (p : InProg) (x : SlotSt) (s : State) (h : slotCheck s = none) :
    ∃ (kid : W16) (v : State), completeKey p x s = complete p stOk 0 (kid.setWidth 128) v ∧ v.draws = s.draws ∧
      kidCode (mapFind v.ks.kids kid.toNat) = 1 ∧ mapFind s.ks.kids kid.toNat = none ∧ slotOf v kid = some { x with kid := kid } := by
  obtain ⟨hfree, hlive, hslot, hdraws, -, -⟩ := placed_spec p.fn x s h
  exact ⟨_, _, rfl, hdraws, hlive, hfree, hslot⟩

/-- An admitted KEY_ALLOC has found a free slot and a free KID. -/
theorem slotCheck_of_keyAlloc {s : State} {h : CmdHdr} {source : Byte} {len : W32} {buf : Fetched Blob} {p : InProg}
    (a : Admitted s (keyAllocRow h source len buf) p) : slotCheck s = none := by
  have hslots := a.slots
  simp only [keyAllocRow, allocChecks] at hslots
  split at hslots <;> exact hslots _ (List.mem_singleton.2 rfl)

/-- So has an admitted KEY_DERIVE. -/
theorem slotCheck_of_keyDerive {s : State} {h : CmdHdr} {parent : W16} {label : Byte} {args : BitVec 128} {p : InProg}
    (a : Admitted s (keyDeriveRow h parent label args) p) : slotCheck s = none :=
  a.slots _ (List.mem_singleton.2 rfl)

/-- The slot that KEY_ALLOC fills with key `k` (R123). -/
def allocSlot (p : InProg) (k : Key) : SlotSt := mkSlot k .tenant useBulk p.fn 0 p.ctx p.ctxGen

theorem startAlloc_drawn (buf : Fetched Blob) (p : InProg) (s : State) :
    startAlloc 0 buf p s = completeKey p (allocSlot p (drawn s)) (bumpDraw s) := rfl

theorem startAlloc_imported (b : Blob) (p : InProg) (s : State) {k : Key} (hk : blobKey s p.fn b = some k) :
    startAlloc 1 (.ok b) p s = completeKey p (allocSlot p k) s := by
  simp [startAlloc, hk, allocSlot]

theorem startAlloc_unauthentic (b : Blob) (p : InProg) (s : State) (hk : blobKey s p.fn b = none) :
    startAlloc 1 (.ok b) p s = complete p stAuthFailed 0 0 s := by
  simp [startAlloc, hk]

/-- The slot that KEY_DERIVE of LABEL 1 fills: the STREAM key of the job (R124). -/
def streamSlot (args : BitVec 128) (p : InProg) (s : State) : SlotSt :=
  let use := (if sidSrc (argSid args) = s.fab.id then useSeal else 0) ||| (if sidDst (argSid args) = s.fab.id then useOpen else 0)
  { mkSlot (streamKey (jmkOf s p.fn) (argSid args) (argEpoch args)) .stream use p.fn (jobOf s p.fn) p.ctx p.ctxGen with
    epoch := argEpoch args, subject := (argSid args).setWidth 40, parent := (fnOf s p.fn).jmkKid }

/-- The slot that KEY_DERIVE of another LABEL fills: the TENANT key of its parent (R124). -/
def tenantSlot (parent : W16) (args : BitVec 128) (p : InProg) (s : State) : SlotSt :=
  let job := match slotOf s parent with | some x => x.job | none => 0
  { mkSlot (tenantKey (keyOf s parent) args) .tenant useBulk p.fn job p.ctx p.ctxGen with parent := parent }

theorem startDerive_eq (parent : W16) (label : Byte) (args : BitVec 128) (p : InProg) (s : State) :
    startDerive parent label args p s =
      completeKey p (if label = 1 then streamSlot args p s else tenantSlot parent args p s) s := by
  unfold startDerive
  split <;> rfl

/-! ### KIDs of another owner (R122) -/

theorem kidCodeFor_of_foreign {s : State} {f : Fn} {kid : W16}
    (h : ∀ k, mapFind s.ks.kids kid.toNat = some k → k.owner ≠ some f) : kidCodeFor s f kid = 0 := by
  have hview : kidView s f kid = none := by
    unfold kidView
    split
    · next k hk => exact if_neg (h k hk)
    · rfl
  simp [kidCodeFor, hview, kidCode]

end Sys2Proof.Machine
end

section
/-! SUPPORT. The statements on keys placed by command and on KIDs of another owner. -/
namespace Sys2Proof.Machine

/-- Settles O9: each command ends in placing one key, of the entropy source, of the blob or of the ladder; a blob that does not unwrap
places none. -/
theorem keyAllocAndDerive : Obligations.KeyAllocAndDerive := by
  intro s h p
  refine ⟨fun len buf a => ?drawn, fun len b a => ⟨fun k hk => ?imported, fun hk => ?unauthentic⟩,
    fun parent label args a => ?derived⟩
  case drawn =>
    obtain ⟨kid, v, hend, hdraws, hlive, hfree, hslot⟩ :=
      completeKey_spec p (allocSlot p (drawn s)) (bumpDraw s)
        ((slotCheck_bumpDraw s).trans (slotCheck_of_keyAlloc a))
    refine ⟨kid, v, ?_, hdraws, hlive, hfree, _, hslot, rfl, rfl, rfl, rfl, rfl, rfl⟩
    rw [exec_keyAlloc, runRow_admitted a, startAlloc_drawn, hend]
  case imported =>
    obtain ⟨kid, v, hend, hdraws, hlive, hfree, hslot⟩ := completeKey_spec p (allocSlot p k) s (slotCheck_of_keyAlloc a)
    refine ⟨kid, v, ?_, hdraws, hlive, hfree, _, hslot, rfl, rfl, rfl⟩
    rw [exec_keyAlloc, runRow_admitted a, startAlloc_imported b p s hk, hend]
  case unauthentic =>
    rw [exec_keyAlloc, runRow_admitted a, startAlloc_unauthentic b p s hk]
  case derived =>
    obtain ⟨kid, v, hend, -, hlive, hfree, hslot⟩ := completeKey_spec p
      (if label = 1 then streamSlot args p s else tenantSlot parent args p s) s (slotCheck_of_keyDerive a)
    refine ⟨kid, v, ?_, hlive, hfree, _, hslot, ?owner, fun hl => ?stream, fun hl => ?tenant⟩
    · rw [exec_keyDerive, runRow_admitted a, startDerive_eq, hend]
    case owner => split <;> rfl
    case stream => rw [if_pos hl]; exact ⟨rfl, rfl, rfl⟩
    case tenant => subst hl; exact ⟨rfl, rfl, rfl⟩

/-- Settles O48: the owner's view of the KID table shows no entry, so each command's first state check finds code 0, not LIVE. -/
theorem foreignKidsAreUnallocated : Obligations.ForeignKidsAreUnallocated := by
  intro s h kid hforeign
  have hcode := kidCodeFor_of_foreign hforeign
  refine ⟨hcode, fun args => ?derive, ?retire, fun wrap rid dir => ?park, fun engine mode hk => ?bulk, ?rotate⟩
  case derive => simp [deriveChecks, hcode, failIf]
  case retire => simp [retireChecks, hcode, failIf]
  case park => simp [parkChecks, hcode, failIf]
  case bulk => simpa [openBulkChecks, hcode, failIf] using hk
  case rotate =>
    unfold rotateChecks
    split
    · simp [hcode]
    · simp [hcode, failIf]

end Sys2Proof.Machine
end

section
/-! SUPPORT. A Tocsin (Table 14-3): what it zeroises, what it sends, what it burns and what it logs. -/
namespace Sys2Proof.Machine

/-! ### The knells -/

theorem sendsOnly_knellAll (reason : Byte) (s : State) : SendsOnly s (knellAll reason s) :=
  sendsOnly_eachPort _ (fun _ _ => ((sendsOnly_portMod ..).trans (sendsOnly_sendControl ..)).trans (sendsOnly_portMod ..)) _ s

/-- The state after the knells, which A3 and OFF do not send (R382). -/
def knelled (reason : Byte) (s : State) : State := if s.pkg.power = .a3 ∨ s.pkg.power = .off then s else knellAll reason s

theorem sendsOnly_knelled (reason : Byte) (s : State) : SendsOnly s (knelled reason s) := .ite (.refl s) (sendsOnly_knellAll ..)

/-- A Tocsin finds the functions, the fuses, the always-on words, flash and the power state as they were before the knells. -/
theorem knelled_keeps (reason : Byte) (s : State) :
    (knelled reason s).fns = s.fns ∧ (knelled reason s).otp = s.otp ∧ (knelled reason s).aon = s.aon ∧
      (knelled reason s).flash = s.flash ∧ (knelled reason s).pkg = s.pkg := by
  rw [sendsOnly_knelled reason s]
  exact ⟨rfl, rfl, rfl, rfl, rfl⟩

/-! ### The halt log (R375) -/

/-- The log's ring with the record `r` appended. -/
def withRecord (r : HaltRec) (l : List (HaltRec × Bool)) : List (HaltRec × Bool) :=
  (l ++ [(r, false)]).drop ((l ++ [(r, false)]).length - Config.haltLog)

theorem getLast?_withRecord (r : HaltRec) (l : List (HaltRec × Bool)) : (withRecord r l).getLast? = some (r, false) := by
  have hkeeps : ¬ (l ++ [(r, false)]).length ≤ (l ++ [(r, false)]).length - Config.haltLog := by
    rw [List.length_append, List.length_singleton, Config.haltLog]
    omega
  rw [withRecord, List.getLast?_drop, if_neg hkeeps, List.getLast?_concat]

theorem length_withRecord (r : HaltRec) (l : List (HaltRec × Bool)) : (withRecord r l).length ≤ Config.haltLog := by
  simp only [withRecord, List.length_drop]
  omega

/-! ### The fuses (R143) -/

/-- Word 7 with the 24 DRS_KILL bits burned. -/
def withKill (o : OtpSt) : OtpSt := { o with owner := o.owner ||| 0xFFFFFF000000 }

theorem killed_withKill (o : OtpSt) : killed (withKill o) = true := by
  have hbit : (withKill o).owner.toNat.testBit 24 = true := by
    rw [withKill, BitVec.toNat_or, Nat.testBit_or]
    exact Bool.or_eq_true_iff.2 (.inr (by decide))
  have hfield : ((withKill o).owner.toNat / 2 ^ 24 % 2 ^ 24).testBit 0 = true := by
    rw [Nat.testBit_mod_two_pow, Nat.testBit_div_two_pow, hbit]
    decide
  refine decide_eq_true fun hz => ?_
  rw [hz] at hfield
  exact absurd hfield (by decide)

/-! ### The halt -/

/-- The state of a Tocsin before its record is logged, from the state `k` after the knells. -/
def halted (lv : Byte) (r : HaltRec) (k : State) : State :=
  let z := zeroiseAll (tdisError k)
  let v := { z with opens := z.opens + 1
                    aon := { z.aon with halt := r, haltPin := true, tocsin := lv.toNat, nonce := none }
                    pkg := { z.pkg with phase := .halted } }
  dropHost (if lv = 2 then burnKill v else v)

theorem halted_frame (lv : Byte) (r : HaltRec) (k : State) :
    halted lv r k = { zeroiseAll (tdisError k) with
      out := (halted lv r k).out, opens := k.opens + 1, otp := (halted lv r k).otp, ide := {}
      aon := { k.aon with halt := r, haltPin := true, tocsin := lv.toNat, nonce := none
                          kill := (halted lv r k).aon.kill, weak := (halted lv r k).aon.weak }
      pkg := { k.pkg with phase := .halted } } := by
  unfold halted
  split <;> rfl

theorem halted_otp (lv : Byte) (r : HaltRec) (k : State) : (halted lv r k).otp = if lv = 2 then withKill k.otp else k.otp := by
  unfold halted
  split <;> rfl

theorem halted_kill (r : HaltRec) (k : State) : (halted 2 r k).aon.kill = true := killed_withKill k.otp

/-- Both host links report, then drop (R169). -/
theorem halted_out (lv : Byte) (r : HaltRec) (k : State) :
    ∃ o, (halted lv r k).out = o ++ [.pcieUncorrectable 0, .pcieUncorrectable 1, .linkDisable 0, .linkDisable 1] := by
  refine ⟨(if lv = 2 then k.out ++ [.killBurn] else k.out), ?_⟩
  unfold halted
  split <;> simp [dropHost, hostLost, burnKill, zeroiseAll, zeroiseKeys, tdisError]

theorem tocsin_eq (i : HaltInfo) (lv : Byte) (src : W32) (why : Byte) (s : State) :
    tocsin i lv src why s =
      let r := haltRecord i lv src s
      let v := halted lv r (knelled why s)
      if v.pkg.power = .off then v else logHalt r v := rfl

/-- The log's write adds to what the halt has sent and changes flash; it leaves the rest. -/
theorem tocsin_of_halted (i : HaltInfo) (lv : Byte) (src : W32) (why : Byte) (s : State) :
    let v := halted lv (haltRecord i lv src s) (knelled why s)
    ∃ o, tocsin i lv src why s = { v with out := v.out ++ o, flash := (tocsin i lv src why s).flash } := by
  rw [tocsin_eq]
  dsimp only
  split
  · exact ⟨[], by rw [List.append_nil]⟩
  · exact ⟨[_], rfl⟩

/-- A Tocsin leaves of the state what `zeroiseAll` leaves, but for what it sends, the record it latches, the host links it drops, the
fuses it burns and the log. -/
theorem tocsin_frame (i : HaltInfo) (lv : Byte) (src : W32) (why : Byte) (s : State) :
    let t := tocsin i lv src why s
    t = { zeroiseAll (tdisError (knelled why s)) with
      out := t.out, opens := t.opens, otp := t.otp, flash := t.flash, ide := {}
      aon := { s.aon with halt := haltRecord i lv src s, haltPin := true, tocsin := lv.toNat, nonce := none
                          kill := t.aon.kill, weak := t.aon.weak }
      pkg := t.pkg } := by
  obtain ⟨o, ht⟩ := tocsin_of_halted i lv src why s
  obtain ⟨-, -, haon, -, -⟩ := knelled_keeps why s
  dsimp only
  rw [ht, halted_frame, haon]

theorem tocsin_otp (i : HaltInfo) (lv : Byte) (src : W32) (why : Byte) (s : State) :
    (tocsin i lv src why s).otp = if lv = 2 then withKill s.otp else s.otp := by
  obtain ⟨o, ht⟩ := tocsin_of_halted i lv src why s
  obtain ⟨-, hotp, -, -, -⟩ := knelled_keeps why s
  rw [ht, ← hotp]
  exact halted_otp ..

theorem tocsin_kill (i : HaltInfo) (src : W32) (why : Byte) (s : State) : (tocsin i 2 src why s).aon.kill = true := by
  obtain ⟨o, ht⟩ := tocsin_of_halted i 2 src why s
  rw [ht]
  exact halted_kill (haltRecord i 2 src s) (knelled why s)

theorem tocsin_out (i : HaltInfo) (lv : Byte) (src : W32) (why : Byte) (s : State) :
    ∃ o o', (tocsin i lv src why s).out = o ++ [.pcieUncorrectable 0, .pcieUncorrectable 1, .linkDisable 0, .linkDisable 1] ++ o' := by
  obtain ⟨o', ht⟩ := tocsin_of_halted i lv src why s
  obtain ⟨o, ho⟩ := halted_out lv (haltRecord i lv src s) (knelled why s)
  exact ⟨o, o', by rw [ht, ← ho]⟩

/-- The log's write comes where the flash port has power (R375, R382). -/
theorem tocsin_haltLog (i : HaltInfo) (lv : Byte) (src : W32) (why : Byte) (s : State) (h : s.pkg.power ≠ .off) :
    (tocsin i lv src why s).flash.haltLog = withRecord (haltRecord i lv src s) s.flash.haltLog := by
  obtain ⟨-, -, -, hflash, hpkg⟩ := knelled_keeps why s
  have hon : (halted lv (haltRecord i lv src s) (knelled why s)).pkg.power ≠ .off := by
    rw [halted_frame, hpkg]
    exact h
  have hlog : (halted lv (haltRecord i lv src s) (knelled why s)).flash = s.flash := by
    rw [halted_frame, ← hflash]
    rfl
  rw [tocsin_eq]
  dsimp only
  rw [if_neg hon, ← hlog]
  rfl

/-! ### The functions (R142, R164) -/

/-- What a Tocsin leaves of a function. -/
def endedFn (x : FnSt) : FnSt :=
  { (if x.enabled then { x with tdi := { x.tdi with state := .error, nonce := none, stopOwed := [] } } else x) with
    job := none, jmkKid := 0, save := none, restore := none, nonceS := none, heldFilter := none, migKids := [] }

theorem zeroiseAll_tdisError_fns (s : State) : (zeroiseAll (tdisError s)).fns = s.fns.map (fun e => (e.1, endedFn e.2)) := by
  simp only [zeroiseAll, zeroiseKeys, tdisError, List.map_map]
  refine List.map_congr_left fun e _ => ?_
  cases he : e.2.enabled <;> simp [endedFn, he]

theorem endedFn_keeps (x : FnSt) : (endedFn x).gen = x.gen ∧ (endedFn x).enabled = x.enabled := by
  unfold endedFn
  split <;> exact ⟨rfl, rfl⟩

theorem endedFn_tdi (x : FnSt) (h : x.enabled = true) : (endedFn x).tdi.state = .error ∧ (endedFn x).tdi.nonce = none := by
  simp [endedFn, h]

end Sys2Proof.Machine
end

section
/-! SUPPORT. The statement on a Tocsin. -/
namespace Sys2Proof.Machine

/-- Settles O53: a Tocsin leaves what `zeroiseAll` leaves, with the record latched and logged, the fuses of level 2 burned and the
host links dropped. -/
theorem tocsinZeroises : Obligations.TocsinZeroises := by
  intro i lv src why s t
  have hframe : t = _ := tocsin_frame i lv src why s
  have hotp : t.otp = if lv = 2 then withKill s.otp else s.otp := tocsin_otp i lv src why s
  have hfns : t.fns = s.fns.map (fun e => (e.1, endedFn e.2)) := by
    obtain ⟨hkept, -, -, -, -⟩ := knelled_keeps why s
    rw [hframe, ← hkept]
    exact zeroiseAll_tdisError_fns _
  have hhalt : t.aon.halt = haltRecord i lv src s := by rw [hframe]
  have hword : t.aon.stateWord = s.aon.stateWord ∧ t.aon.progressWord = s.aon.progressWord ∧ t.aon.nonce = none := by
    rw [hframe]
    exact ⟨rfl, rfl, rfl⟩
  obtain ⟨hstate, hprogress, hnonce⟩ := hword
  refine ⟨?_, ?_, ?_, ?_, ?_, ?_, ?_, ?_, ?_, ?_, ?_, ?_, ?_, ?_, ?_, ?_, ?_, ?_, ?_, ?_, ?_, ?_, ?_, ?ide, ?_, ?_, ?_, ?_, ?_, hnonce,
    ?fns, ?kept, ?links, ?level2, ?level1, ?fuses, hstate, hprogress, ?log⟩
  case fns =>
    intro e he
    rw [hfns, List.mem_map] at he
    obtain ⟨x, -, rfl⟩ := he
    refine ⟨rfl, rfl, rfl, rfl, rfl, rfl, fun hen => endedFn_tdi x.2 ?_⟩
    rwa [(endedFn_keeps x.2).2] at hen
  case kept =>
    rw [hfns, List.map_map]
    refine List.map_congr_left fun e _ => ?_
    obtain ⟨hgen, hen⟩ := endedFn_keeps e.2
    simp only [Function.comp_apply, hgen, hen]
  case links =>
    obtain ⟨o, o', hout⟩ := tocsin_out i lv src why s
    have hout : t.out = _ := hout
    simp [hout]
  case level2 =>
    rintro rfl
    exact ⟨congrArg OtpSt.owner hotp, tocsin_kill i src why s⟩
  case level1 => exact fun hl => hotp.trans (if_neg hl)
  case fuses =>
    rw [hotp]
    split <;> rfl
  case log =>
    intro hp
    have hlog : t.flash.haltLog = _ := tocsin_haltLog i lv src why s hp
    rw [hlog, hhalt]
    exact ⟨getLast?_withRecord .., Nat.le_trans (length_withRecord ..) (Nat.le_max_left ..)⟩
  case ide => rw [hframe]
  all_goals
    rw [hframe]
    rfl

end Sys2Proof.Machine
end

section
/-! SUPPORT. The end of a key (R136, R138): what a retirement, an engine's flush and a quarantine epoch make of the KID table. -/
namespace Sys2Proof.Machine

theorem setKid_ks {kid : W16} {s : State} {k : KidSt} (st : KidState) (hk : mapFind s.ks.kids kid.toNat = some k) :
    (setKid kid st s).ks = { s.ks with kids := mapSet s.ks.kids kid.toNat { k with st := st } } := by
  simp only [setKid, hk]

theorem cachedIn_congr {s t : State} (kid : W16) (h : t.ks.caches = s.ks.caches) : cachedIn t kid = cachedIn s kid := by
  rw [cachedIn, h, cachedIn]

/-- R136 steps 1 and 2 for a KID that is LIVE or SUSPENDED: it is RETIRING, and step 3 follows. -/
theorem retireKid_of_usable {kid : W16} {s : State} {k : KidSt} (hk : mapFind s.ks.kids kid.toNat = some k)
    (hst : k.st = .live ∨ k.st = .suspended) :
    ∃ w, retireKid kid s = finishRetire kid w ∧
      w.ks = { s.ks with kids := mapSet s.ks.kids kid.toNat { k with st := .retiring } } := by
  rcases hst with hlive | hsuspended
  · exact ⟨traceKid kid 1 3 (setKid kid .retiring s), by simp only [retireKid, hk, hlive], setKid_ks .retiring hk⟩
  · exact ⟨traceKid kid 2 3 (setKid kid .retiring s), by simp only [retireKid, hk, hsuspended], setKid_ks .retiring hk⟩

/-- While an engine caches the key the retirement does not end. -/
theorem finishRetire_cached {kid : W16} {s : State} (hc : cachedIn s kid ≠ []) : finishRetire kid s = s := by
  unfold finishRetire
  split
  · exact if_neg fun h => hc (List.isEmpty_iff.1 h.2)
  · rfl

/-- Where no engine caches the key, its slot is freed and its KID is QUARANTINED (R136 step 3). -/
theorem finishRetire_uncached {kid : W16} {s : State} {k : KidSt} (hk : mapFind s.ks.kids kid.toNat = some k)
    (hst : k.st = .retiring) (hc : cachedIn s kid = []) :
    (finishRetire kid s).ks = { s.ks with
      slots := mapErase s.ks.slots k.slot, kids := mapSet s.ks.kids kid.toNat { k with st := .quarantined s.ks.epoch } } := by
  simp [finishRetire, hk, hst, hc, traceKid, trace]

theorem retireKid_of_cached {kid : W16} {s : State} {k : KidSt} (hk : mapFind s.ks.kids kid.toNat = some k)
    (hst : k.st = .live ∨ k.st = .suspended) (hc : cachedIn s kid ≠ []) :
    mapFind (retireKid kid s).ks.kids kid.toNat = some { k with st := .retiring } ∧ (retireKid kid s).ks.slots = s.ks.slots := by
  obtain ⟨w, hr, hw⟩ := retireKid_of_usable hk hst
  have hcw : cachedIn w kid = cachedIn s kid := cachedIn_congr kid (by rw [hw])
  rw [hr, finishRetire_cached (hcw ▸ hc), hw]
  exact ⟨mapFind_mapSet_self .., rfl⟩

theorem retireKid_of_uncached {kid : W16} {s : State} {k : KidSt} (hk : mapFind s.ks.kids kid.toNat = some k)
    (hst : k.st = .live ∨ k.st = .suspended) (hc : cachedIn s kid = []) :
    mapFind (retireKid kid s).ks.kids kid.toNat = some { k with st := .quarantined s.ks.epoch } ∧
      (retireKid kid s).ks.slots = mapErase s.ks.slots k.slot := by
  obtain ⟨w, hr, hw⟩ := retireKid_of_usable hk hst
  have hcw : cachedIn w kid = cachedIn s kid := cachedIn_congr kid (by rw [hw])
  have hkw : mapFind w.ks.kids kid.toNat = some { k with st := .retiring } := by rw [hw]; exact mapFind_mapSet_self ..
  rw [hr, finishRetire_uncached hkw rfl (hcw.trans hc), hw]
  exact ⟨mapFind_mapSet_self .., rfl⟩

/-- A KID that QUARANTINE_EPOCH keeps (R138), `e` being the new epoch. -/
theorem mem_quarantineTick {s : State} {x : Nat × KidSt} (hx : x ∈ s.ks.kids) :
    x ∈ (quarantineTick s).ks.kids ↔ ¬ ∃ q, x.2.st = .quarantined q ∧ q + 2 ≤ s.ks.epoch + 1 := by
  simp only [quarantineTick, List.mem_filter, hx, true_and]
  split
  · next q hq => simp [hq]
  · next hq => simpa using fun q h => (hq q h).elim

end Sys2Proof.Machine
end

section
/-! SUPPORT. The statement on the retirement of keys. -/
namespace Sys2Proof.Machine

/-- Settles O10: the retirement ends at once or waits for its engines; a flush takes one engine's entry, an epoch the KIDs that aged. -/
theorem retirementOfKeys : Obligations.RetirementOfKeys := by
  intro s h p kid e
  refine ⟨fun a => ?retire, fun k hk hst => ⟨retireKid_of_cached hk hst, retireKid_of_uncached hk hst⟩,
    fun hs => ⟨fun hf => ?flush, fun hf => ?ignored, quarantineTick s, ?epoch, rfl, fun x => mem_quarantineTick⟩⟩
  case retire => rw [exec_keyRetire, runRow_admitted a, startRetire]
  case flush => rw [exec_flushConfirm, whenLive_live _ _ hs, flushConfirm, if_pos hf]
  case ignored => rw [exec_flushConfirm, whenLive_live _ _ hs, flushConfirm, if_neg hf]
  case epoch => rw [exec_quarantineEpoch, whenLive_live _ _ hs]

end Sys2Proof.Machine
end

section
/-! SUPPORT. JOIN_JOB, LEAVE_JOB, KEY_ROTATE, PARK and RESUME: what their admission gives, and the parts that follow. -/
namespace Sys2Proof.Machine

/-! ### What admission gives -/

/-- KEY_ROTATE names the key of a stream open for sending (R139). -/
theorem sendOfKid_of_keyRotate {s : State} {h : CmdHdr} {kid : W16} {p : InProg} (a : Admitted s (keyRotateRow h kid) p) :
    ∃ t, sendOfKid s p.fn kid = some t := by
  have hstate := a.state
  rw [a.fn_eq]
  cases ht : sendOfKid s h.fn kid with
  | some t => exact ⟨t, ht⟩
  | none => simp [keyRotateRow, rotateChecks, ht] at hstate

/-- The state check of a directory entry passes only where the job has its directory on this keeper. -/
theorem dirOf_of_dirChecks {s : State} {f : Fn} {di : W32} (h : (dirChecks s f di).1 = none) : ∃ dir, dirOf s (jobOf s f) = some dir := by
  cases hd : dirOf s (jobOf s f) with
  | some dir => exact ⟨dir, rfl⟩
  | none => simp [dirChecks, hd] at h

/-- PARK names a region by its KID and id (R132). -/
theorem regionByKid_of_park {s : State} {h : CmdHdr} {kid : W16} {wrap : Byte} {rid : W64} {di : W32} {p : InProg}
    (a : Admitted s (parkRow h kid wrap rid di) p) : ∃ key, regionByKid s p.fn kid rid = some key := by
  have hstate := a.state
  rw [a.fn_eq]
  cases hk : regionByKid s h.fn kid rid with
  | some key => exact ⟨key, hk⟩
  | none => simp [parkRow, parkChecks, hk] at hstate

theorem dirOf_of_park {s : State} {h : CmdHdr} {kid : W16} {wrap : Byte} {rid : W64} {di : W32} {p : InProg}
    (a : Admitted s (parkRow h kid wrap rid di) p) : ∃ dir, dirOf s (jobOf s p.fn) = some dir := by
  rw [a.fn_eq]
  exact dirOf_of_dirChecks (di := di) (a.state _ (by simp [parkRow, parkChecks]))

theorem dirOf_of_resume {s : State} {h : CmdHdr} {wrap engine : Byte} {rid : W64} {di : W32} {p : InProg}
    (a : Admitted s (resumeRow h wrap engine rid di) p) : ∃ dir, dirOf s (jobOf s p.fn) = some dir := by
  rw [a.fn_eq]
  exact dirOf_of_dirChecks (di := di) (a.state _ (by simp [resumeRow, resumeChecks]))

/-- An ENGINE operand that is present and not under SELF_TEST picks an engine (R277, R394). -/
theorem pickEngine_of_checks {s : State} {engine : Byte} (hpresent : engineCheck s engine = none) (hquiet : engineTesting s engine = none) :
    ∃ e, pickEngine s engine = some e := by
  rw [engineCheck, failIf_eq_none] at hpresent
  rw [engineTesting, failIf_eq_none] at hquiet
  unfold pickEngine
  split at hpresent
  case isTrue hany =>
    rw [if_pos hany] at hquiet ⊢
    exact Option.isSome_iff_exists.1 (by simpa using hquiet)
  case isFalse hone =>
    rw [if_neg hone, if_pos (by simpa using hpresent)]
    exact ⟨_, rfl⟩

theorem pickEngine_of_resume {s : State} {h : CmdHdr} {wrap engine : Byte} {rid : W64} {di : W32} {p : InProg}
    (a : Admitted s (resumeRow h wrap engine rid di) p) : ∃ e, pickEngine s engine = some e :=
  pickEngine_of_checks (a.unit _ (by simp [resumeRow, resumeChecks])) (a.busy _ (by simp [resumeRow, resumeChecks]))

/-! ### First parts -/

theorem exec_park (h : CmdHdr) (kid : W16) (wrap : Byte) (rid : W64) (di : W32) (s : State) :
    exec (.park h kid wrap rid di) s = .next (runRow (parkRow h kid wrap rid di) (startPark kid wrap rid di) s) := rfl
theorem exec_resume (h : CmdHdr) (wrap engine : Byte) (rid : W64) (di : W32) (s : State) :
    exec (.resume h wrap engine rid di) s = .next (runRow (resumeRow h wrap engine rid di) (startResume wrap engine rid di) s) := rfl

theorem startJoin_ok (job : W16) (e : Encap) (p : InProg) (s : State) :
    startJoin job (.ok e) p s = goOn p { kxe := true }
      (.join job (reserveKid p.fn s).1 ((joinKey s e).getD 0) (e.keHash == s.ks.keHash && (joinKey s e).isSome)) (reserveKid p.fn s).2 := rfl

/-- LEAVE_JOB waits for the ring's PARK, RESUME, KEEPER_HANDOVER and REDUCE (R117). -/
theorem startLeave_eq (job : W16) (p : InProg) (s : State) :
    startLeave job p s = goOn p
      { cmds := ((progOf s p.fn).filter (fun q => q.opcode == 0x14 || q.opcode == 0x15 || q.opcode == 0x22 || q.opcode == 0x23)).map
          (fun q => (q.fn, q.idx)) } (.leave job) s := by
  have hops (b : Byte) : [0x14, 0x15, 0x22, 0x23].contains b = (b == 0x14 || b == 0x15 || b == 0x22 || b == 0x23) := by
    simp only [List.contains_cons, List.contains_nil, Bool.or_false, Bool.or_assoc]
  simp only [startLeave, hops]

theorem startRotate_of_stream {kid : W16} {p : InProg} {s : State} {t : SendSt} (ht : sendOfKid s p.fn kid = some t) :
    startRotate kid p s = enqueue t.port (.seal t.job t.sid 0x08 1 0xFFFF 0 0 0 [] 0xFFFF)
      (goOn p { seals := [(t.job, t.sid)] } (.rotate t.job t.sid) (placeNext t s)) := by
  simp only [startRotate, ht]

/-- Reserving a KID changes the key store alone. -/
theorem reserveKid_frame (f : Fn) (s : State) : ∃ ks, (reserveKid f s).2 = { s with ks := ks } := by
  unfold reserveKid
  split
  · exact ⟨_, rfl⟩
  · exact ⟨s.ks, rfl⟩

theorem startPark_eq {kid : W16} {wrap : Byte} {rid : W64} {di : W32} {p : InProg} {s : State} {key dir : Nat}
    (hk : regionByKid s p.fn kid rid = some key) (hd : dirOf s (jobOf s p.fn) = some dir) :
    startPark kid wrap rid di p s =
      let s1 := regionMod key (fun r => { r with state := .parking, opcode := 0x14 }) s
      let j := cmdJob p dir .read (di.toNat * 256) 256 [] s1
      poolPump (goOn p { jobs := [j.1] } (.park key dir kid di (wrap == 1) 0 j.1) j.2) := by
  simp only [startPark, hk, hd]

theorem startResume_eq {wrap engine : Byte} {rid : W64} {di : W32} {p : InProg} {s : State} {dir e : Nat}
    (hd : dirOf s (jobOf s p.fn) = some dir) (he : pickEngine s engine = some e) :
    startResume wrap engine rid di p s =
      let k := reserveKid p.fn s
      let r := newRegion p.fn (jobOf s p.fn) (rid.setWidth 40) (rid.setWidth 40) p.ctx p.ctxGen 0 s.fab.id 0 0 e k.1 .creating 0 0 0x15
      let j := cmdJob p dir .read (di.toNat * 256) 256 []
        { k.2 with regions := mapSet s.regions s.nextRegion r, nextRegion := s.nextRegion + 1, opens := s.opens + 1 }
      poolPump (goOn p { jobs := [j.1] } (.resume s.nextRegion dir k.1 di (wrap == 1) 0 j.1) j.2) := by
  obtain ⟨ks, hks⟩ := reserveKid_frame p.fn s
  simp only [startResume, hd, he, hks]
  rfl

end Sys2Proof.Machine
end

section
/-! SUPPORT. The statement on the first parts of JOIN_JOB, LEAVE_JOB and KEY_ROTATE. -/
namespace Sys2Proof.Machine

/-- Settles O11: each command's first part is one lemma; KEY_ROTATE's stream is the one its state check has found. -/
theorem joinLeaveRotateBegin : Obligations.JoinLeaveRotateBegin := by
  intro s h p
  refine ⟨fun job pkg len e a => ?join, fun job a => ?leave, fun kid a => ?rotate⟩
  case join => rw [exec_joinJob, runRow_admitted a, startJoin_ok]
  case leave => rw [exec_leaveJob, runRow_admitted a, startLeave_eq]
  case rotate =>
    obtain ⟨t, ht⟩ := sendOfKid_of_keyRotate a
    refine ⟨t, ht, ?_⟩
    rw [exec_keyRotate, runRow_admitted a, startRotate_of_stream ht]

end Sys2Proof.Machine
end

section
/-! SUPPORT. PARK's and RESUME's parts (R132, R133) and the checkpoint of a directory (R135). -/
namespace Sys2Proof.Machine

/-! ### Parts of PARK and RESUME -/

section Parts
variable {q : InProg} {key dir : Nat} {kid : W16} {di : W32} {dur : Bool} {id : Nat} {s : State} {r d : RegionSt}
  (hr : regionAt s key = some r) (hd : regionAt s dir = some d)
include hr hd

/-- The entry has been read and is not free. -/
theorem actPark_entryTaken {dt : W32} {data : List Byte} {u : State} (hj : takeJob id s = (stOk, dt, data, u))
    (he : entryFree data d.base = false) :
    actPark q key dir kid di dur 0 id s =
      complete q stBadState (BitVec.ofNat 32 (entryState data)) 0 (regionMod key RegionSt.backLive u) := by
  simp [actPark, hr, hd, hj, he]

/-- The entry has been read and is free. -/
theorem actPark_entryFree {dt : W32} {data : List Byte} {u : State} (hj : takeJob id s = (stOk, dt, data, u))
    (he : entryFree data d.base = true) :
    actPark q key dir kid di dur 0 id s = goOn q {} (.park key dir kid di dur 1 0) u := by
  simp [actPark, hr, hd, hj, he]

/-- The region stands at its home: its wrapped key and root go to the entry. -/
theorem actPark_clean (hc : regionClean s key = true) :
    actPark q key dir kid di dur 1 id s =
      let line := entryLine r dur s.pkg.boot d.base (Config.kwWrap (wrapKey s q.fn dur) (entryPlain (keyOf s kid) r.root r.rid r.epoch di))
      let j := cmdJob q dir .write (di.toNat * 256) 256 line s
      poolPump (goOn q { jobs := [j.1] } (.park key dir kid di dur 2 j.1) j.2) := by
  simp only [actPark, hr, hd, if_pos hc]

/-- The checkpoint has been written: the KID retires. -/
theorem actPark_checkpointed :
    actPark q key dir kid di dur 3 id s = goOn q { kids := [kid] } (.park key dir kid di dur 4 0) (retireKid kid s) := by
  simp only [actPark, hr, hd]

/-- The KID has retired: the region leaves the table. -/
theorem actPark_retired : actPark q key dir kid di dur 4 id s = complete q stOk 0 0 (parkRegion key s) := by
  simp only [actPark, hr, hd]

/-- The entry has been emptied, and the checkpoint written where one is due. -/
theorem actResume_checkpointed :
    actResume q key dir kid di dur 2 id s =
      complete q stOk 0 (kid.setWidth 128) (regionMod key RegionSt.backLive (activateKid kid (unparkFences key s))) := by
  simp only [actResume, hr, hd]

end Parts

/-! ### CHECKPOINT_WRITE (R135) -/

theorem exec_checkpointWrite (job : W16) (s : State) : exec (.checkpointWrite job) s = .next (whenLive (checkpointWrite job) s) := rfl

/-- A checkpoint in flash that this package made for `job` with its directory at `home`. -/
def isMine (job : W16) (home : BitVec 12) (s : State) (c : Checkpoint) : Bool :=
  c.job == job && c.keeper == s.fab.id && c.home == home

/-- The checkpoint of a clean directory `d` that goes to flash. -/
def nextCheckpoint (job : W16) (d : RegionSt) (s : State) : Checkpoint :=
  { job := job, keeper := s.fab.id, home := d.home
    seq := BitVec.ofNat 64 (((s.flash.checkpoints.filter (isMine job d.home s)).map (fun c => c.seq.toNat)).foldl max 0 + 1)
    boot := BitVec.ofNat 64 s.pkg.boot, wrapped := Config.kwWrap (wrapKey s .pf true) (le 64 d.root.toNat) }

section Checkpoint
variable {job : W16} {dir : Nat} {d : RegionSt} {s : State} (hdir : dirOf s job = some dir) (hd : regionAt s dir = some d)
include hdir hd

theorem checkpointWrite_unawaited (hw : s.prog.any (awaitsCheckpoint dir) = false) : checkpointWrite job s = s := by
  simp [checkpointWrite, hdir, hd, hw]

theorem checkpointWrite_dirty (hw : s.prog.any (awaitsCheckpoint dir) = true) (hc : regionClean s dir = false) :
    checkpointWrite job s = settle (poolPump (writeBackAll dir d.depth 1 s)) := by
  simp [checkpointWrite, hdir, hd, hw, hc]

theorem checkpointWrite_clean (hw : s.prog.any (awaitsCheckpoint dir) = true) (hc : regionClean s dir = true) :
    checkpointWrite job s = settle { emit .flashWrite s with
      flash := { s.flash with checkpoints :=
        s.flash.checkpoints.filter (fun c => !isMine job d.home s c) ++ [nextCheckpoint job d s] }
      prog := s.prog.map (fun q => if awaitsCheckpoint dir q then { q with hold := { q.hold with checkpoint := false } } else q) } := by
  simp only [checkpointWrite, hdir, hd, hw, hc]
  rfl

end Checkpoint

end Sys2Proof.Machine
end

section
/-! SUPPORT. The statement on PARK, RESUME and CHECKPOINT_WRITE. -/
namespace Sys2Proof.Machine

/-- Settles O12: the two rows, PARK's and RESUME's parts and the checkpoint are each one lemma. -/
theorem parkResumeCheckpoint : Obligations.ParkResumeCheckpoint := by
  intro s h p
  refine ⟨fun kid wrap rid di a => ?park, fun wrap engine rid di a => ?resume,
    fun q key dir kid di dur id r d hr hd => ⟨fun w dt data u hj => ⟨?taken, ?free⟩, actPark_clean hr hd, actPark_checkpointed hr hd,
      actPark_retired hr hd, actResume_checkpointed hr hd⟩,
    fun hs job dir d hdir hd => ⟨fun hw => ?unawaited, fun hw hc => ?dirty, fun hw hc => ?clean⟩⟩
  case park =>
    obtain ⟨key, hk⟩ := regionByKid_of_park a
    obtain ⟨dir, hd⟩ := dirOf_of_park a
    refine ⟨key, dir, hk, hd, ?_⟩
    dsimp only
    rw [exec_park, runRow_admitted a, startPark_eq hk hd]
  case resume =>
    obtain ⟨dir, hd⟩ := dirOf_of_resume a
    obtain ⟨e, he⟩ := pickEngine_of_resume a
    refine ⟨dir, e, hd, he, ?_⟩
    dsimp only
    rw [exec_resume, runRow_admitted a, startResume_eq hd he]
  case taken =>
    rintro rfl he
    exact actPark_entryTaken hr hd hj he
  case free =>
    rintro rfl he
    exact actPark_entryFree hr hd hj he
  case unawaited => rw [exec_checkpointWrite, whenLive_live _ _ hs, checkpointWrite_unawaited hdir hd hw]
  case dirty => rw [exec_checkpointWrite, whenLive_live _ _ hs, checkpointWrite_dirty hdir hd hw hc]
  case clean =>
    refine ⟨nextCheckpoint job d s, rfl, rfl, rfl, rfl, rfl, rfl, ?_⟩
    rw [exec_checkpointWrite, whenLive_live _ _ hs, checkpointWrite_clean hdir hd hw hc]
    rfl

end Sys2Proof.Machine
end

section
/-! SUPPORT. The DOE mailboxes (R146): which request a mailbox serves, and what each row of the SPDM responder then makes of the state. -/
namespace Sys2Proof.Machine

/-! ### Requests that are served -/

/-- The state that a request of port `p` is answered in: the mailboxes' round-robin pointer has moved past it. -/
def turned (p : BitVec 1) (s : State) : State := { s with mailArb := ~~~p }

theorem mail_serves {s : State} {p : BitVec 1} (h : MailServes s p) (me : Instr) (f : State → State) :
    mail p me f s = f (turned p s) := by
  have hoff : s.pkg.power ≠ .off ∧ s.pkg.power ≠ .a3 ∧ s.pkg.power ≠ .a2 := by
    rcases h.awake with e | e <;> simp [e]
  obtain ⟨hoff, ha3, ha2⟩ := hoff
  simp [mail, turned, h.ready, h.free, hoff, ha3, ha2]

/-- The row of the responder, of IDE_KM or of TDISP that brings the request `q` runs it as an SPDM request. -/
theorem exec_of_mailReq {c : Instr} {q : SpdmReq} (s : State) (h : mailReq c = some q) :
    ∃ f : State → State, exec c s = .next (spdm q c f s) := by
  unfold mailReq at h
  split at h <;> cases h <;> exact ⟨_, rfl⟩

section Served
variable {s : State} {q : SpdmReq} (h : MailServes s q.port)
include h

theorem spdm_parity (hp : q.parity = true) (me : Instr) (f : State → State) : spdm q me f s = parityDrop q (turned q.port s) := by
  rw [spdm, mail_serves h, if_pos hp]

theorem spdm_version (hp : q.parity = false) (hv : q.version13 = false) (me : Instr) (f : State → State) :
    spdm q me f s = respond q.port (.error eVersion 0) (turned q.port s) := by
  rw [spdm, mail_serves h, hp, hv]; rfl

theorem spdm_serves (hp : q.parity = false) (hv : q.version13 = true) (me : Instr) (f : State → State) :
    spdm q me f s = f (turned q.port s) := by
  rw [spdm, mail_serves h, hp, hv]; rfl

/-- A request that is served ends in what its row's function makes of the state with the pointer turned. -/
theorem exec_serves (hp : q.parity = false) (hv : q.version13 = true) {c : Instr} {f : State → State} {t : State}
    (hc : exec c s = .next (spdm q c f s)) (ht : f (turned q.port s) = t) : exec c s = .next t := by
  rw [hc, spdm_serves h hp hv, ht]

end Served

/-! ### A mailbox's own state -/

@[simp] theorem mailOf_mailMod_self (p : BitVec 1) (g : MailSt → MailSt) (s : State) : mailOf (mailMod p g s) p = g (mailOf s p) := by
  obtain rfl | rfl : p = 0 ∨ p = 1 := by revert p; decide
  all_goals rfl

theorem mailOf_mailMod_not (p : BitVec 1) (g : MailSt → MailSt) (s : State) : mailOf (mailMod p g s) (~~~p) = mailOf s (~~~p) := by
  obtain rfl | rfl : p = 0 ∨ p = 1 := by revert p; decide
  all_goals rfl

/-- A change of a mailbox leaves the rest of the block. -/
theorem mailMod_frame (p : BitVec 1) (g : MailSt → MailSt) (s : State) :
    mailMod p g s = { s with mail0 := (mailMod p g s).mail0, mail1 := (mailMod p g s).mail1 } := by
  unfold mailMod; split <;> rfl

@[simp] theorem mailMod_draws (p : BitVec 1) (g : MailSt → MailSt) (s : State) : (mailMod p g s).draws = s.draws := by rw [mailMod_frame]
@[simp] theorem mailMod_out (p : BitVec 1) (g : MailSt → MailSt) (s : State) : (mailMod p g s).out = s.out := by rw [mailMod_frame]
@[simp] theorem mailMod_ks (p : BitVec 1) (g : MailSt → MailSt) (s : State) : (mailMod p g s).ks = s.ks := by rw [mailMod_frame]
@[simp] theorem mailMod_nextSession (p : BitVec 1) (g : MailSt → MailSt) (s : State) : (mailMod p g s).nextSession = s.nextSession := by
  rw [mailMod_frame]
@[simp] theorem mailOf_emit (o : Output) (s : State) (p : BitVec 1) : mailOf (emit o s) p = mailOf s p := rfl

/-! ### The rows' meanings -/

section Rows
variable (q : SpdmReq) (slot : Byte) (s : State)

theorem exec_doeDiscovery (p : BitVec 1) (i : Byte) : exec (.doeDiscovery p i) s = .next (mail p (.doeDiscovery p i) (doeDiscovery p i) s) := rfl
theorem exec_getVersion : exec (.getVersion q) s = .next (spdm q (.getVersion q) (getVersion q) s) := rfl
theorem exec_getCapabilities : exec (.getCapabilities q) s = .next (spdm q (.getCapabilities q) (getCapabilities q) s) := rfl
theorem exec_negotiateAlgorithms (o : Algorithms) :
    exec (.negotiateAlgorithms q o) s = .next (spdm q (.negotiateAlgorithms q o) (negotiate q o) s) := rfl
theorem exec_getDigests : exec (.getDigests q) s = .next (spdm q (.getDigests q) (attested q 0x81 (getDigests q)) s) := rfl
theorem exec_getCertificate (off len : W16) : exec (.getCertificate q slot off len) s =
    .next (spdm q (.getCertificate q slot off len) (attested q 0x82 (getCertificate q slot off len)) s) := rfl
theorem exec_challenge (n : Key) : exec (.challenge q slot n) s =
    .next (spdm q (.challenge q slot n) (attested q 0x83 (challenge q slot)) s) := rfl
theorem exec_getMeasurements_unsigned (i : Byte) (raw : Bool) (n : Key) : exec (.getMeasurements q i false raw n) s =
    .next (spdm q (.getMeasurements q i false raw n) (getMeasurements q i none) s) := rfl
theorem exec_getMeasurements_signed (i : Byte) (raw : Bool) (n : Key) : exec (.getMeasurements q i true raw n) s =
    .next (spdm q (.getMeasurements q i true raw n) (attested q 0xE0 (getMeasurements q i (some n))) s) := rfl
theorem exec_keyExchange : exec (.keyExchange q slot) s =
    .next (spdm q (.keyExchange q slot) (attested q 0xE4 (keyExchange q slot)) s) := rfl
theorem exec_finish (n : Nat) (ok : Bool) : exec (.finish q n ok) s =
    .next (spdm q (.finish q n ok) (attested q 0xE5 (finishSession q n ok)) s) := rfl
theorem exec_endSession : exec (.endSession q) s = .next (spdm q (.endSession q) (endSession q) s) := rfl
theorem exec_respondIfReady : exec (.respondIfReady q) s = .next (spdm q (.respondIfReady q) (respondIfReady q) s) := rfl
theorem exec_spdmUnsupportedRequest (code : Byte) : exec (.spdmUnsupportedRequest q code) s =
    .next (spdm q (.spdmUnsupportedRequest q code) (otherRequest q code) s) := rfl

end Rows

/-! ### Table 06-3's states -/

theorem attested_usable (s : State) (h : drsUsable s = true) (q : SpdmReq) (code : Byte) (f : State → State) : attested q code f s = f s := by
  rw [attested, if_pos h]

theorem attested_unusable (s : State) (h : drsUsable s = false) (q : SpdmReq) (code : Byte) (f : State → State) :
    attested q code f s = unsupported q code s := by
  simp [attested, h]

/-! ### Connection, certificates, measurements (R147 to R149, R153 to R157) -/

section Answers
variable (q : SpdmReq) (s : State)

theorem negotiate_all {o : Algorithms} (h : offersAll o = true) :
    negotiate q o s = respond q.port (.algorithms selection) (mailMod q.port (fun m => { m with phase := .negotiated }) s) := by
  rw [negotiate, if_pos h]

theorem negotiate_lacking {o : Algorithms} (h : offersAll o = false) :
    negotiate q o s = respond q.port (.error eInvalidRequest 0) (mailMod q.port (fun m => { m with phase := .capabilities }) s) := by
  simp [negotiate, h]

theorem length_of_slotChain {s : State} {slot : Byte} {c : List Byte} (h : slotChain s slot = some c) : c.length ≤ Config.chainMax := by
  unfold slotChain at h
  split at h
  · cases h; exact List.length_take_le ..
  · split at h
    · obtain ⟨d, -, rfl⟩ := Option.map_eq_some_iff.1 h
      exact List.length_take_le ..
    · cases h

theorem getCertificate_within {slot : Byte} {off len : W16} {c : List Byte} (hc : slotChain s slot = some c) (ho : off.toNat < c.length) :
    getCertificate q slot off len s = respond q.port (.certificate slot off ((c.drop off.toNat).take len.toNat)
      (c.length - off.toNat - min len.toNat (c.length - off.toNat))) s := by
  simp [getCertificate, hc, ho]

theorem getMeasurements_all : getMeasurements q 0xFF none s = respond q.port (.measurements (plainBlocks s) 0 none) s := by
  simp [getMeasurements, allBlocks]

theorem getMeasurements_one {i : Byte} {x : Byte × List Byte} (hall : i ≠ 0xFF) (hcount : i ≠ 0) (hb : block s i = some x) :
    getMeasurements q i none s = respond q.port (.measurements [(i, x)] 0 none) s := by
  rw [getMeasurements, if_neg hall, if_neg hcount, hb]; rfl

theorem getMeasurements_absent {i : Byte} (hall : i ≠ 0xFF) (hcount : i ≠ 0) (hb : block s i = none) (signs : Option Key) :
    getMeasurements q i signs s = respond q.port (.error eInvalidRequest 0) s := by
  rw [getMeasurements, if_neg hall, if_neg hcount, hb]; rfl

theorem getMeasurements_signed (n : Key) : getMeasurements q 0xFF (some n) s =
    owe q (.measurements (allBlocks s (some n)) (drawn s) (some (signed s))) (bumpDraw s) := by
  simp [getMeasurements]

theorem challenge_populated {slot : Byte} (h : (slotChain s slot).isSome = true) :
    challenge q slot s = owe q (.challengeAuth slot (drawn s) (signed s)) (bumpDraw s) := by
  rw [challenge, if_pos h]

end Answers

/-! ### Responses that the KXE signs (R152) -/

/-- A mailbox whose request is in the KXE. -/
def oweIn (r : Resp) (late : Bool) (m : MailSt) : MailSt := { m with owed := some r, deferred := late, ready := none }

theorem owe_eq (q : SpdmReq) (r : Resp) (s : State) : owe q r s =
    if Config.slow s.draws then respond q.port (.error eNotReady 0) (mailMod q.port (oweIn r (Config.slow s.draws)) s)
    else mailMod q.port (oweIn r (Config.slow s.draws)) s := rfl

theorem mailOf_owe (q : SpdmReq) (r : Resp) (s : State) : mailOf (owe q r s) q.port = oweIn r (Config.slow s.draws) (mailOf s q.port) := by
  rw [owe_eq]; split <;> simp [respond]

theorem nextSession_owe (q : SpdmReq) (r : Resp) (s : State) : (owe q r s).nextSession = s.nextSession := by
  rw [owe_eq]; split <;> simp [respond]

/-- Once `u` has drawn and sent nothing since `s`, a response owed leaves its mailbox owing it, and sends ResponseNotReady at once where
the KXE would take too long. -/
theorem owe_spec (q : SpdmReq) (r : Resp) (s u : State) {k : Nat} (hd : u.draws = k) (ho : u.out = s.out) :
    let t := owe q r u
    t.draws = k ∧ (mailOf t q.port).owed = some r ∧ (mailOf t q.port).deferred = Config.slow k ∧
      t.out = s.out ++ (if Config.slow k then [.respond q.port (.error 0x42 0)] else []) := by
  subst hd
  have hm := mailOf_owe q r u
  refine ⟨?_, by rw [hm]; rfl, by rw [hm]; rfl, ?_⟩
  · rw [owe_eq]; split <;> simp [respond]
  · rw [owe_eq]; split <;> simp_all [respond, eNotReady]

/-! ### Sessions (R150 to R152) -/

theorem reserveInt_frame (s : State) : ∃ kids i b, (reserveInt s).2 = { s with ks := { s.ks with kids := kids, lastInt := i, lastBank := b } } := by
  unfold reserveInt
  split <;> exact ⟨_, _, _, rfl⟩

theorem placeKey_frame (kid : W16) (x : SlotSt) (s : State) : ∃ l, placeKey kid x s = { s with ks := { s.ks with slots := l } } := by
  unfold placeKey
  split <;> exact ⟨_, rfl⟩

/-- The key of the session that KEY_EXCHANGE begins stands in the slot that its KID has reserved. -/
def sessionKeyed (s : State) : State :=
  placeKey (reserveInt (bumpDraw s)).1 (mkSlot (Config.sessionKey s.nextSession) .spdm useSpdm .pf 0 0xFFFF 0) (reserveInt (bumpDraw s)).2

/-- Beside the draw, reserving and placing that key change the key store alone, and not the identity key that signs. -/
theorem sessionKeyed_frame (s : State) : ∃ k, sessionKeyed s = { bumpDraw s with ks := k } ∧ k.identity = s.ks.identity := by
  obtain ⟨kids, i, b, hr⟩ := reserveInt_frame (bumpDraw s)
  obtain ⟨l, hp⟩ := placeKey_frame (reserveInt (bumpDraw s)).1 (mkSlot (Config.sessionKey s.nextSession) .spdm useSpdm .pf 0 0xFFFF 0)
    (reserveInt (bumpDraw s)).2
  exact ⟨{ s.ks with slots := l, kids := kids, lastInt := i, lastBank := b }, by rw [sessionKeyed, hp, hr]; rfl, rfl⟩

/-- The session that KEY_EXCHANGE begins. -/
def newSession (s : State) : SessionSt := { id := s.nextSession, established := false, kid := (reserveInt (bumpDraw s)).1 }

/-- KEY_EXCHANGE has begun a session: its key is placed and the mailbox lists it. -/
def sessionBegun (q : SpdmReq) (s : State) : State :=
  mailMod q.port (fun m => { m with sessions := m.sessions ++ [newSession s] }) (sessionKeyed s)

section Sessions
variable (q : SpdmReq) (s : State)

theorem keyExchange_begins {slot : Byte} (hroom : (mailOf s q.port).sessions.length < 4) (hslot : intSlotCheck s = none)
    (hchain : (slotChain s slot).isSome = true) : keyExchange q slot s =
      owe q (.keyExchangeRsp s.nextSession (signed (sessionBegun q s))) { sessionBegun q s with nextSession := s.nextSession + 1 } := by
  have hroom' : ¬ (4 ≤ (mailOf s q.port).sessions.length ∨ (intSlotCheck s).isSome = true) := by
    simp only [hslot, Option.isSome_none, Bool.false_eq_true, or_false]; omega
  have hchain' : (slotChain s slot).isNone = false := by rw [← Option.not_isSome, hchain]; rfl
  rw [keyExchange, if_neg hroom', hchain']
  rfl

theorem sessionBegun_spec : (sessionBegun q s).draws = s.draws + 1 ∧ (sessionBegun q s).out = s.out ∧
    signed (sessionBegun q s) = signed (bumpDraw s) ∧
    (mailOf (sessionBegun q s) q.port).sessions = (mailOf s q.port).sessions ++ [newSession s] := by
  obtain ⟨k, hk, hid⟩ := sessionKeyed_frame s
  have hid' : (sessionKeyed s).ks.identity = s.ks.identity := by rw [hk]; exact hid
  have hmail : mailOf (sessionKeyed s) q.port = mailOf s q.port := by rw [hk]; rfl
  refine ⟨?_, ?_, ?_, ?_⟩
  · rw [sessionBegun, mailMod_draws, hk]; rfl
  · rw [sessionBegun, mailMod_out, hk]; rfl
  · simp only [signed, sessionBegun, mailMod_ks, mailMod_draws, hid', bumpDraw_ks, bumpDraw_draws]
    rw [hk]; rfl
  · rw [sessionBegun, mailOf_mailMod_self, hmail]

/-- The session that FINISH names is begun and not yet established. -/
theorem finishSession_of_begun {n : Nat} (h : ∃ x ∈ (mailOf s q.port).sessions, x.id = n ∧ x.established = false) (ok : Bool) :
    finishSession q n ok s = if ok then respond q.port .finishRsp (mailMod q.port (fun m =>
      { m with sessions := m.sessions.map (fun x => if x.id == n then { x with established := true } else x) }) s)
      else respond q.port (.error eDecrypt 0) s := by
  have hany : (mailOf s q.port).sessions.any (fun x => x.id == n && !x.established) = true := by
    obtain ⟨x, hx, hid, he⟩ := h
    exact List.any_eq_true.2 ⟨x, hx, by simp [hid, he]⟩
  cases ok <;> simp [finishSession, hany]

theorem endSession_of_session {x : SessionSt} (h : sessionOf s q = some x) : endSession q s = respond q.port .endSessionAck
    (retireKid x.kid (mailMod q.port (fun m => { m with sessions := m.sessions.filter (fun y => y.id != x.id) }) s)) := by
  simp only [endSession, h]

theorem endSession_outside (h : sessionOf s q = none) : endSession q s = unsupported q 0xEC s := by
  simp only [endSession, h]

theorem otherRequest_unsupported {code : Byte} (h : code ≠ 0xFE ∨ (sessionOf s q).isSome = true) :
    otherRequest q code s = unsupported q code s := by
  rw [otherRequest, if_neg]
  rintro ⟨hc, hn⟩
  rcases h with h | h
  · exact h hc
  · rw [← Option.not_isSome, h] at hn; cases hn

theorem otherRequest_vendor_outside (h : sessionOf s q = none) : otherRequest q 0xFE s = respond q.port (.error eSessionRequired 0) s := by
  simp [otherRequest, h]

/-! ### Delayed responses (R152) -/

theorem respondIfReady_ready {r : Resp} (h : (mailOf s q.port).ready = some r) : respondIfReady q s =
    respond q.port r (mailMod q.port (fun m => { m with ready := none, deferred := false }) s) := by
  simp only [respondIfReady, h]

theorem respondIfReady_owed (hr : (mailOf s q.port).ready = none) (ho : (mailOf s q.port).owed.isSome = true) :
    respondIfReady q s = respond q.port (.error eNotReady 0) s := by
  simp only [respondIfReady, hr, ho, if_true]

end Sessions

end Sys2Proof.Machine
end

section
/-! SUPPORT. The statement on the SPDM responder. -/
namespace Sys2Proof.Machine

/-- Settles O54: a request that is served runs in the state with the pointer turned, where its row's lemma says what it answers. -/
theorem spdmResponder : Obligations.SpdmResponder := by
  intro s q h v m
  refine ⟨fun i => ?discovery, fun hp c hc => ?parity, fun hp hv c hc => ?version, fun hp hv => ?served⟩
  case discovery => rw [exec_doeDiscovery, mail_serves h]; rfl
  case parity =>
    obtain ⟨f, hf⟩ := exec_of_mailReq s hc
    rw [hf, spdm_parity h hp]; rfl
  case version =>
    obtain ⟨f, hf⟩ := exec_of_mailReq s hc
    rw [hf, spdm_version h hp hv]; rfl
  case served =>
    have hserve : ∀ {c f t}, exec c s = .next (spdm q c f s) → f v = t → exec c s = .next t :=
      exec_serves h hp hv
    refine ⟨?getVersion, ?capabilities, fun o => ⟨fun ho => ?all, fun ho => ?lacking⟩,
      fun raw n => ⟨?blocks, fun i hi h0 x hx => ?block, fun i hi h0 hx => ?noBlock⟩,
      fun hd => ⟨?digests, fun slot off len c hc => ⟨length_of_slotChain hc, fun ho => ?certificate⟩, fun slot n hc => ?challenge,
        fun raw n => ?signedBlocks, fun slot hroom hslot hc => ?keyExchange, fun n hn => ⟨?finish, ?finishBad⟩⟩,
      fun hd => ⟨?noDigests, fun slot a b => ?noCertificate, fun slot n => ?noChallenge, fun i raw n => ?noSignature, fun slot => ?noExchange,
        fun n ok => ?noFinish⟩,
      fun x hx => ?endSession, fun hx => ?endNone, fun code hc => ?unsupported, fun hx => ?vendor, fun r hr => ?ready,
      fun hr ho => ?notReady⟩
    case getVersion => exact hserve (exec_getVersion ..) rfl
    case capabilities => exact hserve (exec_getCapabilities ..) rfl
    case all => exact hserve (exec_negotiateAlgorithms ..) (negotiate_all q v ho)
    case lacking => exact hserve (exec_negotiateAlgorithms ..) (negotiate_lacking q v ho)
    case blocks => exact hserve (exec_getMeasurements_unsigned ..) (getMeasurements_all q v)
    case block => exact hserve (exec_getMeasurements_unsigned ..) (getMeasurements_one q v hi h0 hx)
    case noBlock => exact hserve (exec_getMeasurements_unsigned ..) (getMeasurements_absent q v hi h0 hx none)
    case digests => exact hserve (exec_getDigests ..) (attested_usable v hd ..)
    case certificate => exact hserve (exec_getCertificate ..) ((attested_usable v hd ..).trans (getCertificate_within q v hc ho))
    case challenge =>
      exact ⟨_, hserve (exec_challenge ..) ((attested_usable v hd ..).trans (challenge_populated q v hc)),
        owe_spec q _ s (bumpDraw v) rfl rfl⟩
    case signedBlocks =>
      exact ⟨_, hserve (exec_getMeasurements_signed ..) ((attested_usable v hd ..).trans (getMeasurements_signed q v n)),
        owe_spec q _ s (bumpDraw v) rfl rfl⟩
    case keyExchange =>
      obtain ⟨hdraws, hout, hsigned, hsessions⟩ := sessionBegun_spec q v
      refine ⟨_, hserve (exec_keyExchange ..) ((attested_usable v hd ..).trans (keyExchange_begins q v hroom hslot hc)), ?_,
        nextSession_owe q _ { sessionBegun q v with nextSession := s.nextSession + 1 }, _,
        (congrArg MailSt.sessions (mailOf_owe ..)).trans hsessions⟩
      rw [hsigned]
      exact owe_spec q _ s { sessionBegun q v with nextSession := s.nextSession + 1 } hdraws hout
    case finish => exact hserve (exec_finish ..) ((attested_usable v hd ..).trans (finishSession_of_begun q v hn true))
    case finishBad => exact hserve (exec_finish ..) ((attested_usable v hd ..).trans (finishSession_of_begun q v hn false))
    case noDigests => exact hserve (exec_getDigests ..) (attested_unusable v hd ..)
    case noCertificate => exact hserve (exec_getCertificate ..) (attested_unusable v hd ..)
    case noChallenge => exact hserve (exec_challenge ..) (attested_unusable v hd ..)
    case noSignature => exact hserve (exec_getMeasurements_signed ..) (attested_unusable v hd ..)
    case noExchange => exact hserve (exec_keyExchange ..) (attested_unusable v hd ..)
    case noFinish => exact hserve (exec_finish ..) (attested_unusable v hd ..)
    case endSession => exact hserve (exec_endSession ..) (endSession_of_session q v hx)
    case endNone => exact hserve (exec_endSession ..) (endSession_outside q v hx)
    case unsupported => exact hserve (exec_spdmUnsupportedRequest ..) (otherRequest_unsupported q v hc)
    case vendor => exact hserve (exec_spdmUnsupportedRequest ..) (otherRequest_vendor_outside q v hx)
    case ready => exact hserve (exec_respondIfReady ..) (respondIfReady_ready q v hr)
    case notReady => exact hserve (exec_respondIfReady ..) (respondIfReady_owed q v hr ho)

end Sys2Proof.Machine
end

section
/-! SUPPORT. Messages of IDE_KM (R158 to R160) and of TDISP (R161 to R167): in which states they are served, and what each row then makes
of the state. -/
namespace Sys2Proof.Machine

/-! ### Messages in a session (Table 06-3) -/

section Vendor
variable {s : State} {q : SpdmReq} {x : SessionSt} (h : MailServes s q.port) (hp : q.parity = false) (hv : q.version13 = true)
  (hx : sessionOf s q = some x)
include h hp hv hx

theorem vendorMsg_serves (me : Instr) (may : State → Bool) (f : State → State) :
    vendorMsg q me may f s = if may (turned q.port s) then f (turned q.port s) else unsupported q 0xFE (turned q.port s) := by
  have hx' : sessionOf (turned q.port s) q = some x := hx
  rw [vendorMsg, spdm_serves h hp hv, hx']
  rfl

/-- A message in its session ends in what its row's function makes of the state with the pointer turned. -/
theorem exec_inSession {c : Instr} {may : State → Bool} {f : State → State} {t : State} (hc : exec c s = .next (vendorMsg q c may f s))
    (hm : may (turned q.port s) = true) (ht : f (turned q.port s) = t) : exec c s = .next t := by
  rw [hc, vendorMsg_serves h hp hv hx, if_pos hm, ht]

theorem exec_outsideStates {c : Instr} {may : State → Bool} {f : State → State} (hc : exec c s = .next (vendorMsg q c may f s))
    (hm : may (turned q.port s) = false) : exec c s = .next (unsupported q 0xFE (turned q.port s)) := by
  rw [hc, vendorMsg_serves h hp hv hx, hm]
  rfl

end Vendor

/-! ### The rows' meanings -/

section Rows
variable (q : SpdmReq) (i : IdeSel) (v : BitVec 12) (s : State)

theorem exec_query : exec (.query q) s = .next (vendorMsg q (.query q) fieldState (query q) s) := rfl
theorem exec_keyProg (key : Key) (iv : W64) : exec (.keyProg q i key iv) s =
    .next (vendorMsg q (.keyProg q i key iv) fieldState (keyProg q i key iv) s) := rfl
theorem exec_kSetGo : exec (.kSetGo q i) s = .next (vendorMsg q (.kSetGo q i) fieldState (kSetGo q i) s) := rfl
theorem exec_kSetStop : exec (.kSetStop q i) s = .next (vendorMsg q (.kSetStop q i) fieldState (kSetStop q i) s) := rfl
theorem exec_getTdispVersion : exec (.getTdispVersion q) s =
    .next (vendorMsg q (.getTdispVersion q) tdispState (respond q.port .tdispVersion) s) := rfl
theorem exec_getTdispCapabilities : exec (.getTdispCapabilities q) s =
    .next (vendorMsg q (.getTdispCapabilities q) tdispState (respond q.port .tdispCapabilities) s) := rfl
theorem exec_tdispUnsupportedRequest (c : Byte) : exec (.tdispUnsupportedRequest q c) s =
    .next (vendorMsg q (.tdispUnsupportedRequest q c) tdispState (fun s => tdispError q tUnsupported s) s) := rfl
theorem exec_getDeviceInterfaceState : exec (.getDeviceInterfaceState q v) s =
    .next (vendorMsg q (.getDeviceInterfaceState q v) tdispState (onIface q v (fun t => respond q.port (.interfaceState t.state))) s) := rfl
theorem exec_getDeviceInterfaceReport : exec (.getDeviceInterfaceReport q v) s =
    .next (vendorMsg q (.getDeviceInterfaceReport q v) tdispState (onIface q v (ifaceReport q v)) s) := rfl
theorem exec_lockInterfaceRequest (stream : Nat) (assoc entropy : Bool) : exec (.lockInterfaceRequest q v stream assoc entropy) s =
    .next (vendorMsg q (.lockInterfaceRequest q v stream assoc entropy) tdispState (onIface q v (lockIface q v stream assoc entropy)) s) := rfl
theorem exec_startInterfaceRequest (n : Key) : exec (.startInterfaceRequest q v n) s =
    .next (vendorMsg q (.startInterfaceRequest q v n) tdispState (onIface q v (startIface q v n)) s) := rfl
theorem exec_stopInterfaceRequest : exec (.stopInterfaceRequest q v) s =
    .next (vendorMsg q (.stopInterfaceRequest q v) tdispState (onIface q v (stopIface q v)) s) := rfl

end Rows

/-! ### IDE key registers (R158 to R160) -/

theorem sendsOnly_reserveInt (s : State) : SendsOnly s (reserveInt s).2 := by
  obtain ⟨_, _, _, h⟩ := reserveInt_frame s
  rw [h]; rfl

theorem sendsOnly_transientIde (key : Key) (s : State) : SendsOnly s (transientIde key s) :=
  (((sendsOnly_reserveInt s).trans (sendsOnly_placeKey ..)).trans (sendsOnly_activateKid ..)).trans (sendsOnly_retireKid ..)

theorem SendsOnly.ide {s t : State} (h : SendsOnly s t) : t.ide = s.ide := by rw [h]

/-- A key and IV programmed in a register. -/
def withIdeKey (r : Nat) (key : Key) (iv : W64) (s : State) : State := { s with ide := { s.ide with keys := mapSet s.ide.keys r (key, iv) } }

/-- A key set's register made the active one, in place of `other`. -/
def withActive (r other : Nat) (s : State) : State :=
  { s with ide := { s.ide with active := (s.ide.active.filter (· != other)).filter (· != r) ++ [r] } }

/-- A register zeroised, and active no more. -/
def withoutIdeKey (r : Nat) (s : State) : State :=
  { s with ide := { s.ide with keys := mapErase s.ide.keys r, active := s.ide.active.filter (· != r) } }

/-- The two key sets of a sub-stream and direction have registers of their own. -/
theorem ideKey_not_ne (p : BitVec 1) (stream : Nat) (k : BitVec 1) (sub : Nat) (dir : BitVec 1) :
    ideKey p stream (~~~k) sub dir ≠ ideKey p stream k sub dir := by
  obtain rfl | rfl : k = 0 ∨ k = 1 := by revert k; decide
  all_goals simp [ideKey]

section Ide
variable (q : SpdmReq) (i : IdeSel) (s : State)

theorem keyProg_free (key : Key) (iv : W64) (hi : ideOk i = true) (ha : s.ide.active.contains (ideReg q i) = false)
    (hs : intSlotCheck s = none) :
    keyProg q i key iv s = respond q.port (.kpAck true) (withIdeKey (ideReg q i) key iv (transientIde key s)) := by
  rw [keyProg, hi, ha, hs]; rfl

theorem keyProg_refused (key : Key) (iv : W64)
    (h : ideOk i = false ∨ s.ide.active.contains (ideReg q i) = true ∨ (intSlotCheck s).isSome = true) :
    keyProg q i key iv s = respond q.port (.kpAck false) s := by
  rw [keyProg, if_pos]
  rcases h with h | h | h <;> simp only [h, Bool.not_false, Bool.true_or, Bool.or_true]

theorem kSetGo_programmed (hi : ideOk i = true) (hk : (mapFind s.ide.keys (ideReg q i)).isSome = true) :
    kSetGo q i s = respond q.port (.goAck true) (withActive (ideReg q i) (ideKey q.port i.stream (~~~i.keySet) i.sub i.dir) s) := by
  rw [kSetGo, hi, ← Option.not_isSome, hk]; rfl

theorem kSetGo_refused (h : ideOk i = false ∨ mapFind s.ide.keys (ideReg q i) = none) :
    kSetGo q i s = respond q.port (.goAck false) s := by
  rw [kSetGo, if_pos]
  rcases h with h | h <;> simp [h]

theorem kSetStop_refused (h : ideOk i = false) : kSetStop q i s = respond q.port (.stopAck false) s := by
  rw [kSetStop, h]; rfl

theorem kSetStop_ok (hi : ideOk i = true) : kSetStop q i s = respond q.port (.stopAck true)
    (let u := withoutIdeKey (ideReg q i) s
     if 1 ≤ i.stream ∧ !allActive u q.port i.stream then settle (tdisErrorClean false (boundTo u q.port i.stream) u) else u) := by
  rw [kSetStop, hi]; rfl

/-- The stream keeps an active key set of each sub-stream and direction, or is the link stream. -/
theorem kSetStop_keeps (hi : ideOk i = true)
    (h : i.stream = 0 ∨ allActive (withoutIdeKey (ideReg q i) s) q.port i.stream = true) :
    kSetStop q i s = respond q.port (.stopAck true) (withoutIdeKey (ideReg q i) s) := by
  rw [kSetStop_ok q i s hi]
  refine congrArg _ (if_neg ?_)
  rintro ⟨hstream, hlost⟩
  rcases h with h | h
  · omega
  · rw [h] at hlost; cases hlost

/-- A selective stream is left without an active key set. -/
theorem kSetStop_loses (hi : ideOk i = true) (hstream : 1 ≤ i.stream)
    (h : allActive (withoutIdeKey (ideReg q i) s) q.port i.stream = false) :
    kSetStop q i s = respond q.port (.stopAck true) (settle (tdisErrorClean false
      (boundTo (withoutIdeKey (ideReg q i) s) q.port i.stream) (withoutIdeKey (ideReg q i) s))) := by
  rw [kSetStop_ok q i s hi]
  exact congrArg _ (if_pos ⟨hstream, by rw [h]; rfl⟩)

end Ide

/-! ### TDISP (R161 to R167) -/

section Tdisp
variable (q : SpdmReq) (v : BitVec 12) (s : State)

theorem onIface_named (h : ifaceOk s q v = true) (f : TdiSt → State → State) : onIface q v f s = f (fnOf s (.vf v)).tdi s := by
  rw [onIface, if_pos h]

theorem onIface_unknown (h : ifaceOk s q v = false) (f : TdiSt → State → State) : onIface q v f s = tdispError q tInvalidInterface s := by
  rw [onIface, h]; rfl

/-- A TDI that is neither locked nor running. -/
theorem TdiSt.notBound {t : TdiSt} (h : t.state = .unlocked ∨ t.state = .error) : ¬ (t.state = .locked ∨ t.state = .run) := by
  rcases h with h | h <;> simp [h]

theorem ifaceReport_bound {t : TdiSt} (h : t.state = .locked ∨ t.state = .run) : ifaceReport q v t s =
    respond q.port (.interfaceReport v t.stream (mmioRanges t.place) t.place.msixTable t.place.pendingBits) s := by
  rw [ifaceReport, if_pos h]

theorem ifaceReport_unbound {t : TdiSt} (h : t.state = .unlocked ∨ t.state = .error) :
    ifaceReport q v t s = tdispError q tInterfaceState s := by
  rw [ifaceReport, if_neg (TdiSt.notBound h)]

theorem lockIface_fails {stream : Nat} {assoc entropy : Bool} {t : TdiSt} {c : Nat} (h : lockError q v stream assoc entropy t s = some c) :
    lockIface q v stream assoc entropy t s = tdispError q c s := by
  simp only [lockIface, h]

/-- The TDI of a VF locked to a stream under a fresh start nonce (R164). -/
def lockedTdi (v : BitVec 12) (stream : Nat) (s : State) : State :=
  tdiMod v (fun t => { t with state := .locked, stream := stream, nonce := some (drawn s)
                              place := (fnOf s (.vf v)).place, lockGen := (fnOf s (.vf v)).gen }) (bumpDraw s)

theorem lockIface_locks {stream : Nat} {assoc entropy : Bool} {t : TdiSt} (h : lockError q v stream assoc entropy t s = none) :
    lockIface q v stream assoc entropy t s = respond q.port (.lockResponse (drawn s)) (lockedTdi v stream s) := by
  simp only [lockIface, h]; rfl

theorem fnOf_tdiMod_self (g : TdiSt → TdiSt) : fnOf (tdiMod v g s) (.vf v) = { fnOf s (.vf v) with tdi := g (fnOf s (.vf v)).tdi } := by
  rw [tdiMod, fnOf_fnMod_self]

theorem fnOf_tdiMod_ne (g : TdiSt → TdiSt) {f : Fn} (h : f ≠ .vf v) : fnOf (tdiMod v g s) f = fnOf s f := by
  rw [tdiMod, fnOf_fnMod_ne _ _ _ _ h]

theorem startIface_locked {n : Key} {t : TdiSt} (hs : t.state = .locked) (hn : t.nonce = some n) : startIface q v n t s =
    respond q.port .startResponse (tdiMod v (fun t => { t with state := .run, nonce := none }) s) := by
  rw [startIface, if_neg fun h => h hs, if_neg fun h => h hn]

theorem startIface_badNonce {n : Key} {t : TdiSt} (hs : t.state = .locked) (hn : t.nonce ≠ some n) :
    startIface q v n t s = tdispError q tInvalidNonce s := by
  rw [startIface, if_neg fun h => h hs, if_pos hn]

theorem startIface_unlocked {n : Key} {t : TdiSt} (hs : t.state ≠ .locked) : startIface q v n t s = tdispError q tInterfaceState s := by
  rw [startIface, if_pos hs]

theorem stopIface_bound {t : TdiSt} (h : t.state = .locked ∨ t.state = .run) : stopIface q v t s =
    settle (startCleanup (.vf v) none (tdiMod v (fun t => { t with stopOwed := t.stopOwed ++ [q.port] }) s)) := by
  rw [stopIface, if_pos h]

theorem stopIface_cleaning {t : TdiSt} (h : t.state = .unlocked ∨ t.state = .error) (hc : (fnOf s (.vf v)).cleaning.isSome = true) :
    stopIface q v t s = tdiMod v (fun t => { t with stopOwed := t.stopOwed ++ [q.port] }) s := by
  rw [stopIface, if_neg (TdiSt.notBound h), if_pos hc]

theorem stopIface_idle {t : TdiSt} (h : t.state = .unlocked ∨ t.state = .error) (hc : (fnOf s (.vf v)).cleaning = none) :
    stopIface q v t s = respond q.port .stopResponse (tdiMod v (fun t => { t with state := .unlocked, nonce := none }) s) := by
  rw [stopIface, if_neg (TdiSt.notBound h), hc]; rfl

end Tdisp

end Sys2Proof.Machine
end

section
/-! SUPPORT. The statement on the messages of IDE_KM and TDISP. -/
namespace Sys2Proof.Machine

/-- Settles O55: a message in its session and in a state of Table 06-3 runs in the state with the pointer turned, where the lemma of its
register or of its TDI says what it answers. -/
theorem ideAndTdispMessages : Obligations.IdeAndTdispMessages := by
  intro s q x h hp hv hx w
  have hrun : ∀ {c may f t}, exec c s = .next (vendorMsg q c may f s) → may w = true → f w = t → exec c s = .next t :=
    exec_inSession h hp hv hx
  have hrefuse : ∀ {c may f}, exec c s = .next (vendorMsg q c may f s) → may w = false → exec c s = .next (unsupported q 0xFE w) :=
    exec_outsideStates h hp hv hx
  refine ⟨fun hm => ⟨hrefuse (exec_query ..) hm, fun i key iv => hrefuse (exec_keyProg ..) hm,
      fun i => ⟨hrefuse (exec_kSetGo ..) hm, hrefuse (exec_kSetStop ..) hm⟩⟩,
    fun hm => ⟨hrun (exec_query ..) hm rfl, fun i key iv hi ha hs => ?keyProg,
      fun i key iv hb => hrun (exec_keyProg ..) hm (keyProg_refused q i w key iv hb), fun i hi hk => ?kSetGo,
      fun i hb => hrun (exec_kSetGo ..) hm (kSetGo_refused q i w hb),
      fun i hi => ⟨fun hk => hrun (exec_kSetStop ..) hm (kSetStop_keeps q i w hi hk),
        fun hl hk => hrun (exec_kSetStop ..) hm (kSetStop_loses q i w hi hl hk)⟩,
      fun i hi => hrun (exec_kSetStop ..) hm (kSetStop_refused q i w hi)⟩,
    fun hm => ⟨hrun (exec_getTdispVersion ..) hm rfl, hrun (exec_getTdispCapabilities ..) hm rfl,
      fun c => hrun (exec_tdispUnsupportedRequest ..) hm rfl, fun v hv => ?unknown, fun v hv => ?named⟩⟩
  case keyProg =>
    have hide := (sendsOnly_transientIde key w).ide
    refine ⟨_, hrun (exec_keyProg ..) hm (keyProg_free q i w key iv hi ha hs), mapFind_mapSet_self .., ?_⟩
    rw [withIdeKey, hide]
  case kSetGo =>
    refine ⟨_, hrun (exec_kSetGo ..) hm (kSetGo_programmed q i w hi hk), ?_, ?_, rfl⟩
    · simp [withActive]
    · simpa [withActive, ideReg] using ideKey_not_ne q.port i.stream i.keySet i.sub i.dir
  case unknown =>
    have hno := onIface_unknown q v w hv
    exact ⟨hrun (exec_getDeviceInterfaceState ..) hm (hno _), hrun (exec_getDeviceInterfaceReport ..) hm (hno _),
      hrun (exec_stopInterfaceRequest ..) hm (hno _), fun n => hrun (exec_startInterfaceRequest ..) hm (hno _),
      fun st a e => hrun (exec_lockInterfaceRequest ..) hm (hno _)⟩
  case named =>
    have hyes := onIface_named q v w hv
    have hreport : ∀ {t}, ifaceReport q v (fnOf w (.vf v)).tdi w = t → exec (.getDeviceInterfaceReport q v) s = .next t :=
      fun e => hrun (exec_getDeviceInterfaceReport ..) hm ((hyes _).trans e)
    have hlock : ∀ {st a e t}, lockIface q v st a e (fnOf w (.vf v)).tdi w = t → exec (.lockInterfaceRequest q v st a e) s = .next t :=
      fun e => hrun (exec_lockInterfaceRequest ..) hm ((hyes _).trans e)
    have hstart : ∀ {n t}, startIface q v n (fnOf w (.vf v)).tdi w = t → exec (.startInterfaceRequest q v n) s = .next t :=
      fun e => hrun (exec_startInterfaceRequest ..) hm ((hyes _).trans e)
    have hstop : ∀ {t}, stopIface q v (fnOf w (.vf v)).tdi w = t → exec (.stopInterfaceRequest q v) s = .next t :=
      fun e => hrun (exec_stopInterfaceRequest ..) hm ((hyes _).trans e)
    refine ⟨hrun (exec_getDeviceInterfaceState ..) hm (hyes _), fun ht => hreport (ifaceReport_bound q v w ht),
      fun ht => hreport (ifaceReport_unbound q v w ht), fun st a e c hc => hlock (lockIface_fails q v w hc), fun st a e hc => ?locks,
      fun n ht hn => hstart (startIface_locked q v w ht hn), fun n ht hn => hstart (startIface_badNonce q v w ht hn),
      fun n ht => hstart (startIface_unlocked q v w ht), fun ht hc => hstop (stopIface_idle q v w ht hc),
      fun ht hc => hstop (stopIface_cleaning q v w ht hc), fun ht => hstop (stopIface_bound q v w ht)⟩
    case locks =>
      refine ⟨lockedTdi v st w, hlock (lockIface_locks q v w hc), ?_, fun g hg => fnOf_tdiMod_ne v (bumpDraw w) _ hg⟩
      rw [lockedTdi, fnOf_tdiMod_self]
      rfl

end Sys2Proof.Machine
end

section
/-! SUPPORT. What the cleanup sequence of a VF (R164) leaves as it was: mailboxes, IDE registers, TDIs, and the faults of rings. -/
namespace Sys2Proof.Machine

/-! ### Functions whose place in the table stands -/

theorem mapSet_mapSet_self {β : Type} (m : FMap β) (k : Nat) (v w : β) : mapSet (mapSet m k v) k w = mapSet m k w := by
  induction m with
  | nil => simp [mapSet]
  | cons e m ih => grind [mapSet]

/-- Storing elsewhere leaves an entry that stands in its place there. -/
theorem mapSet_mapSet_stands {β : Type} (m : FMap β) (k j : Nat) (v w : β) (hk : mapSet m k w = m) (hj : j ≠ k) :
    mapSet (mapSet m j v) k w = mapSet m j v := by
  induction m with
  | nil => simp [mapSet] at hk
  | cons e m ih =>
    obtain ⟨a, x⟩ := e
    grind [mapSet]

/-- The function's entry stands where a store finds it: storing its own state again changes nothing. -/
def Placed (f : Fn) (s : State) : Prop := mapSet s.fns f.key (fnOf s f) = s.fns

theorem placed_fnMod_self (f : Fn) (g : FnSt → FnSt) (s : State) : Placed f (fnMod f g s) := by
  rw [Placed, fnOf_fnMod_self]
  exact mapSet_mapSet_self ..

theorem Placed.fnMod {f : Fn} {s : State} (h : Placed f s) (f' : Fn) (g : FnSt → FnSt) : Placed f (fnMod f' g s) := by
  by_cases hf : f = f'
  · subst hf; exact placed_fnMod_self f g s
  · rw [Placed, fnOf_fnMod_ne _ _ _ _ hf]
    exact mapSet_mapSet_stands _ _ _ _ _ h (fun e => hf ((key_inj _ _).1 e.symm))

theorem Placed.fnMod_id {f : Fn} {s : State} (h : Placed f s) {g : FnSt → FnSt} (hg : g (fnOf s f) = fnOf s f) : Machine.fnMod f g s = s := by
  have hm : mapMod {} s.fns f.key g = s.fns := by
    rw [mapMod, show mapGet {} s.fns f.key = fnOf s f from rfl, hg]; exact h
  rw [Machine.fnMod, hm]

/-! ### Changes that keep what a port's loss has settled -/

/-- `t` comes from `s` by steps that leave the mailboxes, the IDE registers, the TDIs and the rings' faults, and enable no ring. -/
structure Tidied (s t : State) : Prop where
  mail0 : t.mail0 = s.mail0
  mail1 : t.mail1 = s.mail1
  ide : t.ide = s.ide
  tdi : ∀ f, (fnOf t f).tdi = (fnOf s f).tdi
  faulted : ∀ f, (ringOf t f).faulted = (ringOf s f).faulted
  failed : ∀ f, (ringOf t f).hostWriteFailed = (ringOf s f).hostWriteFailed
  enabled : ∀ f, (ringOf t f).enabled = true → (ringOf s f).enabled = true
  placed : ∀ f, Placed f s → Placed f t

namespace Tidied

theorem refl (s : State) : Tidied s s := ⟨rfl, rfl, rfl, fun _ => rfl, fun _ => rfl, fun _ => rfl, fun _ h => h, fun _ h => h⟩

theorem trans {s t u : State} (h : Tidied s t) (h' : Tidied t u) : Tidied s u where
  mail0 := h'.mail0.trans h.mail0
  mail1 := h'.mail1.trans h.mail1
  ide := h'.ide.trans h.ide
  tdi f := (h'.tdi f).trans (h.tdi f)
  faulted f := (h'.faulted f).trans (h.faulted f)
  failed f := (h'.failed f).trans (h.failed f)
  enabled f he := h.enabled f (h'.enabled f he)
  placed f hp := h'.placed f (h.placed f hp)

theorem ite {c : Prop} [Decidable c] {s t u : State} (ht : Tidied s t) (hu : Tidied s u) : Tidied s (if c then t else u) := by
  split
  · exact ht
  · exact hu

/-- Changes outside the functions, the mailboxes and the IDE registers. -/
theorem outside {s t : State} (h0 : t.mail0 = s.mail0) (h1 : t.mail1 = s.mail1) (hi : t.ide = s.ide) (hf : t.fns = s.fns) : Tidied s t := by
  have hfn : ∀ f, fnOf t f = fnOf s f := fun f => by rw [fnOf, hf]; rfl
  have hring : ∀ f, ringOf t f = ringOf s f := fun f => congrArg FnSt.ring (hfn f)
  exact ⟨h0, h1, hi, fun f => by rw [hfn], fun f => by rw [hring], fun f => by rw [hring], fun f h => by rwa [hring] at h,
    fun f h => by rwa [Placed, hfn, hf]⟩

/-- A step after such changes. -/
theorem after {s t u : State} (h : Tidied t u) (h0 : t.mail0 = s.mail0) (h1 : t.mail1 = s.mail1) (hi : t.ide = s.ide)
    (hf : t.fns = s.fns) : Tidied s u := (outside h0 h1 hi hf).trans h

theorem of_sendsOnly {s t : State} (h : SendsOnly s t) : Tidied s t := .outside (by rw [h]) (by rw [h]) (by rw [h]) (by rw [h])

end Tidied

theorem tidied_fnMod (f : Fn) (g : FnSt → FnSt) (s : State) (htdi : ∀ x, (g x).tdi = x.tdi)
    (hring : ∀ x, (g x).ring.faulted = x.ring.faulted ∧ (g x).ring.hostWriteFailed = x.ring.hostWriteFailed ∧
      ((g x).ring.enabled = true → x.ring.enabled = true)) : Tidied s (fnMod f g s) := by
  have hfn : ∀ f', fnOf (fnMod f g s) f' = if f' = f then g (fnOf s f) else fnOf s f' := by
    intro f'
    split
    case isTrue h => subst h; exact fnOf_fnMod_self ..
    case isFalse h => exact fnOf_fnMod_ne _ _ _ _ h
  refine ⟨rfl, rfl, rfl, fun f' => ?_, fun f' => ?_, fun f' => ?_, fun f' => ?_, fun f' h => h.fnMod f g⟩ <;>
    simp only [ringOf, hfn f'] <;> split
  case isFalse | isFalse | isFalse => rfl
  case isFalse => exact id
  case isTrue h => subst h; exact htdi _
  case isTrue h => subst h; exact (hring _).1
  case isTrue h => subst h; exact (hring _).2.1
  case isTrue h => subst h; exact (hring _).2.2

/-- A change of a function that leaves its TDI and its rings. -/
theorem tidied_fnMod_rest (f : Fn) (g : FnSt → FnSt) (s : State) (htdi : ∀ x, (g x).tdi = x.tdi) (hring : ∀ x, (g x).ring = x.ring) :
    Tidied s (fnMod f g s) :=
  tidied_fnMod f g s htdi fun x => by rw [hring]; exact ⟨rfl, rfl, id⟩

/-- A change of a ring that leaves whether it is enabled and what its faults are. -/
theorem tidied_ringMod (f : Fn) (g : RingSt → RingSt) (s : State)
    (hg : ∀ r, (g r).faulted = r.faulted ∧ (g r).hostWriteFailed = r.hostWriteFailed ∧ (g r).enabled = r.enabled) :
    Tidied s (ringMod f g s) :=
  tidied_fnMod f _ s (fun _ => rfl) fun x => ⟨(hg x.ring).1, (hg x.ring).2.1, fun h => (hg x.ring).2.2.symm.trans h⟩

theorem tidied_eachIdx (g : Nat → State → State) (hg : ∀ i s, Tidied s (g i s)) (l : List Nat) (s : State) : Tidied s (eachIdx g l s) := by
  induction l generalizing s with
  | nil => exact .refl s
  | cons i l ih => exact (hg i s).trans (ih _)

theorem tidied_foldl {α : Type} (g : State → α → State) (hg : ∀ a s, Tidied s (g s a)) (l : List α) (s : State) : Tidied s (l.foldl g s) := by
  induction l generalizing s with
  | nil => exact .refl s
  | cons a l ih => exact (hg a s).trans (ih _)

/-! ### A command's end -/

theorem tidied_emit (o : Output) (s : State) : Tidied s (emit o s) := .outside rfl rfl rfl rfl
theorem tidied_countFn (f : Fn) (c : Nat) (s : State) : Tidied s (countFn f c s) := .outside rfl rfl rfl rfl

theorem tidied_traceVf (f : Fn) (k : Nat) (c : W16) (d : BitVec 128) (s : State) : Tidied s (traceVf f k c d s) := by
  cases f
  · exact .refl s
  · exact .outside rfl rfl rfl rfl

theorem tidied_markPage (f : Fn) (k : Nat) (s : State) : Tidied s (markPage f k s) := by
  have hput : ∀ d, Tidied s (fnMod f (fun x => { x with dirty := some d }) s) :=
    fun d => tidied_fnMod_rest f _ s (fun _ => rfl) fun _ => rfl
  obtain h | ⟨d, h⟩ | ⟨d, o, h⟩ := markPage_cases f k s <;> rw [h]
  · exact .refl s
  · exact hput d
  · exact (hput d).trans (tidied_emit ..)

theorem tidied_markPages (f : Fn) (k n : Nat) (s : State) : Tidied s (markPages f k n s) := by
  induction n generalizing k s with
  | zero => exact .refl s
  | succ n ih => exact (tidied_markPage f k s).trans (ih ..)

theorem tidied_markHost (f : Fn) (a n : Nat) (s : State) : Tidied s (markHost f a n s) := .ite (.refl s) (tidied_markPages ..)

theorem tidied_postDoorbell (f : Fn) (s : State) : Tidied s (postDoorbell f s) := (tidied_markHost ..).trans (tidied_emit ..)

theorem tidied_raiseMsix (f : Fn) (s : State) : Tidied s (raiseMsix f s) :=
  .ite (.refl s) ((tidied_ringMod f (fun r => { r with interrupt := true }) s fun _ => ⟨rfl, rfl, rfl⟩).trans (tidied_emit ..))

theorem tidied_signalEvent (f : Fn) (s : State) : Tidied s (signalEvent f s) := by
  rw [signalEvent_eq]
  exact (tidied_ringMod f withEvent s fun _ => ⟨rfl, rfl, rfl⟩).trans (tidied_raiseMsix ..)

theorem tidied_writeRecord (f : Fn) (mk : Bool → CplRec) (s : State) : Tidied s (writeRecord f mk s) :=
  .ite (.refl s) (((tidied_markHost ..).trans (tidied_emit ..)).trans (tidied_ringMod f _ _ fun _ => ⟨rfl, rfl, rfl⟩))

theorem tidied_settleRing (f : Fn) (s : State) : Tidied s (settleRing f s) :=
  .ite (tidied_fnMod f _ s (fun _ => rfl) fun _ => ⟨rfl, rfl, fun h => Bool.noConfusion h⟩) (.refl s)

theorem tidied_complete (p : InProg) (st : W16) (d : W32) (res : BitVec 128) (s : State) : Tidied s (complete p st d res s) := by
  have hdrop : Tidied s (dropProg p s) := .outside rfl rfl rfl rfl
  rw [complete_eq]
  exact (hdrop.trans (tidied_writeRecord ..)).trans ((((Tidied.ite (tidied_signalEvent ..) (.refl _)).trans (tidied_traceVf ..)).trans
    (tidied_postDoorbell ..)).trans (tidied_settleRing ..))

/-! ### Keys, streams, regions -/

theorem tidied_retireKid (kid : W16) (s : State) : Tidied s (retireKid kid s) := .of_sendsOnly (sendsOnly_retireKid ..)
theorem tidied_retireKids (l : List W16) (s : State) : Tidied s (retireKids l s) := .of_sendsOnly (sendsOnly_retireKids ..)
theorem tidied_releaseKid (kid : W16) (s : State) : Tidied s (releaseKid kid s) := .of_sendsOnly (sendsOnly_releaseKid ..)
theorem tidied_finishRetire (kid : W16) (s : State) : Tidied s (finishRetire kid s) := .of_sendsOnly (sendsOnly_finishRetire ..)

theorem tidied_finishRetires (l : List W16) (s : State) : Tidied s (l.foldl (fun s k => finishRetire k s) s) :=
  tidied_foldl _ (fun k => tidied_finishRetire k) l s

theorem sendsOnly_wakeSeal (p : Fin 32) (s : State) : SendsOnly s (wakeSeal p s) :=
  .ite (((sendsOnly_portMod ..).trans (sendsOnly_emit ..)).trans (sendsOnly_sendBeat ..)) (.refl s)

theorem sendsOnly_enqueue (p : Fin 32) (i : TxItem) (s : State) : SendsOnly s (enqueue p i s) := by
  have hoffer : ∀ u, SendsOnly u (offer p i u) := fun u => (sendsOnly_portMod ..).trans (sendsOnly_pumpGo ..)
  unfold enqueue
  split
  · exact ((SendsOnly.ite (sendsOnly_emit ..) (.refl s)).trans (sendsOnly_wakeSeal ..)).trans (hoffer _)
  · exact (SendsOnly.ite (sendsOnly_wakeSeal ..) (.refl s)).trans (hoffer _)

theorem sendsOnly_sendHome (dest : BitVec 12) (units : Nat) (body : Body) (s : State) : SendsOnly s (sendHome dest units body s) := by
  unfold sendHome
  split
  · exact (sendsOnly_portMod ..).trans (sendsOnly_enqueue ..)
  · exact .refl s

theorem sendsOnly_sendMgmt (f : Fn) (dst : BitVec 12) (bytes : List Byte) (s : State) : SendsOnly s (sendMgmt f dst bytes s) := by
  unfold sendMgmt
  split
  · exact sendsOnly_enqueue ..
  · exact .refl s

theorem tidied_regionMod (k : Nat) (g : RegionSt → RegionSt) (s : State) : Tidied s (regionMod k g s) :=
  .outside (regionMod_mail0 ..) (regionMod_mail1 ..) (regionMod_ide ..) (regionMod_fns ..)

theorem tidied_setRegions (l : FMap RegionSt) (s : State) : Tidied s { s with regions := l } := .outside rfl rfl rfl rfl
theorem tidied_dropRegion (k : Nat) (s : State) : Tidied s (dropRegion k s) := .outside rfl rfl rfl rfl

theorem tidied_parkRegion (k : Nat) (s : State) : Tidied s (parkRegion k s) := by
  unfold parkRegion
  split
  · exact .refl s
  · exact .ite (tidied_dropRegion ..) (.outside rfl rfl rfl rfl)

theorem tidied_newExch (x : ExchSt) (c : List Line) (m : List W64) (n : List (W64 × Node × W64)) (s : State) :
    Tidied s (newExch x c m n s).2 := by
  have hnew : Tidied s { s with exch := mapSet s.exch s.nextXid.toNat x, nextXid := s.nextXid + 1 } := .outside rfl rfl rfl rfl
  refine hnew.trans ?_
  unfold newExch sendExch
  dsimp only
  split
  · exact .outside rfl rfl rfl rfl
  · exact .of_sendsOnly (sendsOnly_sendHome ..)

theorem tidied_freeRegion (k : Nat) (s : State) : Tidied s (freeRegion k s) := by
  unfold freeRegion
  split
  · exact .refl s
  · exact .ite (tidied_dropRegion ..) ((tidied_dropRegion ..).trans (tidied_newExch ..))

theorem tidied_cancelOffer (k : Nat) (nk : BitVec 12) (step : Nat) (st : W16) (d : W32) (s : State) :
    Tidied s (cancelOffer k nk step st d s) := by
  unfold cancelOffer
  split
  · exact .ite (.of_sendsOnly (sendsOnly_sendMgmt ..)) (.refl s)
  · exact .refl s

theorem tidied_beginFree (opcode : Byte) (k : Nat) (s : State) : Tidied s (beginFree opcode k s) := by
  unfold beginFree
  split
  · exact .refl s
  · exact .ite ((tidied_regionMod ..).trans (tidied_retireKid ..)) (tidied_regionMod ..)

theorem tidied_purgeQueue (gone : W16 → W32 → Bool) (p : Fin 32) (s : State) : Tidied s (purgeQueue gone p s) :=
  (Tidied.of_sendsOnly (sendsOnly_portMod ..)).trans (tidied_foldl (fun s _ => countPort p 4 s) (fun _ _ => .outside rfl rfl rfl rfl) ..)

theorem tidied_eachPort (g : Fin 32 → State → State) (hg : ∀ p s, Tidied s (g p s)) (l : List (Fin 32)) (s : State) :
    Tidied s (eachPort g l s) := by
  induction l generalizing s with
  | nil => exact .refl s
  | cons p l ih => exact (hg p s).trans (ih _)

theorem tidied_purgeWaits (gone : W16 → W32 → Bool) (l : List WaitSt) (s : State) : Tidied s (purgeWaits gone l s) := by
  induction l generalizing s with
  | nil => exact .refl s
  | cons w l ih =>
    have hdrop : Tidied s (countPort w.arr.port 4 { s with waits := s.waits.erase w }) := .outside rfl rfl rfl rfl
    exact .ite ((hdrop.trans (.of_sendsOnly (sendsOnly_returnCredits ..))).trans (ih _)) (ih _)

theorem tidied_closeStreams (p : Fn → W16 → Bool) (s : State) : Tidied s (closeStreams p s) := by
  have hdrop : Tidied s { s with sends := s.sends.filter (fun t => !p t.fn t.ctx), recvs := s.recvs.filter (fun t => !p t.fn t.ctx) } :=
    .outside rfl rfl rfl rfl
  exact ((hdrop.trans (tidied_eachPort _ (tidied_purgeQueue _) ..)).trans (tidied_purgeWaits ..)).trans (tidied_retireKids ..)

/-! ### What a context holds (R298, R300) -/

theorem tidied_countFnN (f : Fn) (c n : Nat) (s : State) : Tidied s (countFnN f c n s) := by
  induction n generalizing s with
  | zero => exact .refl s
  | succ n ih => exact (tidied_countFn ..).trans (ih _)

theorem tidied_uncacheCtx (f : Fn) (ctx : W16) (s : State) : Tidied s (uncacheCtx f ctx s) :=
  (tidied_finishRetires ..).after rfl rfl rfl rfl

theorem tidied_foldSet (f : Fn) (ctx : W16) (s : State) : Tidied s (foldSet f ctx s) := by
  unfold foldSet
  split
  · exact .refl s
  · exact .outside rfl rfl rfl rfl

theorem tidied_clearCtx (f : Fn) (ctx : W16) (s : State) : Tidied s (clearCtx f ctx s) := by
  have hsnare : Tidied s { s with snare := s.snare.filter (fun e => !(e.fn == f && e.dstCtx == ctx))
                                  localSnare := s.localSnare.filter (fun e => !(e.fn == f && e.ctx == ctx)) } := .outside rfl rfl rfl rfl
  have hmembers : ∀ u : State, Tidied u { u with members := u.members.filter (fun e => !(e.2.fn == f && e.2.ctx == ctx)) } :=
    fun _ => .outside rfl rfl rfl rfl
  exact ((((hsnare.trans (tidied_countFnN ..)).trans (tidied_closeStreams ..)).trans (tidied_uncacheCtx ..)).trans (hmembers _)).trans
    (tidied_foldSet ..)

theorem tidied_unmapObjs (f : Fn) (p : ObjSt → Bool) (b : Bool) (s : State) : Tidied s (unmapObjs f p b s) :=
  tidied_fnMod_rest f _ s (fun _ => rfl) fun _ => rfl

theorem tidied_closeBulk (k : Nat) (s : State) : Tidied s (closeBulk k s) := by
  unfold closeBulk
  split
  · exact .refl s
  · exact .ite (.outside rfl rfl rfl rfl) ((tidied_finishRetire ..).after rfl rfl rfl rfl)

theorem tidied_closeBulks (p : BulkCtx → Bool) (s : State) : Tidied s (closeBulks p s) := tidied_eachIdx _ tidied_closeBulk ..

theorem tidied_resetEngine (e : Nat) (s : State) : Tidied s (resetEngine e s) :=
  (tidied_finishRetires ..).after rfl rfl rfl rfl

theorem tidied_endReplay (s : State) : Tidied s (endReplay s) := by
  unfold endReplay
  split
  · exact (tidied_resetEngine ..).after rfl rfl rfl rfl
  · exact .refl s

/-! ### Fences (R289) -/

theorem tidied_fenceMod (f : Fn) (i : Nat) (g : FenceSt → FenceSt) (s : State) : Tidied s (fenceMod f i g s) :=
  tidied_fnMod_rest f _ s (fun _ => rfl) fun _ => rfl

theorem tidied_endWaits (f : Fn) (i : Nat) (l : List InProg) (s : State) : Tidied s (endWaits f i l s) := by
  fun_induction endWaits f i l s with
  | case1 => exact .refl _
  | case2 _ _ _ _ _ _ _ _ _ _ ih => exact (tidied_complete ..).trans ih
  | case3 _ _ _ _ _ _ _ _ ih => exact ih
  | case4 _ _ _ _ _ _ _ ih => exact ih
  | case5 _ _ _ _ ih => exact ih

theorem tidied_endUnitWaits (f : Fn) (i : Nat) (l : List (W16 × W64)) (s : State) : Tidied s (endUnitWaits f i l s) := by
  fun_induction endUnitWaits f i l s with
  | case1 => exact .refl _
  | case2 _ _ _ _ _ _ _ ih => exact ((tidied_fenceMod ..).trans (tidied_emit ..)).trans ih
  | case3 _ _ _ _ _ ih => exact ih

theorem tidied_abortWaits (f : Fn) (i : Nat) (only : InProg → Bool) (l : List InProg) (s : State) : Tidied s (abortWaits f i only l s) := by
  fun_induction abortWaits f i only l s with
  | case1 => exact .refl _
  | case2 _ _ _ _ _ _ _ ih => exact (tidied_complete ..).trans ih
  | case3 _ _ _ _ _ _ _ ih => exact ih
  | case4 _ _ _ _ ih => exact ih

theorem tidied_abortUnitWaits (f : Fn) (i : Nat) (c : Option W16) (l : List (W16 × W64)) (s : State) :
    Tidied s (abortUnitWaits f i c l s) := by
  fun_induction abortUnitWaits f i c l s with
  | case1 => exact .refl _
  | case2 _ _ _ _ _ ih => exact ((tidied_fenceMod ..).trans (tidied_emit ..)).trans ih
  | case3 _ _ _ _ _ ih => exact ih

theorem tidied_setErr (f : Fn) (i : Nat) (e : FenceErr) (peer : BitVec 12) (s : State) : Tidied s (setErr f i e peer s) :=
  .ite (((((tidied_fenceMod ..).trans (tidied_emit ..)).trans (tidied_endWaits ..)).trans (tidied_endUnitWaits ..)).trans
    (tidied_traceVf ..)) (.refl s)

theorem tidied_freeFence (f : Fn) (i : Nat) (s : State) : Tidied s (freeFence f i s) :=
  (((tidied_abortWaits ..).trans (tidied_abortUnitWaits ..)).trans (tidied_emit ..)).trans
    (tidied_fnMod_rest f _ _ (fun _ => rfl) fun _ => rfl)

theorem tidied_dropRef (f : Fn) (i : Nat) (holder : W16) (s : State) : Tidied s (dropRef f i holder s) :=
  .ite (.ite ((tidied_fenceMod ..).trans (tidied_freeFence ..)) (tidied_fenceMod ..)) (.refl s)

theorem tidied_abandonFences (f : Fn) (ctx : W16) (s : State) : Tidied s (abandonFences f ctx s) :=
  (tidied_eachIdx _ (fun _ _ => .ite (tidied_setErr ..) (.refl _)) ..).trans (tidied_eachIdx _ (fun _ _ => tidied_dropRef ..) ..)

theorem tidied_freeAllFences (f : Fn) (s : State) : Tidied s (freeAllFences f s) := tidied_eachIdx _ (fun _ _ => tidied_freeFence ..) ..

/-! ### Aborted commands (R62, R300) -/

/-- What a STREAM_OPEN that receives has opened at either end goes, the receiving end first. -/
theorem tidied_dropStreams (kid sendKid : W16) (sid : W32) (recvDone sendDone : Bool) (s : State) :
    let s' := if recvDone then retireKid kid { s with recvs := s.recvs.filter (fun t => !(t.sid == sid && t.kid == kid)) } else releaseKid kid s
    Tidied s (if sendDone then
      retireKids ((s'.sends.filter (fun t => t.kid == sendKid)).flatMap (fun t => t.kid :: t.next.toList))
        { s' with sends := s'.sends.filter (fun t => t.kid != sendKid) }
    else releaseKid sendKid s') := by
  intro s'
  have hrecv : Tidied s s' := .ite ((tidied_retireKid ..).after rfl rfl rfl rfl) (tidied_releaseKid ..)
  exact hrecv.trans (.ite ((tidied_retireKids ..).after rfl rfl rfl rfl) (tidied_releaseKid ..))

theorem tidied_releaseHolds (p : InProg) (s : State) : Tidied s (releaseHolds p s) := by
  unfold releaseHolds
  split
  case h_1 | h_7 | h_9 | h_10 => exact tidied_releaseKid ..
  case h_2 | h_3 => exact (tidied_releaseKid ..).after rfl rfl rfl rfl
  case h_4 => exact .ite (tidied_regionMod ..) (tidied_parkRegion ..)
  case h_5 => exact .ite ((tidied_cancelOffer ..).trans (tidied_regionMod ..)) (tidied_dropRegion ..)
  case h_6 => exact tidied_freeRegion ..
  case h_8 => exact tidied_dropStreams ..
  case h_11 => exact tidied_endReplay ..
  case h_12 => exact .refl s

theorem tidied_abortCmd (p : InProg) (s : State) : Tidied s (abortCmd p s) := by
  have hleave : ∀ q, Tidied s (leaveOut q s) := fun q => .ite (.outside rfl rfl rfl rfl) (.refl s)
  unfold abortCmd
  split
  · exact .refl s
  · exact ((hleave _).trans (tidied_releaseHolds ..)).trans (tidied_complete ..)

theorem tidied_abortCmds (l : List InProg) (s : State) : Tidied s (abortCmds l s) := by
  induction l generalizing s with
  | nil => exact .refl s
  | cons p l ih => exact (tidied_abortCmd p s).trans (ih _)

/-! ### The cleanup sequence (R164) -/

theorem tidied_abandonCtx (f : Fn) (ctx : W16) (self : Fn × W32) (s : State) : Tidied s (abandonCtx f ctx self s).2.2 := by
  have hend : Tidied s (fnMod f (fun x =>
      { x with ctxs := mapMod {} x.ctxs ctx.toNat (fun c => { c with gen := c.gen + 1, live := false, suspect := false }) }) s) :=
    tidied_fnMod_rest f _ s (fun _ => rfl) fun _ => rfl
  unfold abandonCtx
  extract_lets s₁ s₂ s₃ s₄ s₅ rs kids s₆ s₇ s₈
  have h₂ : Tidied s s₂ := hend.trans (tidied_clearCtx ..)
  have h₃ : Tidied s s₃ := h₂.trans (tidied_abortCmds ..)
  have h₅ : Tidied s s₅ := (h₃.trans (tidied_abandonFences ..)).trans (tidied_unmapObjs ..)
  have h₇ : Tidied s s₇ := (h₅.trans (tidied_closeBulks ..)).trans (tidied_eachIdx _ (tidied_beginFree 0x43) ..)
  dsimp only
  exact h₇.trans (tidied_retireKids ..)

theorem tidied_abandonAll (f : Fn) (self : Fn × W32) (l : List Nat) (s : State) : Tidied s (abandonAll f self l s) := by
  induction l generalizing s with
  | nil => exact .refl s
  | cons c l ih => exact (tidied_abandonCtx ..).trans (ih _)

theorem tidied_beginEnd (f : Fn) (s : State) : Tidied s (beginEnd f s) :=
  ((tidied_closeStreams ..).trans (tidied_eachIdx _ (tidied_beginFree 0x02) ..)).trans (tidied_retireKids ..)

theorem tidied_applyEvents (l : List TaborEv) (s : State) : Tidied s (applyEvents l s) := by
  induction l generalizing s with
  | nil => exact .refl s
  | cons e l ih => exact (Tidied.of_sendsOnly (sendsOnly_countOp ..)).trans (ih _)

theorem tidied_setTabor (n : Nat) (x : TaborSt) (s : State) : Tidied s { s with opens := n, tabor := x } := .outside rfl rfl rfl rfl

theorem tidied_viewMod (v : ViewId) (g : ViewSt → ViewSt) (s : State) : Tidied s (viewMod v g s) := by
  cases v <;> exact .outside rfl rfl rfl rfl

theorem tidied_resetViews (f : Fn) (s : State) : Tidied s (resetViews f s) := by
  cases f with
  | pf => exact .refl s
  | vf i =>
    have hevents : Tidied s (applyBefore (Fn.vf i).key none s) := (tidied_applyEvents ..).after rfl rfl rfl rfl
    exact (((hevents.trans (tidied_viewMod (.pfOf i) ..)).trans (tidied_viewMod (.vf i) ..)).trans (tidied_viewMod (.pfOf i) ..)).trans
      (tidied_setTabor ..)

/-- A ring that is closing serves nothing new. -/
theorem tidied_closeRing (f : Fn) (s : State) : Tidied s (ringMod f (fun r => { r with closing := true }) s) :=
  tidied_ringMod f _ s fun _ => ⟨rfl, rfl, rfl⟩

theorem tidied_startCleanup (f : Fn) (byReset : Option (Fn × W32)) (s : State) : Tidied s (startCleanup f byReset s) := by
  unfold startCleanup
  split
  · split
    · exact tidied_fnMod_rest f _ s (fun _ => rfl) fun _ => rfl
    · exact .refl s
  · extract_lets self s₁ s₂ live s₃ s₄ s₅ s₆ s₇ kids
    have h₁ : Tidied s s₁ := tidied_closeRing ..
    have h₃ : Tidied s s₃ := (h₁.trans (tidied_abortCmds ..)).trans (tidied_abandonAll ..)
    have h₅ : Tidied s s₅ := (h₃.trans (tidied_unmapObjs ..)).trans (tidied_freeAllFences ..)
    have h₆ : Tidied s s₆ := (h₅.trans (tidied_beginEnd ..)).trans (tidied_closeBulks ..)
    have h₇ : Tidied s s₇ := h₆.trans (tidied_retireKids ..)
    refine Tidied.trans ?_ (tidied_resetViews f _)
    exact h₇.trans (tidied_fnMod_rest f _ s₇ (fun _ => rfl) fun _ => rfl)

end Sys2Proof.Machine
end

section
/-! SUPPORT. Loss of a port's link (R168): what becomes of its mailbox, its IDE registers, its STOPs, its rings and its TDIs. Faulting the
rings and moving the TDIs to ERROR a second time changes nothing, whatever the order of the functions and however often one is named. -/
namespace Sys2Proof.Machine

/-! ### What the end of rings and TDIs leaves of a port -/

/-- `t` has the mailboxes and IDE registers of `s`, and owes the same STOPs. -/
structure HostKept (s t : State) : Prop where
  mail0 : t.mail0 = s.mail0
  mail1 : t.mail1 = s.mail1
  ide : t.ide = s.ide
  stops : ∀ f, (fnOf t f).tdi.stopOwed = (fnOf s f).tdi.stopOwed

theorem HostKept.refl (s : State) : HostKept s s := ⟨rfl, rfl, rfl, fun _ => rfl⟩

theorem HostKept.trans {s t u : State} (h : HostKept s t) (h' : HostKept t u) : HostKept s u :=
  ⟨h'.mail0.trans h.mail0, h'.mail1.trans h.mail1, h'.ide.trans h.ide, fun f => (h'.stops f).trans (h.stops f)⟩

theorem Tidied.hostKept {s t : State} (h : Tidied s t) : HostKept s t :=
  ⟨h.mail0, h.mail1, h.ide, fun f => congrArg TdiSt.stopOwed (h.tdi f)⟩

theorem hostKept_fnMod (f : Fn) (g : FnSt → FnSt) (s : State) (hg : ∀ x, (g x).tdi.stopOwed = x.tdi.stopOwed) : HostKept s (fnMod f g s) := by
  refine ⟨rfl, rfl, rfl, fun f' => ?_⟩
  by_cases hf : f' = f
  · subst hf; rw [fnOf_fnMod_self, hg]
  · rw [fnOf_fnMod_ne _ _ _ _ hf]

/-! ### Faulted rings -/

/-- A ring whose writes have failed. -/
def writesFailed (r : RingSt) : RingSt := { r with hostWriteFailed := true }

theorem ringFault_of_faulted {f : Fn} {s : State} (h : (ringOf s f).faulted = true) (code : W16) :
    ringFault f code s = if code = 4 then ringMod f writesFailed s else s := by
  rw [ringFault, h]; rfl

theorem ringFault_of_sound {f : Fn} {s : State} (h : (ringOf s f).faulted = false) (code : W16) :
    ringFault f code s = postDoorbell f (ringMod f (withFault code) s) := by
  simp only [ringFault, h, Bool.false_eq_true, if_false]
  exact congrArg (postDoorbell f) (ringMod_congr (by simp only [withFault, h, Bool.false_eq_true, if_false]))

theorem hostKept_ringFault (f : Fn) (code : W16) (s : State) : HostKept s (ringFault f code s) := by
  have hmod : ∀ g, HostKept s (ringMod f g s) := fun g => hostKept_fnMod f _ s fun _ => rfl
  cases h : (ringOf s f).faulted
  case false => rw [ringFault_of_sound h]; exact (hmod _).trans (tidied_postDoorbell ..).hostKept
  case true =>
    rw [ringFault_of_faulted h]
    split
    · exact hmod _
    · exact .refl s

/-- An enabled ring of the port faults. -/
def faultEnabled (lost : List Fn) (f : Fn) (s : State) : State :=
  if (ringOf s f).enabled then ringFault f (if lost.contains f || (ringOf s f).hostWriteFailed then 0x0004 else 0x0003) s else s

theorem faultRings_cons (lost : List Fn) (f : Fn) (l : List Fn) (s : State) :
    faultRings lost (f :: l) s = faultRings lost l (faultEnabled lost f s) := rfl

theorem hostKept_faultEnabled (lost : List Fn) (f : Fn) (s : State) : HostKept s (faultEnabled lost f s) := by
  unfold faultEnabled
  split
  · exact hostKept_ringFault ..
  · exact .refl s

theorem hostKept_faultRings (lost l : List Fn) (s : State) : HostKept s (faultRings lost l s) := by
  induction l generalizing s with
  | nil => exact .refl s
  | cons f l ih => exact (hostKept_faultEnabled lost f s).trans (ih _)

/-- The ring of `f`, if enabled, has faulted, and with it the host's writes where `lost` or an earlier failure says so. -/
structure RingDown (lost : List Fn) (f : Fn) (s : State) : Prop where
  faulted : (ringOf s f).enabled = true → (ringOf s f).faulted = true
  failed : (ringOf s f).enabled = true → (lost.contains f || (ringOf s f).hostWriteFailed) = true →
    (ringOf s f).hostWriteFailed = true ∧ Placed f s

/-- A ring that is down is not faulted again. -/
theorem RingDown.faultEnabled_id {lost : List Fn} {f : Fn} {s : State} (h : RingDown lost f s) : faultEnabled lost f s = s := by
  unfold faultEnabled
  split
  case isFalse => rfl
  case isTrue he =>
    rw [ringFault_of_faulted (h.faulted he)]
    cases hc : lost.contains f || (ringOf s f).hostWriteFailed
    case false => rfl
    case true =>
      obtain ⟨hw, hp⟩ := h.failed he hc
      refine hp.fnMod_id ?_
      have hring : writesFailed (fnOf s f).ring = (fnOf s f).ring := by rw [writesFailed, ← show (fnOf s f).ring.hostWriteFailed = true from hw]
      simp only [hring]

theorem placed_ringFault_four (f : Fn) (s : State) : Placed f (ringFault f 4 s) := by
  cases h : (ringOf s f).faulted
  case false => rw [ringFault_of_sound h]; exact (tidied_postDoorbell ..).placed f (placed_fnMod_self ..)
  case true => rw [ringFault_of_faulted h]; exact placed_fnMod_self ..

theorem Placed.ringFault {f : Fn} {s : State} (hp : Placed f s) (f' : Fn) (code : W16) : Placed f (Machine.ringFault f' code s) := by
  cases h : (ringOf s f').faulted
  case false => rw [ringFault_of_sound h]; exact (tidied_postDoorbell ..).placed f (hp.fnMod ..)
  case true =>
    rw [ringFault_of_faulted h]
    split
    · exact hp.fnMod ..
    · exact hp

theorem ringDown_faultEnabled (lost : List Fn) (f : Fn) (s : State) : RingDown lost f (faultEnabled lost f s) := by
  unfold faultEnabled
  split
  case isFalse he => exact ⟨fun h => absurd h he, fun h => absurd h he⟩
  case isTrue he =>
    cases hc : lost.contains f || (ringOf s f).hostWriteFailed
    case false =>
      refine ⟨fun _ => by rw [ringOf_ringFault]; rfl, fun _ h => ?_⟩
      rw [ringOf_ringFault] at h
      simp_all [withFault]
    case true =>
      refine ⟨fun _ => by rw [ringOf_ringFault]; rfl, fun _ _ => ⟨?_, placed_ringFault_four f s⟩⟩
      rw [ringOf_ringFault]
      simp [withFault]

theorem RingDown.faultEnabled {lost : List Fn} {f : Fn} {s : State} (h : RingDown lost f s) (f' : Fn) :
    RingDown lost f (Machine.faultEnabled lost f' s) := by
  by_cases hf : f' = f
  · subst hf; rwa [h.faultEnabled_id]
  · unfold Machine.faultEnabled
    split
    case isFalse => exact h
    case isTrue =>
      have hring : ringOf (ringFault f' (if lost.contains f' || (ringOf s f').hostWriteFailed then 4 else 3) s) f = ringOf s f :=
        (ringLocal_ringFault ..).ring_ne (Ne.symm hf)
      refine ⟨fun he => ?_, fun he hc => ?_⟩
      · rw [hring] at he ⊢; exact h.faulted he
      · rw [hring] at he hc ⊢; exact ⟨(h.failed he hc).1, (h.failed he hc).2.ringFault ..⟩

theorem RingDown.faultRings {lost : List Fn} {f : Fn} {s : State} (h : RingDown lost f s) (l : List Fn) :
    RingDown lost f (Machine.faultRings lost l s) := by
  induction l generalizing s with
  | nil => exact h
  | cons f' l ih => exact ih (h.faultEnabled f')

theorem ringDown_faultRings (lost : List Fn) {l : List Fn} {f : Fn} (hf : f ∈ l) (s : State) : RingDown lost f (faultRings lost l s) := by
  induction l generalizing s with
  | nil => cases hf
  | cons f' l ih =>
    obtain rfl | hf := List.mem_cons.1 hf
    · exact (ringDown_faultEnabled lost f s).faultRings l
    · exact ih hf _

/-- Rings that are down are not faulted again. -/
theorem faultRings_down {lost l : List Fn} {s : State} (h : ∀ f ∈ l, RingDown lost f s) : faultRings lost l s = s := by
  induction l with
  | nil => rfl
  | cons f l ih =>
    rw [faultRings_cons, (h f List.mem_cons_self).faultEnabled_id]
    exact ih fun f' hf => h f' (List.mem_cons_of_mem _ hf)

/-! ### TDIs in ERROR -/

/-- A function whose TDI is in ERROR without its start nonce (R165). -/
def inError (x : FnSt) : FnSt := { x with tdi := { x.tdi with state := .error, nonce := none } }

theorem tdiError_moves {any : Bool} {f : Fn} {s : State}
    (h : (fnOf s f).tdi.state = .locked ∨ (fnOf s f).tdi.state = .run ∨ (any ∧ (fnOf s f).tdi.state = .unlocked)) :
    tdiError any f s = startCleanup f none (fnMod f inError s) := by
  rw [tdiError, if_pos h]; rfl

theorem tdiError_stays {any : Bool} {f : Fn} {s : State}
    (h : ¬ ((fnOf s f).tdi.state = .locked ∨ (fnOf s f).tdi.state = .run ∨ (any ∧ (fnOf s f).tdi.state = .unlocked))) :
    tdiError any f s = s := by
  rw [tdiError, if_neg h]

theorem hostKept_tdiError (any : Bool) (f : Fn) (s : State) : HostKept s (tdiError any f s) := by
  unfold tdiError
  dsimp only
  split
  · exact (hostKept_fnMod f inError s fun _ => rfl).trans (tidied_startCleanup ..).hostKept
  · exact .refl s

theorem hostKept_tdisErrorClean (any : Bool) (l : List Fn) (s : State) : HostKept s (tdisErrorClean any l s) := by
  induction l generalizing s with
  | nil => exact .refl s
  | cons f l ih => exact (hostKept_tdiError any f s).trans (ih _)

theorem RingDown.tidied {lost : List Fn} {f : Fn} {s t : State} (h : RingDown lost f s) (ht : Tidied s t) : RingDown lost f t where
  faulted he := (ht.faulted f).trans (h.faulted (ht.enabled f he))
  failed he hc := by
    rw [ht.failed] at hc ⊢
    obtain ⟨hw, hp⟩ := h.failed (ht.enabled f he) hc
    exact ⟨hw, ht.placed f hp⟩

theorem ringOf_fnMod_of_ring (f f' : Fn) (g : FnSt → FnSt) (s : State) (hg : ∀ x, (g x).ring = x.ring) :
    ringOf (fnMod f' g s) f = ringOf s f := by
  by_cases hf : f = f'
  · subst hf; rw [ringOf, fnOf_fnMod_self, hg]; rfl
  · rw [ringOf, fnOf_fnMod_ne _ _ _ _ hf]; rfl

theorem RingDown.inError {lost : List Fn} {f : Fn} {s : State} (h : RingDown lost f s) (f' : Fn) :
    RingDown lost f (fnMod f' Machine.inError s) := by
  have hring := ringOf_fnMod_of_ring f f' Machine.inError s fun _ => rfl
  refine ⟨fun he => ?_, fun he hc => ?_⟩
  · rw [hring] at he ⊢; exact h.faulted he
  · rw [hring] at he hc ⊢; exact ⟨(h.failed he hc).1, (h.failed he hc).2.fnMod ..⟩

theorem RingDown.tdisErrorClean {lost : List Fn} {f : Fn} {s : State} (h : RingDown lost f s) (any : Bool) (l : List Fn) :
    RingDown lost f (Machine.tdisErrorClean any l s) := by
  induction l generalizing s with
  | nil => exact h
  | cons f' l ih =>
    refine ih ?_
    unfold tdiError
    dsimp only
    split
    · exact (h.inError f').tidied (tidied_startCleanup ..)
    · exact h

/-- ERROR is left by no other TDI's end. -/
theorem error_tdiError {f : Fn} {s : State} (h : (fnOf s f).tdi.state = .error) (any : Bool) (f' : Fn) :
    (fnOf (tdiError any f' s) f).tdi.state = .error := by
  unfold tdiError
  dsimp only
  split
  · rw [(tidied_startCleanup ..).tdi]
    by_cases hf : f = f'
    · subst hf; rw [fnOf_fnMod_self]
    · rw [fnOf_fnMod_ne _ _ _ _ hf, h]
  · exact h

theorem error_tdisErrorClean_of_error {f : Fn} {s : State} (h : (fnOf s f).tdi.state = .error) (any : Bool) (l : List Fn) :
    (fnOf (tdisErrorClean any l s) f).tdi.state = .error := by
  induction l generalizing s with
  | nil => exact h
  | cons f' l ih => exact ih (error_tdiError h any f')

/-- Whatever the state of a TDI, the loss of its port moves it to ERROR. -/
theorem error_tdiError_self (f : Fn) (s : State) : (fnOf (tdiError true f s) f).tdi.state = .error := by
  cases hs : (fnOf s f).tdi.state
  case error => exact error_tdiError hs true f
  all_goals
    rw [tdiError_moves (by simp [hs]), (tidied_startCleanup ..).tdi, fnOf_fnMod_self]
    rfl

theorem error_tdisErrorClean {l : List Fn} {f : Fn} (hf : f ∈ l) (s : State) : (fnOf (tdisErrorClean true l s) f).tdi.state = .error := by
  induction l generalizing s with
  | nil => cases hf
  | cons f' l ih =>
    obtain rfl | hf := List.mem_cons.1 hf
    · exact error_tdisErrorClean_of_error (error_tdiError_self f s) true l
    · exact ih hf _

/-- TDIs in ERROR start no cleanup again. -/
theorem tdisErrorClean_error {any : Bool} {l : List Fn} {s : State} (h : ∀ f ∈ l, (fnOf s f).tdi.state = .error) :
    tdisErrorClean any l s = s := by
  induction l with
  | nil => rfl
  | cons f l ih =>
    have hf := tdiError_stays (any := any) (f := f) (s := s) (by simp [h f List.mem_cons_self])
    rw [tdisErrorClean, hf]
    exact ih fun f' hf => h f' (List.mem_cons_of_mem _ hf)

/-- The end of rings and TDIs at a port's loss, done again, changes nothing. -/
theorem portEnded_again {lost fns vfs fns' vfs' : List Fn} (hfns : ∀ f ∈ fns', f ∈ fns) (hvfs : ∀ f ∈ vfs', f ∈ vfs) (s : State) :
    let t := tdisErrorClean true vfs (faultRings lost fns s)
    tdisErrorClean true vfs' (faultRings lost fns' t) = t := by
  intro t
  have hdown : faultRings lost fns' t = t :=
    faultRings_down fun f hf => (ringDown_faultRings lost (hfns f hf) s).tdisErrorClean true vfs
  rw [hdown, tdisErrorClean_error fun f hf => error_tdisErrorClean (hvfs f hf) _]

/-! ### TDIs in ERROR where no cleanup is left to run -/

/-- A function whose TDI is in ERROR. -/
def inErrorOnly (x : FnSt) : FnSt := { x with tdi := { x.tdi with state := .error } }

theorem eachError_cons (f : Fn) (l : List Fn) (s : State) : eachError (f :: l) s = eachError l (fnMod f inErrorOnly s) := rfl

theorem hostKept_eachError (l : List Fn) (s : State) : HostKept s (eachError l s) := by
  induction l generalizing s with
  | nil => exact .refl s
  | cons f l ih => exact (hostKept_fnMod f inErrorOnly s fun _ => rfl).trans (ih _)

/-- A TDI in ERROR whose function stands in its place stays so. -/
theorem eachError_keeps {f : Fn} {s : State} (hp : Placed f s) (he : (fnOf s f).tdi.state = .error) (l : List Fn) :
    Placed f (eachError l s) ∧ (fnOf (eachError l s) f).tdi.state = .error := by
  induction l generalizing s with
  | nil => exact ⟨hp, he⟩
  | cons f' l ih =>
    refine ih (hp.fnMod ..) ?_
    by_cases hf : f = f'
    · subst hf; rw [fnOf_fnMod_self]
    · rw [fnOf_fnMod_ne _ _ _ _ hf, he]

theorem eachError_moves {l : List Fn} {f : Fn} (hf : f ∈ l) (s : State) :
    Placed f (eachError l s) ∧ (fnOf (eachError l s) f).tdi.state = .error := by
  induction l generalizing s with
  | nil => cases hf
  | cons f' l ih =>
    obtain rfl | hf := List.mem_cons.1 hf
    · exact eachError_keeps (placed_fnMod_self ..) (by rw [fnOf_fnMod_self]) l
    · exact ih hf _

theorem eachError_again {vfs vfs' : List Fn} (hvfs : ∀ f ∈ vfs', f ∈ vfs) (s : State) : eachError vfs' (eachError vfs s) = eachError vfs s := by
  have hstands : ∀ f ∈ vfs', Placed f (eachError vfs s) ∧ (fnOf (eachError vfs s) f).tdi.state = .error :=
    fun f hf => eachError_moves (hvfs f hf) s
  generalize eachError vfs s = t at hstands
  clear hvfs
  induction vfs' with
  | nil => rfl
  | cons f l ih =>
    obtain ⟨hp, he⟩ := hstands f List.mem_cons_self
    have hid : fnMod f inErrorOnly t = t := hp.fnMod_id (by rw [inErrorOnly, ← he])
    rw [eachError_cons, hid]
    exact ih fun f' hf => hstands f' (List.mem_cons_of_mem _ hf)

end Sys2Proof.Machine
end

section
/-! SUPPORT. LINK_DOWN as a whole (R168), VF_ENABLE (R162), function-level resets and failures of the PCIe controller (R165, R315). -/
namespace Sys2Proof.Machine

/-! ### The rows' meanings -/

theorem exec_linkDown (p : BitVec 1) (l : List Fn) (s : State) : exec (.linkDown p l) s = .next (linkDown p l s) := rfl
theorem exec_vfEnable (v : BitVec 12) (tick : Nat) (pl : Placement) (s : State) :
    exec (.vfEnable v ⟨tick, pl⟩) s = .next (vfEnable v tick pl s) := rfl
theorem exec_vfFunctionLevelReset (v : BitVec 12) (ev : VfEvent) (s : State) : exec (.vfFunctionLevelReset ⟨v, ev⟩) s =
    .next (whenLive (fun s => settle (tdiError false (.vf v) s)) (configured v ev s)) := rfl
theorem exec_pfFunctionLevelReset (s : State) : exec .pfFunctionLevelReset s = .next (whenLive pfReset s) := rfl
theorem exec_ideIntegrityFailure (p : BitVec 1) (n : Nat) (s : State) : exec (.ideIntegrityFailure p n) s =
    .next (whenLive (fun s => settle (tdisErrorClean false (boundTo s p n) s)) s) := rfl
theorem exec_pcieControllerUncorrectable (p : BitVec 1) (l : List (BitVec 12)) (s : State) : exec (.pcieControllerUncorrectable p l) s =
    .next (whenLive (fun s => settle (tdisErrorClean false ((l.filter (fun v => vfPort v == p)).map Fn.vf) (emit (.pcieUncorrectable p) s))) s) :=
  rfl

/-! ### The port's keys, sessions and STOPs -/

theorem mapFind_filter {β : Type} (m : FMap β) (P : Nat → Bool) (k : Nat) :
    mapFind (m.filter (fun e => P e.1)) k = if P k then mapFind m k else none := by
  induction m with
  | nil => simp [mapFind]
  | cons e m ih =>
    obtain ⟨j, v⟩ := e
    grind [mapFind]

/-- An IDE key register of port `p`. -/
def ofPort (p : BitVec 1) (k : Nat) : Bool := k / 108 == p.toNat

/-- The port's IDE keys zeroised. -/
def withoutPortKeys (p : BitVec 1) (s : State) : State :=
  { s with ide := { s.ide with keys := s.ide.keys.filter (fun e => !ofPort p e.1), active := s.ide.active.filter (fun k => !ofPort p k) } }

/-- The port's IDE keys zeroised and its sessions ended. -/
def sessionsEnded (p : BitVec 1) (s : State) : State :=
  retireKids ((mailOf s p).sessions.map (·.kid)) (mailMod p (fun _ => {}) (withoutPortKeys p s))

/-- The port has lost its keys, its sessions and the STOPs it owed. -/
def portLeft (p : BitVec 1) (s : State) : State := dropStops (portFns (sessionsEnded p s) p) (sessionsEnded p s)

/-- The enabled VFs that a port presents. -/
def portVfs (s : State) (p : BitVec 1) : List Fn := (portFns s p).filter (fun f => f != .pf && (fnOf s f).enabled)

theorem linkDown_eq (p : BitVec 1) (l : List Fn) (s : State) :
    linkDown p l s = if ready (portLeft p s) && (portLeft p s).pkg.power != .off
      then settle (tdisErrorClean true (portVfs (portLeft p s) p) (faultRings l (portFns (portLeft p s) p) (portLeft p s)))
      else eachError (portVfs (portLeft p s) p) (portLeft p s) := rfl

theorem sendsOnly_sessionsEnded (p : BitVec 1) (s : State) : SendsOnly (mailMod p (fun _ => {}) (withoutPortKeys p s)) (sessionsEnded p s) :=
  sendsOnly_retireKids ..

theorem sessionsEnded_frame (p : BitVec 1) (s : State) : (sessionsEnded p s).fns = s.fns ∧ (sessionsEnded p s).pkg = s.pkg ∧
    (sessionsEnded p s).ide = (withoutPortKeys p s).ide ∧ mailOf (sessionsEnded p s) p = {} ∧
    mailOf (sessionsEnded p s) (~~~p) = mailOf s (~~~p) := by
  have hs := sendsOnly_sessionsEnded p s
  have hm := mailMod_frame p (fun _ => {}) (withoutPortKeys p s)
  have hmail : ∀ p', mailOf (sessionsEnded p s) p' = mailOf (mailMod p (fun _ => {}) (withoutPortKeys p s)) p' := fun p' => by rw [hs]; rfl
  refine ⟨by rw [hs, hm]; rfl, by rw [hs, hm]; rfl, by rw [hs, hm], ?_, ?_⟩
  · rw [hmail, mailOf_mailMod_self]
  · rw [hmail, mailOf_mailMod_not]; rfl

/-- A function that owes no STOP. -/
def withoutStops (x : FnSt) : FnSt := { x with tdi := { x.tdi with stopOwed := [] } }

/-- A function's STOPs are dropped. -/
def dropStop (f : Fn) (s : State) : State := if (fnOf s f).tdi.stopOwed.isEmpty then s else fnMod f withoutStops s

theorem dropStops_cons (f : Fn) (l : List Fn) (s : State) : dropStops (f :: l) s = dropStops l (dropStop f s) := rfl

theorem fnOf_dropStop (f f' : Fn) (s : State) : fnOf (dropStop f' s) f = if f = f' then withoutStops (fnOf s f) else fnOf s f := by
  by_cases hf : f = f'
  · subst hf
    rw [if_pos rfl, dropStop]
    split
    case isTrue he => rw [withoutStops, ← List.isEmpty_iff.1 he]
    case isFalse => exact fnOf_fnMod_self ..
  · rw [if_neg hf, dropStop]
    split
    · rfl
    · exact fnOf_fnMod_ne _ _ _ _ hf

theorem fnOf_dropStops (l : List Fn) (f : Fn) (s : State) : fnOf (dropStops l s) f = if f ∈ l then withoutStops (fnOf s f) else fnOf s f := by
  induction l generalizing s with
  | nil => rfl
  | cons f' l ih =>
    rw [dropStops_cons, ih, fnOf_dropStop]
    by_cases hf : f = f'
    · simp [hf, withoutStops]
    · simp [hf]

theorem dropStops_frame (l : List Fn) (s : State) : dropStops l s = { s with fns := (dropStops l s).fns } := by
  induction l generalizing s with
  | nil => rfl
  | cons f l ih =>
    rw [dropStops_cons, dropStop]
    split
    · exact ih s
    · exact ih _

theorem mem_keys_mapSet {β : Type} {m : FMap β} {j : Nat} (h : j ∈ m.map Prod.fst) (k : Nat) (v : β) : j ∈ (mapSet m k v).map Prod.fst := by
  induction m with
  | nil => cases h
  | cons e m ih =>
    obtain ⟨a, w⟩ := e
    grind [mapSet]

/-- A change of a function leaves every function listed that was. -/
theorem mem_listedFns_fnMod {f : Fn} {s : State} (h : f ∈ listedFns s) (f' : Fn) (g : FnSt → FnSt) : f ∈ listedFns (fnMod f' g s) := by
  obtain ⟨e, he, rfl⟩ := List.mem_map.1 h
  obtain ⟨e', he', hk⟩ := List.mem_map.1 (mem_keys_mapSet (List.mem_map_of_mem he) f'.key (g (mapGet {} s.fns f'.key)))
  exact List.mem_map.2 ⟨e', he', by rw [hk]⟩

theorem mem_listedFns_dropStops {f : Fn} {s : State} (h : f ∈ listedFns s) (l : List Fn) : f ∈ listedFns (dropStops l s) := by
  induction l generalizing s with
  | nil => exact h
  | cons f' l ih =>
    rw [dropStops_cons, dropStop]
    split
    · exact ih h
    · exact ih (mem_listedFns_fnMod h ..)

theorem portFns_sessionsEnded (p : BitVec 1) (s : State) : portFns (sessionsEnded p s) p = portFns s p := by
  simp only [portFns, listedFns, (sessionsEnded_frame p s).1]

theorem fnOf_portLeft (p : BitVec 1) (s : State) (f : Fn) :
    fnOf (portLeft p s) f = if f ∈ portFns s p then withoutStops (fnOf s f) else fnOf s f := by
  have hf : fnOf (sessionsEnded p s) f = fnOf s f := by rw [fnOf, (sessionsEnded_frame p s).1]; rfl
  rw [portLeft, fnOf_dropStops, portFns_sessionsEnded, hf]

/-- The port presents every function that it presented. -/
theorem mem_portFns_portLeft {p : BitVec 1} {s : State} {f : Fn} (h : f ∈ portFns s p) : f ∈ portFns (portLeft p s) p := by
  obtain ⟨hl, hp⟩ := List.mem_filter.1 ((portFns_sessionsEnded p s).symm ▸ h)
  exact List.mem_filter.2 ⟨mem_listedFns_dropStops hl _, hp⟩

theorem mem_portVfs_portLeft {p : BitVec 1} {s : State} {f : Fn} (h : f ∈ portVfs s p) : f ∈ portVfs (portLeft p s) p := by
  obtain ⟨hl, hp⟩ := List.mem_filter.1 h
  have he : (fnOf (portLeft p s) f).enabled = (fnOf s f).enabled := by rw [fnOf_portLeft]; split <;> rfl
  exact List.mem_filter.2 ⟨mem_portFns_portLeft hl, by rw [he]; exact hp⟩

theorem portLeft_pkg (p : BitVec 1) (s : State) : (portLeft p s).pkg = s.pkg := by
  rw [portLeft, dropStops_frame]; exact (sessionsEnded_frame p s).2.1

/-- What LINK_DOWN leaves of a port in every state of the package. -/
structure PortLost (p : BitVec 1) (s u : State) : Prop where
  mail : mailOf u p = {}
  other : mailOf u (~~~p) = mailOf s (~~~p)
  stops : ∀ f ∈ portFns s p, (fnOf u f).tdi.stopOwed = []
  keys : ∀ k, mapFind u.ide.keys k = if k / 108 = p.toNat then none else mapFind s.ide.keys k
  active : ∀ k, k ∈ u.ide.active ↔ k ∈ s.ide.active ∧ k / 108 ≠ p.toNat

theorem portLost_portLeft (p : BitVec 1) (s : State) : PortLost p s (portLeft p s) := by
  obtain ⟨-, -, hide, hmail, hother⟩ := sessionsEnded_frame p s
  have hide' : (portLeft p s).ide = (withoutPortKeys p s).ide := by rw [portLeft, dropStops_frame]; exact hide
  have hmails : ∀ p', mailOf (portLeft p s) p' = mailOf (sessionsEnded p s) p' := fun p' => by rw [portLeft, dropStops_frame]; rfl
  refine ⟨(hmails p).trans hmail, (hmails _).trans hother, fun f hf => ?_, fun k => ?_, fun k => ?_⟩
  · rw [fnOf_portLeft, if_pos hf]; rfl
  · rw [hide']
    refine (mapFind_filter s.ide.keys (fun k => !ofPort p k) k).trans ?_
    by_cases hk : k / 108 = p.toNat <;> simp [ofPort, hk]
  · simp [hide', withoutPortKeys, ofPort]

theorem PortLost.kept {p : BitVec 1} {s t u : State} (h : PortLost p s t) (hk : HostKept t u) : PortLost p s u := by
  have hmails : ∀ p', mailOf u p' = mailOf t p' := fun p' => by rw [mailOf, hk.mail0, hk.mail1]; rfl
  exact ⟨(hmails p).trans h.mail, (hmails _).trans h.other, fun f hf => (hk.stops f).trans (h.stops f hf),
    fun k => by rw [hk.ide]; exact h.keys k, fun k => by rw [hk.ide]; exact h.active k⟩

/-- LINK_DOWN ends in the end of the port's rings and TDIs, of a state in which the port is lost. -/
theorem linkDown_spec (p : BitVec 1) (l : List Fn) (s : State) :
    ∃ u, linkDown p l s = (if ready s && s.pkg.power != .off
        then settle (tdisErrorClean true (portVfs s p) (faultRings l (portFns s p) u)) else eachError (portVfs s p) u) ∧ PortLost p s u := by
  have hready : (ready (portLeft p s) && (portLeft p s).pkg.power != .off) = (ready s && s.pkg.power != .off) := by
    rw [ready, portLeft_pkg]; rfl
  have hlost := portLost_portLeft p s
  rw [linkDown_eq, hready]
  split
  · exact ⟨_, congrArg settle (portEnded_again (fun _ => mem_portFns_portLeft) (fun _ => mem_portVfs_portLeft) (portLeft p s)).symm,
      hlost.kept ((hostKept_faultRings ..).trans (hostKept_tdisErrorClean ..))⟩
  · exact ⟨_, (eachError_again (fun _ => mem_portVfs_portLeft) (portLeft p s)).symm, hlost.kept (hostKept_eachError ..)⟩

/-! ### VF Enable (R162, R306, R359) -/

/-- A VF's state when it has just been enabled. -/
def enabledFn (pl : Placement) : FnSt := { enabled := true, place := pl }

theorem vfEnable_enabled (v : BitVec 12) (tick : Nat) (pl : Placement) (s : State) (h : (fnOf s (.vf v)).enabled = true) :
    vfEnable v tick pl s = s := by
  simp [vfEnable, h]

theorem vfEnable_new (v : BitVec 12) (tick : Nat) (pl : Placement) (s : State) (ho : s.pkg.phase ≠ .off) (hh : s.pkg.phase ≠ .halted)
    (h : (fnOf s (.vf v)).enabled = false) : vfEnable v tick pl s =
      viewMod (.vf v) (fun _ => { t0 := tick }) (viewMod (.pfOf v) (fun _ => { t0 := tick }) (fnMod (.vf v) (fun _ => enabledFn pl) s)) := by
  simp only [vfEnable, ho, hh, h, false_or, Bool.false_eq_true, if_false]
  rfl

theorem viewOf_vf_viewMod (v : BitVec 12) (g : ViewSt → ViewSt) (s : State) : viewOf (viewMod (.vf v) g s) (.vf v) = g (viewOf s (.vf v)) :=
  mapGet_mapMod_self ..

theorem viewOf_pfOf_viewMod (v : BitVec 12) (g : ViewSt → ViewSt) (s : State) :
    viewOf (viewMod (.pfOf v) g s) (.pfOf v) = g (viewOf s (.pfOf v)) := mapGet_mapMod_self ..

/-! ### Changes of a VF's configuration, and the PF's reset -/

theorem configured_tdi (v : BitVec 12) (ev : VfEvent) (s : State) : (fnOf (configured v ev s) (.vf v)).tdi = (fnOf s (.vf v)).tdi := by
  unfold configured
  split
  · split
    · rw [fnOf_fnMod_self]
    · rfl
  · rfl

theorem configured_serving (v : BitVec 12) (ev : VfEvent) (s : State) : serving (configured v ev s) = serving s := by
  unfold configured
  split
  · split <;> rfl
  · rfl

section Reset
variable {v : BitVec 12} {s : State} (ev : VfEvent)

theorem exec_vfReset_bound (hs : serving s = true) (h : (fnOf s (.vf v)).tdi.state = .locked ∨ (fnOf s (.vf v)).tdi.state = .run) :
    exec (.vfFunctionLevelReset ⟨v, ev⟩) s = .next (settle (startCleanup (.vf v) none (fnMod (.vf v) inError (configured v ev s)))) := by
  have hb : (fnOf (configured v ev s) (.vf v)).tdi.state = .locked ∨ (fnOf (configured v ev s) (.vf v)).tdi.state = .run := by
    rwa [configured_tdi]
  rw [exec_vfFunctionLevelReset, whenLive_live _ _ ((configured_serving ..).trans hs), tdiError_moves (hb.imp_right Or.inl)]

theorem exec_vfReset_unbound (hs : serving s = true) (h : (fnOf s (.vf v)).tdi.state = .unlocked ∨ (fnOf s (.vf v)).tdi.state = .error) :
    exec (.vfFunctionLevelReset ⟨v, ev⟩) s = .next (settle (configured v ev s)) := by
  have hn : ¬ ((fnOf (configured v ev s) (.vf v)).tdi.state = .locked ∨ (fnOf (configured v ev s) (.vf v)).tdi.state = .run ∨
      (false = true ∧ (fnOf (configured v ev s) (.vf v)).tdi.state = .unlocked)) := by
    rw [configured_tdi]
    rcases h with h | h <;> simp [h]
  rw [exec_vfFunctionLevelReset, whenLive_live _ _ ((configured_serving ..).trans hs), tdiError_stays hn]

theorem exec_vfReset_idle (hs : serving s = false) : exec (.vfFunctionLevelReset ⟨v, ev⟩) s = .next (configured v ev s) := by
  rw [exec_vfFunctionLevelReset, whenLive_idle _ _ ((configured_serving ..).trans hs)]

end Reset

end Sys2Proof.Machine
end

section
/-! SUPPORT. The statement on VF_ENABLE, on resets of functions and on failures of the host's links. -/
namespace Sys2Proof.Machine

/-- Settles O56: VF_ENABLE and the resets are their rows' lemmas; of LINK_DOWN, the state that the statement asks for is the one after
the end of the port's rings and TDIs, which is the same done again. -/
theorem hostLinkAndFunctionResets : Obligations.HostLinkAndFunctionResets := by
  refine ⟨fun s v tick pl => ⟨fun ho hh he => ?enable, fun he => ?enabled⟩, fun s v ev => ?vfReset,
    fun s p hs => ⟨?pfReset, fun n => ?ide, fun l => ?pcie⟩, fun s p l => ?linkDown⟩
  case enable =>
    refine ⟨_, by rw [exec_vfEnable, vfEnable_new v tick pl s ho hh he], ?_⟩
    have hfn : fnOf (fnMod (.vf v) (fun _ => enabledFn pl) s) (.vf v) = enabledFn pl := fnOf_fnMod_self ..
    refine ⟨hfn, congrArg FnSt.gen hfn, congrArg (fun x => x.tdi.state) hfn, ?_, ?_, ?_,
      fun g hg => fnOf_fnMod_ne (.vf v) g (fun _ => enabledFn pl) s hg⟩
    · rw [viewOf_vf_viewMod]
    · exact congrArg ViewSt.t0 (viewOf_pfOf_viewMod v (fun _ => { t0 := tick }) (fnMod (.vf v) (fun _ => enabledFn pl) s))
    · rw [viewOf_vf_viewMod]
  case enabled => rw [exec_vfEnable, vfEnable_enabled v tick pl s he]
  case vfReset =>
    cases ev <;> exact ⟨exec_vfReset_bound _, exec_vfReset_unbound _, exec_vfReset_idle _⟩
  case pfReset => rw [exec_pfFunctionLevelReset, whenLive_live _ _ hs]; rfl
  case ide => rw [exec_ideIntegrityFailure, whenLive_live _ _ hs]
  case pcie => rw [exec_pcieControllerUncorrectable, whenLive_live _ _ hs]
  case linkDown =>
    obtain ⟨u, hu, hlost⟩ := linkDown_spec p l s
    exact ⟨u, by rw [exec_linkDown, hu]; rfl, hlost.mail, hlost.other, hlost.stops, hlost.keys, hlost.active⟩

end Sys2Proof.Machine
end

section
/-! SUPPORT. Arriving frames: which row's meaning an arrival has, and what the checks of the hop (steps 1 to 4 of Table 07-11) make of
the state in each of their outcomes. -/
namespace Sys2Proof.Machine

/-! ### The rows' meanings -/

theorem exec_of_sealedRow {c : Instr} {a : Arrival} {h : SealHdr} {b : FrameBody} (hc : sealedRow c = some (a, h, b)) (s : State) :
    exec c s = .next (sealedFrame a h b s) := by
  cases c <;> cases hc <;> rfl

theorem spelt_of_sealedRow {c : Instr} {a : Arrival} {h : SealHdr} {b : FrameBody} (hc : sealedRow c = some (a, h, b)) (s : State) :
    spelt c s = sealSpelt a h b := by
  simp only [spelt, hc]

theorem arrivalOf_of_sealedRow {c : Instr} {a : Arrival} {h : SealHdr} {b : FrameBody} (hc : sealedRow c = some (a, h, b)) :
    arrivalOf c = some a := by
  simp only [arrivalOf, hc]

/-- Every row of an arriving frame but LOOP is the hop's checks, then, where its bytes are spelt and this package goes on, an effect of
its own. -/
theorem exec_of_arrivalOf {c : Instr} {a : Arrival} (hc : arrivalOf c = some a) (s : State) :
    ∃ g : State → State, exec c s = .next (settle (arrive a (spelt c s) g s)) := by
  cases hrow : sealedRow c with
  | some r =>
    obtain ⟨a', h, b⟩ := r
    obtain rfl : a' = a := Option.some.inj ((arrivalOf_of_sealedRow hrow).symm.trans hc)
    rw [exec_of_sealedRow hrow, spelt_of_sealedRow hrow]
    exact ⟨_, rfl⟩
  | none => cases c <;> cases hrow <;> cases hc <;> exact ⟨_, rfl⟩

/-! ### What an arrival comes to -/

theorem arrive_unspelt (a : Arrival) (g : State → State) (s : State) : arrive a false g s = s := rfl

theorem arrive_mine {a : Arrival} {s v : State} (h : ReachesPackage s a v) (g : State → State) : arrive a true g s = g v := by
  simp [arrive, h.mine, h.calm, h.after]

/-- A row that is an arrival's, spelt and at its package, is its own effect on the state after the hop. -/
theorem exec_mine {c : Instr} {a : Arrival} {g : State → State} {s v : State}
    (hexec : exec c s = .next (settle (arrive a (spelt c s) g s))) (hr : ReachesPackage s a v) (hb : spelt c s = true) :
    exec c s = .next (settle (g v)) := by
  rw [hexec, hb, arrive_mine hr]

theorem arrive_stopped {a : Arrival} {s : State} (hm : (hopChecks a s).mine = false) (hr : (hopChecks a s).retry = false)
    (g : State → State) : arrive a true g s = (hopChecks a s).st := by
  simp [arrive, hm, hr]

theorem arrive_retryLimit {a : Arrival} {s : State} (hm : (hopChecks a s).mine = false) (hr : (hopChecks a s).retry = true)
    (g : State → State) : arrive a true g s = portLost a.port 4 (hopChecks a s).st := by
  simp [arrive, hm, hr]

/-- The hop ends with the state `u`: the package does not go on, and no retry limit is met. -/
def endsHop (u : State) : HopResult := ⟨u, false, false⟩

theorem arrive_endsHop {a : Arrival} {s u : State} (h : hopChecks a s = endsHop u) (g : State → State) : arrive a true g s = u := by
  rw [arrive_stopped (by rw [h]; rfl) (by rw [h]; rfl), h]; rfl

/-! ### The checks of the hop -/

theorem hopChecks_idle {a : Arrival} {s : State}
    (h : serving s = false ∨ (portOf s a.port).up = false ∨ (portOf s a.port).loopDepth ≠ 0) : hopChecks a s = endsHop s := by
  rcases h with h | h | h <;> simp [hopChecks, portLive, h, endsHop]

/-- How far a frame's LINK_SEQ lies beyond the one expected next (R193). -/
def seqAhead (a : Arrival) (s : State) : Nat := (a.hop.linkSeq - (portOf s a.port).rxSeq).toNat

/-- The port after the frame expected next: its LINK_SEQ taken and the credits that it grants. -/
def seqTaken (a : Arrival) (s : State) : State :=
  pump a.port (grant a.port a.hop.crdVc.toNat a.hop.crdCount.toNat
    (portMod a.port (fun p => { p with rxSeq := p.rxSeq + 1, rxAny := true, nak := false }) s))

/-- The frame in the receive buffer: it holds its credits and wakes a lent open half (R196, R239). -/
def buffered (a : Arrival) (s : State) : State :=
  if creditKind a.hop.kind && a.hop.vc.toNat < 15 then
    wakeOpen a.port (portMod a.port (fun p => { p with held := vcSet p.held a.hop.vc.toNat (· + frameCredits a.hop) }) s)
  else s

/-- Step 2 and on, for a frame in the receive buffer that brought no acknowledgement. -/
def routed (a : Arrival) (s : State) : HopResult :=
  if !hopOk a then endsHop (returnCredits a.port a.hop.vc (frameCredits a.hop) (countPort a.port 2 s))
  else
    let s := learn a s
    if (portOf s a.port).nbrLost && !(a.hop.kind == kBeat || a.hop.kind == kKnell || a.hop.kind == kProxyKnell) then
      let s := countPort a.port 4 s
      endsHop (if creditKind a.hop.kind then returnCredits a.port a.hop.vc (frameCredits a.hop) s else s)
    else if routedKind a.hop.kind && sidDst a.route != s.fab.id then endsHop (forward a s)
    else ⟨if routedKind a.hop.kind then portMod a.port (addThrough [sidSrc a.route, sidDst a.route]) s else s, true, false⟩

theorem routed_badHop {a : Arrival} (ho : hopOk a = false) (s : State) :
    routed a s = endsHop (returnCredits a.port a.hop.vc (frameCredits a.hop) (countPort a.port 2 s)) := by
  simp [routed, ho]

theorem learn_frame (a : Arrival) (s : State) :
    (learn a s).fab = s.fab ∧ (portOf (learn a s) a.port).nbrLost = (portOf s a.port).nbrLost := by
  unfold learn
  split
  · exact ⟨rfl, by simp⟩
  · exact ⟨rfl, rfl⟩

theorem routed_forward {a : Arrival} {s : State} (ho : hopOk a = true) (hn : (portOf s a.port).nbrLost = false)
    (hk : routedKind a.hop.kind = true) (hdst : sidDst a.route ≠ s.fab.id) : routed a s = endsHop (forward a (learn a s)) := by
  obtain ⟨hfab, hlost⟩ := learn_frame a s
  simp [routed, ho, hlost, hn, hk, hfab, hdst]

section Live

variable {a : Arrival} {s : State} (hs : serving s = true) (hl : portLive s a.port = true)
include hs hl

theorem hopChecks_badCrc (hc : crcOk a = false) : hopChecks a s = endsHop (sendNak a.port (countPort a.port 0 s)) := by
  simp [hopChecks, hs, hl, hc, endsHop]

theorem hopChecks_gap (hc : crcOk a = true) (h1 : 1 ≤ seqAhead a s) (h2 : seqAhead a s ≤ 1023) : hopChecks a s = endsHop
    (if (portOf s a.port).nak then countPort a.port 1 s else sendNak a.port (countPort a.port 1 s)) := by
  simp only [seqAhead] at h1 h2
  simp only [hopChecks, hs, hl, hc, h1, h2, endsHop]
  simp

theorem hopChecks_repeated (hc : crcOk a = true) (h : 1023 < seqAhead a s) : hopChecks a s = endsHop s := by
  have hgap : ¬ (1 ≤ seqAhead a s ∧ seqAhead a s ≤ 1023) := by omega
  have hdue : seqAhead a s ≠ 0 := by omega
  simp only [seqAhead] at hgap hdue
  simp only [hopChecks, hs, hl, hc, if_neg hgap, if_pos hdue, endsHop]
  simp

/-- The frame expected next goes on from step 1 (R193). -/
theorem hopChecks_due (hc : crcOk a = true) (hd : seqAhead a s = 0) (ha : a.hop.ackValid = false) :
    hopChecks a s = routed a (buffered a (seqTaken a s)) := by
  simp only [seqAhead] at hd
  simp only [hopChecks, hs, hl, hc, hd, takeAck, ha]
  rfl

end Live

end Sys2Proof.Machine
end

section
/-! SUPPORT. The statement on the hops of a frame. -/
namespace Sys2Proof.Machine

/-- Settles O32: the row's own effect comes only after the hop, so each clause is the outcome of the hop's checks that it speaks of. -/
theorem hopsOfAFrame : Obligations.HopsOfAFrame := by
  intro c s a hc
  obtain ⟨g, hg⟩ := exec_of_arrivalOf hc s
  refine ⟨fun h => by rw [hg, h, arrive_unspelt], fun h => ?_⟩
  rw [h] at hg
  have hends : ∀ u, hopChecks a s = endsHop u → exec c s = .next (settle u) := fun u hu => by rw [hg, arrive_endsHop hu]
  refine ⟨fun hm hr => by rw [hg, arrive_stopped hm hr], fun hm hr => by rw [hg, arrive_retryLimit hm hr],
    fun hi => hends _ (hopChecks_idle hi), fun hs hu hd => ?_⟩
  have hl : portLive s a.port = true := by simp [portLive, hu, hd]
  exact ⟨fun hb => hends _ (hopChecks_badCrc hs hl hb), fun hk h1 h2 => hends _ (hopChecks_gap hs hl hk h1 h2),
    fun hk h1 => hends _ (hopChecks_repeated hs hl hk h1), fun hk h0 ha =>
      ⟨fun ho => hends _ ((hopChecks_due hs hl hk h0 ha).trans (routed_badHop ho _)),
       fun ho hn hr hdst => hends _ ((hopChecks_due hs hl hk h0 ha).trans (routed_forward ho hn hr hdst))⟩⟩

end Sys2Proof.Machine
end

section
/-! SUPPORT. Sealed frames at their destination (steps 5 to 9 of Table 07-11): a frame that is due reaches its tag, and what the tag and
step 8 then make of it. -/
namespace Sys2Proof.Machine

/-- A frame whose bytes are its row's and that reaches this package goes through the open half. -/
theorem sealedFrame_mine {a : Arrival} {h : SealHdr} {b : FrameBody} {s v : State} (hb : sealSpelt a h b = true)
    (hr : ReachesPackage s a v) :
    sealedFrame a h b s = settle (retryWaits (openFrame { arr := a, hdr := { h with sid := a.route }, body := b } v)) := by
  rw [sealedFrame, hb, arrive_mine hr]

/-- The frame's content is a chime. -/
def isChime (b : FrameBody) : Bool := match b with | .chime _ => true | _ => false

theorem isChime_iff (b : FrameBody) : isChime b = true ↔ ∃ c, b = .chime c := by cases b <;> simp [isChime]

/-- A frame of the expected SEQ on a stream whose key is in place is verified, unless it is a chime before a full snare (R186, R216). -/
theorem openOn_due {t : RecvSt} {w : WaitSt} {v : State} (hkid : t.kid ≠ 0) (hkeyed : recvKeyed v t = true)
    (hepoch : t.e0.toNat ≤ w.hdr.seq.toNat / 2 ^ 32) (hdue : t.index ≤ lastIndex ∧ w.hdr.seq = expectedSeq t)
    (hroom : ∀ c, w.body = .chime c → snareCount v w.arr.port < Config.openSnare) : openOn t w v = verifyFrame t w v := by
  have hkeyed' : ¬ (t.kid ≠ 0 ∧ (!recvKeyed v t) = true) := by simp [hkeyed]
  have hroom' : ¬ (isChime w.body && decide (Config.openSnare ≤ snareCount v w.arr.port)) = true := by
    rw [Bool.and_eq_true, isChime_iff, decide_eq_true_eq, not_and, Nat.not_le]
    rintro ⟨c, hc⟩
    exact hroom c hc
  exact (if_neg hkeyed').trans ((if_neg (Nat.not_lt.2 hepoch)).trans ((if_neg (not_not_intro hdue)).trans ((if_neg hkid).trans (if_neg hroom'))))

/-- A frame that is due on its open stream is verified (steps 5 to 7 of Table 07-11). -/
theorem openFrame_due {s v : State} {w : WaitSt} {t : RecvSt} (h : FrameDue s v w t) :
    openFrame w (hopChecks w.arr s).st = verifyFrame t w v := by
  obtain ⟨-, live, units, awake, first, rfl, stream, ⟨hkid, hkeyed⟩, ⟨hepoch, hdue⟩, room⟩ := h
  simp [openFrame, live, units, awake, first, stream, openOn_due hkid hkeyed hepoch hdue room]

/-! ### The tag and step 8 -/

/-- Whether an EPOCH_END fails the check of its NEXT_SEQ (R188). -/
def breaksAt (t : RecvSt) (b : FrameBody) : Bool :=
  match b with | .epochEnd n => n != BitVec.ofNat 64 ((t.epoch.toNat + 1) * 2 ^ 32) | _ => false

theorem breaksAt_iff (w : WaitSt) (t : RecvSt) : breaksAt t w.body = true ↔ breaksEpoch w t := by
  unfold breaksAt breaksEpoch
  split
  · next n hn => simp [hn]
  · next hn => simpa using fun n hb => absurd hb (hn n)

/-- The key cached and the frame counted, where its tag verifies. -/
def verified (t : RecvSt) (w : WaitSt) (s : State) : State :=
  countSealed t.fn w.hdr.dstCtx w.hdr.units.toNat (cacheKid (engineOfPort s w.arr.port.val) t.kid s)

section Verify

variable {t : RecvSt} {w : WaitSt} (s : State)

theorem verifyFrame_badTag (h : w.hdr.tagOk = false) :
    verifyFrame t w s = gongHalt (frameHalt w 1 t.kid) (earlyWrites t w s) := by
  simp [verifyFrame, h]

theorem verifyFrame_goodTag (h : w.hdr.tagOk = true) : verifyFrame t w s =
    if breaksAt t w.body then gongHalt (frameHalt w 2 t.kid) s
    else match postTag (verified t w s) t w with
      | some k => freeFrame w (advanceRecv t w.body (countFn t.fn (0x20 + k) (countPort w.arr.port (6 + k) (verified t w s))))
      | none => freeFrame w (deliver t w (advanceRecv t w.body (verified t w s))) := by
  simp only [verifyFrame, h]
  rfl

variable (htag : w.hdr.tagOk = true)
include htag

theorem verifyFrame_breaks (h : breaksEpoch w t) : verifyFrame t w s = gongHalt (frameHalt w 2 t.kid) s := by
  rw [verifyFrame_goodTag s htag, if_pos ((breaksAt_iff w t).2 h)]

theorem verifyFrame_discarded {k : Nat} (h : ¬ breaksEpoch w t) (hk : postTag (verified t w s) t w = some k) : verifyFrame t w s =
    freeFrame w (advanceRecv t w.body (countFn t.fn (0x20 + k) (countPort w.arr.port (6 + k) (verified t w s)))) := by
  rw [verifyFrame_goodTag s htag, if_neg (mt (breaksAt_iff w t).1 h), hk]

theorem verifyFrame_delivered (h : ¬ breaksEpoch w t) (hk : postTag (verified t w s) t w = none) :
    verifyFrame t w s = freeFrame w (deliver t w (advanceRecv t w.body (verified t w s))) := by
  rw [verifyFrame_goodTag s htag, if_neg (mt (breaksAt_iff w t).1 h), hk]

end Verify

end Sys2Proof.Machine
end

section
/-! SUPPORT. The statement on sealed frames. -/
namespace Sys2Proof.Machine

/-- Settles O27: a frame that is due is verified, whatever its row; the clauses are the outcomes of its verification. -/
theorem sealedFrameIsVerified : Obligations.SealedFrameIsVerified := by
  intro c s v a h b t hc hb w hdue u
  have hexec : exec c s = .next (settle (retryWaits (verifyFrame t w v))) := by
    rw [exec_of_sealedRow hc, sealedFrame_mine hb hdue.hop]
    exact congrArg (fun x => Host.Outcome.next (settle (retryWaits x))) (openFrame_due hdue)
  rw [hexec]
  exact ⟨fun htag => by rw [verifyFrame_badTag v htag], fun htag hbr => by rw [verifyFrame_breaks v htag hbr],
    fun k htag hbr hk => by rw [verifyFrame_discarded v htag hbr hk]; rfl,
    fun htag hbr hk => by rw [verifyFrame_delivered v htag hbr hk]; rfl⟩

end Sys2Proof.Machine
end

section
/-! SUPPORT. Delivered frames: what the release of plaintext does (R211), and what each content of a sealed frame then does. -/
namespace Sys2Proof.Machine

/-! ### Plaintext writes -/

/-- Marking a write for dirty logging and migration touches the function's own records alone (R36). -/
theorem markWrite_frame (f : Fn) (a n : Nat) (s : State) : markWrite f a n s = { s with fns := (markWrite f a n s).fns } := by
  unfold markWrite
  dsimp only
  repeat' split
  all_goals rfl

/-- A numbered plaintext write: what it writes goes out, and it stands outstanding under its number. -/
theorem writePlain_spec (t : RecvSt) (obj : Option (Nat × Nat)) (batch : Option (BitVec 12)) (x : Nat) (d : List Byte) (s : State) :
    let u := writePlain t obj batch x d s
    u.out = s.out ++ [.plainWrite s.nextWrite t.fn x d] ∧ u.nextWrite = s.nextWrite + 1 ∧
      mapFind u.writes s.nextWrite = some
        { fn := t.fn, job := t.job, sid := t.sid, obj := obj, e0 := t.e0, batch := batch, addr := x, len := d.length } ∧
      u.filter = s.filter ∧ u.members = s.members := by
  rw [writePlain, markWrite_frame]
  simp

/-! ### DATA and RETURN (R177, R233, R234) -/

section Placed

variable {t : RecvSt} {a : Arrival} {h : SealHdr} {s : State} {p : DataPay} {i x : Nat} (hp : placement s t h p = some (i, x))
include hp

theorem deliver_data : deliver t ⟨a, h, .data p⟩ s = writePlain t (some (t.fn.key, i)) none x (dataBytes p) s := by
  simp only [deliver, placeData, hp]

/-- The batch of a class-2 frame has one frame more in flight. -/
def moreInFlight (b : Nat) (s : State) : State :=
  { s with filter := mapMod {} s.filter b (fun e => { e with inFlight := e.inFlight + 1 }) }

theorem deliver_return : deliver t ⟨a, h, .return_ p⟩ s =
    writePlain t (some (t.fn.key, i)) (some (BitVec.ofNat 12 (batchOf h))) x (dataBytes p) (moreInFlight (batchOf h) s) := by
  simp only [deliver, placeReturn, hp, moreInFlight]

end Placed

theorem filterOf_moreInFlight (b : Nat) (s : State) : (filterOf (moreInFlight b s) b).inFlight = (filterOf s b).inFlight + 1 := by
  simp [filterOf, moreInFlight]

/-! ### Chimes, responses, CLOSE (R216, R220, R261, R189) -/

theorem takeSnare_spec (t : RecvSt) (w : WaitSt) (p : ChimePay) (s : State) :
    ∃ e, takeSnare t w p s = stampMet { s with snare := s.snare ++ [e] } ∧ e.met = none ∧ e.port = w.arr.port ∧ e.fn = t.fn ∧
      e.sigs = p.sigs ∧ e.job = t.job ∧ e.sid = t.sid ∧ e.seq = w.hdr.seq ∧ e.src = sidSrc t.sid ∧ e.dstCtx = w.hdr.dstCtx :=
  ⟨_, rfl, rfl, rfl, rfl, rfl, rfl, rfl, rfl, rfl, rfl⟩

/-- The data that a response brings its member: a read's, where the keeper has served it. -/
def answerData (m : MemberSt) (p : PoolPay) : List Byte :=
  if m.read && p.pstat == stOk then padTo p.length.toNat (p.data.take p.length.toNat) else []

/-- The data goes to the buffer of the pending entry, where there is any. -/
def landed (t : RecvSt) (m : MemberSt) (d : List Byte) (s : State) : State :=
  if d.isEmpty then s else writePlain t none none m.buffer.toNat d s

theorem landed_members (t : RecvSt) (m : MemberSt) (d : List Byte) (s : State) : (landed t m d s).members = s.members := by
  unfold landed
  split
  · rfl
  · obtain ⟨-, -, -, -, hm⟩ := writePlain_spec t none none m.buffer.toNat d s
    exact hm

/-- A pending request of the generation in force ends with its response (R261). -/
theorem poolAnswer_current {t : RecvSt} {p : PoolPay} {s : State} {m : MemberSt} (hm : mapFind s.members p.ptag.toNat = some m)
    (hg : m.gen = genOf s m.fn) : poolAnswer t p s = emit (.fabricDone m.fn m.ctx p.pstat (answerData m p))
      (landed t m (answerData m p) { s with members := mapErase s.members p.ptag.toNat }) := by
  have hcurrent : ¬ m.gen ≠ genOf { s with members := mapErase s.members p.ptag.toNat } m.fn := not_not_intro hg
  simp only [poolAnswer, hm, if_neg hcurrent]
  rfl

theorem closeRecv_open {s : State} {job : W16} {sid : W32} {x : RecvSt} (h : findRecv s job sid = some x) :
    closeRecv job sid s = retireKids (x.kid :: x.next.toList)
      { s with recvs := s.recvs.filter (fun y => !(y.job == job && y.sid == sid)) } := by
  simp only [closeRecv, h]

end Sys2Proof.Machine
end

section
/-! SUPPORT. The statement on delivered frames. -/
namespace Sys2Proof.Machine

/-- Settles O28: DATA and RETURN are numbered plaintext writes, a RETURN's behind its batch's count; the other contents are the lemmas of
what they reach, or the branch of `deliver` itself. -/
theorem deliveredFramesAct : Obligations.DeliveredFramesAct := by
  intro t a h s
  refine ⟨fun p i x hp => ?data, fun p i x hp => ?return_, fun p => takeSnare_spec t ⟨a, h, .chime p⟩ p s, fun _ => rfl, fun _ => rfl,
    fun p hq => if_neg (Bool.eq_false_iff.1 hq), fun p m hq hm hg => ?answer, fun _ => rfl, fun _ _ _ => rfl, fun _ => rfl, fun _ => rfl,
    fun x hx => closeRecv_open hx⟩
  case data =>
    obtain ⟨hout, hnext, hw, hf, -⟩ := writePlain_spec t (some (t.fn.key, i)) none x (dataBytes p) s
    exact ⟨_, deliver_data hp, hout, hnext, hw, hf⟩
  case return_ =>
    obtain ⟨hout, -, hw, hf, -⟩ := writePlain_spec t (some (t.fn.key, i)) (some (BitVec.ofNat 12 (batchOf h))) x (dataBytes p)
      (moreInFlight (batchOf h) s)
    refine ⟨_, deliver_return hp, hout, ?_, _, hw, rfl, rfl⟩
    rw [filterOf, hf]
    exact filterOf_moreInFlight ..
  case answer =>
    refine ⟨_, answerData m p, (if_pos hq).trans (poolAnswer_current hm hg), ?_, fun hr hok => by simp [answerData, hr, hok],
      fun hno => ?_⟩
    · rw [landed_members, mapFind_mapErase, if_pos rfl]
    · rcases hno with hno | hno <;> simp [answerData, hno]

end Sys2Proof.Machine
end

section
/-! SUPPORT. Control frames at the package they reach (Table 07-7): what a BEAT makes of its port, and the effects of KNELL,
PROXY_KNELL and CREDIT. -/
namespace Sys2Proof.Machine

/-! ### The rows' effects -/

section Rows

variable {a : Arrival} {s v : State} (hr : ReachesPackage s a v)
include hr

theorem exec_beat_mine {boot : W64} {port fl : Byte} (hb : spelt (.beat a boot port fl) s = true) :
    exec (.beat a boot port fl) s = .next (settle (beat a boot fl v)) := exec_mine rfl hr hb

theorem exec_knell_mine {boot : W64} {why : Byte} (hb : spelt (.knell a boot why) s = true) :
    exec (.knell a boot why) s = .next (settle (knell a boot v)) := exec_mine rfl hr hb

theorem exec_proxyKnell_mine {lost : BitVec 12} {why : Byte} {boot : W64} (hb : spelt (.proxyKnell a lost why boot) s = true) :
    exec (.proxyKnell a lost why boot) s = .next (settle (proxyKnell a lost v)) := exec_mine rfl hr hb

theorem exec_credit_mine {more : List (BitVec 4 × BitVec 12)} (hb : spelt (.credit a more) s = true) :
    exec (.credit a more) s = .next (settle (pump a.port (grantMore a.port more v))) :=
  exec_mine (g := fun s => pump a.port (grantMore a.port more s)) rfl hr hb

end Rows

/-! ### The parts of a BEAT (R202, R205, R239) -/

/-- A changed boot count declares the neighbour lost. -/
def lossByBoot (a : Arrival) (boot : W64) (p : PortSt) (s : State) : State :=
  if p.nbrBoot.isSome && p.nbrBoot != some boot && !p.nbrLost then neighbourLost a.port 5 s else s

/-- So does a new NBR_LOST. -/
def lossByFlag (a : Arrival) (fl : Byte) (p : PortSt) (s : State) : State :=
  if bNbrLost fl && !(portOf s a.port).nbrLost && !p.lostSeen then neighbourLost a.port 6 s else s

def withBoot (boot : W64) (p : PortSt) : PortSt := { p with nbrBoot := some boot }
def withLostSeen (fl : Byte) (p : PortSt) : PortSt := { p with lostSeen := fl.getLsbD 1 }
def withNbrLending (fl : Byte) (p : PortSt) : PortSt := { p with nbrLending := fl.getLsbD 0 }
/-- The port readmits its neighbour `id`, where `back` holds. -/
def withNeighbour (back : Bool) (id : BitVec 12) (p : PortSt) : PortSt :=
  { p with nbrLost := p.nbrLost && !back, lostId := if back then none else p.lostId, nbr := if back then some id else p.nbr }

/-- The port's open half restores its banks, where `wake` holds. -/
def withRestore (wake : Bool) (p : PortSt) : PortSt := { p with lentOpen := p.lentOpen && !wake, restOpen := p.restOpen || wake }

theorem withNeighbour_true (id : BitVec 12) :
    withNeighbour true id = fun p => { p with nbrLost := false, lostId := none, nbr := some id } := by
  funext p; simp [withNeighbour]

theorem withNeighbour_false (id : BitVec 12) (p : PortSt) : withNeighbour false id p = p := by simp [withNeighbour]

theorem withRestore_true : withRestore true = fun p => { p with lentOpen := false, restOpen := true } := by
  funext p; simp [withRestore]

theorem withRestore_false (p : PortSt) : withRestore false p = p := by simp [withRestore]

/-- LOST_SEEN from a lost neighbour readmits it. -/
def readmitted (a : Arrival) (fl : Byte) (p : PortSt) (s : State) : State :=
  if bLostSeen fl && p.nbrLost then readmit a.port (sidSrc a.route) s else s

/-- A LENDING that clears wakes the open half. -/
def lendingCleared (a : Arrival) (fl : Byte) (p : PortSt) (s : State) : State :=
  if p.nbrLending && !bLending fl then wakeOpen a.port s else s

/-- What a BEAT does once its losses are declared; `p` is the port as the beat found it. -/
def flagsTaken (a : Arrival) (fl : Byte) (p : PortSt) (s : State) : State :=
  portMod a.port (withNbrLending fl) (lendingCleared a fl p (readmitted a fl p (portMod a.port (withLostSeen fl) s)))

theorem beat_eq (a : Arrival) (boot : W64) (fl : Byte) (s : State) : beat a boot fl s =
    flagsTaken a fl (portOf s a.port)
      (lossByFlag a fl (portOf s a.port) (portMod a.port (withBoot boot) (lossByBoot a boot (portOf s a.port) s))) := rfl

theorem lossByBoot_known {boot : W64} {p : PortSt} (h : p.nbrBoot = none ∨ p.nbrBoot = some boot ∨ p.nbrLost = true) (a : Arrival)
    (s : State) : lossByBoot a boot p s = s := by
  rcases h with h | h | h <;> simp [lossByBoot, h]

theorem lossByBoot_changed {boot : W64} {p : PortSt} (hk : p.nbrBoot ≠ none) (hc : p.nbrBoot ≠ some boot) (hl : p.nbrLost = false)
    (a : Arrival) (s : State) : lossByBoot a boot p s = neighbourLost a.port 5 s := by
  simp [lossByBoot, Option.isSome_iff_ne_none.2 hk, hc, hl]

theorem lossByFlag_known {a : Arrival} {fl : Byte} {p : PortSt} {s : State}
    (h : fl.getLsbD 1 = true → (portOf s a.port).nbrLost = true ∨ p.lostSeen = true) : lossByFlag a fl p s = s := by
  unfold lossByFlag bNbrLost
  split
  · next hc =>
    simp only [Bool.and_eq_true, Bool.not_eq_true'] at hc
    obtain ⟨⟨hf, hn⟩, hs⟩ := hc
    simpa [hn, hs] using h hf
  · rfl

theorem lossByFlag_new {a : Arrival} {fl : Byte} {p : PortSt} {s : State} (hf : fl.getLsbD 1 = true)
    (hn : (portOf s a.port).nbrLost = false) (hs : p.lostSeen = false) : lossByFlag a fl p s = neighbourLost a.port 6 s := by
  simp only [lossByFlag, bNbrLost, hf, hn, hs]
  rfl

/-- A beat without LOST_SEEN, from a neighbour that does not lend, only has its flags recorded. -/
theorem flagsTaken_quiet {fl : Byte} {p : PortSt} (hs : fl.getLsbD 2 = false) (hl : p.nbrLending = false) (a : Arrival) (s : State) :
    flagsTaken a fl p s = portMod a.port (withNbrLending fl) (portMod a.port (withLostSeen fl) s) := by
  simp only [flagsTaken, lendingCleared, readmitted, bLostSeen, hs, hl]
  rfl

/-! ### Changes of one port -/

/-- `t` is `s` with the port `q` changed to `p`, and `o` sent. -/
structure PortOnly (q : Fin 32) (o : List Output) (p : PortSt) (s t : State) : Prop where
  frame : t = { s with ports := t.ports, out := t.out }
  out : t.out = s.out ++ o
  others : ∀ r, r ≠ q → portOf t r = portOf s r
  self : portOf t q = p

namespace PortOnly

variable {q : Fin 32} {o : List Output} {p : PortSt} {s t : State}

theorem refl (q : Fin 32) (s : State) : PortOnly q [] (portOf s q) s s := ⟨rfl, by simp, fun _ _ => rfl, rfl⟩

theorem portMod (h : PortOnly q o p s t) (g : PortSt → PortSt) : PortOnly q o (g p) s (portMod q g t) where
  frame := by rw [Machine.portMod, h.frame]
  out := h.out
  others r hr := (portOf_portMod_ne _ _ _ _ hr).trans (h.others r hr)
  self := by rw [portOf_portMod_self, h.self]

theorem emit (h : PortOnly q o p s t) (x : Output) : PortOnly q (o ++ [x]) p s (emit x t) where
  frame := by rw [Machine.emit, h.frame]
  out := by rw [emit_out, h.out, List.append_assoc]
  others := h.others
  self := h.self

theorem engineOfPort (h : PortOnly q o p s t) (n : Nat) : engineOfPort t n = engineOfPort s n := by
  rw [h.frame]; rfl

/-- A lost neighbour's readmission (R205). -/
theorem readmit (h : PortOnly q o p s t) (back : Bool) (id : BitVec 12) :
    PortOnly q o (withNeighbour back id p) s (if back then readmit q id t else t) := by
  cases back with
  | true =>
    rw [if_pos rfl, Machine.readmit, ← withNeighbour_true]
    exact h.portMod _
  | false => rwa [withNeighbour_false]

/-- The open half's restore, where it is lent (R239). -/
theorem wakeOpen (h : PortOnly q o p s t) (cleared : Bool) :
    PortOnly q (o ++ if cleared && p.lentOpen then [.reclaim (Machine.engineOfPort s q.val)] else [])
      (withRestore (cleared && p.lentOpen) p) s (if cleared then wakeOpen q t else t) := by
  have hwake : (if cleared then Machine.wakeOpen q t else t) = if cleared && p.lentOpen then
      Machine.emit (.reclaim (Machine.engineOfPort s q.val)) (Machine.portMod q (withRestore true) t) else t := by
    rw [Machine.wakeOpen, h.self, h.engineOfPort, withRestore_true]
    cases cleared <;> rfl
  rw [hwake]
  cases cleared && p.lentOpen with
  | true => exact (h.portMod _).emit _
  | false => simpa [withRestore_false] using h

end PortOnly

/-- The port after a beat that brings no loss. -/
def beatTaken (id : BitVec 12) (boot : W64) (fl : Byte) (p : PortSt) : PortSt :=
  let back := fl.getLsbD 2 && p.nbrLost
  let wake := p.nbrLending && !fl.getLsbD 0 && p.lentOpen
  { p with nbrBoot := some boot, lostSeen := fl.getLsbD 1, nbrLending := fl.getLsbD 0
           nbrLost := p.nbrLost && !back, lostId := if back then none else p.lostId, nbr := if back then some id else p.nbr
           lentOpen := p.lentOpen && !wake, restOpen := p.restOpen || wake }

theorem portOnly_flagsTaken (a : Arrival) (boot : W64) (fl : Byte) (s : State) :
    PortOnly a.port
      (if (portOf s a.port).nbrLending && !fl.getLsbD 0 && (portOf s a.port).lentOpen then [.reclaim (engineOfPort s a.port.val)] else [])
      (beatTaken (sidSrc a.route) boot fl (portOf s a.port)) s
      (flagsTaken a fl (portOf s a.port) (portMod a.port (withBoot boot) s)) :=
  (((((PortOnly.refl a.port s).portMod (withBoot boot)).portMod (withLostSeen fl)).readmit
    (fl.getLsbD 2 && (portOf s a.port).nbrLost) (sidSrc a.route)).wakeOpen
    ((portOf s a.port).nbrLending && !fl.getLsbD 0)).portMod (withNbrLending fl)

/-- A beat that brings no loss changes nothing but its port. -/
theorem portOnly_beat {a : Arrival} {boot : W64} {fl : Byte} {s : State}
    (hboot : (portOf s a.port).nbrBoot = none ∨ (portOf s a.port).nbrBoot = some boot ∨ (portOf s a.port).nbrLost = true)
    (hflag : fl.getLsbD 1 = true → (portOf s a.port).nbrLost = true ∨ (portOf s a.port).lostSeen = true) :
    PortOnly a.port
      (if (portOf s a.port).nbrLending && !fl.getLsbD 0 && (portOf s a.port).lentOpen then [.reclaim (engineOfPort s a.port.val)] else [])
      (beatTaken (sidSrc a.route) boot fl (portOf s a.port)) s (beat a boot fl s) := by
  rw [beat_eq, lossByBoot_known hboot, lossByFlag_known (by simpa [withBoot] using hflag)]
  exact portOnly_flagsTaken a boot fl s

end Sys2Proof.Machine
end

section
/-! SUPPORT. The statement on control frames. -/
namespace Sys2Proof.Machine

/-- Settles O33: a beat is its losses, then its flags; a beat that brings no loss changes its own port alone. -/
theorem controlFramesAct : Obligations.ControlFramesAct := by
  intro s v a boot port fl why hr
  refine ⟨fun hb hboot hflag => ?calm, fun hb hk hc hn hl hf => ?boot, fun hb hboot hn hs hl hf => ?flag,
    fun hb => exec_knell_mine hr hb, fun lost hb => exec_proxyKnell_mine hr hb, fun more hb => exec_credit_mine hr hb⟩
  case calm =>
    obtain ⟨hframe, hout, hothers, hself⟩ := portOnly_beat hboot hflag
    exact ⟨_, exec_beat_mine hr hb, hframe, hout, hothers, hself⟩
  case boot =>
    subst hf
    rw [exec_beat_mine hr hb, beat_eq, lossByBoot_changed hk hc hn, lossByFlag_known (by simp), flagsTaken_quiet (by simp) hl]
    rfl
  case flag =>
    subst hf
    have hnew := lossByFlag_new (a := a) (s := portMod a.port (withBoot boot) v) (fl := 2) (by decide) (by simpa [withBoot] using hn) hs
    rw [exec_beat_mine hr hb, beat_eq, lossByBoot_known (.inr (.inl hboot)), hnew, flagsTaken_quiet (by decide) hl]
    rfl

end Sys2Proof.Machine
end

section
/-! SUPPORT. The exchange that opens a stream (R182, R183): the OPEN_REQs held, and a stream opened for receiving by its OPEN_ACK. -/
namespace Sys2Proof.Machine

/-! ### The rows' effects -/

section Rows

variable {a : Arrival} {sid : W32} {job : W16} {ch : BitVec 128} {s v : State} (hr : ReachesPackage s a v)
include hr

theorem exec_openReq_mine (hb : spelt (.openReq a sid job ch) s = true) :
    exec (.openReq a sid job ch) s = .next (settle (openReq a sid job ch v)) := exec_mine rfl hr hb

theorem exec_openAck_mine {sel : BitVec 2} {epoch : W32} {relays : List (BitVec 12)} {ok : Bool}
    (hb : spelt (.openAck a sid job sel epoch ch relays ok) s = true) :
    exec (.openAck a sid job sel epoch ch relays ok) s = .next (settle (openAck a sid job epoch ch relays ok v)) :=
  exec_mine rfl hr hb

end Rows

/-! ### The OPEN_REQs held (R182 step 2) -/

/-- `r` held as the latest of its stream. -/
def reqHeld (r : HeldReq) (s : State) : State :=
  { s with openReqs := s.openReqs.filter (fun q => !(q.job == r.job && q.sid == r.sid)) ++ [r] }

theorem holdReq_replaces (port : Fin 32) {r : HeldReq} {s : State} (h : ∃ q ∈ s.openReqs, q.job = r.job ∧ q.sid = r.sid) :
    holdReq port r s = reqHeld r s := by
  have hany : s.openReqs.any (fun q => q.job == r.job && q.sid == r.sid) = true := by simpa using h
  simp only [holdReq, hany, if_true, reqHeld]

section NoneHeld

variable {r : HeldReq} {s : State} (h : ∀ q ∈ s.openReqs, ¬ (q.job = r.job ∧ q.sid = r.sid))
include h

theorem holdReq_new (port : Fin 32) (hroom : s.openReqs.length < 256) : holdReq port r s = reqHeld r s := by
  have hany : ¬ s.openReqs.any (fun q => q.job == r.job && q.sid == r.sid) = true := by simpa using h
  have hkept : s.openReqs.filter (fun q => !(q.job == r.job && q.sid == r.sid)) = s.openReqs :=
    List.filter_eq_self.2 fun q hq => by simpa using Classical.not_and_iff_not_or_not.1 (h q hq)
  have hroom' : ¬ Config.openReqTable ≤ s.openReqs.length := Nat.not_le.2 hroom
  simp only [holdReq, if_neg hany, if_neg hroom', reqHeld, hkept]

theorem holdReq_full (port : Fin 32) (hfull : 256 ≤ s.openReqs.length) : holdReq port r s = countPort port 0x0C s := by
  have hany : ¬ s.openReqs.any (fun q => q.job == r.job && q.sid == r.sid) = true := by simpa using h
  have hfull' : Config.openReqTable ≤ s.openReqs.length := hfull
  simp only [holdReq, if_neg hany, if_pos hfull']

end NoneHeld

theorem holdReq_held (port : Fin 32) {r : HeldReq} {s : State}
    (h : (∃ q ∈ s.openReqs, q.job = r.job ∧ q.sid = r.sid) ∨ s.openReqs.length < 256) : holdReq port r s = reqHeld r s := by
  by_cases hmine : ∃ q ∈ s.openReqs, q.job = r.job ∧ q.sid = r.sid
  · exact holdReq_replaces port hmine
  · exact holdReq_new (fun q hq hm => hmine ⟨q, hq, hm⟩) port (h.resolve_left hmine)

/-! ### A stream opened for receiving (R182 step 5, R419) -/

/-- A command's end leaves all but functions, outputs, counters and its own place. -/
theorem edge_complete (p : InProg) (st : W16) (d : W32) (res : BitVec 128) (s : State) :
    ∃ o, Edge o (dropProg p s) (complete p st d res s) := by
  cases h : (ringOf s p.fn).hostWriteFailed with
  | false => exact (complete_written p st d res s h).1.imp fun _ ho => ho.1
  | true => exact (complete_dropped p st d res s h).1.imp fun _ ho => ho.2

/-- What an OPEN_ACK opens: the stream `t` is the last one open for receiving, and is not among those that have ended. -/
structure Opened (t : RecvSt) (s : State) : Prop where
  last : s.recvs.getLast? = some t
  fresh : (t.job, t.sid) ∉ s.gone

theorem Opened.congr {t : RecvSt} {s u : State} (h : Opened t s) (hr : u.recvs = s.recvs) (hg : u.gone = s.gone) : Opened t u :=
  ⟨hr ▸ h.last, hg ▸ h.fresh⟩

theorem Opened.activateKid {t : RecvSt} {s : State} (h : Opened t s) (k : W16) : Opened t (activateKid k s) := by
  have hk := sendsOnly_activateKid k s
  exact h.congr (by rw [hk]) (by rw [hk])

theorem Opened.complete {t : RecvSt} {s : State} (h : Opened t s) (p : InProg) (st : W16) (d : W32) (res : BitVec 128) :
    Opened t (complete p st d res s) := by
  obtain ⟨o, ho⟩ := edge_complete p st d res s
  exact h.congr (by rw [ho]; rfl) (by rw [ho]; rfl)

/-- The stream that an OPEN_ACK opens: at the epoch it names, with INDEX 0 and its relays. -/
def openedRecv (p : InProg) (inn : W32) (kid : W16) (epoch : W32) (relays : List (BitVec 12)) (s : State) : RecvSt :=
  let o := openKey p kid (jobOf s p.fn) inn epoch useOpen s
  { job := jobOf s p.fn, sid := inn, fn := p.fn, ctx := (kidTag o.2 o.1).1, ctxGen := (kidTag o.2 o.1).2, e0 := epoch, epoch := epoch,
    index := 0, kid := o.1, next := none, relays := relays, closing := false }

/-- A stream appended to those open for receiving, and taken from those that have ended. -/
def withRecv (t : RecvSt) (s : State) : State :=
  { s with recvs := s.recvs ++ [t], gone := s.gone.filter (fun g => g != (t.job, t.sid)) }

theorem opened_withRecv (t : RecvSt) (s : State) : Opened t (withRecv t s) where
  last := by simp [withRecv]
  fresh := by simp [withRecv]

theorem opened_openForRecv (p : InProg) (inn : W32) (peer : BitVec 12) (kid : W16) (ch : BitVec 128) (out : Option W32) (sd : Bool)
    (e0 : W32) (sk : W16) (epoch : W32) (relays : List (BitVec 12)) (s : State) :
    Opened (openedRecv p inn kid epoch relays s) (openForRecv p inn peer kid ch out sd e0 sk epoch relays s) := by
  have hopen := opened_withRecv (openedRecv p inn kid epoch relays s) (openKey p kid (jobOf s p.fn) inn epoch useOpen s).2
  unfold openForRecv
  dsimp only
  split
  · exact ((hopen.activateKid sk).activateKid _).complete ..
  · exact hopen.congr rfl rfl

/-! ### The OPEN_ACK (R183) -/

theorem openAck_stale {sid : W32} {job : W16} {ch : BitVec 128} {s : State} (h : receiverOf s job sid ch = none) (a : Arrival)
    (epoch : W32) (relays : List (BitVec 12)) (ok : Bool) : openAck a sid job epoch ch relays ok s = countPort a.port 0x0B s := by
  simp only [openAck, h]

section Echoed

variable {sid inn : W32} {job : W16} {ch : BitVec 128} {s : State} {p : InProg} {peer : BitVec 12} {kid : W16} {out : Option W32}
  {sd : Bool} {e0 : W32} {sk : W16} (hp : receiverOf s job sid ch = some p) (hact : p.act = .openRecv inn peer kid ch out sd false e0 sk)
include hp hact

theorem openAck_verified (a : Arrival) (epoch : W32) (relays : List (BitVec 12)) : openAck a sid job epoch ch relays true s =
    retryWaits (openForRecv p inn peer kid ch out sd e0 sk epoch relays s) := by
  simp only [openAck, hp, hact, if_true]

theorem openAck_failed (a : Arrival) (epoch : W32) (relays : List (BitVec 12)) : openAck a sid job epoch ch relays false s =
    gongHalt { cause := 4, unit := BitVec.ofNat 16 a.port.val, job := job, sid := sid,
               whereF := BitVec.ofNat 64 (epoch.toNat * 2 ^ 32 + 0xFFFFFFFF), kid := kid } s := by
  simp only [openAck, hp, hact]
  rfl

end Echoed

end Sys2Proof.Machine
end

section
/-! SUPPORT. The statement on the exchange that opens a stream. -/
namespace Sys2Proof.Machine

/-- Settles O35: an OPEN_REQ is held, then answered; an OPEN_ACK is stale, halts the package, or opens the stream. -/
theorem openExchangeAnswers : Obligations.OpenExchangeAnswers := by
  intro s v a sid job ch hr
  refine ⟨fun hb => ⟨holdReq a.port { job := job, sid := sid, challenge := ch } v, exec_openReq_mine hr hb, fun h => holdReq_held a.port h,
    fun hnone hfull => holdReq_full hnone a.port hfull⟩, fun sel epoch relays ok hb => ⟨fun hstale => ?stale, ?echoed⟩⟩
  case stale => rw [exec_openAck_mine hr hb, openAck_stale hstale]
  case echoed =>
    intro p inn peer kid out sd e0 sk hp hact
    constructor
    · rintro rfl
      exact ⟨_, by rw [exec_openAck_mine hr hb, openAck_failed hp hact], rfl, rfl, rfl, rfl, rfl⟩
    · rintro rfl
      obtain ⟨hlast, hfresh⟩ := opened_openForRecv p inn peer kid ch out sd e0 sk epoch relays v
      exact ⟨_, openedRecv p inn kid epoch relays v, by rw [exec_openAck_mine hr hb, openAck_verified hp hact], hlast,
        rfl, rfl, rfl, rfl, rfl, rfl, rfl, rfl, hfresh⟩

end Sys2Proof.Machine
end

section
/-! SUPPORT. The first parts of STREAM_OPEN and STREAM_CLOSE (R182, R189), and the time limits of streams, of frames that wait and of
exchanges. -/
namespace Sys2Proof.Machine

/-! ### STREAM_OPEN's first part (R182) -/

/-- The command answers the OPEN_REQ that is held for its stream, if any. -/
def heldAnswered (p : InProg) (s : State) : State :=
  match findProg s p.fn p.idx with
  | some q => answerOpen q s
  | none => s

/-- A challenge `ch` sent toward the source of the stream `inn`; the command goes on as `act`. -/
def challenged (p : InProg) (peer : BitVec 12) (inn : W32) (job : W16) (ch : BitVec 128) (act : Act) (s : State) : State :=
  sendRouted peer kOpenReq (.openReq inn job ch) (goOn p { signal := true } act (bumpDraw s))

section StreamOpen

variable (peer : W16) (cls ord : Byte) (p : InProg) (s : State)

theorem startOpen_sends : startOpen peer cls ord 1 p s = heldAnswered p
    (goOn p { signal := true } (.openSend (sendSid s peer cls ord) (peer.setWidth 12) (reserveKid p.fn s).1) (reserveKid p.fn s).2) := rfl

/-- Reserving KIDs draws no entropy and leaves the functions' jobs. -/
theorem reserveKid_keeps (f g : Fn) : drawn (reserveKid f s).2 = Config.entropy s.draws ∧ jobOf (reserveKid f s).2 g = jobOf s g := by
  obtain ⟨ks, hks⟩ := reserveKid_frame f s
  rw [hks]
  exact ⟨rfl, rfl⟩

theorem startOpen_receives : startOpen peer cls ord 2 p s =
    let ch := (Config.entropy s.draws).setWidth 128
    heldAnswered p (challenged p (peer.setWidth 12) (recvSid s peer cls ord) (jobOf s p.fn) ch
      (.openRecv (recvSid s peer cls ord) (peer.setWidth 12) (reserveKid p.fn s).1 ch none true false 0 0) (reserveKid p.fn s).2) := by
  obtain ⟨hdraw, hjob⟩ := reserveKid_keeps s p.fn p.fn
  rw [← hdraw, ← hjob]
  rfl

theorem startOpen_both : startOpen peer cls ord 3 p s =
    let ch := (Config.entropy s.draws).setWidth 128
    let r2 := reserveKid p.fn (reserveKid p.fn s).2
    heldAnswered p (challenged p (peer.setWidth 12) (recvSid s peer cls ord) (jobOf s p.fn) ch
      (.openRecv (recvSid s peer cls ord) (peer.setWidth 12) (reserveKid p.fn s).1 ch (some (sendSid s peer cls ord)) false false 0 r2.1)
      r2.2) := by
  obtain ⟨hdraw, hjob⟩ := reserveKid_keeps s p.fn p.fn
  obtain ⟨hdraw', hjob'⟩ := reserveKid_keeps (reserveKid p.fn s).2 p.fn p.fn
  have hdraws : drawn (reserveKid p.fn (reserveKid p.fn s).2).2 = Config.entropy s.draws := hdraw'.trans hdraw
  rw [← hdraws, ← hjob, ← hjob']
  rfl

theorem exec_streamOpen {h : CmdHdr} {dir : Byte} {s : State} {p : InProg} (a : Admitted s (streamOpenRow h peer cls ord dir) p) :
    exec (.streamOpen h peer cls ord dir) s = .next (settle (startOpen peer cls ord dir p s)) := by
  rw [← runRow_admitted a]; rfl

end StreamOpen

/-! ### STREAM_CLOSE's first part (R189) -/

section StreamClose

variable {peer : W16} {cls ord dir : Byte} {p : InProg} {s : State}

theorem exec_streamClose {h : CmdHdr} (a : Admitted s (streamCloseRow h peer cls ord dir) p) :
    exec (.streamClose h peer cls ord dir) s = .next (settle (startClose peer cls ord dir p s)) := by
  rw [← runRow_admitted a]; rfl

/-- A STREAM_CLOSE that sends names a stream open for sending. -/
theorem findSend_of_streamClose {h : CmdHdr} (a : Admitted s (streamCloseRow h peer cls ord dir) p) (hw : wantsSend dir = true) :
    ∃ t, findSend s (jobOf s p.fn) (sendSid s peer cls ord) = some t := by
  have hstate := a.state
  rw [a.fn_eq]
  cases ht : findSend s (jobOf s h.fn) (sendSid s peer cls ord) with
  | some t => exact ⟨t, ht⟩
  | none => simp [streamCloseRow, closeChecks, ht, hw] at hstate

theorem startClose_receives (hw : wantsSend dir = false) (hr : wantsRecv dir = true) : startClose peer cls ord dir p s =
    goOn p {} (.close (sendSid s peer cls ord) (jobOf s p.fn) false true) s := by
  simp [startClose, hw, hr]

theorem startClose_sends {t : SendSt} (hw : wantsSend dir = true) (ht : findSend s (jobOf s p.fn) (sendSid s peer cls ord) = some t) :
    startClose peer cls ord dir p s = enqueue t.port (.seal (jobOf s p.fn) (sendSid s peer cls ord) 0x09 1 0xFFFF 0 0 0 [] 0xFFFF)
      (modSend (jobOf s p.fn) (sendSid s peer cls ord) (fun t => { t with closing := true })
        (goOn p { seals := [(jobOf s p.fn, sendSid s peer cls ord)] }
          (.close (sendSid s peer cls ord) (jobOf s p.fn) true (wantsRecv dir)) s)) := by
  simp only [startClose, hw, ht, if_true]

end StreamClose

end Sys2Proof.Machine
end

section
/-! SUPPORT. The statement on STREAM_OPEN and STREAM_CLOSE. -/
namespace Sys2Proof.Machine

/-- Settles O15: an admitted command's row is its first part, and each direction's first part has its own equation. -/
theorem streamOpenAndClose : Obligations.StreamOpenAndClose := by
  intro s h p peer cls ord dir
  refine ⟨fun a => ⟨?sends, ?receives, ?both⟩, fun a => ⟨?closeReceives, ?closeSends⟩⟩
  case sends => rintro rfl; rw [exec_streamOpen peer cls ord a, startOpen_sends]; rfl
  case receives => rintro rfl; exact ⟨_, rfl, by rw [exec_streamOpen peer cls ord a, startOpen_receives]; rfl⟩
  case both => rintro rfl; exact ⟨_, rfl, by rw [exec_streamOpen peer cls ord a, startOpen_both]; rfl⟩
  case closeReceives => rintro rfl; rw [exec_streamClose a, startClose_receives rfl rfl]
  case closeSends =>
    intro hd
    have hw : wantsSend dir = true ∧ wantsRecv dir = (dir == 3) := by rcases hd with rfl | rfl <;> exact ⟨rfl, rfl⟩
    obtain ⟨t, ht⟩ := findSend_of_streamClose a hw.1
    exact ⟨t, ht, by rw [exec_streamClose a, startClose_sends hw.1 ht, hw.2]⟩

end Sys2Proof.Machine
end

section
/-! SUPPORT. Time limits of streams, of frames that wait and of exchanges, while the controller runs. -/
namespace Sys2Proof.Machine

/-! ### The rows' effects -/

section Rows

variable {s : State} (hs : serving s = true)
include hs

theorem exec_openReqResend (f : Fn) (i : W32) : exec (.openReqResend f i) s = .next (openReqResend f i s) :=
  congrArg Host.Outcome.next (whenLive_live _ _ hs)
theorem exec_openReqHoldExpiry (job : W16) (sid : W32) : exec (.openReqHoldExpiry job sid) s =
    .next { s with openReqs := s.openReqs.filter (fun q => !(q.job == job && q.sid == sid)) } :=
  congrArg Host.Outcome.next (whenLive_live _ _ hs)
theorem exec_streamOpenTimeout (f : Fn) (i : W32) : exec (.streamOpenTimeout f i) s = .next (streamOpenTimeout f i s) :=
  congrArg Host.Outcome.next (whenLive_live _ _ hs)
theorem exec_streamCloseTimeout (f : Fn) (i : W32) : exec (.streamCloseTimeout f i) s = .next (streamCloseTimeout f i s) :=
  congrArg Host.Outcome.next (whenLive_live _ _ hs)
theorem exec_homeExchangeTimeout (xid : W32) : exec (.homeExchangeTimeout xid) s = .next (homeTimeout xid s) :=
  congrArg Host.Outcome.next (whenLive_live _ _ hs)
theorem exec_receiveWaitExpiry (job : W16) (sid : W32) : exec (.receiveWaitExpiry job sid) s = .next (receiveWaitExpiry job sid s) :=
  congrArg Host.Outcome.next (whenLive_live _ _ hs)

end Rows

/-! ### Commands on streams (R182, R189) -/

section Commands

variable {s : State} {f : Fn} {i : W32} {p : InProg} (hp : findProg s f i = some p)
include hp

theorem openReqResend_unanswered {inn : W32} {peer : BitVec 12} {kid : W16} {ch : BitVec 128} {out : Option W32} {sd : Bool} {e : W32}
    {sk : W16} (ha : p.act = .openRecv inn peer kid ch out sd false e sk) :
    openReqResend f i s = sendRouted peer kOpenReq (.openReq inn (jobOf s f) ch) s := by
  simp only [openReqResend, hp, ha]

theorem streamOpenTimeout_receiving {inn : W32} {peer : BitVec 12} {kid : W16} {ch : BitVec 128} {out : Option W32} {sd rd : Bool}
    {e : W32} {sk : W16} (ha : p.act = .openRecv inn peer kid ch out sd rd e sk) :
    streamOpenTimeout f i s = settle (complete p stTimedOut (peer.setWidth 32) 0 (releaseHolds p s)) := by
  simp only [streamOpenTimeout, hp, ha]

theorem streamOpenTimeout_sending {out : W32} {peer : BitVec 12} {kid : W16} (ha : p.act = .openSend out peer kid) :
    streamOpenTimeout f i s = settle (complete p stTimedOut (peer.setWidth 32) 0 (releaseHolds p s)) := by
  simp only [streamOpenTimeout, hp, ha]

theorem streamCloseTimeout_receiving {sid : W32} {job : W16} {sending : Bool} (ha : p.act = .close sid job sending true) :
    streamCloseTimeout f i s = settle (complete p stTimedOut ((sidDst sid).setWidth 32) 0 (closeRecv job (swapSid sid) s)) := by
  simp only [streamCloseTimeout, hp, ha]

end Commands

/-! ### Frames that wait (R187, R419) -/

/-- The first waiting frame of a stream. -/
def firstWait (s : State) (job : W16) (sid : W32) : Option WaitSt := s.waits.find? (fun w => w.hdr.jobId == job && w.hdr.sid == sid)

/-- The frame leaves the wait. -/
def withoutWait (w : WaitSt) (s : State) : State := { s with waits := s.waits.erase w }

section Waits

variable {job : W16} {sid : W32} {s : State}

theorem firstWait_none (h : ∀ w ∈ s.waits, ¬ (w.hdr.jobId = job ∧ w.hdr.sid = sid)) : firstWait s job sid = none := by
  simpa [firstWait] using h

theorem receiveWaitExpiry_none (h : firstWait (retryWaits s) job sid = none) : receiveWaitExpiry job sid s = retryWaits s := by
  unfold firstWait at h
  simp only [receiveWaitExpiry, h]

variable {w : WaitSt} (h : firstWait (retryWaits s) job sid = some w)
include h

theorem receiveWaitExpiry_closed (ht : findRecv (retryWaits s) job sid = none) :
    receiveWaitExpiry job sid s = settle (retryWaits (dropFrame w 5 (withoutWait w (retryWaits s)))) := by
  unfold firstWait at h
  simp only [receiveWaitExpiry, h, ht, withoutWait]

theorem receiveWaitExpiry_unkeyed {t : RecvSt} (ht : findRecv (retryWaits s) job sid = some t) (hk : t.kid = 0) :
    receiveWaitExpiry job sid s = settle (retryWaits (dropFrame w 5 (modRecv job sid (fun t => { t with index := t.index + 1 })
      (withoutWait w (retryWaits s))))) := by
  unfold firstWait at h
  simp only [receiveWaitExpiry, h, ht, hk, if_true, withoutWait]

theorem receiveWaitExpiry_keyed {t : RecvSt} (ht : findRecv (retryWaits s) job sid = some t) (hk : t.kid ≠ 0) :
    receiveWaitExpiry job sid s = retryWaits s := by
  unfold firstWait at h
  simp only [receiveWaitExpiry, h, ht, if_neg hk]

end Waits

end Sys2Proof.Machine
end

section
/-! SUPPORT. The statement on time limits. -/
namespace Sys2Proof.Machine

/-- Settles O16: while the controller runs a row is its limit, and each limit on each command or waiting frame has its own equation. -/
theorem streamTimeLimits : Obligations.StreamTimeLimits := by
  refine ⟨fun s f i p hs hp => ?_, fun s job sid hs => ?_⟩
  · refine ⟨?resend, ?openRecv, ?openSend, ?close, exec_openReqHoldExpiry hs, exec_homeExchangeTimeout hs⟩
    case resend => intro inn peer kid ch out sd e sk ha; rw [exec_openReqResend hs, openReqResend_unanswered hp ha]
    case openRecv => intro inn peer kid ch out sd rd e sk ha; rw [exec_streamOpenTimeout hs, streamOpenTimeout_receiving hp ha]
    case openSend => intro out peer kid ha; rw [exec_streamOpenTimeout hs, streamOpenTimeout_sending hp ha]
    case close => intro sid job t sending ha ht; rw [exec_streamCloseTimeout hs, streamCloseTimeout_receiving hp ha, closeRecv_open ht]
  · rw [exec_receiveWaitExpiry hs]
    refine ⟨fun hnone => ?none, fun w hw => ⟨fun ht => ?closed, fun t ht hk => ?unkeyed, fun t ht hk => ?keyed⟩⟩
    case none => rw [receiveWaitExpiry_none (firstWait_none hnone)]
    case closed => rw [receiveWaitExpiry_closed hw ht]; rfl
    case unkeyed => rw [receiveWaitExpiry_unkeyed hw ht hk]; rfl
    case keyed => rw [receiveWaitExpiry_keyed hw ht hk]

end Sys2Proof.Machine
end

section
/-! SUPPORT. Requests of compute requesters at the fabric ports (R175, R218, R230): when a request is served, held or refused, the frame
that each queues on its stream, and the claim of a token's batch (R234). -/
namespace Sys2Proof.Machine

/-! ### Served, held, refused (R89, R309) -/

section AtPort

variable {s : State} {f : Fn} (c : Instr) (g : State → State)

theorem atPort_serves (h : PortServes s f) : atPort f c g s = g s := by
  obtain ⟨hs, hq, hh⟩ := h
  simp [atPort, hs, hq, hh]

theorem atPort_quiescing (hs : serving s = true) (hq : quiescing s = true) : atPort f c g s = refuse f (reqCtx c) s := by
  simp [atPort, hs, hq]

theorem atPort_holding (hs : serving s = true) (hq : quiescing s = false) (hh : holding s f = true) :
    atPort f c g s = fnMod f (fun x => { x with fabHeld := x.fabHeld ++ [c] }) s := by
  simp [atPort, hs, hq, hh]

end AtPort

theorem exec_sealRequest (q : SealReq) (s : State) :
    exec (.sealRequest q) s = .next (settle (atPort q.fn (.sealRequest q) (sealRequest q) s)) := rfl
theorem exec_tokenRequest (q : SealReq) (k : TokenPay) (s : State) :
    exec (.tokenRequest q k) s = .next (settle (atPort q.fn (.tokenRequest q k) (tokenRequest q k) s)) := rfl
theorem exec_chimeRequest (q : SealReq) (c : ChimePay) (s : State) :
    exec (.chimeRequest q c) s = .next (settle (atPort q.fn (.chimeRequest q c) (chimeRequest q c) s)) := rfl

/-! ### The frames queued -/

section Queued

variable {q : SealReq} {s : State} {t : SendSt}

theorem sealRequest_sealed (ht : streamFor s q.fn q.peer q.cls q.ordinal = some t)
    (hkind : q.ftype = 0x01 ∧ (q.cls = 0 ∨ q.cls = 4) ∨ q.ftype = 0x04 ∧ q.cls = 2)
    (hsize : 1 ≤ q.units.toNat ∧ q.units.toNat ≤ 32 ∧ q.payload.length ≤ 256 * q.units.toNat) :
    sealRequest q s = if q.cls = 2 then queueSeal t q.ftype q.units.toNat q (batchField q.batch) q.batchGen q.payload s
      else queueSeal t q.ftype q.units.toNat q 0 0 q.payload s := by
  have hok : (!((q.ftype == 0x01 && (q.cls == 0 || q.cls == 4)) || (q.ftype == 0x04 && q.cls == 2)) ||
      !decide (1 ≤ q.units.toNat ∧ q.units.toNat ≤ 32 ∧ q.payload.length ≤ 256 * q.units.toNat)) = false := by
    rw [decide_eq_true hsize]
    rcases hkind with ⟨hf, hc | hc⟩ | ⟨hf, hc⟩ <;> rw [hf, hc] <;> rfl
  simp only [sealRequest, ht, hok]
  rfl

theorem sealRequest_noStream (ht : streamFor s q.fn q.peer q.cls q.ordinal = none) :
    sealRequest q s = emit (.fabricError q.fn q.ctx) s := by
  simp only [sealRequest, ht, refuse]

theorem tokenRequest_queued {k : TokenPay} (ht : streamFor s q.fn q.peer 1 q.ordinal = some t)
    (hsize : 1 ≤ q.units.toNat ∧ q.units.toNat ≤ 32 ∧ 32 + k.data.length ≤ 256 * q.units.toNat) :
    tokenRequest q k s = queueSeal t 0x03 q.units.toNat q 0 0 (tokenBytes k) s := by
  simp only [tokenRequest, ht, decide_eq_true hsize, if_true]

theorem chimeRequest_queued {c : ChimePay} (hpeer : q.peer ≠ s.fab.id) (hcls : q.cls = 0 ∨ q.cls = 2 ∨ q.cls = 3)
    (hok : chimeOk c = true) (ht : streamFor s q.fn q.peer q.cls q.ordinal = some t) :
    chimeRequest q c s = if q.cls = 2 then queueSeal t 0x02 1 q (batchField q.batch) 0 (chimeBytes c) s
      else queueSeal t 0x02 1 q 0 0 (chimeBytes c) s := by
  have hform : (!(q.cls == 0 || q.cls == 2 || q.cls == 3) || !chimeOk c) = false := by
    rw [hok]
    rcases hcls with hc | hc | hc <;> rw [hc] <;> rfl
  simp only [chimeRequest, if_neg hpeer, hform, ht]
  rfl

end Queued

/-! ### A token's batch (R230, R234) -/

theorem sealToken_foreign {t : SendSt} {pay : List Byte} {s : State}
    (h : (filterOf s (payBatch pay)).claimed = true ∧ (filterOf s (payBatch pay)).job ≠ t.job) (ctx : W16) (units : Nat) (dc dg : W16) :
    sealToken t ctx units dc dg pay s = emit (.fabricError t.fn ctx) (countFn t.fn 0x2B s) := if_pos h

theorem sealToken_claims {t : SendSt} {pay : List Byte} {s : State}
    (h : ¬ ((filterOf s (payBatch pay)).claimed = true ∧ (filterOf s (payBatch pay)).job ≠ t.job)) (ctx : W16) (units : Nat)
    (dc dg : W16) : sealToken t ctx units dc dg pay s = sealFrame t ctx 0x03 units dc dg 0 0
      (stampToken (filterOf (claimBatch (payBatch pay) t.job s) (payBatch pay)).gen pay) (claimBatch (payBatch pay) t.job s) := if_neg h

/-- A batch that no other job has claimed is the job's after its claim. -/
theorem claimBatch_owned {n : Nat} {job : W16} {s : State} (h : ¬ ((filterOf s n).claimed = true ∧ (filterOf s n).job ≠ job)) :
    (filterOf (claimBatch n job s) n).claimed = true ∧ (filterOf (claimBatch n job s) n).job = job := by
  unfold claimBatch
  split
  · next hc => exact ⟨hc, Classical.byContradiction fun hj => h ⟨hc, hj⟩⟩
  · simp [filterOf]

end Sys2Proof.Machine
end

section
/-! SUPPORT. The statement on requests at the fabric ports. -/
namespace Sys2Proof.Machine

/-- Settles O24: where its port serves a request, the row is the request's own effect; a token's batch is claimed before the frame is
sealed. -/
theorem requestsAtFabricPorts : Obligations.RequestsAtFabricPorts := by
  intro s q t
  refine ⟨fun hp => ⟨fun ht hkind hsize => ?seal_, fun ht => ?noStream, fun k ht hsize => ?token, fun c hpeer hcls hok ht => ?chime⟩,
    fun ctx units dc dg pay => ⟨fun h => sealToken_foreign h ctx units dc dg, fun h => ?claim⟩,
    fun hs hq hh => ?held, fun hs hq => ?quiesced⟩
  case seal_ => rw [exec_sealRequest, atPort_serves _ _ hp, sealRequest_sealed ht hkind hsize]
  case noStream => rw [exec_sealRequest, atPort_serves _ _ hp, sealRequest_noStream ht]
  case token => rw [exec_tokenRequest, atPort_serves _ _ hp, tokenRequest_queued ht hsize]
  case chime => rw [exec_chimeRequest, atPort_serves _ _ hp, chimeRequest_queued hpeer hcls hok ht]
  case claim =>
    obtain ⟨hclaimed, hjob⟩ := claimBatch_owned h
    exact ⟨hclaimed, hjob, sealToken_claims h ctx units dc dg⟩
  case held => rw [exec_sealRequest, atPort_holding _ _ hs hq hh]
  case quiesced => rw [exec_sealRequest, atPort_quiescing _ _ hs hq]; rfl

end Sys2Proof.Machine
end

section
/-! SUPPORT. Fences (R224 to R228, R289): what a command's end and the evaluation of waits leave of a fence, the cases of Table 08-5, and
what FENCE_CREATE, FENCE_SIGNAL, FENCE_WAIT and FENCE_RELEASE then do. -/
namespace Sys2Proof.Machine

/-! ### A command's end leaves the fences -/

/-- The functions of `t` differ from those of `s` in their rings and their dirty logs alone. -/
structure RingsOnly (s t : State) : Prop where
  fn : ∀ f, ∃ r d, fnOf t f = { fnOf s f with ring := r, dirty := d }

namespace RingsOnly

theorem of_fns {s t : State} (h : t.fns = s.fns) : RingsOnly s t := ⟨fun f => ⟨_, _, by rw [fnOf, h]; rfl⟩⟩
theorem refl (s : State) : RingsOnly s s := of_fns rfl

theorem trans {s t u : State} (h : RingsOnly s t) (h' : RingsOnly t u) : RingsOnly s u := by
  refine ⟨fun f => ?_⟩
  obtain ⟨r, d, e⟩ := h.fn f
  obtain ⟨r', d', e'⟩ := h'.fn f
  exact ⟨r', d', by rw [e', e]⟩

theorem ite {c : Prop} [Decidable c] {s t u : State} (ht : RingsOnly s t) (hu : RingsOnly s u) : RingsOnly s (if c then t else u) := by
  split
  · exact ht
  · exact hu

theorem fences {s t : State} (h : RingsOnly s t) (f : Fn) : (fnOf t f).fences = (fnOf s f).fences := by
  obtain ⟨r, d, e⟩ := h.fn f
  rw [e]

end RingsOnly

theorem ringsOnly_emit (o : Output) (s : State) : RingsOnly s (emit o s) := .of_fns rfl

theorem ringsOnly_traceVf (f : Fn) (k : Nat) (c : W16) (d : BitVec 128) (s : State) : RingsOnly s (traceVf f k c d s) :=
  ⟨fun g => ⟨_, _, fnOf_traceVf f g k c d s⟩⟩

theorem ringsOnly_fnMod (f : Fn) (g : FnSt → FnSt) (s : State) (hg : ∀ x, ∃ r d, g x = { x with ring := r, dirty := d }) :
    RingsOnly s (fnMod f g s) := by
  refine ⟨fun f' => ?_⟩
  by_cases h : f' = f
  · subst h
    rw [fnOf_fnMod_self]
    exact hg _
  · exact ⟨_, _, fnOf_fnMod_ne _ _ _ _ h⟩

theorem ringsOnly_ringMod (f : Fn) (g : RingSt → RingSt) (s : State) : RingsOnly s (ringMod f g s) :=
  ringsOnly_fnMod f _ s fun _ => ⟨_, _, rfl⟩

theorem ringsOnly_markPage (f : Fn) (k : Nat) (s : State) : RingsOnly s (markPage f k s) := by
  have hput : ∀ d, RingsOnly s (fnMod f (fun x => { x with dirty := some d }) s) := fun d => ringsOnly_fnMod f _ s fun _ => ⟨_, _, rfl⟩
  obtain h | ⟨d, h⟩ | ⟨d, o, h⟩ := markPage_cases f k s <;> rw [h]
  · exact .refl s
  · exact hput d
  · exact (hput d).trans (ringsOnly_emit ..)

theorem ringsOnly_markPages (f : Fn) (k n : Nat) (s : State) : RingsOnly s (markPages f k n s) := by
  induction n generalizing k s with
  | zero => exact .refl s
  | succ n ih => exact (ringsOnly_markPage f k s).trans (ih ..)

theorem ringsOnly_markHost (f : Fn) (a n : Nat) (s : State) : RingsOnly s (markHost f a n s) := .ite (.refl s) (ringsOnly_markPages ..)

theorem ringsOnly_postDoorbell (f : Fn) (s : State) : RingsOnly s (postDoorbell f s) := (ringsOnly_markHost ..).trans (ringsOnly_emit ..)

theorem ringsOnly_signalEvent (f : Fn) (s : State) : RingsOnly s (signalEvent f s) := by
  rw [signalEvent_eq]
  exact (ringsOnly_ringMod f withEvent s).trans (.ite (.refl _) ((ringsOnly_ringMod ..).trans (ringsOnly_emit ..)))

theorem ringsOnly_writeRecord (f : Fn) (mk : Bool → CplRec) (s : State) : RingsOnly s (writeRecord f mk s) :=
  .ite (.refl s) (((ringsOnly_markHost ..).trans (ringsOnly_emit ..)).trans (ringsOnly_ringMod ..))

/-- A command's end: its record, its event, the trace, the doorbell half, the ring's disabling. -/
theorem ringsOnly_complete (p : InProg) (st : W16) (d : W32) (res : BitVec 128) (s : State) : RingsOnly s (complete p st d res s) := by
  have hrecord : RingsOnly s (writeRecord p.fn (endRecord p st d res s) (dropProg p s)) :=
    (RingsOnly.of_fns rfl : RingsOnly s (dropProg p s)).trans (ringsOnly_writeRecord ..)
  rw [complete_eq]
  exact (((hrecord.trans (.ite (ringsOnly_signalEvent ..) (.refl _))).trans (ringsOnly_traceVf ..)).trans (ringsOnly_postDoorbell ..)).trans
    (.ite (ringsOnly_ringMod ..) (.refl _))

/-! ### One fence -/

@[simp] theorem fenceOf_fenceMod_self (f : Fn) (i : Nat) (g : FenceSt → FenceSt) (s : State) :
    fenceOf (fenceMod f i g s) f i = g (fenceOf s f i) := by
  simp [fenceOf, fenceMod]

@[simp] theorem fenceOf_forwardFence (f : Fn) (i : Nat) (s : State) (g : Fn) (j : Nat) : fenceOf (forwardFence f i s) g j = fenceOf s g j := rfl

/-- A reference holder that enters changes nothing but the reference list. -/
theorem fenceOf_addRef (f : Fn) (i : Nat) (c : W16) (s : State) : ∃ r, fenceOf (addRef f i c s) f i = { fenceOf s f i with refs := r } := by
  unfold addRef
  split
  · exact ⟨_, rfl⟩
  · exact ⟨_, fenceOf_fenceMod_self ..⟩

/-- Fence `i` of function `f` has the same VALUE and ERR in `t` as in `s`. -/
def SameFence (f : Fn) (i : Nat) (s t : State) : Prop :=
  (fenceOf t f i).value = (fenceOf s f i).value ∧ (fenceOf t f i).err = (fenceOf s f i).err

theorem SameFence.refl (f : Fn) (i : Nat) (s : State) : SameFence f i s s := ⟨rfl, rfl⟩

theorem SameFence.trans {f : Fn} {i : Nat} {s t u : State} (h : SameFence f i s t) (h' : SameFence f i t u) : SameFence f i s u :=
  ⟨h'.1.trans h.1, h'.2.trans h.2⟩

theorem RingsOnly.sameFence {s t : State} (h : RingsOnly s t) (f : Fn) (i : Nat) : SameFence f i s t := by
  have hf : fenceOf t f i = fenceOf s f i := by rw [fenceOf, h.fences f]; rfl
  exact ⟨congrArg _ hf, congrArg _ hf⟩

theorem sameFence_endWaits (f : Fn) (i : Nat) (l : List InProg) (s : State) : SameFence f i s (endWaits f i l s) := by
  fun_induction endWaits f i l s with
  | case1 => exact .refl ..
  | case2 _ _ _ _ _ _ _ _ _ _ ih => exact ((ringsOnly_complete ..).sameFence ..).trans ih
  | case3 _ _ _ _ _ _ _ _ ih => exact ih
  | case4 _ _ _ _ _ _ _ ih => exact ih
  | case5 _ _ _ _ ih => exact ih

theorem sameFence_endUnitWaits (f : Fn) (i : Nat) (l : List (W16 × W64)) (s : State) : SameFence f i s (endUnitWaits f i l s) := by
  fun_induction endUnitWaits f i l s with
  | case1 => exact .refl ..
  | case2 c w l s _ _ _ ih =>
    have hleft : SameFence f i s (fenceMod f i (fun x => { x with unitWaits := x.unitWaits.erase (c, w) }) s) := by simp [SameFence]
    exact (hleft.trans ((ringsOnly_emit ..).sameFence ..)).trans ih
  | case3 _ _ _ _ _ ih => exact ih

theorem sameFence_evalWaits (f : Fn) (i : Nat) (s : State) : SameFence f i s (evalWaits f i s) :=
  (sameFence_endWaits ..).trans (sameFence_endUnitWaits ..)

/-! ### A SET (Table 08-5) -/

section Set

variable {x : FenceSt} {v : W64}

theorem sigCase_error {add : Bool} (h : x.err ≠ .none) : sigCase x add v = .error := if_pos h

theorem sigCase_set_stale (h : x.err = .none) (hv : v.toNat ≤ x.value.toNat) : sigCase x false v = .stale := by
  simp [sigCase, h, Nat.sub_eq_zero_of_le hv]

theorem sigCase_set_applied (h : x.err = .none) (hlt : x.value.toNat < v.toNat) (hle : v.toNat - x.value.toNat ≤ 2 ^ 62) :
    sigCase x false v = .applied v := by
  have hsum : x.value.toNat + (v.toNat - x.value.toNat) = v.toNat := by omega
  have hd : v.toNat - x.value.toNat ≠ 0 := by omega
  have hmax : v.toNat ≤ 2 ^ 64 - 1 := by have := v.isLt; omega
  simp only [sigCase, h, ne_eq, not_true, if_false, Bool.false_eq_true, hsum, if_neg hd, if_pos (And.intro hle hmax), BitVec.ofNat_toNat,
    BitVec.setWidth_eq]

theorem sigCase_set_range (h : x.err = .none) (hlt : 2 ^ 62 < v.toNat - x.value.toNat) : sigCase x false v = .range := by
  have hd : v.toNat - x.value.toNat ≠ 0 := by omega
  have hfar : ¬ (v.toNat - x.value.toNat ≤ 2 ^ 62 ∧ x.value.toNat + (v.toNat - x.value.toNat) ≤ 2 ^ 64 - 1) := fun hc => by omega
  simp only [sigCase, h, ne_eq, not_true, if_false, Bool.false_eq_true, if_neg hd, if_neg hfar]

end Set

/-- What a signal of each case leaves of its fence. -/
def SignalLeaves (f : Fn) (i : Nat) (s t : State) : SigCase → Prop
  | .error | .stale => SameFence f i s t
  | .applied v => (fenceOf t f i).value = v
  | .range => (fenceOf t f i).value = (fenceOf s f i).value ∧ (fenceOf t f i).err = .range

/-- The fence with its ERR set, forwarded to the synchronisation unit. -/
def withErr (f : Fn) (i : Nat) (e : FenceErr) (peer : BitVec 12) (s : State) : State :=
  forwardFence f i (fenceMod f i (fun x => { x with err := e, lostPeer := peer }) s)

theorem sameFence_setErr {f : Fn} {i : Nat} {s : State} (h : (fenceOf s f i).err = .none) (e : FenceErr) (peer : BitVec 12) :
    SameFence f i (withErr f i e peer s) (setErr f i e peer s) := by
  rw [setErr, if_pos h]
  exact (sameFence_evalWaits ..).trans ((ringsOnly_traceVf ..).sameFence ..)

theorem setErr_leaves {f : Fn} {i : Nat} {s : State} (h : (fenceOf s f i).err = .none) (e : FenceErr) (peer : BitVec 12) :
    (fenceOf (setErr f i e peer s) f i).value = (fenceOf s f i).value ∧ (fenceOf (setErr f i e peer s) f i).err = e := by
  obtain ⟨hvalue, herr⟩ := sameFence_setErr h e peer
  exact ⟨hvalue.trans (by simp [withErr]), herr.trans (by simp [withErr])⟩

theorem sigCase_range_err {x : FenceSt} {add : Bool} {v : W64} (h : sigCase x add v = .range) : x.err = .none :=
  Classical.byContradiction fun he => by simp [sigCase_error he] at h

theorem signalFence_leaves (f : Fn) (i : Nat) (add : Bool) (v : W64) (chime : Bool) (s : State) :
    SignalLeaves f i s (signalFence f i add v chime s) (sigCase (fenceOf s f i) add v) := by
  unfold signalFence
  split
  case h_1 h =>
    rw [h]
    cases chime <;> exact .refl ..
  case h_2 h => rw [h]; exact .refl ..
  case h_3 w h =>
    rw [h]
    exact (sameFence_evalWaits f i _).1.trans (by simp)
  case h_4 h =>
    rw [h]
    exact setErr_leaves (s := countFn f 0x26 s) (sigCase_range_err h) .range 0

/-! ### The commands -/

theorem exec_fenceCreate (h : CmdHdr) (v : W64) (pick : W16) (s : State) :
    exec (.fenceCreate h v pick) s = .next (runRow (fenceCreateRow h v) (startFenceCreate h v pick) s) := rfl
theorem exec_fenceRelease (h : CmdHdr) (handle : W32) (s : State) :
    exec (.fenceRelease h handle) s = .next (runRow (fenceReleaseRow h handle) (startRelease h handle) s) := rfl
theorem exec_fenceSignal (h : CmdHdr) (handle : W32) (v : W64) (s : State) :
    exec (.fenceSignal h handle v) s = .next (runRow (fenceSignalRow h handle v) (startSignal h handle v) s) := rfl
theorem exec_fenceWait (h : CmdHdr) (handle : W32) (v : W64) (s : State) :
    exec (.fenceWait h handle v) s = .next (runRow (fenceWaitRow h handle v) (startWait h handle v) s) := rfl
theorem exec_syncWaitRegister (f : Fn) (c : W16) (handle : W32) (v : W64) (s : State) :
    exec (.syncWaitRegister f c handle v) s = .next (whenLive (syncWait f c handle v) s) := rfl

/-- The status and DETAIL of a FENCE_SIGNAL of `v` to the fence `x` (Table 08-5). -/
def signalStatus (x : FenceSt) (v : W64) : W16 × W32 :=
  match sigCase x false v with
  | .error => errStatus x
  | .range => (stFenceRange, 0)
  | _ => (stOk, 0)

section Live

variable {s : State} {h : CmdHdr} {handle : W32} {i : Nat} (hi : fenceIdx s h.fn handle = some i)
include hi

/-- FENCE_SIGNAL: the issuer enters, the signal is applied, and its status is that of Table 08-5. -/
theorem startSignal_live (v : W64) (p : InProg) :
    startSignal h handle v p s = complete p (signalStatus (fenceOf s h.fn i) v).1 (signalStatus (fenceOf s h.fn i) v).2
      (valueResult (fenceOf (signalFence h.fn i false v false (addRef h.fn i h.ctx s)) h.fn i))
      (signalFence h.fn i false v false (addRef h.fn i h.ctx s)) := by
  obtain ⟨r, hr⟩ := fenceOf_addRef h.fn i h.ctx s
  have hstatus : signalStatus (fenceOf s h.fn i) v = signalStatus (fenceOf (addRef h.fn i h.ctx s) h.fn i) v := by rw [hr]; rfl
  rw [hstatus]
  cases hc : sigCase (fenceOf (addRef h.fn i h.ctx s) h.fn i) false v <;> simp only [startSignal, hi, signalStatus, hc]

theorem startWait_ends {v : W64} {o : W16 × W32} (ho : waitOutcome (fenceOf s h.fn i) v = some o) (p : InProg) :
    startWait h handle v p s = complete p o.1 o.2 (valueResult (fenceOf s h.fn i)) (addRef h.fn i h.ctx s) := by
  obtain ⟨r, hr⟩ := fenceOf_addRef h.fn i h.ctx s
  have ho' : waitOutcome { fenceOf s h.fn i with refs := r } v = some o := ho
  simp only [startWait, hi, hr, ho']
  rfl

theorem startWait_waits {v : W64} (ho : waitOutcome (fenceOf s h.fn i) v = none) (p : InProg) :
    startWait h handle v p s = goOn p { signal := true } (.fenceWait i v) (addRef h.fn i h.ctx s) := by
  obtain ⟨r, hr⟩ := fenceOf_addRef h.fn i h.ctx s
  have ho' : waitOutcome { fenceOf s h.fn i with refs := r } v = none := ho
  simp only [startWait, hi, hr, ho']

theorem startRelease_live (p : InProg) :
    startRelease h handle p s = complete p stOk 0 0 (dropRef h.fn i h.ctx
      (let v := abortWaits h.fn i (fun q => q.ctx == h.ctx) s.prog s
       if h.ctx = 0xFFFF then v else abortUnitWaits h.fn i (some h.ctx) (fenceOf v h.fn i).unitWaits v)) := by
  simp only [startRelease, hi]

end Live

section Outcome

variable {x : FenceSt} {v : W64}

theorem waitOutcome_reached (h : v.toNat ≤ x.value.toNat) : waitOutcome x v = some (stOk, 0) := if_pos h

theorem waitOutcome_failed (h : x.value.toNat < v.toNat) (he : x.err ≠ .none) : waitOutcome x v = some (errStatus x) := by
  rw [waitOutcome, if_neg (show ¬ v ≤ x.value from Nat.not_le.2 h), if_neg he]

theorem waitOutcome_waits (h : x.value.toNat < v.toNat) (he : x.err = .none) : waitOutcome x v = none := by
  rw [waitOutcome, if_neg (show ¬ v ≤ x.value from Nat.not_le.2 h), if_pos he]

end Outcome

/-- The state in which FENCE_CREATE has made fence `i`. -/
def withFence (f : Fn) (i : Nat) (x : FenceSt) (s : State) : State := fnMod f (fun y => { y with fences := mapSet y.fences i x }) s

theorem fences_withFence (f : Fn) (i : Nat) (x : FenceSt) (s : State) :
    (fnOf (withFence f i x s) f).fences = mapSet (fnOf s f).fences i x := by simp [withFence]

theorem fenceHandle_withFence (f : Fn) (i j : Nat) (x : FenceSt) (s : State) : fenceHandle (withFence f i x s) f j = fenceHandle s f j := by
  simp [fenceHandle, withFence]

theorem fenceOf_withFence (f : Fn) (i : Nat) (x : FenceSt) (s : State) : fenceOf (withFence f i x s) f i = x := by
  simp [fenceOf, fences_withFence]

theorem startFenceCreate_picked {h : CmdHdr} {pick : W16} {i : Nat} {s : State}
    (hi : pickIdx (fun i => (mapFind (fnOf s h.fn).fences i).isSome) pick = some i) (v : W64) (p : InProg) :
    startFenceCreate h v pick p s = complete p stOk 0 ((fenceHandle s h.fn i).setWidth 128)
      (forwardFence h.fn i (withFence h.fn i { value := v, local_ := h.ctx, refs := [h.ctx] } s)) := by
  rw [← fenceHandle_withFence h.fn i i { value := v, local_ := h.ctx, refs := [h.ctx] } s]
  simp only [startFenceCreate, hi]
  rfl

end Sys2Proof.Machine
end

section
/-! SUPPORT. The statements on signals and waits, and on the making and the release of fences. -/
namespace Sys2Proof.Machine

/-- Settles O17: a SET is one of Table 08-5's cases, which gives its status and what it leaves of the fence; a wait is its outcome. -/
theorem fenceSignals : Obligations.FenceSignals := by
  intro s h p handle v i hi
  refine ⟨fun a => ?signal, fun a => ⟨fun hv => ?reached, fun hv he => ?failed, fun hv he => ?waits⟩⟩
  case signal =>
    obtain ⟨r, hr⟩ := fenceOf_addRef h.fn i h.ctx s
    have hleft := signalFence_leaves h.fn i false v false (addRef h.fn i h.ctx s)
    have hsame : sigCase (fenceOf (addRef h.fn i h.ctx s) h.fn i) false v = sigCase (fenceOf s h.fn i) false v := by rw [hr]; rfl
    rw [hsame] at hleft
    refine ⟨_, (signalStatus (fenceOf s h.fn i) v).1, (signalStatus (fenceOf s h.fn i) v).2, ?_, rfl,
      fun he => ?error, fun he hv => ?stale, fun he hlt hle => ?applied, fun he hlt => ?range⟩
    · rw [exec_fenceSignal, runRow_admitted a, startSignal_live hi]
      rfl
    case error => simp only [signalStatus, sigCase_error he]
    case stale =>
      rw [sigCase_set_stale he hv] at hleft
      rw [signalStatus, sigCase_set_stale he hv]
      exact ⟨rfl, rfl, hleft.1.trans (by rw [hr])⟩
    case applied =>
      rw [sigCase_set_applied he hlt hle] at hleft
      rw [signalStatus, sigCase_set_applied he hlt hle]
      exact ⟨rfl, rfl, hleft⟩
    case range =>
      rw [sigCase_set_range he hlt] at hleft
      rw [signalStatus, sigCase_set_range he hlt]
      exact ⟨rfl, rfl, hleft.1.trans (by rw [hr]), hleft.2⟩
  case reached => rw [exec_fenceWait, runRow_admitted a, startWait_ends hi (waitOutcome_reached hv)]; rfl
  case failed => rw [exec_fenceWait, runRow_admitted a, startWait_ends hi (waitOutcome_failed hv he)]; rfl
  case waits => rw [exec_fenceWait, runRow_admitted a, startWait_waits hi (waitOutcome_waits hv he)]

/-- Settles O18: each row is its command's first part on a free index or a live fence; a registration follows the synchronisation unit. -/
theorem fenceCreateRelease : Obligations.FenceCreateRelease := by
  intro s h p
  refine ⟨fun v pick i a hi => ?create, fun handle i a hi => ?release, fun hs f c handle v => ?register⟩
  case create =>
    refine ⟨_, by rw [exec_fenceCreate, runRow_admitted a, startFenceCreate_picked hi], ?made, ?told, fun j hj => ?others⟩
    case made => simp [forwardFence, fences_withFence]
    case told => rw [forwardFence, emit_out, fenceHandle_withFence, fenceOf_withFence]; rfl
    case others => simp [forwardFence, fences_withFence, mapFind_mapSet_ne _ _ _ _ hj]
  case release => rw [exec_fenceRelease, runRow_admitted a, startRelease_live hi]
  case register => rw [exec_syncWaitRegister, whenLive_live _ _ hs]; rfl

end Sys2Proof.Machine
end

section
/-! SUPPORT. Batches, plaintext writes and chimes (R219 to R221, R229, R234, R236): what BATCH_CANCEL and WRITE_COMPLETION do, and the
signals of a released chime, one after the other. -/
namespace Sys2Proof.Machine

/-! ### BATCH_CANCEL (R236) -/

theorem exec_batchCancel (h : CmdHdr) (b : W16) (s : State) :
    exec (.batchCancel h b) s = .next (runRow (batchCancelRow h b) (startCancel h b) s) := rfl

/-! ### WRITE_COMPLETION (R220, R234) -/

theorem exec_writeCompletion (id : Nat) (s : State) : exec (.writeCompletion id) s = .next (writeCompletion id s) := rfl

/-- The write leaves the table, and no snare entry waits on it. -/
def writeEnded (id : Nat) (s : State) : State :=
  stampMet { s with writes := mapErase s.writes id, snare := s.snare.map (fun e => { e with writes := e.writes.erase id }) }

/-- A batch has one frame less in flight. -/
def lessInFlight (b : Nat) (s : State) : State :=
  if (filterOf s b).inFlight = 0 then s
  else { s with filter := mapPut {} s.filter b { filterOf s b with inFlight := (filterOf s b).inFlight - 1 } }

theorem filterOf_lessInFlight (b : Nat) (s : State) :
    (filterOf (lessInFlight b s) b).inFlight.toNat = (filterOf s b).inFlight.toNat - 1 := by
  unfold lessInFlight
  split
  case isTrue h => rw [h]; rfl
  case isFalse h =>
    rw [filterOf, mapGet_mapPut, if_pos rfl]
    have hpos : (filterOf s b).inFlight.toNat ≠ 0 := fun e => h (BitVec.eq_of_toNat_eq e)
    exact BitVec.toNat_sub_of_le (Nat.one_le_iff_ne_zero.2 hpos)

theorem lessInFlight_frame (b : Nat) (s : State) : lessInFlight b s = { s with filter := (lessInFlight b s).filter } := by
  unfold lessInFlight
  split <;> rfl

/-- The batch of an ended write, where it has one, has one frame less in flight. -/
def batchEnded (b : Option (BitVec 12)) (s : State) : State :=
  match b with
  | some b => lessInFlight b.toNat s
  | none => s

theorem batchEnded_frame (b : Option (BitVec 12)) (s : State) : batchEnded b s = { s with filter := (batchEnded b s).filter } := by
  cases b
  · rfl
  · exact lessInFlight_frame ..

theorem writeCompletion_outstanding {id : Nat} {s : State} {w : WriteSt} (h : mapFind s.writes id = some w) :
    writeCompletion id s = settle (batchEnded w.batch (writeEnded id s)) := by
  simp only [writeCompletion, h]
  rfl

section Read

variable {id : Nat} {s : State} (h : mapFind s.writes id = none)
include h

theorem writeCompletion_unknown (hr : s.reads.find? (fun e => e.id == id) = none) : writeCompletion id s = s := by
  simp only [writeCompletion, h, readCompletion, hr]

theorem writeCompletion_read {e : LocalRead} (hr : s.reads.find? (fun e => e.id == id) = some e) :
    writeCompletion id s = settle (clearJobWaits e.job
      (doneLocal e.fn e.ctx e.gen stOk { s with reads := s.reads.filter (fun x => x.id != id) })) := by
  simp only [writeCompletion, h, readCompletion, hr]

end Read

/-! ### A chime's signals (R219, R229) -/

/-- The signals of a chime are applied in order. -/
theorem applySignals_append (f : Fn) (src : Option (BitVec 12)) (l l' : List ChimeSig) (s : State) :
    applySignals f src (l ++ l') s = applySignals f src l' (applySignals f src l s) := by
  induction l generalizing s with
  | nil => rfl
  | cons g l ih =>
    simp only [List.cons_append, applySignals]
    split <;> exact ih _

/-- A signal to no live fence is only counted. -/
theorem applySignals_noFence {f : Fn} {g : ChimeSig} {s : State} (h : fenceIdx s f g.fence = none) (src : Option (BitVec 12))
    (l : List ChimeSig) : applySignals f src (g :: l) s = applySignals f src l (countFn f 0x28 s) := by
  simp only [applySignals, h]

/-- The signals of a chime one of which names no live fence. -/
theorem applySignals_split {f : Fn} {src : Option (BitVec 12)} {l before after : List ChimeSig} {g : ChimeSig} {s : State}
    (hl : l = before ++ g :: after) (h : fenceIdx (applySignals f src before s) f g.fence = none) :
    applySignals f src l s = applySignals f src after (countFn f 0x28 (applySignals f src before s)) := by
  rw [hl, applySignals_append, applySignals_noFence h]

/-! ### CHIME_RELEASE -/

section Release

variable {s : State} (hs : serving s = true)
include hs

theorem exec_chimeRelease_port (f : Fn) (port : Fin 32) :
    exec (.chimeRelease f (some port)) s = .next (settle (retryWaits (releaseChime f port s))) :=
  congrArg Host.Outcome.next (whenLive_live _ _ hs)

theorem exec_chimeRelease_local (f : Fn) : exec (.chimeRelease f none) s = .next (settle (releaseLocal f s)) :=
  congrArg Host.Outcome.next (whenLive_live _ _ hs)

end Release

theorem releaseChime_picked {f : Fn} {port : Fin 32} {s : State} {b l : List SnareSt} {e : SnareSt}
    (h : snarePick f port s.snare = some (b, e, l)) : releaseChime f port s =
      traceVf f 0x03 e.dstCtx (chimeData e.sigs) (applySignals f (some e.src) e.sigs { s with snare := b ++ l }) := by
  simp only [releaseChime, h]

theorem releaseLocal_picked {f : Fn} {s : State} {b l : List LocalChime} {e : LocalChime}
    (h : localPick s f [] s.localSnare = some (b, e, l)) : releaseLocal f s =
      traceVf f 0x03 e.ctx (chimeData e.sigs) (applySignals f none e.sigs { s with localSnare := b ++ l }) := by
  simp only [releaseLocal, h]

end Sys2Proof.Machine
end

section
/-! SUPPORT. The statements on batches, writes and chimes. -/
namespace Sys2Proof.Machine

/-- Settles O46: the signals before the one that names no live fence are applied, that one is counted, and those after it follow. -/
theorem chimeWithoutFence : Obligations.ChimeWithoutFence := by
  refine ⟨fun s f port b l e before after g hs hp he => ?remote, fun s f b l e before after g hs hp he => ?local_⟩
  case remote =>
    intro u hg
    rw [exec_chimeRelease_port hs, releaseChime_picked hp, applySignals_split he hg]
    rfl
  case local_ =>
    intro u hg
    rw [exec_chimeRelease_local hs, releaseLocal_picked hp, applySignals_split he hg]
    rfl

/-- Settles O19: each row is its own first part; an ended write leaves the table and the snare, then its batch. -/
theorem batchesWritesChimes : Obligations.BatchesWritesChimes := by
  intro s h p
  refine ⟨fun b a => ?cancel, fun id hw => ⟨fun hr => ?unknown, fun e hr => ?read⟩, fun id w hw => ?write,
    fun hs f port => ⟨?remote, ?local_⟩⟩
  case cancel => rw [exec_batchCancel, runRow_admitted a]; rfl
  case unknown => rw [exec_writeCompletion, writeCompletion_unknown hw hr]
  case read => rw [exec_writeCompletion, writeCompletion_read hw hr]
  case write =>
    refine ⟨batchEnded w.batch (writeEnded id s), by rw [exec_writeCompletion, writeCompletion_outstanding hw], ?left, fun j hj => ?others,
      ?snare, fun b hb => ?inFlight, fun hb => ?noBatch⟩
    case left => rw [batchEnded_frame]; exact (mapFind_mapErase ..).trans (if_pos rfl)
    case others => rw [batchEnded_frame]; exact (mapFind_mapErase ..).trans (if_neg hj)
    case snare => rw [batchEnded_frame]; rfl
    case inFlight => rw [hb]; exact filterOf_lessInFlight b.toNat (writeEnded id s)
    case noBatch => rw [hb]; rfl
  case remote => rw [exec_chimeRelease_port hs]; rfl
  case local_ => rw [exec_chimeRelease_local hs]; rfl

end Sys2Proof.Machine
end

section
/-! SUPPORT. Refusals, local chimes and pool requests at the fabric ports (R223, R231, R261, R262). -/
namespace Sys2Proof.Machine

/-! ### REFUSAL_REQUEST (R231) -/

theorem exec_refusalRequest {s : State} (hs : serving s = true) (job : W16) (src : BitVec 12) (k : TokenPay) (choice reason : Byte)
    (expert : W16) : exec (.refusalRequest job src k choice reason expert) s =
      .next (settle (refusalRequest job src k choice reason expert s)) :=
  congrArg (fun t => Host.Outcome.next (settle t)) (whenLive_live _ _ hs)

/-- The stream that a token names for its refusal: the class-2 stream to the package it came from. -/
def refusalSid (s : State) (src : BitVec 12) (k : TokenPay) : W32 := streamId s.fab.id src 2 (k.retOrdinal.setWidth 4)

section Refusal

variable {s : State} {job : W16} {src : BitVec 12} {k : TokenPay} (choice reason : Byte) (expert : W16)

theorem refusalRequest_open {t : SendSt} (ht : findSend s job (refusalSid s src k) = some t) (hc : t.closing = false)
    (he : exhausted t = false) : refusalRequest job src k choice reason expert s =
      enqueue t.port (.seal job (refusalSid s src k) 0x05 1 0xFFFF 0 (batchField (tokenBatch k)) k.batchGen
        (refusalBytes k choice reason expert) 0xFFFF) s := by
  unfold refusalSid at ht ⊢
  simp only [refusalRequest, ht, hc, he]
  rfl

theorem refusalRequest_none {f : Fn} (ht : findSend s job (refusalSid s src k) = none) (hf : vfOfJob s job = some f) :
    refusalRequest job src k choice reason expert s = countFn f 0x2A s := by
  unfold refusalSid at ht
  simp only [refusalRequest, ht, hf]

theorem refusalRequest_ending {t : SendSt} (ht : findSend s job (refusalSid s src k) = some t)
    (he : t.closing = true ∨ exhausted t = true) : refusalRequest job src k choice reason expert s = countFn t.fn 0x2A s := by
  unfold refusalSid at ht
  simp only [refusalRequest, ht, if_pos (Bool.or_eq_true_iff.2 he)]

end Refusal

/-! ### LOCAL_CHIME_REQUEST (R223) -/

theorem exec_localChimeRequest (f : Fn) (c : W16) (cls : BitVec 4) (fp : BitVec 3) (k : ChimePay) (s : State) :
    exec (.localChimeRequest f c cls fp k) s = .next (atPort f (.localChimeRequest f c cls fp k) (localChime f c cls fp k) s) := rfl

/-- A well-formed local chime that finds room joins the snare of its fabric port as the latest entry. -/
theorem localChime_joins {cls : BitVec 4} {k : ChimePay} {s : State} {fp : BitVec 3} (hcls : cls = 0 ∨ cls = 2 ∨ cls = 3)
    (hok : chimeOk k = true) (hroom : fabricEntries s fp.toNat < Config.fabricSnare) (f : Fn) (c : W16) :
    ∃ e, e.fn = f ∧ e.ctx = c ∧ e.fport = fp ∧ e.sigs = k.sigs ∧
      localChime f c cls fp k s = { s with localSnare := s.localSnare ++ [e] } := by
  have hform : ¬ ((!(cls == 0 || cls == 2 || cls == 3) || !chimeOk k) = true) := by
    rw [hok]
    rcases hcls with hc | hc | hc <;> rw [hc] <;> decide
  unfold localChime
  rw [if_neg hform, if_neg (Nat.not_le.2 hroom)]
  exact ⟨_, rfl, rfl, rfl, rfl, rfl⟩

/-! ### MEMBER_POOL_REQUEST (R261) -/

theorem exec_memberPoolRequest (q : PoolReq) (keeper : BitVec 12) (ord ret : BitVec 4) (s : State) :
    exec (.memberPoolRequest q keeper ord ret) s =
      .next (settle (atPort q.fn (.memberPoolRequest q keeper ord ret) (memberPool q keeper ord ret) s)) := rfl

/-- The pending request of a member's requester, toward the keeper, through a link port. -/
def pendingMember (q : PoolReq) (keeper : BitVec 12) (port : Fin 32) (s : State) : MemberSt :=
  { fn := q.fn, ctx := q.ctx, keeper := keeper, read := q.pop == 0x01, buffer := q.buffer, gen := genOf s q.fn, fp := port.val / 4 }

theorem memberPool_queued {q : PoolReq} {keeper : BitVec 12} {ord ret : BitVec 4} {s : State} {t : SendSt}
    (ht : streamFor s q.fn keeper 3 ord = some t)
    (hroom : (s.members.filter (fun e => e.2.fp == t.port.val / 4)).length < Config.memberTable)
    (hunits : unitsFor (poolBytes q ret (freeTag s)).length ≤ 32) :
    memberPool q keeper ord ret s = enqueue t.port
      (.seal t.job t.sid 0x06 (unitsFor (poolBytes q ret (freeTag s)).length) 0xFFFF 0 0 0 (poolBytes q ret (freeTag s)) q.ctx)
      { s with members := mapSet s.members (freeTag s).toNat (pendingMember q keeper t.port s), nextTag := freeTag s + 1 } := by
  have hfits : ¬ (decide (Config.memberTable ≤ (s.members.filter (fun e => e.2.fp == t.port.val / 4)).length) ||
      decide (32 < unitsFor (poolBytes q ret (freeTag s)).length)) = true := by
    rw [Bool.or_eq_true, decide_eq_true_eq, decide_eq_true_eq]
    omega
  simp only [memberPool, ht, if_neg hfits]
  rfl

/-! ### LOCAL_POOL_REQUEST (R262) -/

theorem exec_localPoolRequest (q : PoolReq) (s : State) :
    exec (.localPoolRequest q) s = .next (settle (atPort q.fn (.localPoolRequest q) (localPool q) s)) := rfl

section LocalPool

variable {q : PoolReq} {s : State} {job : W16}
  (hshape : poolShapeOk q.pop q.redOp q.redFormat true q.offset.toNat q.length.toNat = true) (hjob : (fnOf s q.fn).job = some job)
include hshape hjob

theorem localPool_refused {st : W16} {d : W32} (h : admitRegion s job q.regionId q.offset.toNat q.length.toNat = .inl (st, d)) :
    localPool q s = emit (.fabricDone q.fn q.ctx st []) s := by
  simp only [localPool, hshape, hjob, h]
  rfl

theorem localPool_admitted {k : Nat} (h : admitRegion s job q.regionId q.offset.toNat q.length.toNat = .inr k) :
    localPool q s = poolPump (addJob k (.localReq q.fn q.ctx (genOf s q.fn)) (poolKind q.pop q.redOp q.redFormat) q.offset.toNat
      q.length.toNat (padTo q.length.toNat (q.data.take q.length.toNat)) s).2 := by
  simp only [localPool, hshape, hjob, h]
  rfl

end LocalPool

end Sys2Proof.Machine
end

section
/-! SUPPORT. The statement on refusals and on local requests. -/
namespace Sys2Proof.Machine

/-- Settles O25: a refusal follows the stream its token names; where its port serves a local request, the row is the request's own
effect. -/
theorem refusalsAndLocalRequests : Obligations.RefusalsAndLocalRequests := by
  intro s
  refine ⟨fun hs job src k choice reason expert => ⟨fun t ht hc he => ?opened, fun f ht hf => ?noStream, fun t ht he => ?ending⟩,
    fun f c cls fp k hp hcls hok hroom => ?chime, fun q keeper ord ret t hp ht hroom hunits => ?member,
    fun q job hp hshape hjob => ⟨fun st d h => ?refused, fun k h => ?admitted⟩⟩
  case opened => rw [exec_refusalRequest hs, refusalRequest_open choice reason expert ht hc he]; rfl
  case noStream => rw [exec_refusalRequest hs, refusalRequest_none choice reason expert ht hf]
  case ending => rw [exec_refusalRequest hs, refusalRequest_ending choice reason expert ht he]
  case chime =>
    obtain ⟨e, hfn, hctx, hport, hsigs, hjoins⟩ := localChime_joins hcls hok hroom f c
    exact ⟨e, hfn, hctx, hport, hsigs, by rw [exec_localChimeRequest, atPort_serves _ _ hp, hjoins]⟩
  case member =>
    exact ⟨pendingMember q keeper t.port s, rfl, rfl, rfl, rfl, rfl,
      by rw [exec_memberPoolRequest, atPort_serves _ _ hp, memberPool_queued ht hroom hunits]⟩
  case refused => rw [exec_localPoolRequest, atPort_serves _ _ hp, localPool_refused hshape hjob h]
  case admitted => rw [exec_localPoolRequest, atPort_serves _ _ hp, localPool_admitted hshape hjob h]

end Sys2Proof.Machine
end

section
/-! SUPPORT. REGION_CREATE (R244, R277, R280): its count, the key that it places under a reserved KID, the table entry and the ALLOC that
follow. -/
namespace Sys2Proof.Machine

/-! ### A reservation and what keys then read as (R106, R121) -/

theorem slotTaken_of_pickSlot {s : State} {n b sl : Nat} (h : pickSlot s n b = some sl) : slotTaken s sl = false := by
  induction n generalizing b with
  | zero => cases h
  | succ n ih =>
    simp only [pickSlot] at h
    split at h
    · next k hk =>
      cases h
      split at hk
      · obtain ⟨hfree, -⟩ := firstFree_spec _ _ _ _ hk
        exact hfree
      · cases hk
    · exact ih h

/-- A slot that is free holds no key. -/
theorem slots_of_freeSlot {s : State} {sl : Nat} (h : freeSlot s = some sl) : mapFind s.ks.slots sl = none := by
  have ht := slotTaken_of_pickSlot h
  rw [slotTaken, Bool.or_eq_false_iff] at ht
  obtain ⟨hempty, -⟩ := ht
  simpa using hempty

/-- A reservation enters an UNALLOCATED KID, reserved, with an empty slot. -/
theorem reserveKid_spec (f : Fn) {s : State} (h : slotCheck s = none) :
    mapFind s.ks.kids (reserveKid f s).1.toNat = none ∧
    ∃ sl lk lb, mapFind s.ks.slots sl = none ∧ (reserveKid f s).2 = { s with ks := { s.ks with
      kids := mapSet s.ks.kids (reserveKid f s).1.toNat { st := .reserved f, slot := sl, owner := some f }
      lastKid := lk, lastBank := lb } } := by
  obtain ⟨sl, k, hs, hk⟩ := slotCheck_none s h
  obtain ⟨hfree, hnum⟩ := freeKid_spec s k hk
  simp only [reserveKid, hs, hk, hnum]
  exact ⟨hfree, sl, _, _, slots_of_freeSlot hs, rfl⟩

/-- A reservation changes no key: the KID that it takes mapped to none, and its slot holds none. -/
theorem slotOf_reserveKid (f : Fn) {s : State} (h : slotCheck s = none) (kid : W16) : slotOf (reserveKid f s).2 kid = slotOf s kid := by
  obtain ⟨hfree, sl, lk, lb, hempty, hs⟩ := reserveKid_spec f h
  rw [hs]
  by_cases hk : kid.toNat = (reserveKid f s).1.toNat
  · simp [slotOf, hk, hfree, hempty]
  · simp [slotOf, mapFind_mapSet_ne _ _ _ _ hk]

theorem jmkOf_reserveKid (f g : Fn) {s : State} (h : slotCheck s = none) : jmkOf (reserveKid f s).2 g = jmkOf s g := by
  obtain ⟨ks, hks⟩ := reserveKid_frame f s
  have hfn : fnOf (reserveKid f s).2 g = fnOf s g := by rw [hks]; rfl
  rw [jmkOf, jmkOf, keyOf, keyOf, hfn, slotOf_reserveKid f h]

/-- A key placed under the KID just reserved is the one that the KID maps to. -/
theorem slotOf_placeKey_reserveKid (f : Fn) (x : SlotSt) {s : State} (h : slotCheck s = none) :
    slotOf (placeKey (reserveKid f s).1 x (reserveKid f s).2) (reserveKid f s).1 = some { x with kid := (reserveKid f s).1 } := by
  obtain ⟨-, sl, lk, lb, -, hs⟩ := reserveKid_spec f h
  rw [hs]
  simp [placeKey, slotOf]

/-! ### The count of creations (R244) -/

theorem madeBefore_countMade (job : W16) (rid : BitVec 40) (s : State) :
    madeBefore (countMade job rid s) job rid = madeBefore s job rid + 1 := by
  have hgone : (s.made.filter (fun m => !(m.1 == job && m.2.1 == rid))).find? (fun m => m.1 == job && m.2.1 == rid) = none := by
    rw [List.find?_eq_none]
    intro m hm
    rw [Bool.not_eq_true, ← Bool.not_eq_true']
    exact (List.mem_filter.1 hm).2
  rw [madeBefore, countMade, List.find?_append, hgone]
  simp

/-! ### The parts of REGION_CREATE -/

theorem exec_regionCreate (h : CmdHdr) (regionId size : W64) (home : W16) (engine : Byte) (s : State) :
    exec (.regionCreate h regionId size home engine) s =
      .next (runRow (regionCreateRow h regionId size home engine) (startRegion regionId size home engine) s) := rfl

/-- EPOCH of the region's next creation (R244). -/
def regionEpoch (job : W16) (rid : BitVec 40) (s : State) : W32 := BitVec.ofNat 32 (madeBefore s job rid * 65536 + s.pkg.boot)

/-- The slot that REGION_CREATE fills: the key of the region, or of the directory (R244, R280). -/
def regionSlot (rid : BitVec 40) (p : InProg) (s : State) : SlotSt :=
  let job := jobOf s p.fn
  let key := if rid == dirRid then directoryKey (jmkOf s p.fn) job s.fab.id
    else regionKey (jmkOf s p.fn) rid (regionEpoch job rid s) s.fab.id
  { mkSlot key (if rid == dirRid then .directory else .region) usePool p.fn job p.ctx p.ctxGen with
    epoch := regionEpoch job rid s, subject := if rid == dirRid then s.fab.id.setWidth 40 else rid, parent := (fnOf s p.fn).jmkKid }

/-- The KID that REGION_CREATE reserves, and the state once the creation is counted and the key placed. -/
def regionKeyed (rid : BitVec 40) (p : InProg) (s : State) : W16 × State :=
  let k := reserveKid p.fn (countMade (jobOf s p.fn) rid s)
  (k.1, placeKey k.1 (regionSlot rid p s) k.2)

/-- The table entry of a region in creation (R277, R280). -/
def createdRegion (rid : BitVec 40) (size : W64) (home : W16) (e : Nat) (kid : W16) (p : InProg) (s : State) : RegionSt :=
  let job := jobOf s p.fn
  newRegion p.fn job rid (if rid == dirRid then dirHomeRid s else rid) p.ctx p.ctxGen (regionEpoch job rid s) s.fab.id size.toNat
    (home.setWidth 12) e kid .creating (if rid == dirRid then s.pkg.boot * 2 ^ 48 + madeBefore s job rid * 2 ^ 40 else 0) 0 0x20

/-- A region takes the next number of the region tables. -/
def enterRegion (r : RegionSt) (s : State) : State :=
  { s with regions := mapSet s.regions s.nextRegion r, nextRegion := s.nextRegion + 1, opens := s.opens + 1 }

/-- The ALLOC of a region to its home (R254, R277). -/
def allocExch (key : Nat) (r : RegionSt) (size : W64) (p : InProg) : ExchSt :=
  { exchFor key r 0x01 [] with arg := size, cmd := some (p.fn, p.idx) }

/-- The key's placing changes the count of creations and the key store alone. -/
theorem regionKeyed_frame (rid : BitVec 40) (p : InProg) (s : State) :
    ∃ ks, (regionKeyed rid p s).2 = { countMade (jobOf s p.fn) rid s with ks := ks } := by
  obtain ⟨ks, hks⟩ := reserveKid_frame p.fn (countMade (jobOf s p.fn) rid s)
  obtain ⟨l, hl⟩ := placeKey_frame (regionKeyed rid p s).1 (regionSlot rid p s) (reserveKid p.fn (countMade (jobOf s p.fn) rid s)).2
  exact ⟨{ ks with slots := l }, hl.trans (by rw [hks])⟩

theorem nextRegion_regionKeyed (rid : BitVec 40) (p : InProg) (s : State) : (regionKeyed rid p s).2.nextRegion = s.nextRegion := by
  obtain ⟨ks, hks⟩ := regionKeyed_frame rid p s
  rw [hks]; rfl

theorem madeBefore_enterRegion (r : RegionSt) (rid : BitVec 40) (p : InProg) (s : State) :
    madeBefore (enterRegion r (regionKeyed rid p s).2) (jobOf s p.fn) rid = madeBefore s (jobOf s p.fn) rid + 1 := by
  obtain ⟨ks, hks⟩ := regionKeyed_frame rid p s
  rw [hks]
  exact madeBefore_countMade ..

/-- What an admitted REGION_CREATE does: a key under a reserved KID, an entry CREATING, and ALLOC, which the command waits for. -/
theorem startRegion_eq {regionId size : W64} {home : W16} {engine : Byte} {p : InProg} {s : State} {e : Nat}
    (he : pickEngine s engine = some e) (hslot : slotCheck s = none) : startRegion regionId size home engine p s =
      let k := regionKeyed (ridOf regionId) p s
      let r := createdRegion (ridOf regionId) size home e k.1 p s
      let w := enterRegion r k.2
      goOn p { xids := [w.nextXid], peer := true } (.regionCreate s.nextRegion k.1)
        (newExch (allocExch s.nextRegion r size p) [] [] [] w).2 := by
  have hjmk : jmkOf (reserveKid p.fn (countMade (jobOf s p.fn) (ridOf regionId) s)).2 p.fn = jmkOf s p.fn :=
    jmkOf_reserveKid p.fn p.fn (s := countMade (jobOf s p.fn) (ridOf regionId) s) hslot
  obtain ⟨ks, hks⟩ := reserveKid_frame p.fn (countMade (jobOf s p.fn) (ridOf regionId) s)
  have hfn : fnOf (reserveKid p.fn (countMade (jobOf s p.fn) (ridOf regionId) s)).2 p.fn = fnOf s p.fn := by rw [hks]; rfl
  simp only [startRegion, he, hjmk, hfn, ← nextRegion_regionKeyed (ridOf regionId) p s]
  rfl

end Sys2Proof.Machine
end

section
/-! SUPPORT. The statement on REGION_CREATE. -/
namespace Sys2Proof.Machine

/-- Settles O13: `w` is the state in which the region, its key under the reserved KID and its count stand, and ALLOC alone is to come. -/
theorem regionCreateAllocates : Obligations.RegionCreateAllocates := by
  intro s h p regionId size home engine a
  obtain ⟨e, he⟩ := pickEngine_of_checks (a.unit _ (List.mem_singleton.2 rfl)) (a.busy _ (List.mem_singleton.2 rfl))
  have hslot : slotCheck s = none := a.slots _ (by simp [regionCreateRow, regionChecks])
  have hslot' : slotCheck (countMade (jobOf s p.fn) (ridOf regionId) s) = none := hslot
  obtain ⟨hfree, -⟩ := reserveKid_spec p.fn hslot'
  let k := regionKeyed (ridOf regionId) p s
  let r := createdRegion (ridOf regionId) size home e k.1 p s
  have hnext : k.2.nextRegion = s.nextRegion := nextRegion_regionKeyed ..
  refine ⟨enterRegion r k.2, e, k.1, r, allocExch s.nextRegion r size p, ?row, he, hfree,
    madeBefore_enterRegion r _ p s, congrArg (· + 1) hnext, ?entry, rfl, rfl, rfl, rfl, rfl, rfl, rfl, rfl, rfl, rfl, ?base, rfl, rfl, rfl,
    rfl, rfl, _, slotOf_placeKey_reserveKid p.fn _ hslot', rfl, rfl, ?key⟩
  case row => rw [exec_regionCreate, runRow_admitted a, startRegion_eq he hslot]
  case entry => rw [enterRegion, hnext]; exact mapFind_mapSet_self ..
  case base => simp [r, createdRegion, newRegion]
  case key => simp [regionSlot, mkSlot]; rfl

end Sys2Proof.Machine
end

section
/-! SUPPORT. REGION_FREE, KEEPER_HANDOVER and REDUCE (R276, R278, R279): the region that an admitted command names, the commands' first
parts, and the handover's time limit. -/
namespace Sys2Proof.Machine

theorem exec_regionFree (h : CmdHdr) (rid : W64) (s : State) :
    exec (.regionFree h rid) s = .next (runRow (regionFreeRow h rid) (startFree rid) s) := rfl
theorem exec_keeperHandover (h : CmdHdr) (rid : W64) (nk : W16) (s : State) :
    exec (.keeperHandover h rid nk) s = .next (runRow (keeperHandoverRow h rid nk) (startHandover rid nk) s) := rfl
theorem exec_reduce (h : CmdHdr) (rid : W64) (op fmt : Byte) (off : W64) (len : W32) (a : W64) (src : Fetched (List Byte)) (s : State) :
    exec (.reduce h rid op fmt off len a src) s =
      .next (runRow (reduceRow h rid op fmt off len a) (startReduce rid op fmt off len a src) s) := rfl
theorem exec_handoverTimeout {s : State} (hs : serving s = true) (f : Fn) (i : W32) :
    exec (.handoverTimeout f i) s = .next (handoverTimeout f i s) := congrArg Host.Outcome.next (whenLive_live _ _ hs)

/-! ### What admission gives -/

/-- REGION_FREE names a region of the keeper's table. -/
theorem regionNamed_of_regionFree {s : State} {h : CmdHdr} {rid : W64} {p : InProg} (a : Admitted s (regionFreeRow h rid) p) :
    ∃ k r, regionNamed s p.fn rid = some k ∧ regionAt s k = some r := by
  have hstate := a.state
  rw [a.fn_eq]
  simp only [regionFreeRow, freeChecks] at hstate
  split at hstate
  · simp at hstate
  · next k hk =>
    split at hstate
    · simp at hstate
    · next r hr => exact ⟨k, r, hk, hr⟩

/-- So does KEEPER_HANDOVER. -/
theorem regionNamed_of_keeperHandover {s : State} {h : CmdHdr} {rid : W64} {nk : W16} {p : InProg}
    (a : Admitted s (keeperHandoverRow h rid nk) p) : ∃ k, regionNamed s p.fn rid = some k := by
  have hstate := a.state
  rw [a.fn_eq]
  cases hk : regionNamed s h.fn rid with
  | some k => exact ⟨k, hk⟩
  | none => simp [keeperHandoverRow, handoverChecks, hk] at hstate

/-- So does REDUCE. -/
theorem regionNamed_of_reduce {s : State} {h : CmdHdr} {rid : W64} {op fmt : Byte} {off : W64} {len : W32} {a : W64} {p : InProg}
    (ad : Admitted s (reduceRow h rid op fmt off len a) p) : ∃ k r, regionNamed s p.fn rid = some k ∧ regionAt s k = some r := by
  have hstate := ad.state
  rw [ad.fn_eq]
  cases hk : regionNamed s h.fn rid with
  | none => simp [reduceRow, reduceChecks, hk] at hstate
  | some k =>
    cases hr : regionAt s k with
    | none => simp [reduceRow, reduceChecks, hk, hr] at hstate
    | some r => exact ⟨k, r, hk, hr⟩

/-! ### First parts -/

theorem startFree_eq {rid : W64} {p : InProg} {s : State} {k : Nat} {r : RegionSt} (hk : regionNamed s p.fn rid = some k)
    (hr : regionAt s k = some r) : startFree rid p s = goOn p { kids := [r.kid] } (.regionFree k) (beginFree 0x21 k s) := by
  simp only [startFree, hk, hr]

theorem startHandover_eq {rid : W64} {p : InProg} {s : State} {k : Nat} (nk : W16) (hk : regionNamed s p.fn rid = some k) :
    startHandover rid nk p s = goOn p {} (.handover k (nk.setWidth 12) 0)
      (regionMod k (fun r => { r with state := .handover, opcode := 0x22 }) s) := by
  simp only [startHandover, hk]

/-- Lines that a REDUCE's range meets. -/
def reduceLines (off : W64) (len : W32) : Nat := (off.toNat + len.toNat + 255) / 256 - off.toNat / 256

section Reduce

variable {rid : W64} (op fmt : Byte) {off : W64} {len : W32} (a : W64) (src : Fetched (List Byte)) {p : InProg} {s : State} {k : Nat}
  {r : RegionSt} (hk : regionNamed s p.fn rid = some k) (hr : regionAt s k = some r)
include hk hr

theorem startReduce_lost (hl : r.state = .lost) :
    startReduce rid op fmt off len a src p s = complete p stPeerLost (r.home.setWidth 32) 0 s := by
  simp only [startReduce, hk, hr, if_pos hl]

variable (hl : r.state ≠ .lost)
include hl

theorem startReduce_empty (hn : len = 0) : startReduce rid op fmt off len a src p s = complete p stOk 0 0 s := by
  simp only [startReduce, hk, hr, if_neg hl, if_pos hn]

variable (hn : len ≠ 0)
include hn

theorem startReduce_fenced {i : Nat} (hf : r.firstFenced (off.toNat / 256) (reduceLines off len) = some i) :
    startReduce rid op fmt off len a src p s = complete p stPoolFenced (BitVec.ofNat 32 i) 0 s := by
  unfold reduceLines at hf
  simp only [startReduce, hk, hr, if_neg hl, if_neg hn, hf]

variable (hf : r.firstFenced (off.toNat / 256) (reduceLines off len) = none)
include hf

theorem startReduce_unread : startReduce rid op fmt off len a .failed p s = complete p stDmaError 0 0 s := by
  unfold reduceLines at hf
  simp only [startReduce, hk, hr, if_neg hl, if_neg hn, hf]

theorem startReduce_walled (d : List Byte) (hw : fwAllows s .engine p.fn a.toNat len.toNat false = false) :
    startReduce rid op fmt off len a (.ok d) p s = complete p stDmaError 0 0 (countRefused p.fn a.toNat len.toNat s) := by
  unfold reduceLines at hf
  simp only [startReduce, hk, hr, if_neg hl, if_neg hn, hf, hw]
  rfl

theorem startReduce_applied (d : List Byte) (hw : fwAllows s .engine p.fn a.toNat len.toNat false = true) :
    startReduce rid op fmt off len a (.ok d) p s =
      let j := addParts p k (.reduce op fmt)
        (reduceParts (reduceLines off len / 31 + 2) off.toNat (padTo len.toNat (d.take len.toNat))) [] s
      poolPump (goOn p { jobs := j.1 } (.reduce j.1) j.2) := by
  unfold reduceLines at hf
  simp only [startReduce, hk, hr, if_neg hl, if_neg hn, hf, hw]
  rfl

end Reduce

/-! ### HANDOVER_TIMEOUT (R279) -/

/-- The exchanges that a command has begun are forgotten. -/
def withoutExchOf (f : Fn) (i : W32) (s : State) : State := { s with exch := s.exch.filter (fun e => e.2.cmd != some (f, i)) }

/-- Only at steps 3 and 4, where an answer of the new keeper or of the home is awaited, is there a limit. -/
theorem handoverTimeout_eq {s : State} {f : Fn} {i : W32} {q : InProg} {k : Nat} {nk : BitVec 12} {step : Nat}
    (hq : findProg s f i = some q) (ha : q.act = .handover k nk step) : handoverTimeout f i s =
      if step = 1 ∨ step = 2 then settle (complete q stTimedOut (nk.setWidth 32) 0 (regionMod k RegionSt.backLive
        (cancelOffer k nk step stTimedOut (nk.setWidth 32) (withoutExchOf f i s)))) else s := by
  simp only [handoverTimeout, hq, ha]
  rfl

end Sys2Proof.Machine
end

section
/-! SUPPORT. The statement on REGION_FREE, KEEPER_HANDOVER and REDUCE. -/
namespace Sys2Proof.Machine

/-- Settles O14: an admitted command names a region, and its row is its first part; REDUCE's cases are its conditions in their order. -/
theorem regionFreeHandoverReduce : Obligations.RegionFreeHandoverReduce := by
  intro s h p q
  refine ⟨fun rid a => ?free, fun rid nk a => ?handover, fun rid op fmt off len a src ad => ?reduce,
    fun hs f i k nk step hq ha => ?timeout⟩
  case free =>
    obtain ⟨k, r, hk, hr⟩ := regionNamed_of_regionFree a
    exact ⟨k, r, hk, hr, by rw [exec_regionFree, runRow_admitted a, startFree_eq hk hr]⟩
  case handover =>
    obtain ⟨k, hk⟩ := regionNamed_of_keeperHandover a
    exact ⟨k, hk, by rw [exec_keeperHandover, runRow_admitted a, startHandover_eq nk hk]⟩
  case reduce =>
    obtain ⟨k, r, hk, hr⟩ := regionNamed_of_reduce ad
    rw [exec_reduce, runRow_admitted ad]
    refine ⟨k, r, hk, hr, fun hl => ?lost, fun hl hn => ?empty, fun i hl hn hf => ?fenced, fun hl hn hf hsrc => ?unread,
      fun d hl hn hf hsrc hw => ?walled, fun d hl hn hf hsrc hw => ⟨_, _, rfl, ?applied⟩⟩
    case lost => rw [startReduce_lost op fmt a src hk hr hl]
    case empty => rw [startReduce_empty op fmt a src hk hr hl hn]
    case fenced => rw [startReduce_fenced op fmt a src hk hr hl hn hf]
    case unread => rw [hsrc, startReduce_unread op fmt a hk hr hl hn hf]
    case walled => rw [hsrc, startReduce_walled op fmt a hk hr hl hn hf d hw]
    case applied => rw [hsrc, startReduce_applied op fmt a hk hr hl hn hf d hw]; rfl
  case timeout => rw [exec_handoverTimeout hs, handoverTimeout_eq hq ha]; rfl

end Sys2Proof.Machine
end

section
/-! SUPPORT. A member's pool request at the keeper (R262, Table 09-11): its fields' check, and what its region's table then answers. -/
namespace Sys2Proof.Machine

/-- The fields of a request that its frame's form constrains: RSVD, RET_ORDINAL, REGION_ID, PSTAT, and LENGTH against its units. -/
def requestForm (h : SealHdr) (p : PoolPay) : Bool :=
  p.rsvdOk && decide (p.retOrdinal.toNat < 16) && decide (p.regionId.toNat < 2 ^ 40) && p.pstat == 0
    && (p.pop == 1 || decide (p.length.toNat + 32 ≤ 256 * h.units.toNat))

/-- Check 1 of Table 09-11. -/
def requestOk (h : SealHdr) (p : PoolPay) : Bool :=
  poolShapeOk p.pop p.redOp p.redFormat (requestForm h p) p.offset.toNat p.length.toNat

/-- The answer of a request that ends with a status alone. -/
def answerRequest (t : RecvSt) (p : PoolPay) (st : W16) (s : State) : State :=
  answerMember (sidSrc t.sid) t.job (p.retOrdinal.setWidth 4) p.ptag p.pop (p.regionId.setWidth 40) p.offset.toNat p.length.toNat st [] s

section Request

variable {t : RecvSt} {h : SealHdr} {p : PoolPay} {s : State}

theorem poolRequest_malformed (hok : requestOk h p = false) : poolRequest t h p s = answerRequest t p stMalformed s := by
  unfold requestOk requestForm at hok
  simp only [poolRequest, hok]
  rfl

variable (hok : requestOk h p = true)
include hok

theorem poolRequest_refused {st : W16} {d : W32}
    (ha : admitRegion s t.job (p.regionId.setWidth 40) p.offset.toNat p.length.toNat = .inl (st, d)) :
    poolRequest t h p s = answerRequest t p st s := by
  unfold requestOk requestForm at hok
  simp only [poolRequest, hok, ha]
  rfl

theorem poolRequest_admitted {k : Nat} (ha : admitRegion s t.job (p.regionId.setWidth 40) p.offset.toNat p.length.toNat = .inr k) :
    poolRequest t h p s = poolPump (addJob k (.member t.sid (sidSrc t.sid) t.job (p.retOrdinal.setWidth 4) p.ptag p.pop h.seq)
      (poolKind p.pop p.redOp p.redFormat) p.offset.toNat p.length.toNat (padTo p.length.toNat (p.data.take p.length.toNat)) s).2 := by
  unfold requestOk requestForm at hok
  simp only [poolRequest, hok, ha]
  rfl

end Request

/-- An admitted request is the latest of the pool's, waiting, with the next number. -/
theorem addJob_spec (k : Nat) (from_ : PoolFrom) (kind : PoolKind) (off len : Nat) (data : List Byte) (s : State) :
    ∃ j, (addJob k from_ kind off len data s).2 = { s with jobs := s.jobs ++ [j], nextJob := s.nextJob + 1 } ∧ j.id = s.nextJob ∧
      j.region = k ∧ j.from_ = from_ ∧ j.kind = kind ∧ j.offset = off ∧ j.length = len ∧ j.data = data :=
  ⟨_, rfl, rfl, rfl, rfl, rfl, rfl, rfl, rfl⟩

end Sys2Proof.Machine
end

section
/-! SUPPORT. The statement on a member's pool request at the keeper. -/
namespace Sys2Proof.Machine

/-- Settles O29: the three outcomes of Table 09-11's checks; an admitted request is one more job. -/
theorem keeperAnswersPoolRequests : Obligations.KeeperAnswersPoolRequests := by
  intro t h p s
  refine ⟨fun hbad => poolRequest_malformed hbad, fun hok => ⟨fun st d ha => poolRequest_refused hok ha, fun k ha => ?_⟩⟩
  obtain ⟨j, hu, hjob⟩ := addJob_spec k (.member t.sid (sidSrc t.sid) t.job (p.retOrdinal.setWidth 4) p.ptag p.pop h.seq)
    (poolKind p.pop p.redOp p.redFormat) p.offset.toNat p.length.toNat (padTo p.length.toNat (p.data.take p.length.toNat)) s
  exact ⟨_, j, poolRequest_admitted hok ha, hu, hjob⟩

end Sys2Proof.Machine
end

section
/-! SUPPORT. The stored items of a home (R251, R256): reads after writes, and the regions that a change leaves. -/
namespace Sys2Proof.Machine

/-- What stands at number `j` after items have been stored from `i` up. -/
theorem mapGet_storeItems {α : Type} [DecidableEq α] (d : α) (i j : Nat) (l : List α) (m : FMap α) :
    mapGet d (storeItems d i l m) j = if i ≤ j ∧ j < i + l.length then l.getD (j - i) d else mapGet d m j := by
  induction l generalizing i m with
  | nil =>
    rw [if_neg (by simp)]
    rfl
  | cons v l ih =>
    rw [storeItems, ih, mapGet_mapPut]
    rcases Nat.lt_trichotomy j i with hlt | rfl | hgt
    · rw [if_neg (by omega), if_neg (by omega), if_neg (by omega)]
    · rw [if_neg (by omega), if_pos rfl, if_pos (by simp), Nat.sub_self]
      rfl
    · have hrange : i + 1 ≤ j ∧ j < i + 1 + l.length ↔ i ≤ j ∧ j < i + (v :: l).length := by rw [List.length_cons]; omega
      obtain ⟨n, rfl⟩ := Nat.exists_eq_add_of_lt hgt
      simp only [hrange, if_neg (show ¬ i + n + 1 = i by omega), show i + n + 1 - i = n + 1 by omega,
        show i + n + 1 - (i + 1) = n by omega, List.getD_cons_succ]

theorem mapWfD_iff {α : Type} [DecidableEq α] (d : α) (m : FMap α) :
    mapWfD d m = true ↔ mapWf m = true ∧ ∀ e ∈ m, e.2 ≠ d := by
  simp [mapWfD]

/-- Storing an item keeps the table's canonical form. -/
theorem mapWfD_mapPut {α : Type} [DecidableEq α] (d : α) (m : FMap α) (k : Nat) (v : α) (h : mapWfD d m = true) :
    mapWfD d (mapPut d m k v) = true := by
  rw [mapWfD_iff] at h ⊢
  obtain ⟨hwf, hd⟩ := h
  unfold mapPut
  split
  · exact ⟨mapWf_mapErase m k hwf, fun e he => hd e (mem_mapErase m k e he)⟩
  · next hv =>
    refine ⟨mapWf_mapSet m k v hwf, fun e he => ?_⟩
    rcases mem_mapSet m k v e he with rfl | he
    · exact hv
    · exact hd e he

theorem mapWfD_storeItems {α : Type} [DecidableEq α] (d : α) (i : Nat) (l : List α) (m : FMap α) (h : mapWfD d m = true) :
    mapWfD d (storeItems d i l m) = true := by
  induction l generalizing i m with
  | nil => exact h
  | cons v l ih => exact ih (i + 1) _ (mapWfD_mapPut d m i v h)

section Others

variable {h : HomeHdr} {x : HomeSt} (hx : ¬ (x.job = h.jobId ∧ x.rid = h.regionId)) (s : State)
include hx

/-- Removing one stored region leaves every other. -/
theorem mem_homeDrop : x ∈ (homeDrop h s).homes ↔ x ∈ s.homes := by
  have hother : (!(x.job == h.jobId && x.rid == h.regionId)) = true := by
    rw [Bool.not_eq_true', Bool.eq_false_iff]
    simpa using hx
  rw [homeDrop, List.mem_filter]
  exact and_iff_left hother

/-- Changing one stored region, which keeps its job and id, leaves every other. -/
theorem mem_homeMod {g : HomeSt → HomeSt} (hg : ∀ y, (g y).job = y.job ∧ (g y).rid = y.rid) :
    x ∈ (homeMod h g s).homes ↔ x ∈ s.homes := by
  rw [homeMod, List.mem_map]
  constructor
  · rintro ⟨y, hy, he⟩
    split at he
    · next hm =>
      obtain ⟨hjob, hrid⟩ := hg y
      subst he
      exact absurd (by simpa [hjob, hrid] using hm) hx
    · exact he ▸ hy
  · intro hm
    exact ⟨x, hm, if_neg (by simpa using hx)⟩

end Others

end Sys2Proof.Machine
end

section
/-! SUPPORT. The statement on a home's stored items. -/
namespace Sys2Proof.Machine

/-- Settles O31: reads after writes by induction on the items, and the regions of other names one by one. -/
theorem storedItemsReadBack : Obligations.StoredItemsReadBack :=
  ⟨fun i j l m => mapGet_storeItems 0 i j l m, fun i l m hm => mapWfD_storeItems 0 i l m hm,
    fun _ _ s _ hx => ⟨mem_homeDrop hx s, fun hg => mem_homeMod hx s hg⟩⟩

end Sys2Proof.Machine
end

section
/-! SUPPORT. Requests at a home (R254 to R258, Tables 09-6 to 09-9): each row at the package it reaches, the checks that stored regions
share, and what each operation then makes of its region. -/
namespace Sys2Proof.Machine

/-! ### The rows' effects -/

/-- The state in which a request's row acts: its frame's credits returned. -/
def creditsBack (a : Arrival) (v : State) : State := returnCredits a.port a.hop.vc (frameCredits a.hop) v

section Rows

variable {a : Arrival} {h : HomeHdr} {s v : State} (hr : ReachesPackage s a v)
include hr

/-- A home's row, spelt and at the package that its frame reaches, is its own effect. -/
theorem exec_home_mine {c : Instr} {b : Bool} {g : State → State} (hexec : exec c s = .next (homeRow a b g s)) (hb : b = true) :
    exec c s = .next (settle (g (creditsBack a v))) := by
  rw [hexec, hb, homeRow, arrive_mine hr]; rfl

theorem exec_alloc_mine {size : W64} {depth : Byte} (hb : homeSpelt a h 0x01 (fun l => isAt l 0 (be 8 size.toNat ++ [depth])) = true) :
    exec (.alloc a h size depth) s = .next (settle (homeAlloc a h size depth (creditsBack a v))) :=
  exec_home_mine hr rfl hb

theorem exec_free_mine (hb : homeSpelt a h 0x02 (fun _ => true) = true) :
    exec (.free a h) s = .next (settle (homeFree a h (creditsBack a v))) :=
  exec_home_mine hr rfl hb

theorem exec_rebind_mine {nk : BitVec 12} (hb : homeSpelt a h 0x03 (fun l => isAt l 0 (be 2 nk.toNat)) = true) :
    exec (.rebind a h nk) s = .next (settle (homeRebind a h nk (creditsBack a v))) :=
  exec_home_mine hr rfl hb

theorem exec_readLines_mine (e : EccReport) (hb : homeSpelt a h 0x10 (fun _ => true) = true) :
    exec (.readLines a ⟨h, e⟩) s = .next (settle (homeReadLines a h e (creditsBack a v))) :=
  exec_home_mine hr rfl hb

theorem exec_writeLines_mine {ls : List (Line × W64)}
    (hb : homeSpelt a h 0x11 (fun l => isAt l 0 (lineUnits (ls.map (·.1)) (ls.map (·.2)))) = true) :
    exec (.writeLines a h ls) s = .next (settle (homeWriteLines a h ls (creditsBack a v))) :=
  exec_home_mine hr rfl hb

theorem exec_readNodes_mine {addrs : List W64} (e : EccReport)
    (hb : homeSpelt a h 0x12 (fun l => isAt l 0 (addrUnit (addrs.take h.count.toNat))) = true) :
    exec (.readNodes a ⟨h, e⟩ addrs) s = .next (settle (homeReadNodes a h addrs e (creditsBack a v))) :=
  exec_home_mine hr rfl hb

theorem exec_writeNodes_mine {ns : List (W64 × Node × W64)} (hb : homeSpelt a h 0x13 (fun l => isAt l 0
      (addrUnit (ns.map (·.1)) ++ nodeUnits ns.length (ns.map (fun z => nodeRecBytes z.2.1 z.2.2 false)))) = true) :
    exec (.writeNodes a h ns) s = .next (settle (homeWriteNodes a h ns (creditsBack a v))) :=
  exec_home_mine hr rfl hb

/-- A request of a reserved HOP comes in LEASE_RELEASE's row too. -/
theorem exec_leaseRelease_mine (hb : (homeSpelt a h 0x14 (fun _ => true) || homeSpelt a h h.hop (fun _ => reservedHop h.hop)) = true) :
    exec (.leaseRelease a h) s = .next (settle (if hasHome (creditsBack a v) && reservedHop h.hop then homeStatus a h 7 (creditsBack a v)
      else homeLeaseRelease a h (creditsBack a v))) :=
  exec_home_mine (g := fun w => if hasHome w && reservedHop h.hop then homeStatus a h 7 w else homeLeaseRelease a h w) hr rfl hb

end Rows

theorem hop_of_homeSpelt {a : Arrival} {h : HomeHdr} {op : Byte} {k : List Byte → Bool} (hb : homeSpelt a h op k = true) :
    h.hop = op := by
  simp only [homeSpelt, Bool.and_eq_true, beq_iff_eq] at hb
  obtain ⟨⟨⟨-, hop⟩, -⟩, -⟩ := hb
  exact hop

/-- A LEASE_RELEASE's own HOP is none of the reserved ones (Table 09-8). -/
theorem reservedHop_of_leaseRelease {a : Arrival} {h : HomeHdr} (hb : homeSpelt a h 0x14 (fun _ => true) = true) :
    reservedHop h.hop = false := by
  rw [hop_of_homeSpelt hb]; decide

theorem reservedHop_of_homeSpelt {a : Arrival} {h : HomeHdr} (hb : homeSpelt a h h.hop (fun _ => reservedHop h.hop) = true) :
    reservedHop h.hop = true := by
  rw [homeSpelt, Bool.and_eq_true] at hb
  obtain ⟨-, hres⟩ := hb
  exact hres

/-! ### ALLOC (R302) -/

/-- A region as ALLOC stores it: of the sender, at its place, with nothing written. -/
def allocated (a : Arrival) (h : HomeHdr) (size : W64) (depth : Byte) (b : Nat) : HomeSt :=
  { job := h.jobId, rid := h.regionId, keeper := sidSrc a.route, size := size.toNat, depth := depth.toNat, base := b,
    lines := [], lineMacs := [], nodes := [], nodeMacs := [], leases := [], waiting := [] }

theorem homeAlloc_stores {a : Arrival} {h : HomeHdr} {size : W64} {w : State} {b : Nat} (depth : Byte) (hh : hasHome w = true)
    (hs : homeShape h 1 false = true) (hn : homeOf w h = none) (hp : homePlace w size.toNat = some b) :
    homeAlloc a h size depth w =
      homeStatus a h 0 { w with homes := w.homes ++ [allocated a h size depth b], opens := w.opens + 1 } := by
  simp only [homeAlloc, hh, hs, hn, hp]
  rfl

/-! ### Operations on a stored region -/

section Stored

variable {a : Arrival} {h : HomeHdr} {w : State} {x : HomeSt}

theorem onHome_passes {max : Nat} {nodes : Bool} (hc : homeCheck w a h max nodes = .inr x) (g : HomeSt → State → State) :
    onHome a h max nodes g w = g x w := by
  simp only [onHome, hc]

theorem onHome_refused {max : Nat} {nodes : Bool} {st : Byte} (hc : homeCheck w a h max nodes = .inl st) (g : HomeSt → State → State) :
    onHome a h max nodes g w = homeStatus a h st w := by
  simp only [onHome, hc]

/-- The checks hand on the region that the header names. -/
theorem homeOf_of_homeCheck {max : Nat} {nodes : Bool} (hc : homeCheck w a h max nodes = .inr x) : homeOf w h = some x := by
  unfold homeCheck at hc
  split at hc
  · cases hc
  split at hc
  · cases hc
  split at hc
  · cases hc
  · next y hy =>
    split at hc
    · cases hc; exact hy
    · cases hc

theorem homeFree_stored (hc : homeCheck w a h 1 false = .inr x) :
    homeFree a h w = if x.leases = [] then homeStatus a h 0 (homeDrop h w) else homeStatus a h 6 w := by
  simp only [homeFree, onHome_passes hc, List.isEmpty_iff]

theorem homeRebind_stored (nk : BitVec 12) (hc : homeCheck w a h 1 false = .inr x) : homeRebind a h nk w =
    if x.leases = [] then homeStatus a h 0 (homeMod h (fun x => { x with keeper := nk }) w) else homeStatus a h 6 w := by
  simp only [homeRebind, onHome_passes hc, List.isEmpty_iff]

section Lines

variable (hc : homeCheck w a h 31 false = .inr x)
include hc

theorem homeReadLines_stored (e : EccReport) : homeReadLines a h e w =
    if linesOut x h then homeStatus a h 3 w else if h.hflags.getLsbD 0 then leaseLines a h e x w else serveLines a h e w :=
  onHome_passes hc _

/-- A read that takes no lease answers the items as they stand (R256). -/
theorem serveLines_stored (e : EccReport) : serveLines a h e w = homeReply a h 0
    (lineUnits ((homeLines h).map (mapGet 0 x.lines)) ((homeLines h).map (mapGet 0 x.lineMacs))) (bitMap e.lines) (bitMap e.macs)
    (BitVec.ofNat 32 e.ce) w := by
  simp only [serveLines, homeOf_of_homeCheck hc]
  rfl

/-- The lines and MACs that a WRITE_LINES brings, stored from its BASE_ITEM up. -/
def withLines (h : HomeHdr) (ls : List (Line × W64)) (x : HomeSt) : HomeSt :=
  { x with lines := storeItems 0 h.baseItem.toNat ((ls.take h.count.toNat).map (·.1)) x.lines
           lineMacs := storeItems 0 h.baseItem.toNat ((ls.take h.count.toNat).map (·.2)) x.lineMacs }

theorem homeWriteLines_stored (ls : List (Line × W64)) : homeWriteLines a h ls w =
    if linesOut x h then homeStatus a h 3 w
    else if h.hflags.getLsbD 1 then endLeases h (homeLines h) (homeStatus a h 0 (homeMod h (withLines h ls) w))
    else homeStatus a h 0 (homeMod h (withLines h ls) w) :=
  onHome_passes hc _

theorem homeLeaseRelease_stored : homeLeaseRelease a h w =
    if linesOut x h then homeStatus a h 3 w else endLeases h (homeLines h) (homeStatus a h 0 w) :=
  onHome_passes hc _

end Lines

/-- The record of a node of a list, as READ_NODES answers it, with the memory's UE flag (R256). -/
def nodeAnswer (x : HomeSt) (l : List W64) (e : EccReport) (i : Nat) : List Byte :=
  let key := nodeKey (addrLevel (l.getD i 0)) (addrIdx (l.getD i 0))
  nodeRecBytes (mapGet 0 x.nodes key) (mapGet 0 x.nodeMacs key) (e.nodes.contains i)

theorem homeReadNodes_stored (addrs : List W64) (e : EccReport) (hc : homeCheck w a h 31 true = .inr x) : homeReadNodes a h addrs e w =
    let l := addrs.take h.count.toNat
    if nodesOut x l then homeStatus a h 3 w
    else homeReply a h 0 (nodeUnits l.length ((List.range l.length).map (nodeAnswer x l e))) (bitMap (e.nodes.map (· / 3))) 0
      (BitVec.ofNat 32 e.ce) w :=
  onHome_passes hc _

/-- The records that a WRITE_NODES brings, each stored under its level and index. -/
def withNodes (l : List (W64 × Node × W64)) (x : HomeSt) : HomeSt :=
  { x with nodes := l.foldl (fun m z => mapPut 0 m (nodeKey (addrLevel z.1) (addrIdx z.1)) z.2.1) x.nodes
           nodeMacs := l.foldl (fun m z => mapPut 0 m (nodeKey (addrLevel z.1) (addrIdx z.1)) z.2.2) x.nodeMacs }

theorem homeWriteNodes_stored (ns : List (W64 × Node × W64)) (hc : homeCheck w a h 28 true = .inr x) : homeWriteNodes a h ns w =
    if nodesOut x ((ns.take h.count.toNat).map (·.1)) then homeStatus a h 3 w
    else homeStatus a h 0 (homeMod h (withNodes (ns.take h.count.toNat)) w) :=
  onHome_passes hc _

end Stored

end Sys2Proof.Machine
end

section
/-! SUPPORT. The statement on a home's requests. -/
namespace Sys2Proof.Machine

/-- Settles O30: at the package that its frame reaches, a row is its operation; on a region that the shared checks pass, each operation has
its own equation. -/
theorem homeStoresWhatKeepersWrite : Obligations.HomeStoresWhatKeepersWrite := by
  intro s v a h e hr w sp
  have hw : creditsBack a v = w := rfl
  refine ⟨fun size depth b hb hh hs hn hp => ?alloc, fun x hc => ⟨fun hb => ?free, fun nk hb => ?rebind⟩,
    fun x hc => ⟨fun hb => ⟨fun ho => ?readOut, fun ho hl => ?read, fun ho hl => ?leased⟩,
      fun ls hb => ⟨fun ho => ?writeOut, fun ho => ?write⟩, fun hb => ?release⟩,
    fun x addrs hc hb => ?readNodes, fun x ns hc hb => ?writeNodes, fun st hb hc => ?refused, fun hh hb => ?reserved⟩
  case alloc =>
    exact ⟨allocated a h size depth b, rfl, rfl, rfl, rfl, rfl, rfl, rfl, rfl,
      by rw [exec_alloc_mine hr hb, hw, homeAlloc_stores depth hh hs hn hp]⟩
  case free => rw [exec_free_mine hr hb, hw, homeFree_stored hc]
  case rebind => rw [exec_rebind_mine hr hb, hw, homeRebind_stored nk hc]
  case readOut => rw [exec_readLines_mine hr e hb, hw, homeReadLines_stored hc, if_pos ho]
  case read =>
    rw [exec_readLines_mine hr e hb, hw, homeReadLines_stored hc, if_neg (Bool.eq_false_iff.1 ho), if_neg (Bool.eq_false_iff.1 hl),
      serveLines_stored hc]
  case leased => rw [exec_readLines_mine hr e hb, hw, homeReadLines_stored hc, if_neg (Bool.eq_false_iff.1 ho), if_pos hl]
  case writeOut => rw [exec_writeLines_mine hr hb, hw, homeWriteLines_stored hc, if_pos ho]
  case write => rw [exec_writeLines_mine hr hb, hw, homeWriteLines_stored hc, if_neg (Bool.eq_false_iff.1 ho)]; rfl
  case release =>
    have hown : ¬ (hasHome w && reservedHop h.hop) = true := by simp [reservedHop_of_leaseRelease hb]
    rw [exec_leaseRelease_mine hr (Bool.or_eq_true_iff.2 (.inl hb)), hw, if_neg hown, homeLeaseRelease_stored hc]
  case readNodes => rw [exec_readNodes_mine hr e hb, hw, homeReadNodes_stored addrs e hc]; rfl
  case writeNodes => rw [exec_writeNodes_mine hr hb, hw, homeWriteNodes_stored ns hc]; rfl
  case refused => rw [exec_readLines_mine hr e hb, hw, homeReadLines, onHome_refused hc]
  case reserved =>
    rw [exec_leaseRelease_mine hr (Bool.or_eq_true_iff.2 (.inr hb)), hw,
      if_pos (Bool.and_eq_true_iff.2 ⟨hh, reservedHop_of_homeSpelt hb⟩)]

end Sys2Proof.Machine
end

section
/-! SUPPORT. Homes' answers at the keeper (R259, Table 09-21), the time limit of an exchange (R271), and the walker's rows (R252, R267). -/
namespace Sys2Proof.Machine

/-! ### HOME_RESPONSE -/

section Response

variable {a : Arrival} {h : HomeHdr} {r : HomeResp} {s v : State}

theorem exec_homeResponse_mine (hr : ReachesPackage s a v) (hb : respSpelt a h r = true) :
    exec (.homeResponse a h r) s = .next (settle (homeAnswer a h r v)) := exec_mine rfl hr hb

theorem homeAnswer_unnamed (hx : mapFind (creditsBack a v).exch h.xid.toNat = none) :
    homeAnswer a h r v = countPkg 0x12 (creditsBack a v) := by
  unfold creditsBack at hx ⊢
  simp only [homeAnswer, hx]

variable {x : ExchSt} (hx : mapFind (creditsBack a v).exch h.xid.toNat = some x)
include hx

theorem homeAnswer_late (hl : h.hop ≠ x.op ||| 0x80 ∨ sidSrc a.route ≠ x.home ∨ x.held = true) :
    homeAnswer a h r v = countPkg 0x12 (creditsBack a v) := by
  unfold creditsBack at hx ⊢
  simp only [homeAnswer, hx, if_pos hl]

/-- What an awaited response does to its exchange: its effect, or Table 09-21's action. -/
def exchEnded (h : HomeHdr) (r : HomeResp) (x : ExchSt) (s : State) : State :=
  if h.hstat = 0 then answered h.xid x r s else refused h.xid x h.hstat s

theorem homeAnswer_awaited (hop : h.hop = x.op ||| 0x80) (hsrc : sidSrc a.route = x.home) (hheld : x.held = false) :
    homeAnswer a h r v =
      poolPump (dropLeases x.region (exchEnded h r x (countPkgN 0x11 r.ceCount.toNat (creditsBack a v)))) := by
  have hl : ¬ (h.hop ≠ x.op ||| 0x80 ∨ sidSrc a.route ≠ x.home ∨ x.held = true) := by simp [hop, hsrc, hheld]
  unfold creditsBack at hx ⊢
  simp only [homeAnswer, hx, if_neg hl, exchEnded]

end Response

/-! ### HOME_EXCHANGE_TIMEOUT (R271) -/

theorem homeTimeout_ended {xid : W32} {s : State} (hx : mapFind s.exch xid.toNat = none) : homeTimeout xid s = s := by
  simp only [homeTimeout, hx]

theorem homeTimeout_open {xid : W32} {s : State} {x : ExchSt} (hx : mapFind s.exch xid.toNat = some x) :
    homeTimeout xid s = settle (poolPump (dropLeases x.region (noAnswer xid x s))) := by
  simp only [homeTimeout, hx]

/-! ### The walker (R252, R267) -/

/-- The walker's effect `g` on the region named, where the package keeps one of that name. -/
def onNamed (job : W16) (rid : BitVec 40) (g : Nat → State → State) (s : State) : State :=
  match regionKeyOf s job rid with
  | some k => settle (poolPump (g k s))
  | none => s

theorem onNamed_none {s : State} {job : W16} {rid : BitVec 40} (g : Nat → State → State) (hk : regionKeyOf s job rid = none) :
    onNamed job rid g s = s := by
  simp only [onNamed, hk]

theorem onNamed_some {s : State} {job : W16} {rid : BitVec 40} {k : Nat} (g : Nat → State → State)
    (hk : regionKeyOf s job rid = some k) : onNamed job rid g s = settle (poolPump (g k s)) := by
  simp only [onNamed, hk]

section Walker

variable {s : State} (hs : serving s = true) (job : W16) (rid : BitVec 40) (level index : Nat)
include hs

theorem exec_dirtyNodeWriteback : exec (.dirtyNodeWriteback job rid level index) s =
    .next (onNamed job rid (fun k => writeBack k level index) s) := congrArg Host.Outcome.next (whenLive_live _ _ hs)

theorem exec_overflowSweep : exec (.overflowSweep job rid level index) s =
    .next (onNamed job rid (fun k => sweepMod k level index (fun w => { w with started := true })) s) :=
  congrArg Host.Outcome.next (whenLive_live _ _ hs)

end Walker

end Sys2Proof.Machine
end

section
/-! SUPPORT. The statement on homes' answers at the keeper. -/
namespace Sys2Proof.Machine

/-- Settles O36: a response is late or awaited, an exchange timed out is open or has ended, and the walker's rows name a region or none. -/
theorem keeperTakesHomeAnswers : Obligations.KeeperTakesHomeAnswers := by
  intro s
  refine ⟨fun v a h r hr hb => ?response, fun hs => ⟨fun xid hx => ?ended, fun xid x hx => ?timeout,
    fun job rid level index hk => ⟨?noneWritten, ?noneSwept⟩, fun job rid level index k hk => ⟨?written, ?swept⟩⟩⟩
  case response =>
    intro w
    have hw : creditsBack a v = w := rfl
    rw [exec_homeResponse_mine hr hb]
    refine ⟨fun hx => ?unnamed, fun x hx => ⟨fun hl => ?late, fun hop hsrc hheld => ?awaited⟩⟩
    case unnamed => rw [homeAnswer_unnamed hx, hw]
    case late => rw [homeAnswer_late hx hl, hw]
    case awaited =>
      exact ⟨_, exchEnded h r x (countPkgN 0x11 r.ceCount.toNat w), by rw [homeAnswer_awaited hx hop hsrc hheld, hw], rfl,
        fun h0 => if_pos h0, fun h0 => if_neg h0⟩
  case ended => rw [exec_homeExchangeTimeout hs, homeTimeout_ended hx]
  case timeout => rw [exec_homeExchangeTimeout hs, homeTimeout_open hx]
  case noneWritten => rw [exec_dirtyNodeWriteback hs, onNamed_none _ hk]
  case noneSwept => rw [exec_overflowSweep hs, onNamed_none _ hk]
  case written => rw [exec_dirtyNodeWriteback hs, onNamed_some _ hk]
  case swept => rw [exec_overflowSweep hs, onNamed_some _ hk]

end Sys2Proof.Machine
end

section
/-! SUPPORT. The memory firewall (R292, Table 10-3): what an admitted and a refused access leave, and where an admitted access lies. -/
namespace Sys2Proof.Machine

/-! ### Ranges -/

theorem inside_iff {lo hi a n : Nat} : inside lo hi a n = true ↔ lo ≤ a ∧ a + max n 1 ≤ hi := decide_eq_true_iff

/-- Ranges that do not meet share no address. -/
theorem outside_of_not_meets {lo hi a b x : Nat} (h : meets lo hi a b = false) (hlo : lo ≤ x) (hhi : x < hi) : ¬ (a ≤ x ∧ x < b) := by
  have hdisjoint : ¬ max lo a < min hi b := of_decide_eq_false h
  omega

/-! ### What Table 10-3 admits -/

theorem admitted_not_blocked {c : CarveSt} {a n : Nat} (h : carveAdmits c a n = true) : c.state ≠ .blocked := by
  intro hb
  simp [carveAdmits, hb] at h

theorem admitted_open {c : CarveSt} {a n : Nat} (h : carveAdmits c a n = true) (ho : c.state = .open_) :
    c.base ≤ a ∧ a + max n 1 ≤ c.limit := by
  rw [carveAdmits, ho] at h
  exact inside_iff.1 h

theorem admitted_shrinking {c : CarveSt} {a n : Nat} (h : carveAdmits c a n = true) (hs : c.state = .shrinking) :
    c.keepLo ≤ a ∧ a + max n 1 ≤ c.keepHi := by
  rw [carveAdmits, hs] at h
  exact inside_iff.1 h

/-- A function reaches a range only in a stack set, through its carve-out there, and off the scrubber's ranges. -/
theorem carveOk_reach {s : State} {f : Fn} {a n : Nat} {engineRead : Bool} (h : carveOk s f a n engineRead = true) :
    scrubbing s a n = false ∧ ∃ k, setOf a = some k ∧ carveAdmits (carveAt s (carveKey f k)) a n = true := by
  unfold carveOk at h
  split at h
  · cases h
  · next k hk =>
    simp only [Bool.and_eq_true, Bool.not_eq_true'] at h
    obtain ⟨⟨hadmits, -⟩, hscrub⟩ := h
    exact ⟨hscrub, k, hk, hadmits⟩

/-- The compute requesters and the engines act for VFs alone, within their carve-outs. -/
theorem fwAllows_vf {s : State} {cls : ReqClass} {f : Fn} {a n : Nat} {w : Bool} (hc : cls = .compute ∨ cls = .engine)
    (h : fwAllows s cls f a n w = true) : f ≠ .pf ∧ ∃ engineRead, carveOk s f a n engineRead = true := by
  rcases hc with rfl | rfl
  all_goals
    simp only [fwAllows, Bool.and_eq_true, bne_iff_ne] at h
    exact ⟨h.1, _, h.2⟩

/-! ### FIREWALL_ACCESS and CHECKER_ACCESS_DONE -/

theorem exec_firewallAccess (m : MemAccess) (s : State) : exec (.firewallAccess m) s = .next (firewallAccess m s) := rfl
theorem exec_checkerAccessDone (id : Nat) (s : State) :
    exec (.checkerAccessDone id) s = .next (settle { s with accesses := mapErase s.accesses id }) := rfl

/-- An admitted write marks its segments; a read marks none. -/
def markAccess (m : MemAccess) (s : State) : State := if m.write then markWrite m.fn m.addr.toNat m.len s else s

theorem markAccess_frame (m : MemAccess) (s : State) : markAccess m s = { s with fns := (markAccess m s).fns } := by
  unfold markAccess
  split
  · exact markWrite_frame ..
  · rfl

/-- An access in flight, as its checker knows it. -/
def accessOf (m : MemAccess) (s : State) : AccSt :=
  { fn := m.fn.key, addr := m.addr.toNat, len := m.len, obj := if m.cls = .engine then objCovering s m.fn m.addr.toNat m.len else none }

/-- The function that a refusal counts for: the debug master's count for the PF. -/
def refusedFor (m : MemAccess) : Fn := if m.cls = .debugMaster then .pf else m.fn

section Access

variable {s : State} {m : MemAccess} (hs : serving s = true) (hid : mapFind s.accesses m.id = none)
include hs hid

theorem firewallAccess_admitted (ha : fwAllows s m.cls m.fn m.addr.toNat m.len m.write = true) : firewallAccess m s =
    emit (.accessOk m.id) { markAccess m s with
      accesses := mapSet (markAccess m s).accesses m.id (accessOf m (markAccess m s)) } := by
  simp [firewallAccess, hs, hid, ha, markAccess, accessOf]

theorem firewallAccess_refused (ha : fwAllows s m.cls m.fn m.addr.toNat m.len m.write = false) : firewallAccess m s =
    emit (.accessRefused m.id) (countRefused (refusedFor m) m.addr.toNat m.len s) := by
  simp [firewallAccess, hs, hid, ha, refusedFor]

end Access

/-- A refusal changes counters alone (R361). -/
theorem countRefused_frame (f : Fn) (a n : Nat) (s : State) : countRefused f a n s = { s with tabor := (countRefused f a n s).tabor } := rfl

end Sys2Proof.Machine
end

section
/-! SUPPORT. The statement on the memory firewall. -/
namespace Sys2Proof.Machine

/-- Settles O22: an access is admitted or refused as Table 10-3 says; a compute or engine access is admitted by its own function's
carve-out, and what does not meet that carve-out holds none of its bytes. -/
theorem firewallIsolatesFunctions : Obligations.FirewallIsolatesFunctions := by
  intro s m
  refine ⟨fun hs hid => ⟨firewallAccess m s, exec_firewallAccess m s, fun ha => ?admitted, fun ha => ?refused⟩,
    fun f g cls a n w hc ha => ?isolated, fun id => exec_checkerAccessDone id s⟩
  case admitted =>
    rw [firewallAccess_admitted hs hid ha, markAccess_frame]
    exact ⟨rfl, ⟨_, mapFind_mapSet_self .., rfl, rfl⟩, rfl⟩
  case refused =>
    rw [firewallAccess_refused hs hid ha, countRefused_frame]
    exact ⟨rfl, rfl, rfl⟩
  case isolated =>
    obtain ⟨hf, _, hok⟩ := fwAllows_vf hc ha
    obtain ⟨hscrub, k, hk, hin⟩ := carveOk_reach hok
    refine ⟨hf, hscrub, k, hk, admitted_not_blocked hin, admitted_shrinking hin, fun ho => ?_⟩
    obtain ⟨hlo, hhi⟩ := admitted_open hin ho
    exact ⟨hlo, hhi, fun hm x hx hx' => outside_of_not_meets hm (Nat.le_trans hlo hx) (Nat.lt_of_lt_of_le hx' hhi)⟩

end Sys2Proof.Machine
end

section
/-! SUPPORT. The carve-out table (R293 to R296): one entry's change, the staged changes of ranges, blocks and reopenings, and the commands
and boundaries that stage and apply them. -/
namespace Sys2Proof.Machine

/-! ### One entry of the table -/

theorem carveAt_carveMod (k j : Nat) (g : CarveSt → CarveSt) (s : State) :
    carveAt (carveMod k g s) j = if j = k then g (carveAt s k) else carveAt s j := mapGet_mapPut ..

@[simp] theorem carveAt_carveMod_self (k : Nat) (g : CarveSt → CarveSt) (s : State) : carveAt (carveMod k g s) k = g (carveAt s k) := by
  rw [carveAt_carveMod, if_pos rfl]

theorem carveAt_carveMod_ne {k j : Nat} (h : j ≠ k) (g : CarveSt → CarveSt) (s : State) :
    carveAt (carveMod k g s) j = carveAt s j := by
  rw [carveAt_carveMod, if_neg h]

@[simp] theorem carveAt_toScrubber (op : W32) (c : Option Nat) (l : List (Nat × Nat)) (s : State) (k : Nat) :
    carveAt (toScrubber op c l s) k = carveAt s k := rfl

/-- An entry that holds a range and is to be blocked is blocked (R164 step 4). -/
theorem state_enterBlocked {k : Nat} {s : State} (h : (carveAt s k).base ≠ (carveAt s k).limit) :
    (carveAt (enterBlocked k s) k).state = .blocked := by
  simp [enterBlocked, h]

/-! ### Staged changes -/

theorem carveAt_setEntry (k base limit : Nat) (s : State) :
    carveAt (applyStaged (.setEntry k base limit) s) k = { carveAt s k with base := base, limit := limit } := carveAt_carveMod_self ..

theorem carveAt_setEntry_ne {k j : Nat} (h : j ≠ k) (base limit : Nat) (s : State) :
    carveAt (applyStaged (.setEntry k base limit) s) j = carveAt s j := carveAt_carveMod_ne h ..

/-- A block waits for a shrink in progress, and for nothing else (Table 10-8). -/
theorem applyStaged_block {k : Nat} {s : State} (h : (carveAt s k).state ≠ .shrinking) : applyStaged (.block k) s = enterBlocked k s :=
  if_neg h

/-- A blocked entry with no range left at the scrubber reopens (R297). -/
theorem state_reopened {k : Nat} {s : State} (hb : (carveAt s k).state = .blocked) (hr : s.scrub.any (fun r => r.carve == some k) = false) :
    (carveAt (applyStaged (.reopen k) s) k).state = .open_ := by
  rw [applyStaged, carveAt_carveMod_self]
  simp only [hb, hr]
  rfl

/-! ### The rows -/

theorem exec_carveGrow (h : CmdHdr) (set : Byte) (b l : W64) (s : State) :
    exec (.carveGrow h set b l) s = .next (runRow (carveGrowRow h set b l) (startGrow h set b l) s) := rfl
theorem exec_carveShrink (h : CmdHdr) (set : Byte) (b l : W64) (s : State) :
    exec (.carveShrink h set b l) s = .next (runRow (carveShrinkRow h set b l) (startShrink h set b l) s) := rfl
theorem exec_fabricEpochBoundary {s : State} (hs : serving s = true) : exec .fabricEpochBoundary s = .next (settle (epochBoundary s)) :=
  congrArg Host.Outcome.next (whenLive_live (fun s => settle (epochBoundary s)) s hs)

end Sys2Proof.Machine
end

section
/-! SUPPORT. The statement on carve-outs. -/
namespace Sys2Proof.Machine

/-- Settles O20: the commands stage, the boundary applies, and each staged change acts on the one entry it names. -/
theorem carveOutsChangeAtBoundaries : Obligations.CarveOutsChangeAtBoundaries := by
  intro s h p set b l
  refine ⟨fun a => ?grow, fun a => ?shrink, fun hs => exec_fabricEpochBoundary hs, fun k base limit => ?range,
    fun k hstate hrange => ?block, fun k hb hr => state_reopened hb hr⟩
  case grow => rw [exec_carveGrow, runRow_admitted a]; rfl
  case shrink => rw [exec_carveShrink, runRow_admitted a]; rfl
  case range =>
    intro v
    have hentry : carveAt v k = { carveAt s k with base := base, limit := limit } := carveAt_setEntry ..
    rw [hentry]
    exact ⟨rfl, rfl, rfl, fun j hj => carveAt_setEntry_ne hj base limit s⟩
  case block => rw [applyStaged_block hstate, state_enterBlocked hrange]

end Sys2Proof.Machine
end

section
/-! SUPPORT. Contexts and memory objects (R286 to R288, R300): what an admitted command has found, and the commands' parts. -/
namespace Sys2Proof.Machine

/-! ### The rows' meanings -/

theorem exec_contextCreate (h : CmdHdr) (s : State) :
    exec (.contextCreate h) s = .next (runRow (contextCreateRow h) (startCreate h) s) := rfl
theorem exec_contextAbandon (h : CmdHdr) (s : State) :
    exec (.contextAbandon h) s = .next (runRow (contextAbandonRow h) (startAbandon h) s) := rfl
theorem exec_memMap (h : CmdHdr) (rights : Byte) (base size : W64) (pick : W16) (s : State) :
    exec (.memMap h rights base size pick) s = .next (runRow (memMapRow h rights base size) (startMap h rights base size pick) s) := rfl
theorem exec_memUnmap (h : CmdHdr) (handle : W32) (s : State) :
    exec (.memUnmap h handle) s = .next (runRow (memUnmapRow h handle) (startUnmap h handle) s) := rfl

/-! ### Contexts -/

/-- An admitted CONTEXT_CREATE has found a free handle. -/
theorem freeCtx_of_contextCreate {s : State} {h : CmdHdr} {p : InProg} (a : Admitted s (contextCreateRow h) p) :
    ∃ i, freeCtx s (hdrTarget h) = some i := by
  have hslot : failIf (freeCtx s (hdrTarget h)).isNone stNoSlot 3 = none := a.slots _ (List.mem_singleton.2 rfl)
  exact Option.isSome_iff_exists.1 (Option.isNone_eq_false_iff.1 (failIf_eq_none.1 hslot))

theorem startCreate_free {s : State} {h : CmdHdr} {i : Nat} (hi : freeCtx s (hdrTarget h) = some i) (p : InProg) :
    startCreate h p s = complete p stOk 0 (resAt 0 i ||| resAt 2 ((mapGet {} (fnOf s (hdrTarget h)).ctxs i).gen + 1).toNat)
      (fnMod (hdrTarget h) (fun x =>
        { x with ctxs := mapSet x.ctxs i { gen := (mapGet {} (fnOf s (hdrTarget h)).ctxs i).gen + 1, live := true, suspect := false } })
        s) := by
  simp only [startCreate, hi]

/-- CONTEXT_ABANDON waits for the KIDs, regions and objects that its first steps `a` leave behind (R300). -/
def abandonWaits (h : CmdHdr) (p : InProg) (a : List W16 × List Nat × State) : State :=
  let f := hdrTarget h
  goOn p
    { kids := a.1, objs := ((fnOf a.2.2 f).objs.filter (fun o => o.2.unmapping && o.2.ctx == h.ctx)).map (fun o => (f.key, o.1)) }
    (.abandon f h.ctx (mapGet {} (fnOf a.2.2 f).ctxs h.ctx.toNat).gen a.1 a.2.1) a.2.2

/-- From the admin ring the VF's TDI moves to ERROR as well (R165). -/
theorem startAbandon_eq (h : CmdHdr) (p : InProg) (s : State) :
    startAbandon h p s =
      let v := abandonWaits h p (abandonCtx (hdrTarget h) h.ctx (p.fn, p.idx) s)
      if p.fn = .pf ∧ hdrTarget h ≠ .pf then tdiError false (hdrTarget h) v else v := by
  dsimp only [startAbandon]
  cases abandonCtx (hdrTarget h) h.ctx (p.fn, p.idx) s
  rfl

/-! ### Memory objects -/

/-- The object that MEM_MAP makes (R287). -/
def mappedObj (h : CmdHdr) (rights : Byte) (base size : W64) : ObjSt :=
  { rights := rights, ctx := h.ctx, base := base.toNat, size := size.toNat, unmapping := false, scrub := false }

/-- The state in which function `f` has made object `i`. -/
def withObj (f : Fn) (i : Nat) (o : ObjSt) (s : State) : State := fnMod f (fun x => { x with objs := mapSet x.objs i o }) s

theorem objs_withObj (f : Fn) (i : Nat) (o : ObjSt) (s : State) : (fnOf (withObj f i o s) f).objs = mapSet (fnOf s f).objs i o := by
  rw [withObj, fnOf_fnMod_self]

theorem objReuse_withObj (f : Fn) (i : Nat) (o : ObjSt) (s : State) : (fnOf (withObj f i o s) f).objReuse = (fnOf s f).objReuse := by
  rw [withObj, fnOf_fnMod_self]

theorem startMap_picked {s : State} {h : CmdHdr} {pick : W16} {i : Nat}
    (hi : pickIdx (fun i => (mapFind (fnOf s h.fn).objs i).isSome) pick = some i) (rights : Byte) (base size : W64) (p : InProg) :
    startMap h rights base size pick p s = complete p stOk 0 ((handleOf (mapGet 0 (fnOf s h.fn).objReuse i) i).setWidth 128)
      (withObj h.fn i (mappedObj h rights base size) s) := by
  rw [← objReuse_withObj h.fn i (mappedObj h rights base size) s]
  simp only [startMap, hi]
  rfl

theorem startUnmap_live {s : State} {h : CmdHdr} {handle : W32} {i : Nat} (hi : objIdx s h.fn handle = some i) (p : InProg) :
    startUnmap h handle p s = goOn p { objs := [(h.fn.key, i)] } (.unmap h.fn.key i)
      (fnMod h.fn (fun x => { x with objs := x.objs.map (fun e => if e.1 = i then (e.1, { e.2 with unmapping := true }) else e) }) s) := by
  simp only [startUnmap, hi]

end Sys2Proof.Machine
end

section
/-! SUPPORT. The statement on contexts and memory objects. -/
namespace Sys2Proof.Machine

/-- Settles O21: the handle or object that each admitted command names is there, and the command's part acts on it. -/
theorem contextsAndObjects : Obligations.ContextsAndObjects := by
  intro s h p
  refine ⟨fun a => ?create, fun a => ?abandon, fun rights base size pick i a hi => ?map, fun handle i a hi => ?unmap⟩
  case create =>
    obtain ⟨i, hi⟩ := freeCtx_of_contextCreate a
    exact ⟨i, _, hi, rfl, by rw [exec_contextCreate, runRow_admitted a, startCreate_free hi]⟩
  case abandon =>
    rw [exec_contextAbandon, runRow_admitted a, startAbandon_eq]
    rfl
  case map =>
    refine ⟨withObj h.fn i (mappedObj h rights base size) s, ?exec, ?made, fun j hj => ?others, fun g hg => fnOf_fnMod_ne _ _ _ _ hg⟩
    case exec => rw [exec_memMap, runRow_admitted a, startMap_picked hi]
    case made => rw [objs_withObj, mapFind_mapSet_self]; rfl
    case others => rw [objs_withObj, mapFind_mapSet_ne _ _ _ _ hj]
  case unmap => rw [exec_memUnmap, runRow_admitted a, startUnmap_live hi]

end Sys2Proof.Machine
end

section
/-! SUPPORT. The scrubber and the switch notice (R297, R298). -/
namespace Sys2Proof.Machine

theorem exec_scrubDone {s : State} (hs : serving s = true) : exec .scrubDone s = .next (scrubDone s) :=
  congrArg Host.Outcome.next (whenLive_live scrubDone s hs)

/-- With nothing to scrub, the end of a range is no one's. -/
theorem scrubDone_empty {s : State} (h : s.scrub = []) : scrubDone s = s := by
  simp only [scrubDone, h]

/-- The zero write over a range marks its segments for the VF whose carve-out holds it (R36). -/
def markOwner (r : ScrubSt) (s : State) : State :=
  match ownerOf s r.lo with
  | some f => markWrite f r.lo (r.hi - r.lo) s
  | none => s

theorem scrubDone_oldest {s : State} {r : ScrubSt} {rest : List ScrubSt} (h : s.scrub = r :: rest) :
    scrubDone s = reopen r.carve (markOwner r (emit (.scrubWrite r.lo r.hi) { s with scrub := rest })) := by
  simp only [scrubDone, h]
  rfl

/-- What a switch clears: the state tagged to the context, after its trace record, then what its bulk contexts hold. -/
def switched (f : Fn) (c : W16) (s : State) : State := switchBulk f c (clearCtx f c (traceVf f 0x05 c 0 s))

theorem exec_switchNotice {s : State} {c : W16} (hs : serving s = true) (hc : c ≠ 0xFFFF) (f : Fn) :
    exec (.switchNotice f c) s = .next (settle (emit (.switchAck f c) (switched f c s))) := by
  have hruns : ¬ (!serving s || c == 0xFFFF) = true := by simpa [hs] using hc
  exact congrArg Host.Outcome.next (if_neg hruns)

end Sys2Proof.Machine
end

section
/-! SUPPORT. The statement on the scrubber and the switch notice. -/
namespace Sys2Proof.Machine

/-- Settles O23: the scrubber has a range or has none, and a context's notice acknowledges what it has cleared. -/
theorem scrubberAndSwitches : Obligations.ScrubberAndSwitches := by
  intro s
  refine ⟨fun hs he => ?idle, fun r rest hs hr => ?done, fun f c hs hc => ⟨switched f c s, exec_switchNotice hs hc f, rfl⟩⟩
  case idle => rw [exec_scrubDone hs, scrubDone_empty he]
  case done => exact (exec_scrubDone hs).trans (congrArg Host.Outcome.next (scrubDone_oldest hr))

end Sys2Proof.Machine
end

section
/-! SUPPORT. What every step keeps of the queue and of the outputs: the queue as it is, the outputs sent before at the front of those sent
since. -/
namespace Sys2Proof.Machine

/-- `t` has the queue of `s`, and its outputs begin with those of `s`. -/
structure Grows (s t : State) : Prop where
  pending : t.pending = s.pending
  out : s.out <+: t.out

namespace Grows

theorem refl {s : State} : Grows s s := ⟨rfl, List.prefix_rfl⟩

theorem trans {s t u : State} (h : Grows s t) (h' : Grows t u) : Grows s u := ⟨h'.pending.trans h.pending, h.out.trans h'.out⟩

/-- A change of other fields. -/
theorem set {s t : State} (h : Grows s t) {x1 x2 x3 x4 x5 x6 x7 x8 x9 x10 x11 x12 x13 x14 x15 x16 x17 x18 x19 x20 x21 x22 x23 x24 x25 x26
      x27 x28 x29 x30 x31 x32 x33 x34 x35 x36 x37 x38 x39 x40 x41 x42 x43 x44 x45 x46 x47 x48 x49 x50 x51 x52 x53 x54 x55 x56} :
    Grows s (.mk t.pending t.out x1 x2 x3 x4 x5 x6 x7 x8 x9 x10 x11 x12 x13 x14 x15 x16 x17 x18 x19 x20 x21 x22 x23 x24 x25 x26 x27 x28
      x29 x30 x31 x32 x33 x34 x35 x36 x37 x38 x39 x40 x41 x42 x43 x44 x45 x46 x47 x48 x49 x50 x51 x52 x53 x54 x55 x56) :=
  ⟨h.pending, h.out⟩

theorem ite {c : Prop} [Decidable c] {s t u : State} (ht : Grows s t) (hu : Grows s u) : Grows s (if c then t else u) := by
  split
  · exact ht
  · exact hu

end Grows

theorem grows_foldl {α : Type} {g : State → α → State} (hg : ∀ u x, Grows u (g u x)) {l : List α} {s₀ s : State} (h₀ : Grows s₀ s) :
    Grows s₀ (l.foldl g s) := by
  induction l generalizing s with
  | nil => exact h₀
  | cons x l ih => exact ih (h₀.trans (hg s x))

end Sys2Proof.Machine
end

section
/-! SUPPORT. What the shared operations keep of the queue and of the outputs. -/
namespace Sys2Proof.Machine

variable {s₀ s : State} {code units counter kind n : Nat} {f : Fn} {ctx : W16} {p : InProg} {data : BitVec 128} {a : AsyncRec}

theorem grows_emit {o : Output} (h₀ : Grows s₀ s) : Grows s₀ (emit o s) := ⟨h₀.pending, h₀.out.trans (List.prefix_append ..)⟩

theorem grows_bumpDraw (h₀ : Grows s₀ s) : Grows s₀ (bumpDraw s) := .set h₀
theorem grows_bumpOpen (h₀ : Grows s₀ s) : Grows s₀ (bumpOpen s) := .set h₀
theorem grows_fnMod {g : FnSt → FnSt} (h₀ : Grows s₀ s) : Grows s₀ (fnMod f g s) := .set h₀
theorem grows_ringMod {g : RingSt → RingSt} (h₀ : Grows s₀ s) : Grows s₀ (ringMod f g s) := grows_fnMod h₀
theorem grows_modProg {idx : W32} {g : InProg → InProg} (h₀ : Grows s₀ s) : Grows s₀ (modProg f idx g s) := .set h₀
theorem grows_countPort {port : Fin 32} (h₀ : Grows s₀ s) : Grows s₀ (countPort port code s) := .set h₀
theorem grows_countPkg (h₀ : Grows s₀ s) : Grows s₀ (countPkg code s) := .set h₀
theorem grows_countFn (h₀ : Grows s₀ s) : Grows s₀ (countFn f code s) := .set h₀
theorem grows_countOp (h₀ : Grows s₀ s) : Grows s₀ (countOp f counter units s) := .set h₀
theorem grows_addSet (h₀ : Grows s₀ s) : Grows s₀ (addSet f ctx counter units s) := .ite h₀ (.ite (.set h₀) (.ite (.set h₀) h₀))
theorem grows_countSealed (h₀ : Grows s₀ s) : Grows s₀ (countSealed f ctx units s) := grows_addSet (grows_countOp h₀)
theorem grows_trace {reader : Fn} (h₀ : Grows s₀ s) : Grows s₀ (trace reader kind ctx data s) := .set h₀

theorem grows_traceVf (h₀ : Grows s₀ s) : Grows s₀ (traceVf f kind ctx data s) := by
  unfold traceVf
  split
  · exact grows_trace h₀
  · exact h₀

theorem grows_whenLive {f : State → State} (hf : ∀ u, Grows u (f u)) (h₀ : Grows s₀ s) : Grows s₀ (whenLive f s) :=
  .ite (h₀.trans (hf _)) h₀

theorem grows_raiseMsix (h₀ : Grows s₀ s) : Grows s₀ (raiseMsix f s) := .ite h₀ (grows_emit (grows_ringMod h₀))
theorem grows_signalEvent (h₀ : Grows s₀ s) : Grows s₀ (signalEvent f s) := grows_raiseMsix (.ite (grows_ringMod h₀) (grows_ringMod h₀))

theorem grows_lateDone {i : W32} (h₀ : Grows s₀ s) : Grows s₀ (lateDone f i s) := by
  unfold lateDone
  split
  · exact h₀
  · exact .ite (.set h₀) (grows_countFn (.set h₀))

theorem grows_markPage {page : Nat} (h₀ : Grows s₀ s) : Grows s₀ (markPage f page s) := by
  unfold markPage
  split
  · exact h₀
  · exact .ite (grows_fnMod h₀) (.ite h₀ (grows_emit (grows_fnMod h₀)))

theorem grows_markPages {k : Nat} (h₀ : Grows s₀ s) : Grows s₀ (markPages f k n s) := by
  induction n generalizing s k with
  | zero => exact h₀
  | succ _ ih => exact ih (grows_markPage h₀)

theorem grows_markHost {addr : Nat} (h₀ : Grows s₀ s) : Grows s₀ (markHost f addr n s) := .ite h₀ (grows_markPages h₀)
theorem grows_sendHost {addr : W64} {d : HostData} (h₀ : Grows s₀ s) : Grows s₀ (sendHost f addr d s) := grows_emit (grows_markHost h₀)
theorem grows_postDoorbell (h₀ : Grows s₀ s) : Grows s₀ (postDoorbell f s) := grows_emit (grows_markHost h₀)

theorem grows_writeRecord {mk : Bool → CplRec} (h₀ : Grows s₀ s) : Grows s₀ (writeRecord f mk s) :=
  .ite h₀ (grows_ringMod (grows_emit (grows_markHost h₀)))

theorem grows_writeAsync (h₀ : Grows s₀ s) : Grows s₀ (writeAsync f a s) := grows_writeRecord h₀

theorem grows_asyncRecord (h₀ : Grows s₀ s) : Grows s₀ (asyncRecord f a s) :=
  .ite h₀ (grows_postDoorbell (grows_signalEvent (.ite (grows_writeAsync h₀) (.ite (grows_ringMod h₀) (grows_ringMod h₀)))))

theorem grows_drainAsync {a : Fn} (h₀ : Grows s₀ s) : Grows s₀ (drainAsync n a s) := by
  induction n generalizing s with
  | zero => exact h₀
  | succ _ ih =>
    unfold drainAsync
    split
    · exact h₀
    · exact .ite (ih (grows_writeAsync (grows_ringMod h₀))) h₀

theorem grows_settleRing (h₀ : Grows s₀ s) : Grows s₀ (settleRing f s) := .ite (grows_ringMod h₀) h₀
theorem grows_dropProg (h₀ : Grows s₀ s) : Grows s₀ (dropProg p s) := .set h₀

theorem grows_complete {st : W16} {detail : W32} {result : BitVec 128} (h₀ : Grows s₀ s) : Grows s₀ (complete p st detail result s) :=
  grows_settleRing (grows_postDoorbell (grows_traceVf (.ite (grows_signalEvent (grows_writeRecord (grows_dropProg h₀))) (grows_writeRecord
    (grows_dropProg h₀)))))

theorem grows_ringFault {code : W16} (h₀ : Grows s₀ s) : Grows s₀ (ringFault f code s) :=
  .ite (.ite (grows_ringMod h₀) h₀) (grows_postDoorbell (grows_ringMod h₀))

theorem grows_runCmd {r : Row} {f : InProg → State → State} (hf : ∀ x u, Grows u (f x u)) (h₀ : Grows s₀ s) : Grows s₀ (runCmd r f s) := by
  refine .ite ?_ h₀
  split
  · exact h₀
  · split
    · exact grows_complete h₀
    · exact h₀.trans (hf _ _)

theorem grows_holdCmd {hold : Hold} {act : Act} (h₀ : Grows s₀ s) : Grows s₀ (holdCmd p hold act s) := grows_modProg h₀

end Sys2Proof.Machine
end

section
/-! SUPPORT. What the operations of the key store keep of the queue and of the outputs. -/
namespace Sys2Proof.Machine

variable {s₀ s : State} {kid : W16} {engine : Nat}

theorem grows_reserveKid {f : Fn} (h₀ : Grows s₀ s) : Grows s₀ (reserveKid f s).2 := by
  unfold reserveKid
  split
  · exact .set h₀
  · exact h₀

theorem grows_reserveInt (h₀ : Grows s₀ s) : Grows s₀ (reserveInt s).2 := by
  unfold reserveInt
  split
  · exact .set h₀
  · exact h₀

theorem grows_placeKey {x : SlotSt} (h₀ : Grows s₀ s) : Grows s₀ (placeKey kid x s) := by
  unfold placeKey
  split
  · exact .set h₀
  · exact h₀

theorem grows_traceKid {old new : Nat} (h₀ : Grows s₀ s) : Grows s₀ (traceKid kid old new s) := grows_trace h₀

theorem grows_setKid {st : KidState} (h₀ : Grows s₀ s) : Grows s₀ (setKid kid st s) := by
  unfold setKid
  split
  · exact .set h₀
  · exact h₀

theorem grows_activateKid (h₀ : Grows s₀ s) : Grows s₀ (activateKid kid s) := .ite (grows_traceKid (grows_setKid h₀)) h₀

theorem grows_releaseKid (h₀ : Grows s₀ s) : Grows s₀ (releaseKid kid s) := by
  unfold releaseKid
  split
  · split
    · exact .set h₀
    · exact h₀
  · exact h₀

theorem grows_uncacheKid (h₀ : Grows s₀ s) : Grows s₀ (uncacheKid engine kid s) := .set h₀
theorem grows_clearCache (h₀ : Grows s₀ s) : Grows s₀ (clearCache engine s) := .set h₀

theorem grows_finishRetire (h₀ : Grows s₀ s) : Grows s₀ (finishRetire kid s) := by
  unfold finishRetire
  split
  · exact .ite (grows_traceKid (.set h₀)) h₀
  · exact h₀

theorem grows_cacheKid (h₀ : Grows s₀ s) : Grows s₀ (cacheKid engine kid s) := by
  refine .ite (.set h₀) ?_
  split
  · exact grows_finishRetire (.set h₀)
  · exact h₀

theorem grows_retireKid (h₀ : Grows s₀ s) : Grows s₀ (retireKid kid s) := by
  unfold retireKid
  split
  · split
    · exact grows_finishRetire (grows_traceKid (grows_setKid h₀))
    · exact grows_finishRetire (grows_traceKid (grows_setKid h₀))
    · exact .ite (grows_finishRetire (grows_traceKid (grows_setKid h₀))) (grows_releaseKid h₀)
    · exact h₀
  · exact h₀

theorem grows_retireKids {l : List W16} (h₀ : Grows s₀ s) : Grows s₀ (retireKids l s) := by
  induction l generalizing s with
  | nil => exact h₀
  | cons _ _ ih => exact ih (grows_retireKid h₀)

theorem grows_quarantineTick (h₀ : Grows s₀ s) : Grows s₀ (quarantineTick s) := .set h₀
theorem grows_zeroiseKeys (h₀ : Grows s₀ s) : Grows s₀ (zeroiseKeys s) := .set h₀

theorem grows_placeStream {job ctx ctxGen : W16} {sid epoch : W32} {use : Byte} {t : State} (h₀ : Grows s₀ s)
    (e : placeStream f job ctx ctxGen sid epoch use s = some (kid, t)) : Grows s₀ t := by
  unfold placeStream at e
  split at e
  · cases e
    split
    · exact grows_placeKey h₀
    · exact h₀
  · split at e
    · cases e
    · cases e
      exact grows_placeKey (grows_reserveKid h₀)

theorem grows_placeDebug (h₀ : Grows s₀ s) : Grows s₀ (placeDebug s).2 := by
  refine grows_activateKid ?_
  refine grows_placeKey ?_
  split
  · exact .set (grows_bumpDraw h₀)
  · exact grows_bumpDraw h₀

end Sys2Proof.Machine
end

section
/-! SUPPORT. What the operations of link ports, of sealing and of sending keep of the queue and of the outputs. -/
namespace Sys2Proof.Machine

variable {s₀ s : State} {job ctx : W16} {sid route : W32} {n units : Nat} {kind vc : BitVec 4} {routeSel hopIndex : BitVec 2} {port : Fin
  32} {body : Body} {t : SendSt} {payload : List Byte} {i : TxItem} {dest : BitVec 12}

theorem grows_portMod {p : Fin 32} {g : PortSt → PortSt} (h₀ : Grows s₀ s) : Grows s₀ (portMod p g s) := .set h₀

theorem grows_eachPort {g : Fin 32 → State → State} {l : List (Fin 32)} (hg : ∀ x u, Grows u (g x u)) (h₀ : Grows s₀ s) :
    Grows s₀ (eachPort g l s) := by
  induction l generalizing s with
  | nil => exact h₀
  | cons _ _ ih => exact ih (h₀.trans (hg _ _))

theorem grows_wire (h₀ : Grows s₀ s) : Grows s₀ (wire port kind vc routeSel hopIndex units route body s) := grows_emit (grows_portMod h₀)
theorem grows_sendCredit (h₀ : Grows s₀ s) : Grows s₀ (sendCredit port s) := grows_portMod (grows_wire h₀)

theorem grows_flushDue {a : Fin 32} (h₀ : Grows s₀ s) : Grows s₀ (flushDue n a s) := by
  induction n generalizing s with
  | zero => exact h₀
  | succ _ ih => exact .ite (ih (grows_sendCredit h₀)) h₀

theorem grows_flushAll (h₀ : Grows s₀ s) : Grows s₀ (flushAll s) := grows_eachPort (fun _ _ => grows_flushDue .refl) h₀
theorem grows_returnCredits (h₀ : Grows s₀ s) : Grows s₀ (returnCredits port vc n s) := .ite h₀ (grows_portMod h₀)
theorem grows_modSend {g : SendSt → SendSt} (h₀ : Grows s₀ s) : Grows s₀ (modSend job sid g s) := .set h₀
theorem grows_modRecv {g : RecvSt → RecvSt} (h₀ : Grows s₀ s) : Grows s₀ (modRecv job sid g s) := .set h₀

theorem grows_placeNext (h₀ : Grows s₀ s) : Grows s₀ (placeNext t s) := by
  refine .ite h₀ ?_
  split
  · next e => exact grows_modSend (grows_placeStream h₀ e)
  · exact h₀

theorem grows_prepareSend (h₀ : Grows s₀ s) : Grows s₀ (prepareSend t s) := by
  unfold prepareSend
  dsimp only
  split
  · split
    · exact grows_activateKid (grows_placeNext h₀)
    · exact grows_placeNext h₀
  · exact grows_placeNext h₀

theorem grows_noteSent {epoch : W32} (h₀ : Grows s₀ s) : Grows s₀ (noteSent job sid epoch s) := .set h₀

theorem grows_rollSend (h₀ : Grows s₀ s) : Grows s₀ (rollSend job sid s) := by
  unfold rollSend
  split
  · exact h₀
  · split
    · exact grows_noteSent (grows_retireKid (grows_modSend h₀))
    · exact h₀

theorem grows_endSend (h₀ : Grows s₀ s) : Grows s₀ (endSend job sid s) := by
  unfold endSend
  split
  · exact grows_retireKids (.set h₀)
  · exact h₀

theorem grows_sealFrame {dstCtx dstCtxGen batch batchGen : W16} (h₀ : Grows s₀ s) :
    Grows s₀ (sealFrame t ctx ftype units dstCtx dstCtxGen batch batchGen payload s) := by
  have hkeys : ∀ (c : Prop) [Decidable c] u, Grows s₀ u → Grows s₀ (if c then prepareSend t u else u) :=
    fun _ _ _ hu => .ite (grows_prepareSend hu) hu
  have hend : ∀ (c d : Prop) [Decidable c] [Decidable d] u, Grows s₀ u →
      Grows s₀ (if c then endSend t.job t.sid u else if d then rollSend t.job t.sid u else u) :=
    fun _ _ _ _ _ hu => .ite (grows_endSend hu) (.ite (grows_rollSend hu) hu)
  exact hend _ _ _ (grows_modSend (hkeys _ _ (grows_countSealed (grows_cacheKid (grows_portMod (grows_wire h₀))))))

theorem grows_dropMember (h₀ : Grows s₀ s) : Grows s₀ (dropMember payload s) := .set h₀

theorem grows_unsealed {ftype : Byte} (h₀ : Grows s₀ s) : Grows s₀ (unsealed t ctx ftype payload s) :=
  .ite (grows_emit h₀) (.ite (grows_emit (grows_dropMember h₀)) h₀)

theorem grows_claimBatch {b : Nat} (h₀ : Grows s₀ s) : Grows s₀ (claimBatch b job s) := .ite h₀ (.set h₀)

theorem grows_sealToken {dc dg : W16} (h₀ : Grows s₀ s) : Grows s₀ (sealToken t ctx units dc dg payload s) :=
  .ite (grows_emit (grows_countFn h₀)) (grows_sealFrame (grows_claimBatch h₀))

theorem grows_sendItem (h₀ : Grows s₀ s) : Grows s₀ (sendItem port i s) := by
  unfold sendItem
  dsimp only
  split
  · split
    · exact .ite (grows_countPort h₀) (.ite (grows_unsealed h₀) (.ite (grows_sealToken h₀) (grows_sealFrame h₀)))
    · exact grows_countPort h₀
  · split
    · exact grows_returnCredits (.ite (grows_wire h₀) (grows_portMod (grows_wire h₀)))
    · exact .ite (grows_wire h₀) (grows_portMod (grows_wire h₀))

theorem grows_pumpGo {l : List Nat} (h₀ : Grows s₀ s) : Grows s₀ (pumpGo port n l s) := by
  induction n generalizing s l with
  | zero => exact h₀
  | succ _ ih =>
    unfold pumpGo
    split
    · exact h₀
    · split
      · exact h₀
      · exact .ite (ih (grows_sendItem (grows_portMod h₀))) (ih h₀)

theorem grows_pump (h₀ : Grows s₀ s) : Grows s₀ (pump port s) := grows_pumpGo h₀
theorem grows_offer (h₀ : Grows s₀ s) : Grows s₀ (offer port i s) := grows_pump (grows_portMod h₀)
theorem grows_sendControl (h₀ : Grows s₀ s) : Grows s₀ (sendControl port kind routeSel hopIndex route body s) := .ite (grows_offer h₀) h₀
theorem grows_sendBeat (h₀ : Grows s₀ s) : Grows s₀ (sendBeat port s) := grows_sendControl h₀
theorem grows_wakeSeal (h₀ : Grows s₀ s) : Grows s₀ (wakeSeal port s) := .ite (grows_sendBeat (grows_emit (grows_portMod h₀))) h₀
theorem grows_wakeOpen (h₀ : Grows s₀ s) : Grows s₀ (wakeOpen port s) := .ite (grows_emit (grows_portMod h₀)) h₀

theorem grows_enqueue (h₀ : Grows s₀ s) : Grows s₀ (enqueue port i s) := by
  refine grows_offer ?_
  split
  · exact grows_wakeSeal (.ite (grows_emit h₀) h₀)
  · exact .ite (grows_wakeSeal h₀) h₀

theorem grows_sendRouted (h₀ : Grows s₀ s) : Grows s₀ (sendRouted dest kind body s) := by
  unfold sendRouted
  split
  · exact grows_sendControl (grows_portMod h₀)
  · exact h₀

theorem grows_sendHome (h₀ : Grows s₀ s) : Grows s₀ (sendHome dest units body s) := by
  unfold sendHome
  split
  · exact grows_enqueue (grows_portMod h₀)
  · exact h₀

theorem grows_sendNak (h₀ : Grows s₀ s) : Grows s₀ (sendNak port s) := grows_portMod h₀

theorem grows_resendAll {l : List Frame} (h₀ : Grows s₀ s) : Grows s₀ (resendAll port l s) := by
  induction l generalizing s with
  | nil => exact h₀
  | cons _ _ ih => exact ih (grows_emit h₀)

theorem grows_takeAck {h : Hop} (h₀ : Grows s₀ s) : Grows s₀ (takeAck port h s).1 := by
  unfold takeAck
  split
  · exact h₀
  · extract_lets p left fresh s₁
    have h₁ : Grows s₀ s₁ := grows_portMod h₀
    split
    · exact h₁
    · split
      · exact h₁
      · exact grows_resendAll (grows_portMod h₁)

theorem grows_grant {vc : Nat} (h₀ : Grows s₀ s) : Grows s₀ (grant port vc n s) := .ite (grows_portMod h₀) h₀
theorem grows_learn {a : Arrival} (h₀ : Grows s₀ s) : Grows s₀ (learn a s) := .ite (grows_portMod h₀) h₀

theorem grows_forward (h₀ : Grows s₀ s) : Grows s₀ (forward a s) := by
  have hback : ∀ u, Grows s₀ u → Grows s₀ (if creditKind a.hop.kind then returnCredits a.port a.hop.vc (frameCredits a.hop) u else u) :=
    fun _ hu => .ite (grows_returnCredits hu) hu
  have hthrough : ∀ p q g k, Grows s₀ (portMod p g (portMod q k s)) := fun _ _ _ _ => grows_portMod (grows_portMod h₀)
  exact .ite (hback _ (grows_countPort h₀)) (.ite (hback _ (grows_countPort h₀)) (.ite (hback _ (grows_countPort h₀))
    (.ite (grows_offer (hthrough ..)) (.ite (grows_countPort (hthrough ..)) (grows_offer (hthrough ..))))))

theorem grows_sendLoop (h₀ : Grows s₀ s) : Grows s₀ (sendLoop port s) := grows_emit (.set h₀)
theorem grows_grantAll (h₀ : Grows s₀ s) : Grows s₀ (grantAll port s) := grows_flushDue (grows_portMod h₀)
theorem grows_tryUp (h₀ : Grows s₀ s) : Grows s₀ (tryUp port s) := .ite (grows_grantAll (grows_portMod h₀)) h₀

theorem grows_returnQueued {l : List TxItem} (h₀ : Grows s₀ s) : Grows s₀ (returnQueued l s) := by
  fun_induction returnQueued l s with
  | case1 => exact h₀
  | case2 _ _ _ _ _ _ _ _ _ _ _ _ ih => exact ih (grows_returnCredits h₀)
  | case3 _ _ _ _ ih => exact ih h₀

theorem grows_takeDown (h₀ : Grows s₀ s) : Grows s₀ (takeDown port s) :=
  grows_returnQueued (grows_eachPort (fun _ _ => grows_portMod .refl) (.set (grows_portMod h₀)))

end Sys2Proof.Machine
end

section
/-! SUPPORT. What the operations of fences and of the snare keep of the queue and of the outputs. -/
namespace Sys2Proof.Machine

variable {s₀ s : State} {f : Fn} {i : Nat} {l : List InProg} {holder : W16}

theorem grows_fenceMod {g : FenceSt → FenceSt} (h₀ : Grows s₀ s) : Grows s₀ (fenceMod f i g s) := grows_fnMod h₀

theorem grows_endWaits (h₀ : Grows s₀ s) : Grows s₀ (endWaits f i l s) := by
  induction l generalizing s with
  | nil => exact h₀
  | cons _ _ ih =>
    unfold endWaits
    split
    · refine .ite ?_ (ih h₀)
      split
      · exact ih (grows_complete h₀)
      · exact ih h₀
    · exact ih h₀

theorem grows_endUnitWaits {l : List (W16 × W64)} (h₀ : Grows s₀ s) : Grows s₀ (endUnitWaits f i l s) := by
  induction l generalizing s with
  | nil => exact h₀
  | cons _ _ ih =>
    unfold endUnitWaits
    split
    · exact ih (grows_emit (grows_fenceMod h₀))
    · exact ih h₀

theorem grows_evalWaits (h₀ : Grows s₀ s) : Grows s₀ (evalWaits f i s) := grows_endUnitWaits (grows_endWaits h₀)
theorem grows_forwardFence (h₀ : Grows s₀ s) : Grows s₀ (forwardFence f i s) := grows_emit h₀

theorem grows_setErr {e : FenceErr} {peer : BitVec 12} (h₀ : Grows s₀ s) : Grows s₀ (setErr f i e peer s) :=
  .ite (grows_traceVf (grows_evalWaits (grows_forwardFence (grows_fenceMod h₀)))) h₀

theorem grows_signalFence {add : Bool} {v : W64} {chime : Bool} (h₀ : Grows s₀ s) : Grows s₀ (signalFence f i add v chime s) := by
  unfold signalFence
  split
  · exact .ite (grows_countFn h₀) h₀
  · exact grows_countFn h₀
  · exact grows_evalWaits (grows_forwardFence (grows_fenceMod h₀))
  · exact grows_setErr (grows_countFn h₀)

theorem grows_recordProducer {src : BitVec 12} (h₀ : Grows s₀ s) : Grows s₀ (recordProducer f i src s) :=
  .ite h₀ (.ite (grows_fenceMod h₀) (grows_countFn (grows_fenceMod h₀)))

theorem grows_applySignals {src : Option (BitVec 12)} {l : List ChimeSig} (h₀ : Grows s₀ s) : Grows s₀ (applySignals f src l s) := by
  induction l generalizing s with
  | nil => exact h₀
  | cons _ _ ih =>
    unfold applySignals
    split
    · exact ih (grows_countFn h₀)
    · refine ih ?_
      refine grows_signalFence ?_
      split
      · exact grows_recordProducer h₀
      · exact h₀

theorem grows_abortWaits {only : InProg → Bool} (h₀ : Grows s₀ s) : Grows s₀ (abortWaits f i only l s) := by
  induction l generalizing s with
  | nil => exact h₀
  | cons _ _ ih =>
    unfold abortWaits
    split
    · exact .ite (ih (grows_complete h₀)) (ih h₀)
    · exact ih h₀

theorem grows_abortUnitWaits {c : Option W16} {l : List (W16 × W64)} (h₀ : Grows s₀ s) : Grows s₀ (abortUnitWaits f i c l s) := by
  induction l generalizing s with
  | nil => exact h₀
  | cons _ _ ih => exact .ite (ih (grows_emit (grows_fenceMod h₀))) (ih h₀)

theorem grows_freeFence (h₀ : Grows s₀ s) : Grows s₀ (freeFence f i s) :=
  grows_fnMod (grows_emit (grows_abortUnitWaits (grows_abortWaits h₀)))

theorem grows_dropRef (h₀ : Grows s₀ s) : Grows s₀ (dropRef f i holder s) :=
  .ite (.ite (grows_freeFence (grows_fenceMod h₀)) (grows_fenceMod h₀)) h₀

theorem grows_addRef (h₀ : Grows s₀ s) : Grows s₀ (addRef f i holder s) := .ite h₀ (grows_fenceMod h₀)

theorem grows_eachIdx {g : Nat → State → State} {l : List Nat} (hg : ∀ x u, Grows u (g x u)) (h₀ : Grows s₀ s) :
    Grows s₀ (eachIdx g l s) := by
  induction l generalizing s with
  | nil => exact h₀
  | cons _ _ ih => exact ih (h₀.trans (hg _ _))

theorem grows_abandonFences {ctx : W16} (h₀ : Grows s₀ s) : Grows s₀ (abandonFences f ctx s) :=
  grows_eachIdx (fun _ _ => grows_dropRef .refl) (grows_eachIdx (fun _ _ => .ite (grows_setErr .refl) .refl) h₀)

theorem grows_freeAllFences (h₀ : Grows s₀ s) : Grows s₀ (freeAllFences f s) := grows_eachIdx (fun _ _ => grows_freeFence .refl) h₀
theorem grows_stampMet (h₀ : Grows s₀ s) : Grows s₀ (stampMet s) := .set h₀

theorem grows_releaseChime {port : Fin 32} (h₀ : Grows s₀ s) : Grows s₀ (releaseChime f port s) := by
  unfold releaseChime
  split
  · exact h₀
  · exact grows_traceVf (grows_applySignals (.set h₀))

theorem grows_releaseLocal (h₀ : Grows s₀ s) : Grows s₀ (releaseLocal f s) := by
  unfold releaseLocal
  split
  · exact h₀
  · exact grows_traceVf (grows_applySignals (.set h₀))

end Sys2Proof.Machine
end

section
/-! SUPPORT. What the operations of halts and of Tocsin keep of the queue and of the outputs. -/
namespace Sys2Proof.Machine

variable {s₀ s : State} {r : HaltRec} {i : HaltInfo}

theorem grows_logHalt (h₀ : Grows s₀ s) : Grows s₀ (logHalt r s) := grows_emit (.set h₀)
theorem grows_relogHalt (h₀ : Grows s₀ s) : Grows s₀ (relogHalt r s) := grows_emit (.set h₀)
theorem grows_relog (h₀ : Grows s₀ s) : Grows s₀ (relog s) := .ite (grows_relogHalt h₀) h₀
theorem grows_burnKill (h₀ : Grows s₀ s) : Grows s₀ (burnKill s) := grows_emit (.set h₀)

theorem grows_knellAll {reason : Byte} (h₀ : Grows s₀ s) : Grows s₀ (knellAll reason s) :=
  grows_eachPort (fun _ _ => grows_portMod (grows_sendControl (grows_portMod .refl))) h₀

theorem grows_tdisError (h₀ : Grows s₀ s) : Grows s₀ (tdisError s) := .set h₀

theorem grows_endPerturb (h₀ : Grows s₀ s) : Grows s₀ (endPerturb s) :=
  grows_eachPort (fun _ _ => .ite (grows_portMod .refl) .refl) (.set (grows_retireKids h₀))

theorem grows_zeroiseAll (h₀ : Grows s₀ s) : Grows s₀ (zeroiseAll s) := .set (grows_zeroiseKeys h₀)
theorem grows_hostLost (h₀ : Grows s₀ s) : Grows s₀ (hostLost s) := grows_emit (grows_emit (.set h₀))
theorem grows_dropHost (h₀ : Grows s₀ s) : Grows s₀ (dropHost s) := grows_hostLost (grows_emit (grows_emit h₀))

theorem grows_tocsin {level : Byte} {sources : W32} (h₀ : Grows s₀ s) : Grows s₀ (tocsin i level sources reason s) := by
  have hburn : ∀ u, Grows s₀ u → Grows s₀ (if level = 2 then burnKill u else u) := fun _ hu => .ite (grows_burnKill hu) hu
  have hlog : ∀ r u, Grows s₀ u → Grows s₀ (if u.pkg.power = .off then u else logHalt r u) := fun _ _ hu => .ite hu (grows_logHalt hu)
  exact hlog _ _ (grows_dropHost (hburn _ (.set (grows_zeroiseAll (grows_tdisError (.ite h₀ (grows_knellAll h₀)))))))

theorem grows_gongHalt (h₀ : Grows s₀ s) : Grows s₀ (gongHalt i s) := by
  unfold gongHalt
  split
  · exact .ite (grows_bumpOpen (grows_relog (.set h₀))) (grows_bumpOpen (.set h₀))
  · exact h₀
  · exact .ite h₀ (grows_tocsin h₀)
  · exact grows_tocsin h₀

theorem grows_romHalt (h₀ : Grows s₀ s) : Grows s₀ (romHalt i s) := .set h₀

end Sys2Proof.Machine
end

section
/-! SUPPORT. What the keeper's operations keep of the queue and of the outputs. -/
namespace Sys2Proof.Machine

variable {s₀ s : State} {k id level idx n j e leaf offset length : Nat} {status ctx gen : W16} {l : List Nat} {data : List Byte} {l' : List
  W32} {f : Fn} {r : RegionSt} {x : ExchSt} {cipher : List Line} {macs : List W64} {nodes : List (W64 × Node × W64)} {detail : W32} {w :
  SweepSt}

theorem grows_regionMod {g : RegionSt → RegionSt} (h₀ : Grows s₀ s) : Grows s₀ (regionMod k g s) := by
  unfold regionMod
  split
  · exact .set h₀
  · exact h₀

theorem grows_addFence {lo : Nat} (h₀ : Grows s₀ s) : Grows s₀ (addFence k lo n s) := by
  unfold addFence
  split
  · exact h₀
  · exact .ite h₀ (grows_asyncRecord (grows_regionMod h₀))

theorem grows_fenceBelow (h₀ : Grows s₀ s) : Grows s₀ (fenceBelow k level idx s) := by
  unfold fenceBelow
  split
  · exact h₀
  · exact grows_addFence h₀

theorem grows_putNode {n : Node} (h₀ : Grows s₀ s) : Grows s₀ (putNode k level idx n s) := by
  unfold putNode
  split
  · exact h₀
  · exact .ite (grows_regionMod h₀) (.set (grows_regionMod h₀))

theorem grows_sendExch {xid : W32} (h₀ : Grows s₀ s) : Grows s₀ (sendExch xid x cipher macs nodes s) := by
  unfold sendExch
  split
  · exact .set h₀
  · exact grows_sendHome h₀

theorem grows_newExch (h₀ : Grows s₀ s) : Grows s₀ (newExch x cipher macs nodes s).2 := grows_sendExch (.set h₀)

theorem grows_sendAll {mk : List Nat → ExchSt} {l : List (List Nat)} (h₀ : Grows s₀ s) : Grows s₀ (sendAll mk l l' s).2 := by
  induction l generalizing s l' with
  | nil => exact h₀
  | cons _ _ ih => exact ih (grows_sendExch (.set h₀))

theorem grows_writeLinesOut {release : Bool} {l : List (List Nat)} (h₀ : Grows s₀ s) : Grows s₀ (writeLinesOut k release l l' s).2 := by
  induction l generalizing s l' with
  | nil => exact h₀
  | cons _ _ ih =>
    unfold writeLinesOut
    split
    · exact h₀
    · exact ih (grows_sendExch (.set h₀))

theorem grows_writeNodesOut {l : List (List (Nat × Node))} (h₀ : Grows s₀ s) : Grows s₀ (writeNodesOut k l l' s).2 := by
  induction l generalizing s l' with
  | nil => exact h₀
  | cons _ _ ih =>
    unfold writeNodesOut
    split
    · exact h₀
    · exact ih (grows_sendExch (.set h₀))

theorem grows_beginSweep (h₀ : Grows s₀ s) : Grows s₀ (beginSweep k level idx j s) := by
  unfold beginSweep
  split
  · exact h₀
  · split
    · exact h₀
    · exact .ite h₀ (.ite (grows_putNode (grows_regionMod h₀)) (.ite (grows_putNode (grows_regionMod h₀)) h₀))

theorem grows_advance (h₀ : Grows s₀ s) : Grows s₀ (advance k level idx j s) := by
  unfold advance
  split
  · exact h₀
  · split
    · exact h₀
    · exact grows_putNode h₀

theorem grows_advanceLines (h₀ : Grows s₀ s) : Grows s₀ (advanceLines k l s) := by
  induction l generalizing s with
  | nil => exact h₀
  | cons _ _ ih => exact ih (grows_advance h₀)

theorem grows_writeBack (h₀ : Grows s₀ s) : Grows s₀ (writeBack k level idx s) := by
  fun_cases writeBack k level idx s with
  | case1 | case2 | case3 | case4 => exact h₀
  | case5 => exact grows_beginSweep h₀
  | case6 => exact grows_writeNodesOut (grows_regionMod (grows_advance h₀))

theorem grows_makeRoom (h₀ : Grows s₀ s) : Grows s₀ (makeRoom e s) := by
  refine .ite h₀ ?_
  split
  · exact h₀
  · split
    · exact .ite (grows_writeBack h₀) (grows_regionMod h₀)
    · exact h₀

theorem grows_cacheNode {n : Node} (h₀ : Grows s₀ s) : Grows s₀ (cacheNode k level idx n s) := by
  unfold cacheNode
  split
  · exact h₀
  · exact .ite (.set (grows_regionMod (grows_makeRoom h₀))) (grows_makeRoom h₀)

theorem grows_walkNode (h₀ : Grows s₀ s) : Grows s₀ (walkNode k level idx s) := by
  unfold walkNode
  split
  · exact h₀
  · refine .ite h₀ ?_
    split
    · exact h₀
    · refine .ite (grows_cacheNode h₀) ?_
      split
      · exact h₀
      · exact .ite (grows_cacheNode h₀) (grows_gongHalt h₀)

theorem grows_walk (h₀ : Grows s₀ s) : Grows s₀ (walk k leaf n s) := by
  induction n generalizing s with
  | zero => exact h₀
  | succ _ ih => exact ih (grows_walkNode h₀)

theorem grows_touchPath (h₀ : Grows s₀ s) : Grows s₀ (touchPath k leaf s) := .set (grows_regionMod h₀)
theorem grows_jobMod {g : PoolJob → PoolJob} (h₀ : Grows s₀ s) : Grows s₀ (jobMod id g s) := .set h₀

theorem grows_walkAll {h : Nat} (h₀ : Grows s₀ s) : Grows s₀ (walkAll k h l s) := by
  induction l generalizing s with
  | nil => exact h₀
  | cons _ _ ih => exact ih (grows_walk h₀)

theorem grows_issueFetches (h₀ : Grows s₀ s) : Grows s₀ (issueFetches id s) := by
  unfold issueFetches
  dsimp only
  split
  · exact h₀
  · split
    · exact h₀
    · exact .ite h₀ (grows_jobMod (grows_sendAll (grows_sendAll (grows_regionMod (grows_sendAll h₀)))))

theorem grows_answerMember {member : BitVec 12} {job : W16} {ret : BitVec 4} {ptag : W32} {pop : Byte} {rid : BitVec 40} (h₀ : Grows s₀ s) :
    Grows s₀ (answerMember member job ret ptag pop rid offset length status data s) := by
  unfold answerMember
  dsimp only
  split
  · exact h₀
  · exact .ite h₀ (grows_enqueue h₀)

theorem grows_sendMgmt {dst : BitVec 12} {bytes : List Byte} (h₀ : Grows s₀ s) : Grows s₀ (sendMgmt f dst bytes s) := by
  unfold sendMgmt
  split
  · exact grows_enqueue h₀
  · exact h₀

theorem grows_cancelOffer {nk : BitVec 12} {step : Nat} {st : W16} {d : W32} (h₀ : Grows s₀ s) :
    Grows s₀ (cancelOffer k nk step st d s) := by
  unfold cancelOffer
  split
  · exact .ite (grows_sendMgmt h₀) h₀
  · exact h₀

theorem grows_clearJobWaits (h₀ : Grows s₀ s) : Grows s₀ (clearJobWaits id s) := grows_stampMet (.set h₀)
theorem grows_doneLocal (h₀ : Grows s₀ s) : Grows s₀ (doneLocal f ctx gen status s) := .ite (grows_emit h₀) (grows_countFn h₀)
theorem grows_holdRead {fport job : Nat} (h₀ : Grows s₀ s) : Grows s₀ (holdRead fport f ctx gen job data s) := grows_emit (.set h₀)

theorem grows_finishJob (h₀ : Grows s₀ s) : Grows s₀ (finishJob id status detail data s) := by
  unfold finishJob
  split
  · exact h₀
  · split
    · exact .ite (grows_doneLocal (grows_clearJobWaits (.set h₀))) (grows_holdRead (.set h₀))
    · exact grows_answerMember (.set (grows_clearJobWaits h₀))
    · exact .ite (.set h₀) (grows_emit (.set h₀))
    · exact .ite (.set (grows_clearJobWaits h₀)) (grows_jobMod (grows_clearJobWaits h₀))

theorem grows_finishJobs {p : PoolJob → Bool} {l : List PoolJob} (h₀ : Grows s₀ s) : Grows s₀ (finishJobs p status detail l s) := by
  induction l generalizing s with
  | nil => exact h₀
  | cons _ _ ih => exact ih (.ite (grows_finishJob h₀) h₀)

theorem grows_settleJob (h₀ : Grows s₀ s) : Grows s₀ (settleJob id s) := by
  unfold settleJob
  split
  · exact h₀
  · exact .ite (grows_finishJob h₀) h₀

theorem grows_beginSweeps (h₀ : Grows s₀ s) : Grows s₀ (beginSweeps k l s) := by
  induction l generalizing s with
  | nil => exact h₀
  | cons _ _ ih => exact ih (grows_beginSweep h₀)

theorem grows_bufferLines {l : List (Nat × Line)} (h₀ : Grows s₀ s) : Grows s₀ (bufferLines k l s) := grows_regionMod h₀

theorem grows_runWrite {j : PoolJob} (h₀ : Grows s₀ s) : Grows s₀ (runWrite id j r s) :=
  .ite (grows_finishJob h₀) (.ite (grows_beginSweeps h₀) (grows_jobMod (grows_regionMod (grows_writeLinesOut (grows_advanceLines
    (grows_bufferLines h₀))))))

theorem grows_showLines (h₀ : Grows s₀ s) : Grows s₀ (showLines id s) := by
  unfold showLines
  split
  · exact h₀
  · split
    · exact grows_foldl (fun _ _ => grows_emit .refl) (grows_jobMod h₀)
    · exact h₀

theorem grows_runJob (h₀ : Grows s₀ s) : Grows s₀ (runJob id s) := by
  unfold runJob
  dsimp only
  split
  · exact h₀
  · split
    · exact h₀
    · split
      · exact grows_gongHalt h₀
      · split
        · exact .ite h₀ (grows_finishJob h₀)
        · refine .ite h₀ ?_
          split
          · exact grows_finishJob (grows_eachIdx (fun _ _ => grows_touchPath .refl) h₀)
          · exact grows_runWrite (grows_eachIdx (fun _ _ => grows_touchPath .refl) h₀)

theorem grows_advanceJob (h₀ : Grows s₀ s) : Grows s₀ (advanceJob id s) := by
  unfold advanceJob
  split
  · exact h₀
  · refine .ite (grows_settleJob h₀) ?_
    split
    · exact h₀
    · exact .ite (grows_cacheKid h₀) (.ite (grows_showLines (grows_issueFetches (grows_walkAll (grows_cacheKid h₀)))) (grows_runJob
      (grows_showLines (grows_issueFetches (grows_walkAll (grows_cacheKid h₀))))))

theorem grows_advanceJobs (h₀ : Grows s₀ s) : Grows s₀ (advanceJobs l s) := by
  induction l generalizing s with
  | nil => exact h₀
  | cons _ _ ih => exact ih (grows_advanceJob h₀)

theorem grows_flushHeld (h₀ : Grows s₀ s) : Grows s₀ (flushHeld k s) := by
  unfold flushHeld
  split
  · exact h₀
  · exact .set (grows_regionMod (grows_writeLinesOut (grows_advanceLines (grows_beginSweeps (grows_finishJobs (grows_finishJobs h₀))))))

theorem grows_sweepMod {g : SweepSt → SweepSt} (h₀ : Grows s₀ s) : Grows s₀ (sweepMod k level idx g s) := grows_regionMod h₀

theorem grows_sweepLeaf (h₀ : Grows s₀ s) : Grows s₀ (sweepLeaf k r w s) :=
  .ite (grows_regionMod (grows_writeLinesOut (grows_bufferLines h₀))) (.ite (grows_sweepMod (grows_sendAll h₀)) h₀)

theorem grows_sweepInner (h₀ : Grows s₀ s) : Grows s₀ (sweepInner k r w s) := by
  unfold sweepInner
  dsimp only
  split
  · exact grows_gongHalt h₀
  · exact .ite (grows_regionMod (grows_writeNodesOut h₀)) (.ite (grows_sweepMod (grows_sendAll h₀)) h₀)

theorem grows_sweepAll {l : List SweepSt} (h₀ : Grows s₀ s) : Grows s₀ (sweepAll k l s) := by
  induction l generalizing s with
  | nil => exact h₀
  | cons _ _ ih =>
    refine ih ?_
    refine .ite ?_ h₀
    split
    · exact .ite (grows_sweepLeaf h₀) (grows_sweepInner h₀)
    · exact h₀

theorem grows_eachRegion (h₀ : Grows s₀ s) : Grows s₀ (eachRegion l s) := by
  induction l generalizing s with
  | nil => exact h₀
  | cons _ _ ih =>
    refine ih ?_
    split
    · exact grows_sweepAll (grows_flushHeld h₀)
    · exact grows_flushHeld h₀

theorem grows_poolRounds (h₀ : Grows s₀ s) : Grows s₀ (poolRounds n s) := by
  induction n generalizing s with
  | zero => exact h₀
  | succ _ ih => exact ih (grows_eachRegion (grows_advanceJobs h₀))

theorem grows_trimDirty (h₀ : Grows s₀ s) : Grows s₀ (trimDirty e n s) := by
  induction n generalizing s with
  | zero => exact h₀
  | succ _ ih =>
    refine .ite h₀ ?_
    split
    · exact h₀
    · exact ih (grows_writeBack h₀)

theorem grows_poolPump (h₀ : Grows s₀ s) : Grows s₀ (poolPump s) :=
  .ite h₀ (grows_eachIdx (fun _ _ => grows_trimDirty .refl) (grows_poolRounds h₀))

theorem grows_addJob {from_ : PoolFrom} {kind : PoolKind} (h₀ : Grows s₀ s) : Grows s₀ (addJob k from_ kind offset length data s).2 :=
  .set h₀

theorem grows_writeBackLevel (h₀ : Grows s₀ s) : Grows s₀ (writeBackLevel k level s) := by
  unfold writeBackLevel
  split
  · exact h₀
  · exact grows_writeNodesOut (grows_regionMod (grows_eachIdx (fun _ _ => grows_advance .refl) (grows_eachIdx (fun _ _ => grows_beginSweep
    .refl) h₀)))

theorem grows_writeBackAll {n' : Nat} (h₀ : Grows s₀ s) : Grows s₀ (writeBackAll k n n' s) := by
  induction n generalizing s n' with
  | zero => exact h₀
  | succ _ ih => exact ih (grows_writeBackLevel h₀)

theorem grows_dropRegion (h₀ : Grows s₀ s) : Grows s₀ (dropRegion k s) := .set h₀

theorem grows_parkRegion (h₀ : Grows s₀ s) : Grows s₀ (parkRegion k s) := by
  unfold parkRegion
  split
  · exact h₀
  · exact .ite (grows_dropRegion h₀) (grows_dropRegion (.set h₀))

theorem grows_unparkFences (h₀ : Grows s₀ s) : Grows s₀ (unparkFences k s) := by
  unfold unparkFences
  dsimp only
  split
  · exact h₀
  · split
    · exact grows_regionMod (.set h₀)
    · exact h₀

theorem grows_loseRegion (h₀ : Grows s₀ s) : Grows s₀ (loseRegion k s) := by
  unfold loseRegion
  split
  · exact h₀
  · exact grows_finishJobs (grows_regionMod (.set h₀))

theorem grows_freeRegion (h₀ : Grows s₀ s) : Grows s₀ (freeRegion k s) := by
  unfold freeRegion
  split
  · exact h₀
  · exact .ite (grows_dropRegion h₀) (grows_newExch (grows_dropRegion h₀))

end Sys2Proof.Machine
end

section
/-! SUPPORT. What the losses of peers, of neighbours and of homes keep of the queue and of the outputs. -/
namespace Sys2Proof.Machine

variable {s₀ s : State} {pkg : BitVec 12} {port : Fin 32} {cause : Byte} {p : InProg} {k : Nat} {l : List InProg} {gone : W16 → W32 → Bool}

theorem grows_endPeerLost (h₀ : Grows s₀ s) : Grows s₀ (endPeerLost pkg p s) := grows_complete h₀

theorem grows_undoEntry {dir : Nat} {dirIndex : W32} {step jobId : Nat} (h₀ : Grows s₀ s) :
    Grows s₀ (undoEntry p dir dirIndex step jobId s) := by
  unfold undoEntry
  dsimp only
  split
  · exact .ite (.set h₀) (grows_addJob (.set h₀))
  · exact .set h₀

theorem grows_failRegionCmds {home : BitVec 12} (h₀ : Grows s₀ s) : Grows s₀ (failRegionCmds k home l s) := by
  induction l generalizing s with
  | nil => exact h₀
  | cons _ _ ih =>
    refine ih ?_
    refine .ite h₀ ?_
    split
    · exact grows_endPeerLost (grows_releaseKid (.set h₀))
    · exact grows_endPeerLost (grows_releaseKid (.set h₀))
    · exact .ite (grows_endPeerLost (grows_undoEntry h₀)) (.ite (grows_endPeerLost (grows_regionMod h₀)) h₀)
    · exact .ite (grows_endPeerLost (grows_cancelOffer h₀)) h₀
    · exact h₀

theorem grows_regionLost (h₀ : Grows s₀ s) : Grows s₀ (regionLost k s) := by
  unfold regionLost
  split
  · exact h₀
  · exact grows_asyncRecord (grows_failRegionCmds (grows_loseRegion h₀))

theorem grows_regionsLost {l : List Nat} (h₀ : Grows s₀ s) : Grows s₀ (regionsLost l s) := by
  induction l generalizing s with
  | nil => exact h₀
  | cons _ _ ih =>
    unfold regionsLost
    split
    · exact ih h₀
    · exact ih (grows_failRegionCmds (grows_loseRegion h₀))

theorem grows_purgeQueue (h₀ : Grows s₀ s) : Grows s₀ (purgeQueue gone port s) :=
  grows_foldl (fun _ _ => grows_countPort .refl) (grows_portMod h₀)

theorem grows_purgeWaits {l : List WaitSt} (h₀ : Grows s₀ s) : Grows s₀ (purgeWaits gone l s) := by
  induction l generalizing s with
  | nil => exact h₀
  | cons _ _ ih => exact .ite (ih (grows_returnCredits (grows_countPort (.set h₀)))) (ih h₀)

theorem grows_failStreamCmds (h₀ : Grows s₀ s) : Grows s₀ (failStreamCmds pkg l s) := by
  induction l generalizing s with
  | nil => exact h₀
  | cons _ _ ih =>
    refine ih ?_
    split
    · exact .ite (grows_endPeerLost (grows_releaseKid h₀)) h₀
    · exact .ite (grows_endPeerLost (grows_releaseKid (grows_releaseKid h₀))) h₀
    · exact .ite (grows_endPeerLost h₀) h₀
    · exact .ite (grows_endPeerLost h₀) h₀
    · exact .ite (grows_endPeerLost (grows_regionMod h₀)) h₀
    · exact h₀

theorem grows_breakFences {shared : Bool} {f : Fn} {l : List Nat} (h₀ : Grows s₀ s) : Grows s₀ (breakFences pkg shared f l s) := by
  induction l generalizing s with
  | nil => exact h₀
  | cons _ _ ih => exact ih (.ite (grows_setErr h₀) h₀)

theorem grows_breakAll {sharing l : List Fn} (h₀ : Grows s₀ s) : Grows s₀ (breakAll pkg sharing l s) := by
  induction l generalizing s with
  | nil => exact h₀
  | cons _ _ ih => exact ih (grows_breakFences h₀)

theorem grows_reportLost {l : List Fn} (h₀ : Grows s₀ s) : Grows s₀ (reportLost pkg l s) := by
  induction l generalizing s with
  | nil => exact h₀
  | cons _ _ ih => exact ih (grows_asyncRecord h₀)

theorem grows_failMembers (h₀ : Grows s₀ s) : Grows s₀ (failMembers pkg s) := grows_foldl (fun _ _ => grows_emit .refl) (.set h₀)

theorem grows_peerLoss (h₀ : Grows s₀ s) : Grows s₀ (peerLoss pkg s) :=
  grows_poolPump (grows_reportLost (grows_trace (.set (grows_foldl (fun _ _ => grows_releaseKid (.set .refl)) (grows_failMembers
    (grows_regionsLost (grows_purgeWaits (grows_eachPort (fun _ _ => grows_purgeQueue .refl) (grows_breakAll (.set (grows_failStreamCmds
    (grows_retireKids (.set h₀)))))))))))))

theorem grows_purgeForwards (h₀ : Grows s₀ s) : Grows s₀ (purgeForwards port s) := by
  refine grows_returnQueued ?_
  refine grows_foldl ?_ (grows_portMod h₀)
  intro _ _
  split
  · exact grows_countPort .refl
  · exact .refl

theorem grows_proxyKnells {lostBoot : W64} {l : List (BitVec 12)} (h₀ : Grows s₀ s) :
    Grows s₀ (proxyKnells port pkg cause lostBoot l s) := by
  induction l generalizing s with
  | nil => exact h₀
  | cons _ _ ih =>
    refine ih ?_
    split
    · exact grows_sendControl (grows_portMod h₀)
    · exact grows_countPort h₀

theorem grows_neighbourLost (h₀ : Grows s₀ s) : Grows s₀ (neighbourLost port cause s) := by
  refine .ite h₀ ?_
  split
  · exact grows_purgeForwards (grows_portMod h₀)
  · exact grows_peerLoss (grows_proxyKnells (.ite (grows_sendControl (grows_portMod (grows_purgeForwards (grows_portMod h₀))))
    (grows_purgeForwards (grows_portMod h₀))))

theorem grows_portLost (h₀ : Grows s₀ s) : Grows s₀ (portLost port cause s) := grows_takeDown (grows_neighbourLost (grows_portMod h₀))

end Sys2Proof.Machine
end

section
/-! SUPPORT. What the operations of the Tabor gate keep of the queue and of the outputs. -/
namespace Sys2Proof.Machine

variable {s₀ s : State} {v : ViewId} {f : Fn}

theorem grows_viewMod {g : ViewSt → ViewSt} (h₀ : Grows s₀ s) : Grows s₀ (viewMod v g s) := by
  unfold viewMod
  split <;> exact .set h₀

theorem grows_applyEvents {l : List TaborEv} (h₀ : Grows s₀ s) : Grows s₀ (applyEvents l s) := by
  induction l generalizing s with
  | nil => exact h₀
  | cons _ _ ih => exact ih (grows_countOp h₀)

theorem grows_applyBefore {fn : Nat} {tick : Option Nat} (h₀ : Grows s₀ s) : Grows s₀ (applyBefore fn tick s) := grows_applyEvents (.set h₀)
theorem grows_closeWindow (h₀ : Grows s₀ s) : Grows s₀ (closeWindow v s) := grows_viewMod h₀

theorem grows_windowEnd (h₀ : Grows s₀ s) : Grows s₀ (windowEnd v s) := by
  unfold windowEnd
  split
  · exact grows_traceVf (grows_viewMod (grows_closeWindow (grows_applyBefore h₀)))
  · exact grows_viewMod (grows_closeWindow (grows_applyBefore h₀))

theorem grows_resetViews (h₀ : Grows s₀ s) : Grows s₀ (resetViews f s) := by
  unfold resetViews
  split
  · exact h₀
  · exact .set (grows_viewMod (grows_viewMod (grows_closeWindow (grows_applyBefore h₀))))

theorem grows_freezeViews (h₀ : Grows s₀ s) : Grows s₀ (freezeViews f s) := by
  unfold freezeViews
  split
  · exact h₀
  · exact grows_viewMod (grows_viewMod (.set (grows_closeWindow (grows_closeWindow (grows_applyBefore h₀)))))

end Sys2Proof.Machine
end

section
/-! SUPPORT. What the ends of contexts, of jobs and of VFs keep of the queue and of the outputs. -/
namespace Sys2Proof.Machine

variable {s₀ s : State} {f : Fn} {ctx : W16} {l : List Fn} {k : Nat} {p : InProg} {self : Fn × W32} {any : Bool} {c : CleanSt}

theorem grows_closeStreams {p : Fn → W16 → Bool} (h₀ : Grows s₀ s) : Grows s₀ (closeStreams p s) :=
  grows_retireKids (grows_purgeWaits (grows_eachPort (fun _ _ => grows_purgeQueue .refl) (.set h₀)))

theorem grows_countFnN {code n : Nat} (h₀ : Grows s₀ s) : Grows s₀ (countFnN f code n s) := by
  induction n generalizing s with
  | zero => exact h₀
  | succ _ ih => exact ih (grows_countFn h₀)

theorem grows_uncacheCtx (h₀ : Grows s₀ s) : Grows s₀ (uncacheCtx f ctx s) := grows_foldl (fun _ _ => grows_finishRetire .refl) (.set h₀)

theorem grows_foldSet (h₀ : Grows s₀ s) : Grows s₀ (foldSet f ctx s) := by
  unfold foldSet
  split
  · exact h₀
  · exact grows_emit (.set h₀)

theorem grows_clearCtx (h₀ : Grows s₀ s) : Grows s₀ (clearCtx f ctx s) :=
  grows_foldSet (.set (grows_uncacheCtx (grows_closeStreams (grows_countFnN (.set h₀)))))

theorem grows_toScrubber {opcode : W32} {carve : Option Nat} {l : List (Nat × Nat)} (h₀ : Grows s₀ s) :
    Grows s₀ (toScrubber opcode carve l s) :=
  .set h₀

theorem grows_freeObj {i : Nat} {o : ObjSt} (h₀ : Grows s₀ s) : Grows s₀ (freeObj f i o s) :=
  .ite (grows_toScrubber (grows_fnMod h₀)) (grows_fnMod h₀)

theorem grows_settleObjs {l : FMap ObjSt} (h₀ : Grows s₀ s) : Grows s₀ (settleObjs f l s) := by
  induction l generalizing s with
  | nil => exact h₀
  | cons _ _ ih => exact ih (.ite (grows_freeObj h₀) h₀)

theorem grows_settleAllObjs (h₀ : Grows s₀ s) : Grows s₀ (settleAllObjs l s) := by
  induction l generalizing s with
  | nil => exact h₀
  | cons _ _ ih => exact ih (grows_settleObjs h₀)

theorem grows_unmapObjs {p : ObjSt → Bool} {scrub : Bool} (h₀ : Grows s₀ s) : Grows s₀ (unmapObjs f p scrub s) := grows_fnMod h₀

theorem grows_closeBulk (h₀ : Grows s₀ s) : Grows s₀ (closeBulk k s) := by
  unfold closeBulk
  split
  · exact h₀
  · exact .ite (.set h₀) (grows_finishRetire (grows_uncacheKid (.set h₀)))

theorem grows_closeBulks {p : BulkCtx → Bool} (h₀ : Grows s₀ s) : Grows s₀ (closeBulks p s) :=
  grows_eachIdx (fun _ _ => grows_closeBulk .refl) h₀

theorem grows_resetEngine {e : Nat} (h₀ : Grows s₀ s) : Grows s₀ (resetEngine e s) :=
  grows_foldl (fun _ _ => grows_finishRetire .refl) (grows_clearCache (.set (.set h₀)))

theorem grows_endReplay (h₀ : Grows s₀ s) : Grows s₀ (endReplay s) := by
  unfold endReplay
  split
  · exact grows_resetEngine (.set h₀)
  · exact h₀

theorem grows_releaseHolds (h₀ : Grows s₀ s) : Grows s₀ (releaseHolds p s) := by
  unfold releaseHolds
  split
  · exact grows_releaseKid h₀
  · exact grows_releaseKid (.set h₀)
  · exact grows_releaseKid (.set h₀)
  · exact .ite (grows_regionMod h₀) (grows_parkRegion h₀)
  · exact .ite (grows_regionMod (grows_cancelOffer h₀)) (grows_dropRegion h₀)
  · exact grows_freeRegion h₀
  · exact grows_releaseKid h₀
  · exact .ite (grows_retireKids (.set (.ite (grows_retireKid (.set h₀)) (grows_releaseKid h₀)))) (grows_releaseKid (.ite (grows_retireKid
    (.set h₀)) (grows_releaseKid h₀)))
  · exact grows_releaseKid h₀
  · exact grows_releaseKid h₀
  · exact grows_endReplay h₀
  · exact h₀

theorem grows_leaveOut {q : InProg} (h₀ : Grows s₀ s) : Grows s₀ (leaveOut q s) := .ite (.set h₀) h₀

theorem grows_abortCmd (h₀ : Grows s₀ s) : Grows s₀ (abortCmd p s) := by
  unfold abortCmd
  split
  · exact h₀
  · exact grows_complete (grows_releaseHolds (grows_leaveOut h₀))

theorem grows_abortCmds {l : List InProg} (h₀ : Grows s₀ s) : Grows s₀ (abortCmds l s) := by
  induction l generalizing s with
  | nil => exact h₀
  | cons _ _ ih => exact ih (grows_abortCmd h₀)

theorem grows_switchBulk (h₀ : Grows s₀ s) : Grows s₀ (switchBulk f ctx s) :=
  .set (grows_foldl (fun _ _ => grows_finishRetire (grows_uncacheKid .refl)) (grows_abortCmds h₀))

theorem grows_beginFree {opcode : Byte} (h₀ : Grows s₀ s) : Grows s₀ (beginFree opcode k s) := by
  unfold beginFree
  split
  · exact h₀
  · exact .ite (grows_retireKid (grows_regionMod h₀)) (grows_regionMod h₀)

theorem grows_endRegion (h₀ : Grows s₀ s) : Grows s₀ (endRegion k s) := by
  unfold endRegion
  split
  · exact h₀
  · exact .ite (grows_dropRegion h₀) (grows_freeRegion h₀)

theorem grows_endRegions {l : List Nat} (h₀ : Grows s₀ s) : Grows s₀ (endRegions l s) := by
  induction l generalizing s with
  | nil => exact h₀
  | cons _ _ ih => exact ih (grows_endRegion h₀)

theorem grows_beginEnd (h₀ : Grows s₀ s) : Grows s₀ (beginEnd f s) :=
  grows_retireKids (grows_eachIdx (fun _ _ => grows_beginFree .refl) (grows_closeStreams h₀))

theorem grows_unbind (h₀ : Grows s₀ s) : Grows s₀ (unbind f s) := by
  unfold unbind
  split
  · exact h₀
  · exact .set (grows_fnMod h₀)

theorem grows_abandonCtx (h₀ : Grows s₀ s) : Grows s₀ (abandonCtx f ctx self s).2.2 := by
  unfold abandonCtx
  dsimp only
  exact grows_retireKids (grows_eachIdx (fun _ _ => grows_beginFree .refl) (grows_closeBulks (grows_unmapObjs (grows_abandonFences
    (grows_abortCmds (grows_clearCtx (grows_fnMod h₀)))))))

theorem grows_abandonAll {l : List Nat} (h₀ : Grows s₀ s) : Grows s₀ (abandonAll f self l s) := by
  induction l generalizing s with
  | nil => exact h₀
  | cons _ _ ih => exact ih (grows_abandonCtx h₀)

theorem grows_blockCarve (h₀ : Grows s₀ s) : Grows s₀ (blockCarve k s) := .ite h₀ (.set h₀)

theorem grows_startCleanup {byReset : Option (Fn × W32)} (h₀ : Grows s₀ s) : Grows s₀ (startCleanup f byReset s) := by
  refine .ite ?_ (grows_resetViews (grows_fnMod (grows_retireKids (grows_closeBulks (grows_beginEnd (grows_freeAllFences (grows_unmapObjs
    (grows_abandonAll (grows_abortCmds (grows_ringMod h₀))))))))))
  split
  · exact grows_fnMod h₀
  · exact h₀

theorem grows_tdiError (h₀ : Grows s₀ s) : Grows s₀ (tdiError any f s) := .ite (grows_startCleanup (grows_fnMod h₀)) h₀

theorem grows_tdisErrorClean (h₀ : Grows s₀ s) : Grows s₀ (tdisErrorClean any l s) := by
  induction l generalizing s with
  | nil => exact h₀
  | cons _ _ ih => exact ih (grows_tdiError h₀)

theorem grows_answerStops {l : List (BitVec 1)} (h₀ : Grows s₀ s) : Grows s₀ (answerStops f l s) := by
  induction l generalizing s with
  | nil => exact h₀
  | cons _ _ ih => exact ih (grows_emit h₀)

theorem grows_disableRing (h₀ : Grows s₀ s) : Grows s₀ (disableRing f s) := grows_settleRing (grows_ringMod h₀)
theorem grows_flushFn (h₀ : Grows s₀ s) : Grows s₀ (flushFn f s) := .ite (grows_emit h₀) h₀

theorem grows_flushFns (h₀ : Grows s₀ s) : Grows s₀ (flushFns l s) := by
  induction l generalizing s with
  | nil => exact h₀
  | cons _ _ ih => exact ih (grows_flushFn h₀)

theorem grows_blockCarves (h₀ : Grows s₀ s) : Grows s₀ (blockCarves f s) :=
  grows_fnMod (grows_eachIdx (fun _ _ => grows_blockCarve .refl) (grows_unbind (grows_endRegions h₀)))

theorem grows_endCleanup (h₀ : Grows s₀ s) : Grows s₀ (endCleanup f c s) := by
  unfold endCleanup
  dsimp only
  refine grows_answerStops ?_
  refine .ite ?_ ?_
  · split
    · split
      · exact grows_complete (grows_disableRing (grows_trace (grows_asyncRecord (grows_flushFn (grows_fnMod h₀)))))
      · exact grows_disableRing (grows_trace (grows_asyncRecord (grows_flushFn (grows_fnMod h₀))))
    · exact grows_disableRing (grows_fnMod h₀)
  · refine grows_fnMod ?_
    split
    · split
      · exact grows_complete (grows_disableRing (grows_trace (grows_asyncRecord (grows_flushFn (grows_fnMod h₀)))))
      · exact grows_disableRing (grows_trace (grows_asyncRecord (grows_flushFn (grows_fnMod h₀))))
    · exact grows_disableRing (grows_fnMod h₀)

theorem grows_settleCleanup (h₀ : Grows s₀ s) : Grows s₀ (settleCleanup f c s) :=
  .ite h₀ (.ite (.ite h₀ (grows_blockCarves h₀)) (grows_endCleanup (.ite h₀ (grows_blockCarves h₀))))

theorem grows_settleCleanups (h₀ : Grows s₀ s) : Grows s₀ (settleCleanups l s) := by
  induction l generalizing s with
  | nil => exact h₀
  | cons _ _ ih =>
    refine ih ?_
    split
    · exact grows_settleCleanup h₀
    · exact h₀

end Sys2Proof.Machine
end

section
/-! SUPPORT. What the last parts of commands on keys, regions, streams and partitions keep of the queue and of the outputs. -/
namespace Sys2Proof.Machine

variable {s₀ s : State} {job jobId kid : W16} {key step : Nat} {f vf : Fn} {p : InProg} {sid : W32}

theorem grows_goOn {hold : Hold} {act : Act} (h₀ : Grows s₀ s) : Grows s₀ (goOn p hold act s) := grows_holdCmd h₀

theorem grows_claimAll {l : List (BitVec 12 × W16)} (h₀ : Grows s₀ s) : Grows s₀ (claimAll f job l s) := by
  induction l generalizing s with
  | nil => exact h₀
  | cons _ _ ih => exact ih (.ite (grows_countFn h₀) (.set h₀))

theorem grows_applyFilter {x : FilterImage} (h₀ : Grows s₀ s) : Grows s₀ (applyFilter f x s) := .ite (grows_claimAll h₀) (grows_countFn h₀)

theorem grows_actJoin {key : Key} {ok : Bool} (h₀ : Grows s₀ s) : Grows s₀ (actJoin p jobId kid key ok s) := by
  refine .ite (grows_complete (grows_releaseKid h₀)) ?_
  refine grows_complete ?_
  split
  · exact .ite (grows_applyFilter (grows_fnMod (grows_fnMod (grows_activateKid (grows_placeKey h₀))))) (grows_fnMod (grows_activateKid
    (grows_placeKey h₀)))
  · exact grows_fnMod (grows_activateKid (grows_placeKey h₀))

theorem grows_actLeave (h₀ : Grows s₀ s) : Grows s₀ (actLeave p jobId s) := grows_goOn (grows_beginEnd h₀)

theorem grows_actLeaveDone {keys : List Nat} (h₀ : Grows s₀ s) : Grows s₀ (actLeaveDone p keys s) :=
  grows_complete (grows_unbind (grows_endRegions h₀))

theorem grows_cmdJob {k : Nat} {kind : PoolKind} {offset length : Nat} {data : List Byte} (h₀ : Grows s₀ s) :
    Grows s₀ (cmdJob p k kind offset length data s).2 :=
  grows_addJob h₀

theorem grows_takeJob {id : Nat} (h₀ : Grows s₀ s) : Grows s₀ (takeJob id s).2.2.2 := by
  unfold takeJob
  split
  · exact .set h₀
  · exact h₀

theorem grows_actPark {jobId : Nat} (h₀ : Grows s₀ s) : Grows s₀ (actPark p key dir kid dirIndex durable step jobId s) := by
  have hjob : Grows s₀ (takeJob jobId s).2.2.2 := grows_takeJob h₀
  unfold actPark
  split
  · dsimp only
    split
    · exact .ite (grows_complete (grows_regionMod hjob)) (.ite (grows_complete (grows_regionMod hjob)) (grows_goOn hjob))
    · exact .ite (grows_poolPump (grows_goOn (grows_cmdJob h₀))) (grows_poolPump (grows_writeBackAll h₀))
    · exact .ite (grows_complete (grows_regionMod hjob)) (.ite (grows_goOn hjob) (grows_goOn (grows_retireKid hjob)))
    · exact grows_goOn (grows_retireKid h₀)
    · exact grows_complete (grows_parkRegion h₀)
  · exact grows_complete (grows_regionMod h₀)

theorem grows_failResume {st : W16} {dt : W32} (h₀ : Grows s₀ s) : Grows s₀ (failResume p key kid st dt s) :=
  grows_complete (grows_releaseKid (.set h₀))

theorem grows_actResume {jobId : Nat} (h₀ : Grows s₀ s) : Grows s₀ (actResume p key dir kid dirIndex durable step jobId s) := by
  have hjob : Grows s₀ (takeJob jobId s).2.2.2 := grows_takeJob h₀
  unfold actResume
  split
  · dsimp only
    split
    · refine .ite (grows_failResume hjob) (.ite (grows_failResume hjob) ?_)
      split
      · exact grows_failResume hjob
      · exact .ite (grows_failResume hjob) (grows_poolPump (grows_goOn (grows_cmdJob (grows_regionMod (grows_placeKey hjob)))))
    · exact .ite (grows_failResume hjob) (grows_goOn hjob)
    · exact grows_complete (grows_regionMod (grows_activateKid (grows_unparkFences h₀)))
  · exact grows_failResume h₀

theorem grows_actHandover {newKeeper : BitVec 12} (h₀ : Grows s₀ s) : Grows s₀ (actHandover p key newKeeper step s) := by
  unfold actHandover
  split
  · exact grows_complete h₀
  · exact .ite (.ite (grows_goOn (grows_sendMgmt h₀)) (grows_poolPump (grows_writeBackAll h₀))) (grows_complete (grows_dropRegion h₀))

theorem grows_actReduce {ids : List Nat} (h₀ : Grows s₀ s) : Grows s₀ (actReduce p ids s) := by
  unfold actReduce
  dsimp only
  split <;> exact grows_complete (.set h₀)

theorem grows_actRotate (h₀ : Grows s₀ s) : Grows s₀ (actRotate p job sid s) := by
  unfold actRotate
  split
  · exact grows_complete (grows_activateKid h₀)
  · exact grows_complete h₀

theorem grows_actClose {sending receiving : Bool} (h₀ : Grows s₀ s) : Grows s₀ (actClose p sid job sending receiving s) :=
  .ite (grows_goOn (grows_endSend h₀)) (.ite h₀ (grows_complete h₀))

theorem grows_actCarve {base limit : Nat} (h₀ : Grows s₀ s) : Grows s₀ (actCarve p key base limit step s) := by
  refine .ite ?_ (.ite (grows_goOn (.set h₀)) (grows_complete h₀))
  split
  · exact grows_goOn h₀
  · exact grows_complete h₀

theorem grows_actAbandon {newGen : W16} {regions : List Nat} (h₀ : Grows s₀ s) : Grows s₀ (actAbandon p newGen regions s) :=
  grows_complete (grows_eachIdx (fun _ _ => grows_freeRegion .refl) h₀)

theorem grows_actReset (h₀ : Grows s₀ s) : Grows s₀ (actReset p vf s) :=
  grows_startCleanup (.ite (grows_fnMod (grows_goOn h₀)) (grows_goOn h₀))

theorem grows_actFreeze (h₀ : Grows s₀ s) : Grows s₀ (actFreeze p vf step s) :=
  .ite (grows_goOn (.set (grows_closeStreams (grows_fnMod h₀)))) (grows_complete (grows_freezeViews h₀))

end Sys2Proof.Machine
end

section
/-! SUPPORT. What the firewall's and the carve-out table's operations keep of the queue and of the outputs. -/
namespace Sys2Proof.Machine

variable {s₀ s : State} {k n n' : Nat} {f : Fn}

theorem grows_countRefused (h₀ : Grows s₀ s) : Grows s₀ (countRefused f n n' s) := .set (grows_countFn h₀)

theorem grows_markWrite (h₀ : Grows s₀ s) : Grows s₀ (markWrite f n n' s) :=
  .ite (grows_fnMod (.ite (grows_fnMod h₀) h₀)) (.ite (grows_fnMod h₀) h₀)

theorem grows_firewallAccess {m : MemAccess} (h₀ : Grows s₀ s) : Grows s₀ (firewallAccess m s) :=
  .ite h₀ (.ite (grows_emit (.set (.ite (grows_markWrite h₀) h₀))) (grows_emit (grows_countRefused h₀)))

theorem grows_carveMod {g : CarveSt → CarveSt} (h₀ : Grows s₀ s) : Grows s₀ (carveMod k g s) := .set h₀

theorem grows_enterBlocked (h₀ : Grows s₀ s) : Grows s₀ (enterBlocked k s) :=
  .ite (grows_carveMod h₀) (grows_toScrubber (grows_carveMod h₀))

theorem grows_endShrink {base limit : Nat} (h₀ : Grows s₀ s) : Grows s₀ (endShrink k base limit s) :=
  .ite (grows_enterBlocked (grows_carveMod (grows_toScrubber h₀))) (grows_carveMod (grows_toScrubber h₀))

theorem grows_takeMarks {fn : Nat} {cmd : Fn × W32} (h₀ : Grows s₀ s) : Grows s₀ (takeMarks fn cmd s) := by
  unfold takeMarks
  split
  · exact h₀
  · split
    · exact grows_modProg (grows_sendHost (grows_fnMod h₀))
    · exact h₀

theorem grows_applyStaged {c : Staged} (h₀ : Grows s₀ s) : Grows s₀ (applyStaged c s) := by
  unfold applyStaged
  split
  · exact grows_carveMod h₀
  · exact grows_carveMod h₀
  · exact grows_endShrink h₀
  · exact .ite h₀ (grows_enterBlocked h₀)
  · exact grows_carveMod h₀
  · exact grows_eachIdx (fun _ _ => grows_carveMod .refl) h₀
  · exact grows_fnMod h₀
  · exact grows_takeMarks h₀

theorem grows_applyAll {l : List Staged} (h₀ : Grows s₀ s) : Grows s₀ (applyAll l s) := by
  induction l generalizing s with
  | nil => exact h₀
  | cons _ _ ih => exact ih (grows_applyStaged h₀)

theorem grows_passBoundary (h₀ : Grows s₀ s) : Grows s₀ (passBoundary s) := .set h₀
theorem grows_epochBoundary (h₀ : Grows s₀ s) : Grows s₀ (epochBoundary s) := grows_passBoundary (grows_applyAll (.set h₀))

end Sys2Proof.Machine
end

section
/-! SUPPORT. What the bulk engines' operations keep of the queue and of the outputs. -/
namespace Sys2Proof.Machine

variable {s₀ s : State} {dst a : W64} {bctx : W32} {p : InProg} {wrapped : Bool} {r : BulkDone} {op : BulkOperands} {aux : Fetched Aux} {f
  : Fn} {k : Nat} {b : BulkCtx} {rec : Fetched BulkRec}

theorem grows_markSpace {n : Nat} (h₀ : Grows s₀ s) : Grows s₀ (markSpace f a n s) := .ite (grows_markWrite h₀) (grows_markHost h₀)
theorem grows_sendSpace {d : HostData} (h₀ : Grows s₀ s) : Grows s₀ (sendSpace f a d s) := grows_emit (grows_markSpace h₀)

theorem grows_takeTurn {wait : Act} {run : InProg → State → State} (hrun : ∀ x u, Grows u (run x u)) (h₀ : Grows s₀ s) :
    Grows s₀ (takeTurn bctx wait run p s) :=
  .ite (grows_goOn h₀) (.ite (h₀.trans (hrun _ _)) (grows_goOn h₀))

theorem grows_toEngine {act : Act} (h₀ : Grows s₀ s) : Grows s₀ (toEngine p k b act s) :=
  grows_emit (grows_goOn (.ite h₀ (.set (grows_cacheKid h₀))))

theorem grows_beginOp (h₀ : Grows s₀ s) : Grows s₀ (beginOp k b op aux s) := by
  unfold beginOp
  split
  · exact .set h₀
  · exact h₀

theorem grows_startOp (h₀ : Grows s₀ s) : Grows s₀ (startOp p k b bctx op aux s) := grows_toEngine (grows_beginOp h₀)

theorem grows_opNow (h₀ : Grows s₀ s) : Grows s₀ (opNow bctx op aux p s) := by
  unfold opNow
  split
  · exact grows_complete h₀
  · split
    · exact grows_complete h₀
    · exact grows_startOp h₀

theorem grows_actBulkOp (h₀ : Grows s₀ s) : Grows s₀ (actBulkOp p bctx op aux s) := grows_takeTurn (fun _ _ => grows_opNow .refl) h₀

theorem grows_opFinish (h₀ : Grows s₀ s) : Grows s₀ (opFinish f bctx op aux r s).2.2 := by
  unfold opFinish
  dsimp only
  split
  · exact h₀
  · split
    · exact .ite (.set h₀) (grows_sendSpace (.set h₀))
    · exact .ite (grows_sendSpace (.ite (.set h₀) (grows_sendSpace (.set h₀)))) (.ite (.set h₀) (grows_sendSpace (.set h₀)))

theorem grows_opDone (h₀ : Grows s₀ s) : Grows s₀ (opDone p bctx op aux r s) := grows_complete (grows_opFinish h₀)

theorem grows_startBulkOpen {engine mode : Byte} {kid : W16} (h₀ : Grows s₀ s) : Grows s₀ (startBulkOpen engine mode kid p s) := by
  unfold startBulkOpen
  split
  · exact h₀
  · split
    · exact h₀
    · exact grows_complete (.set (.ite h₀ (grows_cacheKid h₀)))

theorem grows_startSave (h₀ : Grows s₀ s) : Grows s₀ (startSave p k b bctx dst wrapped s) := grows_toEngine h₀

theorem grows_saveNow (h₀ : Grows s₀ s) : Grows s₀ (saveNow bctx dst wrapped p s) := by
  unfold saveNow
  split
  · exact grows_complete h₀
  · split
    · exact grows_complete h₀
    · exact grows_startSave h₀

theorem grows_actSave (h₀ : Grows s₀ s) : Grows s₀ (actSave p bctx dst wrapped s) := grows_takeTurn (fun _ _ => grows_saveNow .refl) h₀

theorem grows_saveFinish (h₀ : Grows s₀ s) : Grows s₀ (saveFinish f bctx dst wrapped r s).2.2 := by
  unfold saveFinish
  split
  · exact h₀
  · split
    · exact grows_sendSpace h₀
    · exact h₀

theorem grows_saveDone (h₀ : Grows s₀ s) : Grows s₀ (saveDone p bctx dst wrapped r s) := grows_complete (grows_saveFinish h₀)
theorem grows_startRestore (h₀ : Grows s₀ s) : Grows s₀ (startRestore p k b bctx wrapped rec s) := grows_toEngine h₀

theorem grows_restoreNow (h₀ : Grows s₀ s) : Grows s₀ (restoreNow bctx wrapped rec p s) := by
  unfold restoreNow
  split
  · exact grows_complete h₀
  · split
    · exact grows_complete h₀
    · exact grows_startRestore h₀

theorem grows_actRestore (h₀ : Grows s₀ s) : Grows s₀ (actRestore p bctx wrapped rec s) :=
  grows_takeTurn (fun _ _ => grows_restoreNow .refl) h₀

theorem grows_restoreFinish (h₀ : Grows s₀ s) : Grows s₀ (restoreFinish f bctx wrapped rec r s).2.2 := by
  unfold restoreFinish
  dsimp only
  split
  · split
    · exact h₀
    · exact .ite (grows_finishRetire (grows_uncacheKid (.set h₀))) (.set h₀)
  · exact h₀

theorem grows_restoreDone (h₀ : Grows s₀ s) : Grows s₀ (restoreDone p bctx wrapped rec r s) := grows_complete (grows_restoreFinish h₀)

theorem grows_closeNow (h₀ : Grows s₀ s) : Grows s₀ (closeNow bctx p s) := by
  unfold closeNow
  split
  · exact grows_complete h₀
  · exact grows_complete (grows_closeBulk h₀)

theorem grows_actBulkClose (h₀ : Grows s₀ s) : Grows s₀ (actBulkClose p bctx s) := grows_takeTurn (fun _ _ => grows_closeNow .refl) h₀

theorem grows_engineDone (h₀ : Grows s₀ s) : Grows s₀ (engineDone p r s) := by
  refine .ite h₀ ?_
  split
  · exact grows_opDone h₀
  · exact grows_saveDone h₀
  · exact grows_restoreDone h₀
  · exact h₀

end Sys2Proof.Machine
end

section
/-! SUPPORT. What the start's operations keep of the queue and of the outputs. -/
namespace Sys2Proof.Machine

variable {s₀ s : State} {k base patterns : Nat} {met warm : Bool} {env : StartEnv} {t : TamperSrc} {h : Hash} {units : List Nat} {seed :
  W64}

theorem grows_shadow (h₀ : Grows s₀ s) : Grows s₀ (shadow s) := .set h₀
theorem grows_burnState {bits : W64} (h₀ : Grows s₀ s) : Grows s₀ (burnState bits s) := grows_shadow (.set h₀)
theorem grows_burnMark {m : Nat} (h₀ : Grows s₀ s) : Grows s₀ (burnMark base m s) := grows_shadow (.set h₀)
theorem grows_burnOwner (h₀ : Grows s₀ s) : Grows s₀ (burnOwner k h s) := .set h₀
theorem grows_installOwner (h₀ : Grows s₀ s) : Grows s₀ (installOwner k s) := .ite (grows_burnState (.set h₀)) (grows_shadow (.set h₀))
theorem grows_eraseUser (h₀ : Grows s₀ s) : Grows s₀ (eraseUser s) := grows_emit (.set h₀)
theorem grows_noteSeen (h₀ : Grows s₀ s) : Grows s₀ (noteSeen t s) := .set h₀
theorem grows_setSource (h₀ : Grows s₀ s) : Grows s₀ (setSource t s) := .set h₀
theorem grows_noteSource (h₀ : Grows s₀ s) : Grows s₀ (noteSource t s) := grows_relog (grows_setSource h₀)
theorem grows_raiseLevel (h₀ : Grows s₀ s) : Grows s₀ (raiseLevel t s) := grows_relog (grows_burnKill (.set (grows_setSource h₀)))
theorem grows_fireSource (h₀ : Grows s₀ s) : Grows s₀ (fireSource t s) := grows_tocsin h₀

theorem grows_tamperSource (h₀ : Grows s₀ s) : Grows s₀ (tamperSource t s) :=
  .ite h₀ (.ite (grows_noteSource h₀) (.ite (grows_noteSeen h₀) (.ite (.ite (grows_raiseLevel h₀) (.ite (grows_noteSource (grows_bumpOpen
    h₀)) (grows_bumpOpen h₀))) (grows_fireSource h₀))))

theorem grows_unlessHalted {f : State → State} (hf : ∀ u, Grows u (f u)) (h₀ : Grows s₀ s) : Grows s₀ (unlessHalted f s) :=
  .ite h₀ (h₀.trans (hf _))

theorem grows_afterReset (h₀ : Grows s₀ s) : Grows s₀ (afterReset warm s) := by
  refine ⟨h₀.pending, ?_⟩
  unfold afterReset
  dsimp only
  split
  · exact (grows_hostLost h₀).out
  · exact h₀.out

theorem grows_reloadHalt (h₀ : Grows s₀ s) : Grows s₀ (reloadHalt s) := by
  unfold reloadHalt
  split
  · exact .ite (.set h₀) h₀
  · exact h₀

theorem grows_selectProfile (h₀ : Grows s₀ s) : Grows s₀ (selectProfile warm env s) := .ite (.set h₀) (.set h₀)
theorem grows_readOtp (h₀ : Grows s₀ s) : Grows s₀ (readOtp s) := .ite (grows_burnState (grows_shadow (.set h₀))) (grows_shadow (.set h₀))
theorem grows_finishOwner (h₀ : Grows s₀ s) : Grows s₀ (finishOwner k h s) := grows_installOwner (grows_burnMark (grows_burnOwner h₀))

theorem grows_resumeOwner (h₀ : Grows s₀ s) : Grows s₀ (resumeOwner k s) := by
  refine .ite (grows_installOwner (.ite (grows_burnMark (grows_eraseUser h₀)) h₀)) ?_
  split
  · exact grows_finishOwner (.ite (grows_burnMark (grows_eraseUser h₀)) h₀)
  · exact .set (.ite (grows_burnMark (grows_eraseUser h₀)) h₀)

theorem grows_resumeDestroy {bit : Nat} (h₀ : Grows s₀ s) : Grows s₀ (resumeDestroy base bit s) :=
  grows_burnState (.ite (grows_burnMark (grows_eraseUser (.ite (grows_burnMark (grows_burnKill h₀)) h₀))) (.ite (grows_burnMark
    (grows_burnKill h₀)) h₀))

theorem grows_resume (h₀ : Grows s₀ s) : Grows s₀ (resume s) := by
  refine .ite h₀ ?_
  split
  · exact grows_resumeOwner h₀
  · exact .ite (grows_resumeDestroy (.ite (grows_resumeDestroy h₀) h₀)) (.ite (grows_resumeDestroy h₀) h₀)

theorem grows_provision (h₀ : Grows s₀ s) : Grows s₀ (provision env s) :=
  .ite h₀ (.ite (grows_burnState h₀) (.ite (grows_romHalt h₀) (grows_burnState (grows_bumpDraw (.set h₀)))))

theorem grows_terminal (h₀ : Grows s₀ s) : Grows s₀ (terminal s) := .ite (grows_romHalt h₀) h₀
theorem grows_advanceBoot (h₀ : Grows s₀ s) : Grows s₀ (advanceBoot env s) := .ite h₀ (.ite (grows_romHalt h₀) (.set h₀))

theorem grows_drawNonce (h₀ : Grows s₀ s) : Grows s₀ (drawNonce env s) :=
  .ite (grows_romHalt h₀) (.ite (grows_bumpDraw (.set h₀)) (grows_bumpDraw (.set (grows_bumpDraw (.set h₀)))))

theorem grows_heldBoot (h₀ : Grows s₀ s) : Grows s₀ (heldBoot s) := .set h₀

theorem grows_bootStep2 (h₀ : Grows s₀ s) : Grows s₀ (bootStep2 env s) :=
  grows_unlessHalted (fun _ => grows_drawNonce .refl) (grows_unlessHalted (fun _ => grows_advanceBoot .refl) (grows_unlessHalted (fun _ =>
    grows_terminal .refl) (grows_unlessHalted (fun _ => grows_provision .refl) (grows_resume (grows_heldBoot (grows_readOtp h₀))))))

theorem grows_trimAll (h₀ : Grows s₀ s) : Grows s₀ (trimAll met env s) := .set h₀

theorem grows_failedDetectors (h₀ : Grows s₀ s) : Grows s₀ (failedDetectors env s) := by
  unfold failedDetectors
  split
  · exact grows_tamperSource h₀
  · exact h₀

theorem grows_keepMisrs {runs : List UnitRun} (h₀ : Grows s₀ s) : Grows s₀ (keepMisrs runs units seed patterns s) := .set h₀
theorem grows_openMisrs (h₀ : Grows s₀ s) : Grows s₀ (openMisrs units seed patterns s) := .set h₀

theorem grows_selfTestStop {logic : Bool} (h₀ : Grows s₀ s) : Grows s₀ (selfTestStop logic env s) := by
  unfold selfTestStop
  dsimp only
  split
  · exact grows_romHalt (.set h₀)
  · exact .set h₀

theorem grows_enterRecovery {reason : Byte} (h₀ : Grows s₀ s) : Grows s₀ (enterRecovery reason s) := .set (.ite (.set h₀) h₀)

theorem grows_pairDie {d n : Nat} {l : List PairTry} (h₀ : Grows s₀ s) : Grows s₀ (pairDie d n l s) := by
  induction n generalizing s l with
  | zero => exact h₀
  | succ _ ih =>
    have h₁ : ∀ x, Grows s₀ (emit x (bumpDraw s)) := fun _ => grows_emit (grows_bumpDraw h₀)
    unfold pairDie
    dsimp only
    split
    · exact .ite (grows_emit (.set (h₁ _))) (ih (h₁ _))
    · exact ih (h₁ _)

theorem grows_pairDies (h₀ : Grows s₀ s) : Grows s₀ (pairDies env s) := grows_foldl (fun _ _ => .ite .refl (grows_pairDie .refl)) h₀
theorem grows_publish (h₀ : Grows s₀ s) : Grows s₀ (publish s) := .set h₀
theorem grows_armPins (h₀ : Grows s₀ s) : Grows s₀ (armPins env s) := .set h₀

theorem grows_firePins (h₀ : Grows s₀ s) : Grows s₀ (firePins s) := by
  unfold firePins
  split
  · exact h₀
  · exact grows_tocsin h₀

theorem grows_deriveIdentity (h₀ : Grows s₀ s) : Grows s₀ (deriveIdentity s) := .ite (.set h₀) h₀
theorem grows_makeReady (h₀ : Grows s₀ s) : Grows s₀ (makeReady env s) := grows_emit (.set h₀)

theorem grows_bootFirmware (h₀ : Grows s₀ s) : Grows s₀ (bootFirmware env s) := by
  unfold bootFirmware
  split
  · exact h₀
  · exact grows_unlessHalted (fun _ => grows_makeReady .refl) (grows_unlessHalted (fun _ => grows_deriveIdentity .refl) (grows_firePins
    (grows_armPins (grows_publish (grows_pairDies (.set h₀))))))

theorem grows_bootBist (h₀ : Grows s₀ s) : Grows s₀ (bootBist met env s) := .ite (grows_keepMisrs (.set h₀)) (grows_openMisrs (.set h₀))

theorem grows_bootFrom3 (h₀ : Grows s₀ s) : Grows s₀ (bootFrom3 met env s) :=
  grows_unlessHalted (fun _ => .ite (grows_bootFirmware .refl) (grows_enterRecovery .refl)) (grows_unlessHalted (fun _ =>
    grows_selfTestStop .refl) (grows_failedDetectors (grows_trimAll (grows_bootBist h₀))))

theorem grows_start (h₀ : Grows s₀ s) : Grows s₀ (start warm env s) := by
  refine grows_unlessHalted (fun _ => .ite (grows_bootFrom3 .refl) (.set .refl)) ?_
  refine grows_bootStep2 ?_
  refine grows_selectProfile ?_
  refine grows_reloadHalt ?_
  split
  · exact .set (grows_afterReset h₀)
  · exact grows_afterReset h₀

theorem grows_bistRecheck (h₀ : Grows s₀ s) : Grows s₀ (bistRecheck met s) := by
  unfold bistRecheck
  split
  · exact .ite (grows_bootFrom3 h₀) (.ite (grows_bootFrom3 h₀) (.set h₀))
  · exact h₀

end Sys2Proof.Machine
end

section
/-! SUPPORT. What the life-cycle transitions and debug grants keep of the queue and of the outputs. -/
namespace Sys2Proof.Machine

variable {s₀ s : State} {r : LcReq} {p : InProg} {env : StartEnv}

theorem grows_quiescePackage (h₀ : Grows s₀ s) : Grows s₀ (quiescePackage s) :=
  .set (grows_eachPort (fun _ _ => grows_takeDown .refl) (grows_zeroiseAll (grows_tdisError (grows_knellAll (grows_endPerturb h₀)))))

theorem grows_useToken (h₀ : Grows s₀ s) : Grows s₀ (useToken s) := by
  unfold useToken
  split
  · exact grows_shadow (.set h₀)
  · exact h₀

theorem grows_drawPairing {l : List Nat} (h₀ : Grows s₀ s) : Grows s₀ (drawPairing l s) := by
  induction l generalizing s with
  | nil => exact h₀
  | cons _ _ ih => exact ih (.ite (grows_emit (grows_bumpDraw (.set h₀))) h₀)

theorem grows_lcBegin (h₀ : Grows s₀ s) : Grows s₀ (lcBegin r s) :=
  .ite (grows_burnState h₀) (.ite (.set (grows_useToken h₀)) (.ite (grows_burnState (grows_drawPairing h₀)) (.ite (grows_burnState h₀)
    (.ite (grows_emit (.ite (grows_quiescePackage h₀) h₀)) (grows_burnMark (grows_burnKill (grows_burnMark (.ite (grows_quiescePackage h₀)
    h₀))))))))

theorem grows_lcJournal (h₀ : Grows s₀ s) : Grows s₀ (lcJournal r s) := grows_burnMark (.set h₀)

theorem grows_lcErased (h₀ : Grows s₀ s) : Grows s₀ (lcErased r s) :=
  .ite (grows_finishOwner (grows_burnMark (grows_eraseUser h₀))) (grows_burnState (grows_burnMark (grows_eraseUser h₀)))

theorem grows_lcEnd (h₀ : Grows s₀ s) : Grows s₀ (lcEnd r env s) :=
  .ite (.ite h₀ (grows_knellAll h₀)) (.ite (grows_terminal (.set (grows_readOtp (grows_afterReset (.ite h₀ (grows_knellAll h₀))))))
    (grows_start (.ite h₀ (grows_knellAll h₀))))

theorem grows_actLc {step : Nat} (h₀ : Grows s₀ s) : Grows s₀ (actLc p r env step s) :=
  .ite (grows_complete h₀) (.ite (.ite (grows_lcEnd (grows_complete (grows_lcBegin h₀))) (.ite (grows_goOn (grows_lcBegin h₀)) (grows_goOn
    (grows_lcBegin h₀)))) (.ite (grows_goOn (grows_lcJournal h₀)) (grows_lcEnd (grows_complete (grows_lcErased h₀)))))

theorem grows_actOwnerStore {it : OwnerItem} (h₀ : Grows s₀ s) : Grows s₀ (actOwnerStore p it s) := by
  unfold actOwnerStore
  split <;> exact grows_complete (.set h₀)

theorem grows_rightsChanged (h₀ : Grows s₀ s) : Grows s₀ (rightsChanged s) :=
  grows_foldl (fun _ _ => grows_asyncRecord .refl) (grows_trace h₀)

theorem grows_applyGrant (h₀ : Grows s₀ s) : Grows s₀ (applyGrant c kid s) := by
  have hwiden : Grows s₀ (if grantWidens s c then tdisErrorClean false (listedFns s) s else s) := .ite (grows_tdisErrorClean h₀) h₀
  have hold : ∀ u, Grows s₀ u → Grows s₀ (match u.grant with | some g => retireKid g.kid u | none => u) := fun u hu => by
    split
    · exact grows_retireKid hu
    · exact hu
  have hend : ∀ (b : Bool) u, Grows s₀ u → Grows s₀ (if b then u else endPerturb u) := fun _ _ hu => .ite hu (grows_endPerturb hu)
  exact grows_rightsChanged (hend _ _ (.set (grows_activateKid (grows_placeKey (grows_bumpDraw (hold _ hwiden))))))

theorem grows_actGrant {c : Cert} {kid : W16} (h₀ : Grows s₀ s) : Grows s₀ (actGrant p c kid s) :=
  .ite (grows_complete (grows_applyGrant h₀)) (grows_complete (grows_releaseKid h₀))

theorem grows_revokeGrant {g : GrantSt} (h₀ : Grows s₀ s) : Grows s₀ (revokeGrant g s) :=
  grows_rightsChanged (grows_retireKid (grows_endPerturb (.set h₀)))

end Sys2Proof.Machine
end

section
/-! SUPPORT. What the requests of compute requesters keep of the queue and of the outputs. -/
namespace Sys2Proof.Machine

variable {s₀ s : State} {f : Fn} {q : SealReq} {ctx : W16} {t : TokenPay} {p : ChimePay} {c : Instr}

theorem grows_refuse (h₀ : Grows s₀ s) : Grows s₀ (refuse f ctx s) := grows_emit h₀

theorem grows_queueSeal {t : SendSt} {ftype : Byte} {units : Nat} {batch batchGen : W16} {payload : List Byte} (h₀ : Grows s₀ s) :
    Grows s₀ (queueSeal t ftype units q batch batchGen payload s) :=
  grows_enqueue h₀

theorem grows_sealRequest (h₀ : Grows s₀ s) : Grows s₀ (sealRequest q s) := by
  unfold sealRequest
  split
  · exact grows_refuse h₀
  · exact .ite (grows_refuse h₀) (.ite (grows_queueSeal h₀) (grows_queueSeal h₀))

theorem grows_tokenRequest (h₀ : Grows s₀ s) : Grows s₀ (tokenRequest q t s) := by
  unfold tokenRequest
  split
  · exact grows_refuse h₀
  · exact .ite (grows_queueSeal h₀) (grows_refuse h₀)

theorem grows_refusalRequest {job : W16} {source : BitVec 12} {choice reason : Byte} {expert : W16} (h₀ : Grows s₀ s) :
    Grows s₀ (refusalRequest job source t choice reason expert s) := by
  unfold refusalRequest
  dsimp only
  split
  · split
    · exact grows_countFn h₀
    · exact h₀
  · exact .ite (grows_countFn h₀) (grows_enqueue h₀)

theorem grows_localChime {cls : BitVec 4} {fport : BitVec 3} (h₀ : Grows s₀ s) : Grows s₀ (localChime f ctx cls fport p s) :=
  .ite (grows_refuse h₀) (.ite (grows_refuse (grows_countPkg h₀)) (.set h₀))

theorem grows_chimeRequest (h₀ : Grows s₀ s) : Grows s₀ (chimeRequest q p s) := by
  refine .ite (grows_localChime h₀) ?_
  refine .ite (grows_refuse h₀) ?_
  split
  · exact grows_refuse h₀
  · exact .ite (grows_queueSeal h₀) (grows_queueSeal h₀)

theorem grows_memberPool {q : PoolReq} {keeper : BitVec 12} {ordinal ret : BitVec 4} (h₀ : Grows s₀ s) :
    Grows s₀ (memberPool q keeper ordinal ret s) := by
  unfold memberPool
  split
  · exact grows_refuse h₀
  · exact .ite (grows_refuse h₀) (grows_enqueue (.set h₀))

theorem grows_localPool {q : PoolReq} (h₀ : Grows s₀ s) : Grows s₀ (localPool q s) := by
  refine .ite (grows_emit h₀) ?_
  split
  · exact grows_emit h₀
  · split
    · exact grows_emit h₀
    · exact grows_poolPump (grows_addJob h₀)

theorem grows_atPort {g : State → State} (hg : ∀ u, Grows u (g u)) (h₀ : Grows s₀ s) : Grows s₀ (atPort f c g s) :=
  .ite h₀ (.ite (grows_refuse h₀) (.ite (grows_fnMod h₀) (h₀.trans (hg _))))

theorem grows_runHeld (h₀ : Grows s₀ s) : Grows s₀ (runHeld c s) := by
  unfold runHeld
  split
  · exact grows_sealRequest h₀
  · exact grows_tokenRequest h₀
  · exact grows_chimeRequest h₀
  · exact grows_localChime h₀
  · exact grows_memberPool h₀
  · exact grows_localPool h₀
  · exact h₀

theorem grows_runAllHeld {l : List Instr} (h₀ : Grows s₀ s) : Grows s₀ (runAllHeld l s) := by
  induction l generalizing s with
  | nil => exact h₀
  | cons _ _ ih => exact ih (grows_runHeld h₀)

theorem grows_releaseHeld (h₀ : Grows s₀ s) : Grows s₀ (releaseHeld f s) := grows_runAllHeld (grows_fnMod h₀)

end Sys2Proof.Machine
end

section
/-! SUPPORT. What the parts of quiescence, resets, replays and migration keep of the queue and of the outputs. -/
namespace Sys2Proof.Machine

variable {s₀ s : State} {p : InProg} {f : Fn} {step : Nat} {ctx : W16} {total : W32} {l : List InProg} {env : StartEnv} {d : ReplayDesc} {r
  : BulkDone}

theorem grows_quiesceVf (h₀ : Grows s₀ s) : Grows s₀ (quiesceVf f s) := .ite h₀ (grows_fnMod h₀)
theorem grows_actQuiesce (h₀ : Grows s₀ s) : Grows s₀ (actQuiesce p s) := .ite (grows_complete h₀) h₀
theorem grows_actFreezeVf (h₀ : Grows s₀ s) : Grows s₀ (actFreezeVf p step s) := .ite h₀ (grows_actFreeze h₀)

theorem grows_markSuspect {q : InProg} (h₀ : Grows s₀ s) : Grows s₀ (markSuspect f q s) := by
  unfold markSuspect
  split
  · exact h₀
  · exact .ite h₀ (grows_traceKid (grows_setKid (grows_fnMod h₀)))

theorem grows_markSuspects (h₀ : Grows s₀ s) : Grows s₀ (markSuspects f l s) := by
  induction l generalizing s with
  | nil => exact h₀
  | cons _ _ ih => exact ih (grows_markSuspect h₀)

theorem grows_squashEngine {e : Nat} (h₀ : Grows s₀ s) : Grows s₀ (squashEngine f e s) :=
  grows_resetEngine (grows_abortCmds (grows_markSuspects h₀))

theorem grows_resetCores (h₀ : Grows s₀ s) : Grows s₀ (resetCores l s) := .set (grows_abortCmds h₀)

theorem grows_resetUnits (h₀ : Grows s₀ s) : Grows s₀ (resetUnits f s) :=
  grows_resetCores (grows_eachIdx (fun _ _ => grows_squashEngine .refl) h₀)

theorem grows_squashReads {fs : List Fn} (h₀ : Grows s₀ s) : Grows s₀ (squashReads fs s) := .set h₀

theorem grows_beginReset (h₀ : Grows s₀ s) : Grows s₀ (beginReset p f s) :=
  .ite (grows_actReset (grows_resetUnits (grows_abortCmds h₀))) (grows_goOn (grows_squashReads (grows_abortCmds (grows_ringMod
    (grows_quiesceVf (grows_resetUnits (grows_abortCmds h₀)))))))

theorem grows_actResetVf (h₀ : Grows s₀ s) : Grows s₀ (actResetVf p f step s) := .ite (grows_beginReset h₀) (.ite (grows_actReset h₀) h₀)

theorem grows_beginPackageReset (h₀ : Grows s₀ s) : Grows s₀ (beginPackageReset p env s) :=
  grows_goOn (grows_squashReads (grows_abortCmds (grows_foldl (fun _ _ => grows_resetUnits .refl) (grows_abortCmds h₀))))

theorem grows_actResetPackage (h₀ : Grows s₀ s) : Grows s₀ (actResetPackage p env s) :=
  grows_emit (grows_start (grows_zeroiseAll (grows_tdisError (grows_complete (grows_flushFns (grows_knellAll h₀))))))

theorem grows_liveAgain {l : List W16} (h₀ : Grows s₀ s) : Grows s₀ (liveAgain l s) := by
  induction l generalizing s with
  | nil => exact h₀
  | cons _ _ ih => exact ih (grows_traceKid (grows_setKid h₀))

theorem grows_endQuiesce (h₀ : Grows s₀ s) : Grows s₀ (endQuiesce f s) :=
  .ite h₀ (.ite (grows_fnMod h₀) (grows_releaseHeld (grows_fnMod h₀)))

theorem grows_finishReplay (h₀ : Grows s₀ s) : Grows s₀ (finishReplay p f ctx total s) :=
  grows_complete (grows_endQuiesce (.ite (grows_fnMod (.set h₀)) (grows_liveAgain (grows_fnMod (.set h₀)))))

theorem grows_stopReplay {st : W16} {d : W32} {done : Nat} (h₀ : Grows s₀ s) : Grows s₀ (stopReplay p st d done s) :=
  grows_complete (.set h₀)

theorem grows_descStart {k : Nat} {b : BulkCtx} {act : Act} (h₀ : Grows s₀ s) : Grows s₀ (descStart p k b d act s) :=
  .ite (grows_toEngine (grows_beginOp (.set h₀))) (grows_toEngine (.set h₀))

theorem grows_descFinish (h₀ : Grows s₀ s) : Grows s₀ (descFinish f d r s).2.2 := by
  unfold descFinish
  split
  · exact grows_opFinish h₀
  · split
    · exact grows_saveFinish h₀
    · exact grows_restoreFinish h₀

theorem grows_runReplay {l : List ReplayDesc} {n : Nat} (h₀ : Grows s₀ s) : Grows s₀ (runReplay p f ctx total l n s) := by
  induction l generalizing s n with
  | nil => exact grows_finishReplay h₀
  | cons _ _ ih =>
    unfold runReplay
    split
    · exact grows_stopReplay h₀
    · refine .ite (ih h₀) ?_
      split
      · exact grows_descStart h₀
      · exact grows_stopReplay h₀

theorem grows_replayDone (h₀ : Grows s₀ s) : Grows s₀ (replayDone p r s) := by
  unfold replayDone
  split
  · exact .ite (grows_stopReplay (grows_descFinish h₀)) (grows_runReplay (grows_descFinish h₀))
  · exact h₀

theorem grows_actReplay (h₀ : Grows s₀ s) : Grows s₀ (actReplay p ctx total s) := grows_finishReplay h₀

theorem grows_actMigrateKey {kid : W16} {addr : W64} {reply : Option HostData} (h₀ : Grows s₀ s) :
    Grows s₀ (actMigrateKey p kid addr reply s) := by
  unfold actMigrateKey
  dsimp only
  split
  · exact grows_goOn (grows_sendHost (.ite h₀ (grows_activateKid (grows_fnMod h₀))))
  · exact grows_complete (.ite h₀ (grows_activateKid (grows_fnMod h₀)))

theorem grows_actDirtySync {bits : Nat} (h₀ : Grows s₀ s) : Grows s₀ (actDirtySync p bits step s) := by
  refine .ite h₀ ?_
  split
  · exact .ite (grows_complete (grows_fnMod h₀)) (grows_complete h₀)
  · exact grows_complete h₀

end Sys2Proof.Machine
end

section
/-! SUPPORT. What the settlings after a row keep of the queue and of the outputs. -/
namespace Sys2Proof.Machine

variable {s₀ s : State}

theorem grows_runAct {p : InProg} (h₀ : Grows s₀ s) : Grows s₀ (runAct p s) := by
  unfold runAct
  split
  · exact h₀
  · exact grows_complete h₀
  · exact grows_actJoin h₀
  · exact grows_actLeave h₀
  · exact grows_actLeaveDone h₀
  · exact grows_actPark h₀
  · exact grows_actResume h₀
  · exact h₀
  · exact grows_complete (grows_freeRegion h₀)
  · exact grows_actHandover h₀
  · exact grows_actReduce h₀
  · exact grows_actRotate h₀
  · exact h₀
  · exact h₀
  · exact grows_actClose h₀
  · exact grows_actCarve h₀
  · exact grows_complete h₀
  · exact grows_actAbandon h₀
  · exact h₀
  · exact grows_actQuiesce h₀
  · exact grows_actResetVf h₀
  · exact grows_actResetPackage h₀
  · exact grows_actReplay h₀
  · exact h₀
  · exact grows_actMigrateKey h₀
  · exact grows_actFreezeVf h₀
  · exact grows_actDirtySync h₀
  · exact grows_actGrant h₀
  · exact grows_actLc h₀
  · exact grows_actOwnerStore h₀
  · exact .ite (grows_actBulkOp h₀) h₀
  · exact .ite (grows_actSave h₀) h₀
  · exact .ite (grows_actRestore h₀) h₀
  · exact grows_actBulkClose h₀
  · exact h₀

theorem grows_settlePass {l : List InProg} (h₀ : Grows s₀ s) : Grows s₀ (settlePass l s) := by
  induction l generalizing s with
  | nil => exact h₀
  | cons _ _ ih =>
    refine ih ?_
    split
    · exact .ite (grows_runAct h₀) h₀
    · exact h₀

theorem grows_settleRings {l : List Fn} (h₀ : Grows s₀ s) : Grows s₀ (settleRings l s) := by
  induction l generalizing s with
  | nil => exact h₀
  | cons _ _ ih => exact ih (grows_settleRing h₀)

theorem grows_settleGo {n : Nat} (h₀ : Grows s₀ s) : Grows s₀ (settleGo n s) := by
  induction n generalizing s with
  | zero => exact h₀
  | succ _ ih => exact ih (grows_settleRings (grows_settleCleanups (grows_settlePass (grows_settleAllObjs h₀))))

theorem grows_tapSettle (h₀ : Grows s₀ s) : Grows s₀ (tapSettle s) := by
  unfold tapSettle
  split
  · exact .ite (grows_emit (.set h₀)) h₀
  · exact h₀

theorem grows_settle (h₀ : Grows s₀ s) : Grows s₀ (settle s) :=
  grows_flushAll (grows_tapSettle (.ite (grows_settleRings h₀) (grows_settleGo h₀)))

theorem grows_runRow {r : Row} {f : InProg → State → State} (hf : ∀ x u, Grows u (f x u)) (h₀ : Grows s₀ s) : Grows s₀ (runRow r f s) :=
  grows_settle (grows_runCmd hf h₀)

end Sys2Proof.Machine
end

section
/-! SUPPORT. What the bulk engine's reports keep of the queue and of the outputs. -/
namespace Sys2Proof.Machine

variable {s₀ s : State}

theorem grows_bulkRequestDone {fn : Fn} {idx : W32} {r : BulkDone} (h₀ : Grows s₀ s) : Grows s₀ (bulkRequestDone fn idx r s) := by
  unfold bulkRequestDone
  split
  · exact grows_lateDone h₀
  · refine .ite (grows_lateDone h₀) ?_
    split
    · exact grows_settle (grows_replayDone h₀)
    · exact grows_settle (grows_engineDone h₀)

end Sys2Proof.Machine
end

section
/-! SUPPORT. What the commands on jobs and keys keep of the queue and of the outputs. -/
namespace Sys2Proof.Machine

variable {s₀ s : State} {p : InProg} {kid : W16}

theorem grows_startJoin {buf : Fetched Encap} (h₀ : Grows s₀ s) : Grows s₀ (startJoin jobId buf p s) := by
  unfold startJoin
  dsimp only
  split
  · exact h₀
  · exact grows_goOn (grows_reserveKid h₀)

theorem grows_startLeave {jobId : W16} (h₀ : Grows s₀ s) : Grows s₀ (startLeave jobId p s) := grows_goOn h₀

theorem grows_completeKey {x : SlotSt} (h₀ : Grows s₀ s) : Grows s₀ (completeKey p x s) :=
  grows_complete (grows_activateKid (grows_placeKey (grows_reserveKid h₀)))

theorem grows_startAlloc {source : Byte} {buf : Fetched Blob} (h₀ : Grows s₀ s) : Grows s₀ (startAlloc source buf p s) := by
  refine .ite (grows_completeKey (grows_bumpDraw h₀)) ?_
  split
  · exact grows_completeKey h₀
  · exact grows_complete h₀

theorem grows_startDerive {parent : W16} {label : Byte} {args : BitVec 128} (h₀ : Grows s₀ s) :
    Grows s₀ (startDerive parent label args p s) :=
  .ite (grows_completeKey h₀) (grows_completeKey h₀)

theorem grows_startRotate (h₀ : Grows s₀ s) : Grows s₀ (startRotate kid p s) := by
  unfold startRotate
  split
  · exact h₀
  · exact grows_enqueue (grows_goOn (grows_placeNext h₀))

theorem grows_startRetire (h₀ : Grows s₀ s) : Grows s₀ (startRetire kid p s) := grows_goOn (grows_retireKid h₀)

theorem grows_flushConfirm {engine : Nat} (h₀ : Grows s₀ s) : Grows s₀ (flushConfirm kid engine s) :=
  .ite (grows_settle (grows_finishRetire (grows_uncacheKid h₀))) h₀

theorem grows_startPark {wrap : Byte} {rid : W64} {dirIndex : W32} (h₀ : Grows s₀ s) : Grows s₀ (startPark kid wrap rid dirIndex p s) := by
  unfold startPark
  split
  · exact grows_poolPump (grows_goOn (.set (grows_regionMod h₀)))
  · exact h₀

theorem grows_startResume {engine : Byte} (h₀ : Grows s₀ s) : Grows s₀ (startResume wrap engine rid dirIndex p s) := by
  unfold startResume
  dsimp only
  split
  · exact grows_poolPump (grows_goOn (grows_cmdJob (.set (grows_reserveKid h₀))))
  · exact h₀

theorem grows_checkpointWrite {job : W16} (h₀ : Grows s₀ s) : Grows s₀ (checkpointWrite job s) := by
  unfold checkpointWrite
  split
  · exact h₀
  · split
    · exact h₀
    · exact .ite h₀ (.ite (grows_settle (grows_poolPump (grows_writeBackAll h₀))) (grows_settle (.set (grows_emit (.set h₀)))))

end Sys2Proof.Machine
end

section
/-! SUPPORT. What the commands on partitions keep of the queue and of the outputs. -/
namespace Sys2Proof.Machine

variable {s₀ s : State} {base limit : W64} {h : CmdHdr} {p : InProg} {set : Byte}

theorem grows_startGrow (h₀ : Grows s₀ s) : Grows s₀ (startGrow h set base limit p s) := grows_goOn (.set h₀)
theorem grows_startShrink (h₀ : Grows s₀ s) : Grows s₀ (startShrink h set base limit p s) := grows_goOn (.set h₀)

theorem grows_startCreate (h₀ : Grows s₀ s) : Grows s₀ (startCreate h p s) := by
  unfold startCreate
  dsimp only
  split
  · exact h₀
  · exact grows_complete (grows_fnMod h₀)

theorem grows_startAbandon (h₀ : Grows s₀ s) : Grows s₀ (startAbandon h p s) := by
  have hctx : Grows s₀ (abandonCtx (hdrTarget h) h.ctx (p.fn, p.idx) s).2.2 := grows_abandonCtx h₀
  unfold startAbandon
  dsimp only
  exact .ite (grows_tdiError (grows_goOn hctx)) (grows_goOn hctx)

theorem grows_startMap {rights : Byte} {size : W64} {pick : W16} (h₀ : Grows s₀ s) : Grows s₀ (startMap h rights base size pick p s) := by
  unfold startMap
  split
  · exact h₀
  · exact grows_complete (grows_fnMod h₀)

theorem grows_startUnmap {handle : W32} (h₀ : Grows s₀ s) : Grows s₀ (startUnmap h handle p s) := by
  unfold startUnmap
  split
  · exact h₀
  · exact grows_goOn (grows_fnMod h₀)

theorem grows_accessDone {id : Nat} (h₀ : Grows s₀ s) : Grows s₀ (accessDone id s) := grows_settle (.set h₀)

theorem grows_reopen {carve : Option Nat} (h₀ : Grows s₀ s) : Grows s₀ (reopen carve s) := by
  unfold reopen
  split
  · exact h₀
  · exact .ite h₀ (.set h₀)

theorem grows_scrubDone (h₀ : Grows s₀ s) : Grows s₀ (scrubDone s) := by
  unfold scrubDone
  split
  · exact h₀
  · refine grows_reopen ?_
    split
    · exact grows_markWrite (grows_emit (.set h₀))
    · exact grows_emit (.set h₀)

theorem grows_switchNotice {fn : Fn} {ctx : W16} (h₀ : Grows s₀ s) : Grows s₀ (switchNotice fn ctx s) :=
  .ite h₀ (grows_settle (grows_emit (grows_switchBulk (grows_clearCtx (grows_traceVf h₀)))))

end Sys2Proof.Machine
end

section
/-! SUPPORT. What the keeper's commands and the answers of homes keep of the queue and of the outputs. -/
namespace Sys2Proof.Machine

variable {s₀ s : State} {job st kid : W16} {xid d : W32} {k : Nat} {p : InProg} {x : ExchSt} {r : HomeResp} {rid : BitVec 40} {src : BitVec
  12}

theorem grows_countMade (h₀ : Grows s₀ s) : Grows s₀ (countMade job rid s) := .set h₀

theorem grows_startRegion {regionId size : W64} {home : W16} {engine : Byte} (h₀ : Grows s₀ s) :
    Grows s₀ (startRegion regionId size home engine p s) := by
  unfold startRegion
  dsimp only
  split
  · exact h₀
  · exact grows_goOn (grows_newExch (.set (grows_placeKey (grows_reserveKid (grows_countMade h₀)))))

theorem grows_startFree {rid : W64} (h₀ : Grows s₀ s) : Grows s₀ (startFree rid p s) := by
  unfold startFree
  split
  · exact h₀
  · exact grows_goOn (grows_beginFree h₀)

theorem grows_startHandover {rid : W64} {newKeeper : W16} (h₀ : Grows s₀ s) : Grows s₀ (startHandover rid newKeeper p s) := by
  unfold startHandover
  split
  · exact h₀
  · exact grows_goOn (grows_regionMod h₀)

theorem grows_failHandover (h₀ : Grows s₀ s) : Grows s₀ (failHandover p k st d s) := grows_complete (grows_regionMod h₀)

theorem grows_takeAnswer {status : W16} {detail : W32} (h₀ : Grows s₀ s) : Grows s₀ (takeAnswer job src rid status detail s) := by
  unfold takeAnswer
  split
  · exact h₀
  · split
    · exact .ite (grows_goOn (grows_newExch h₀)) (grows_failHandover h₀)
    · exact .ite (grows_releaseKid (.set h₀)) h₀
    · exact h₀

theorem grows_commitHandover {nk : BitVec 12} (h₀ : Grows s₀ s) : Grows s₀ (commitHandover p k nk s) := by
  unfold commitHandover
  split
  · exact h₀
  · exact grows_goOn (grows_retireKid (grows_sendMgmt h₀))

theorem grows_takeOffer {f : Fn} {o : OfferPay} (h₀ : Grows s₀ s) : Grows s₀ (takeOffer f job src o s) := by
  unfold takeOffer
  dsimp only
  split
  · exact grows_sendMgmt h₀
  · split
    · exact h₀
    · exact grows_sendMgmt (.set (grows_placeKey (grows_reserveKid h₀)))

theorem grows_takeCommit (h₀ : Grows s₀ s) : Grows s₀ (takeCommit job src rid s) := by
  unfold takeCommit
  split
  · exact h₀
  · split
    · exact h₀
    · exact .ite (grows_regionMod (grows_activateKid h₀)) h₀

theorem grows_handoverTimeout {fn : Fn} {idx : W32} (h₀ : Grows s₀ s) : Grows s₀ (handoverTimeout fn idx s) := by
  unfold handoverTimeout
  split
  · exact h₀
  · split
    · exact .ite (grows_settle (grows_failHandover (grows_cancelOffer (.set h₀)))) h₀
    · exact h₀

theorem grows_addParts {kind : PoolKind} {l : List (Nat × List Byte)} {l' : List Nat} (h₀ : Grows s₀ s) :
    Grows s₀ (addParts p k kind l l' s).2 := by
  induction l generalizing s l' with
  | nil => exact h₀
  | cons _ _ ih => exact ih (.set h₀)

theorem grows_startReduce {rid : W64} {op fmt : Byte} {offset : W64} {len : W32} {srcAddr : W64} {src : Fetched (List Byte)} (h₀ : Grows s₀
    s) :
    Grows s₀ (startReduce rid op fmt offset len srcAddr src p s) := by
  unfold startReduce
  split
  · exact h₀
  · split
    · exact h₀
    · refine .ite (grows_complete h₀) ?_
      refine .ite (grows_complete h₀) ?_
      split
      · exact grows_complete h₀
      · split
        · exact grows_complete h₀
        · exact .ite (grows_complete (grows_countRefused h₀)) (grows_poolPump (grows_goOn (grows_addParts h₀)))

theorem grows_countPkgN {code n : Nat} (h₀ : Grows s₀ s) : Grows s₀ (countPkgN code n s) := .set h₀
theorem grows_dropExch (h₀ : Grows s₀ s) : Grows s₀ (dropExch xid s) := .set h₀

theorem grows_resendHeld {home : BitVec 12} {lease : Bool} {l : List (Nat × ExchSt)} (h₀ : Grows s₀ s) :
    Grows s₀ (resendHeld home lease l s) := by
  induction l generalizing s with
  | nil => exact h₀
  | cons _ _ ih => exact .ite (ih (grows_sendExch (.set h₀))) (ih h₀)

theorem grows_sendReleases {l : List (List Nat)} (h₀ : Grows s₀ s) : Grows s₀ (sendReleases x l s) := by
  induction l generalizing s with
  | nil => exact h₀
  | cons _ _ ih => exact ih (grows_newExch h₀)

theorem grows_dropLeases (h₀ : Grows s₀ s) : Grows s₀ (dropLeases k s) := by
  unfold dropLeases
  split
  · exact h₀
  · exact .ite h₀ (grows_sendReleases (grows_regionMod h₀))

theorem grows_fenceLines {l : List Nat} (h₀ : Grows s₀ s) : Grows s₀ (fenceLines k l s) := grows_foldl (fun _ _ => grows_addFence .refl) h₀

theorem grows_linesRead (h₀ : Grows s₀ s) : Grows s₀ (linesRead k xid x r s) := by
  unfold linesRead
  dsimp only
  split
  · exact h₀
  · split
    · exact grows_gongHalt (grows_eachIdx (fun _ _ => grows_showLines .refl) (.set h₀))
    · exact .ite (grows_gongHalt (grows_regionMod (grows_eachIdx (fun _ _ => grows_showLines .refl) (.set h₀)))) (grows_fenceLines
      (grows_regionMod (grows_eachIdx (fun _ _ => grows_showLines .refl) (.set h₀))))

theorem grows_nodesRead (h₀ : Grows s₀ s) : Grows s₀ (nodesRead k xid x r s) := by
  unfold nodesRead
  dsimp only
  split
  · exact h₀
  · split
    · exact grows_gongHalt h₀
    · exact grows_foldl (fun _ _ => grows_fenceBelow .refl) (grows_regionMod h₀)

theorem grows_linesWritten (h₀ : Grows s₀ s) : Grows s₀ (linesWritten k xid x s) := grows_regionMod (.set h₀)

theorem grows_regionMade {adopt : Bool} (h₀ : Grows s₀ s) : Grows s₀ (regionMade p k kid adopt s) := by
  unfold regionMade
  split
  · exact h₀
  · exact grows_complete (grows_regionMod (grows_activateKid h₀))

theorem grows_failRegion (h₀ : Grows s₀ s) : Grows s₀ (failRegion p k kid st d s) := grows_complete (grows_releaseKid (.set h₀))

theorem grows_failWriteBack {l : List InProg} (h₀ : Grows s₀ s) : Grows s₀ (failWriteBack k l s) := by
  induction l generalizing s with
  | nil => exact h₀
  | cons _ _ ih => exact ih (.ite (grows_complete (grows_regionMod h₀)) h₀)

theorem grows_noAnswer (h₀ : Grows s₀ s) : Grows s₀ (noAnswer xid x s) := by
  refine grows_dropExch ?_
  refine .ite (grows_finishJobs h₀) ?_
  refine .ite (grows_finishJobs (grows_linesWritten (grows_fenceLines h₀))) ?_
  refine .ite (grows_failWriteBack (grows_foldl (fun _ _ => grows_fenceBelow .refl) h₀)) ?_
  split
  · split
    · exact grows_failRegion h₀
    · exact grows_failHandover (grows_cancelOffer h₀)
    · exact h₀
  · exact h₀

theorem grows_answered (h₀ : Grows s₀ s) : Grows s₀ (answered xid x r s) := by
  refine .ite ?_ ?_
  · refine grows_resendHeld ?_
    refine grows_dropExch ?_
    refine .ite (grows_linesRead h₀) ?_
    refine .ite (grows_nodesRead h₀) ?_
    refine .ite (grows_linesWritten h₀) ?_
    split
    · split
      · exact grows_regionMade h₀
      · exact grows_commitHandover h₀
      · exact h₀
    · exact h₀
  · refine .ite ?_ ?_
    · refine grows_resendHeld ?_
      refine grows_resendHeld ?_
      refine grows_dropExch ?_
      refine .ite (grows_linesRead h₀) ?_
      refine .ite (grows_nodesRead h₀) ?_
      refine .ite (grows_linesWritten h₀) ?_
      split
      · split
        · exact grows_regionMade h₀
        · exact grows_commitHandover h₀
        · exact h₀
      · exact h₀
    · refine grows_dropExch ?_
      refine .ite (grows_linesRead h₀) ?_
      refine .ite (grows_nodesRead h₀) ?_
      refine .ite (grows_linesWritten h₀) ?_
      split
      · split
        · exact grows_regionMade h₀
        · exact grows_commitHandover h₀
        · exact h₀
      · exact h₀

theorem grows_refused {hstat : Byte} (h₀ : Grows s₀ s) : Grows s₀ (refused xid x hstat s) := by
  have h₁ : Grows s₀ (countPkg 0x15 s) := grows_countPkg h₀
  have hlost : Grows s₀ (if x.op = 0x02 then dropExch xid (countPkg 0x15 s) else dropExch xid (regionLost x.region (countPkg 0x15 s))) :=
    .ite (grows_dropExch h₁) (grows_dropExch (grows_regionLost h₁))
  have hheld : ∀ (c : Prop) [Decidable c] u, Grows s₀ u → Grows s₀ (if c then sendExch xid x [] [] [] (countPkg 0x15 s) else u) :=
    fun _ _ _ hu => .ite (grows_sendExch h₁) hu
  refine .ite ?_ (.ite ?_ (.ite hlost (.ite (.set h₁) (.ite (hheld _ _ (grows_sendReleases (grows_regionMod (.set h₁)))) (grows_noAnswer h₁)))))
  · split
    · exact grows_dropExch h₁
    · exact grows_dropExch (.ite (grows_regionMade h₁) (grows_failRegion h₁))
  · split
    · exact grows_dropExch (grows_failRegion h₁)
    · exact hlost

/-- Steps 1 to 4 of Table 07-11: the frame is dropped, goes on to another package, or is for this one. -/
theorem grows_hopChecks (h₀ : Grows s₀ s) : Grows s₀ (hopChecks a s).st := by
  unfold hopChecks
  extract_lets p h d s₁
  have h₁ : Grows s₀ (takeAck a.port h s₁).1 := grows_takeAck (grows_portMod h₀)
  generalize takeAck a.port h s₁ = x at h₁
  rcases x with ⟨s₂, retry⟩
  split
  · exact h₀
  split
  · exact grows_portMod (grows_countPort h₀)
  split
  · exact .ite (grows_countPort h₀) (grows_sendNak (grows_countPort h₀))
  split
  · exact h₀
  dsimp -zeta only at h₁ ⊢
  extract_lets s₃ s₄ s₅ s₆ s₇
  have h₃ : Grows s₀ s₃ := grows_pump (grows_grant h₁)
  have h₄ : Grows s₀ s₄ := .ite (grows_wakeOpen (grows_portMod h₃)) h₃
  have h₅ : Grows s₀ s₅ := grows_learn h₄
  split
  · exact grows_returnCredits (grows_countPort h₄)
  split
  · exact .ite (grows_returnCredits (grows_countPort h₅)) (grows_countPort h₅)
  split
  · exact grows_forward h₅
  · exact .ite (grows_portMod h₅) h₅

theorem grows_arrive {spelt : Bool} {g : State → State} (hg : ∀ u, Grows u (g u)) (h₀ : Grows s₀ s) : Grows s₀ (arrive a spelt g s) := by
  have h₁ : Grows s₀ (if (hopChecks a s).mine then g (hopChecks a s).st else (hopChecks a s).st) :=
    .ite ((grows_hopChecks h₀).trans (hg _)) (grows_hopChecks h₀)
  exact .ite h₀ (.ite (grows_portLost h₁) h₁)

theorem grows_homeAnswer {a : Arrival} {h : HomeHdr} (h₀ : Grows s₀ s) : Grows s₀ (homeAnswer a h r s) := by
  unfold homeAnswer
  dsimp only
  split
  · exact grows_countPkg (grows_returnCredits h₀)
  · exact .ite (grows_countPkg (grows_returnCredits h₀)) (grows_poolPump (grows_dropLeases (.ite (grows_answered (grows_countPkgN
    (grows_returnCredits h₀))) (grows_refused (grows_countPkgN (grows_returnCredits h₀))))))

theorem grows_homeTimeout (h₀ : Grows s₀ s) : Grows s₀ (homeTimeout xid s) := by
  unfold homeTimeout
  split
  · exact h₀
  · exact grows_settle (grows_poolPump (grows_dropLeases (grows_noAnswer h₀)))

end Sys2Proof.Machine
end

section
/-! SUPPORT. What the pool engines' local loops keep of the queue and of the outputs. -/
namespace Sys2Proof.Machine

variable {s₀ s : State} {k e : Nat} {kid : W16} {data : List Byte} {write : Bool}

theorem grows_loopMacFail {x : ExchSt} (h₀ : Grows s₀ s) : Grows s₀ (loopMacFail x s) := .ite (grows_bumpOpen (grows_countPkgN h₀)) h₀

theorem grows_serveLoop {n : Nat} (h₀ : Grows s₀ s) : Grows s₀ (serveLoop n s) := by
  induction n generalizing s with
  | zero => exact h₀
  | succ _ ih =>
    unfold serveLoop
    split
    · exact h₀
    · split
      · exact h₀
      · exact ih (grows_poolPump (grows_dropLeases (grows_answered (grows_loopMacFail h₀))))

theorem grows_loopJob {own : Bool} {kind : PoolKind} {offset length : Nat} (h₀ : Grows s₀ s) :
    Grows s₀ (loopJob k kid own kind offset length data s) :=
  grows_serveLoop (grows_poolPump (grows_addJob h₀))

theorem grows_loopSweep (h₀ : Grows s₀ s) : Grows s₀ (loopSweep k s) := by
  unfold loopSweep
  split
  · exact h₀
  · exact grows_serveLoop (grows_poolPump (grows_putNode (grows_regionMod h₀)))

theorem grows_loopPass (h₀ : Grows s₀ s) : Grows s₀ (loopPass k kid s) :=
  grows_loopJob (grows_loopSweep (grows_loopJob (grows_loopJob (.set h₀))))

theorem grows_startLoop (h₀ : Grows s₀ s) : Grows s₀ (startLoop e kid s) := grows_loopPass (.set h₀)
theorem grows_endLoop (h₀ : Grows s₀ s) : Grows s₀ (endLoop e s) := .set h₀

theorem grows_debugPool {e : BitVec 3} {off : W64} {len : W32} (h₀ : Grows s₀ s) : Grows s₀ (debugPool e off len data write s) := by
  unfold debugPool
  split
  · exact .ite (grows_emit (grows_countFn h₀)) (.ite (grows_emit h₀) (.ite (grows_emit h₀) (grows_loopJob h₀)))
  · exact grows_emit (grows_countFn h₀)

theorem grows_debugMaster {t : DebugTarget} (h₀ : Grows s₀ s) : Grows s₀ (debugMaster t write s) := by
  unfold debugMaster
  split
  · exact .ite (grows_emit (.ite (grows_markWrite h₀) h₀)) (grows_emit (grows_countRefused h₀))
  · exact grows_debugPool h₀

end Sys2Proof.Machine
end

section
/-! SUPPORT. What the commands on fences and batches keep of the queue and of the outputs. -/
namespace Sys2Proof.Machine

variable {s₀ s : State} {h : CmdHdr} {p : InProg} {value : W64} {handle : W32} {id : Nat}

theorem grows_startFenceCreate {pick : W16} (h₀ : Grows s₀ s) : Grows s₀ (startFenceCreate h value pick p s) := by
  unfold startFenceCreate
  split
  · exact h₀
  · exact grows_complete (grows_forwardFence (grows_fnMod h₀))

theorem grows_startRelease (h₀ : Grows s₀ s) : Grows s₀ (startRelease h handle p s) := by
  unfold startRelease
  split
  · exact h₀
  · exact grows_complete (grows_dropRef (.ite (grows_abortWaits h₀) (grows_abortUnitWaits (grows_abortWaits h₀))))

theorem grows_startSignal (h₀ : Grows s₀ s) : Grows s₀ (startSignal h handle value p s) := by
  unfold startSignal
  dsimp only
  split
  · exact h₀
  · split <;> exact grows_complete (grows_signalFence (grows_addRef h₀))

theorem grows_startWait (h₀ : Grows s₀ s) : Grows s₀ (startWait h handle value p s) := by
  unfold startWait
  dsimp only
  split
  · exact h₀
  · split
    · exact grows_complete (grows_addRef h₀)
    · exact grows_goOn (grows_addRef h₀)

theorem grows_syncWait {fn : Fn} {ctx : W16} (h₀ : Grows s₀ s) : Grows s₀ (syncWait fn ctx handle value s) := by
  unfold syncWait
  split
  · exact grows_emit h₀
  · exact .ite (grows_emit h₀) (grows_evalWaits (grows_fenceMod (grows_addRef h₀)))

theorem grows_startCancel {batchId : W16} (h₀ : Grows s₀ s) : Grows s₀ (startCancel h batchId p s) :=
  grows_goOn (.set (grows_claimBatch h₀))

theorem grows_readCompletion (h₀ : Grows s₀ s) : Grows s₀ (readCompletion id s) := by
  unfold readCompletion
  split
  · exact h₀
  · exact grows_settle (grows_clearJobWaits (grows_doneLocal (.set h₀)))

theorem grows_writeCompletion (h₀ : Grows s₀ s) : Grows s₀ (writeCompletion id s) := by
  unfold writeCompletion
  split
  · exact grows_readCompletion h₀
  · refine grows_settle ?_
    split
    · exact .ite (grows_stampMet (.set h₀)) (.set (grows_stampMet (.set h₀)))
    · exact grows_stampMet (.set h₀)

end Sys2Proof.Machine
end

section
/-! SUPPORT. What the openings and closings of streams keep of the queue and of the outputs. -/
namespace Sys2Proof.Machine

variable {s₀ s : State} {idx sid : W32} {fn : Fn} {p : InProg} {job : W16}

theorem grows_openKey {kid : W16} {epoch : W32} {use : Byte} (h₀ : Grows s₀ s) : Grows s₀ (openKey p kid job sid epoch use s).2 := by
  unfold openKey
  split
  · exact grows_releaseKid h₀
  · exact grows_placeKey h₀

theorem grows_answerWith {challenge : BitVec 128} {sel : BitVec 2} {port : Fin 32} {relays : List (BitVec 12)} (h₀ : Grows s₀ s) :
    Grows s₀ (answerWith p job sid kid challenge sel port relays s).2 :=
  grows_sendControl (grows_portMod (.set (grows_openKey (grows_noteSent h₀))))

theorem grows_answerOpen (h₀ : Grows s₀ s) : Grows s₀ (answerOpen p s) := by
  unfold answerOpen
  dsimp only
  split
  · split
    · exact grows_complete (grows_activateKid (grows_answerWith h₀))
    · exact h₀
  · split
    · exact .ite (grows_complete (grows_activateKid (grows_activateKid (grows_answerWith h₀)))) (grows_modProg (grows_answerWith h₀))
    · exact h₀
  · exact h₀

theorem grows_startOpen (h₀ : Grows s₀ s) : Grows s₀ (startOpen peer cls ordinal direction p s) := by
  have hkid : Grows s₀ (reserveKid p.fn s).2 := grows_reserveKid h₀
  unfold startOpen
  generalize reserveKid p.fn s = x at hkid
  rcases x with ⟨kid, s₁⟩
  dsimp -zeta only at hkid ⊢
  have hend : ∀ u, Grows s₀ u → Grows s₀ (match findProg u p.fn p.idx with | some q => answerOpen q u | none => u) := fun u hu => by
    split
    · exact grows_answerOpen hu
    · exact hu
  refine hend _ (.ite ?_ (grows_goOn hkid))
  refine grows_sendRouted (grows_goOn (grows_bumpDraw ?_))
  split
  · exact grows_reserveKid hkid
  · exact hkid

theorem grows_startClose {peer : W16} {cls ordinal direction : Byte} (h₀ : Grows s₀ s) :
    Grows s₀ (startClose peer cls ordinal direction p s) := by
  refine .ite ?_ (grows_goOn h₀)
  split
  · exact grows_enqueue (grows_modSend (grows_goOn h₀))
  · exact h₀

theorem grows_openReqResend (h₀ : Grows s₀ s) : Grows s₀ (openReqResend fn idx s) := by
  unfold openReqResend
  split
  · split
    · exact grows_sendRouted h₀
    · exact h₀
  · exact h₀

theorem grows_streamOpenTimeout (h₀ : Grows s₀ s) : Grows s₀ (streamOpenTimeout fn idx s) := by
  unfold streamOpenTimeout
  split
  · split
    · exact grows_settle (grows_complete (grows_releaseHolds h₀))
    · exact grows_settle (grows_complete (grows_releaseHolds h₀))
    · exact h₀
  · exact h₀

theorem grows_closeRecv (h₀ : Grows s₀ s) : Grows s₀ (closeRecv job sid s) := by
  unfold closeRecv
  split
  · exact h₀
  · exact grows_retireKids (.set h₀)

theorem grows_streamCloseTimeout (h₀ : Grows s₀ s) : Grows s₀ (streamCloseTimeout fn idx s) := by
  unfold streamCloseTimeout
  split
  · split
    · exact grows_settle (grows_complete (grows_closeRecv h₀))
    · exact h₀
  · exact h₀

end Sys2Proof.Machine
end

section
/-! SUPPORT. What the sealed frames keep of the queue and of the outputs. -/
namespace Sys2Proof.Machine

variable {s₀ s : State} {t : RecvSt} {w : WaitSt} {h : SealHdr} {job : W16} {sid : W32} {b : FrameBody} {p : DataPay}

theorem grows_prepareRecv (h₀ : Grows s₀ s) : Grows s₀ (prepareRecv job sid s) := by
  unfold prepareRecv
  split
  · exact h₀
  · refine .ite h₀ ?_
    split
    · next e => exact grows_modRecv (grows_activateKid (grows_placeStream h₀ e))
    · exact h₀

theorem grows_keyRecv (h₀ : Grows s₀ s) : Grows s₀ (keyRecv job sid s) := by
  unfold keyRecv
  split
  · exact h₀
  · refine .ite h₀ ?_
    split
    · next e => exact grows_modRecv (grows_activateKid (grows_placeStream h₀ e))
    · exact h₀

theorem grows_rollRecv (h₀ : Grows s₀ s) : Grows s₀ (rollRecv job sid s) := by
  unfold rollRecv
  dsimp only
  split
  · exact grows_prepareRecv h₀
  · exact grows_retireKid (grows_modRecv (grows_prepareRecv h₀))

theorem grows_advanceRecv (h₀ : Grows s₀ s) : Grows s₀ (advanceRecv t b s) :=
  .ite (grows_rollRecv (.ite (grows_prepareRecv (grows_modRecv h₀)) (grows_modRecv h₀))) (.ite (grows_prepareRecv (grows_modRecv h₀))
    (grows_modRecv h₀))

theorem grows_freeFrame (h₀ : Grows s₀ s) : Grows s₀ (freeFrame w s) := grows_returnCredits h₀
theorem grows_dropFrame {code : Nat} (h₀ : Grows s₀ s) : Grows s₀ (dropFrame w code s) := grows_freeFrame (grows_countPort h₀)

theorem grows_writePlain {obj : Option (Nat × Nat)} {batch : Option (BitVec 12)} {addr : Nat} {d : List Byte} (h₀ : Grows s₀ s) :
    Grows s₀ (writePlain t obj batch addr d s) :=
  grows_emit (grows_markWrite (.set h₀))

theorem grows_placeData (h₀ : Grows s₀ s) : Grows s₀ (placeData t h p s) := by
  unfold placeData
  split
  · exact h₀
  · exact grows_writePlain h₀

theorem grows_placeReturn (h₀ : Grows s₀ s) : Grows s₀ (placeReturn t h p s) := by
  unfold placeReturn
  split
  · exact h₀
  · exact grows_writePlain (.set h₀)

theorem grows_takeSnare {p : ChimePay} (h₀ : Grows s₀ s) : Grows s₀ (takeSnare t w p s) := grows_stampMet (.set h₀)

theorem grows_poolRequest {p : PoolPay} (h₀ : Grows s₀ s) : Grows s₀ (poolRequest t h p s) := by
  refine .ite (grows_answerMember h₀) ?_
  split
  · exact grows_answerMember h₀
  · exact grows_poolPump (grows_addJob h₀)

theorem grows_poolAnswer {p : PoolPay} (h₀ : Grows s₀ s) : Grows s₀ (poolAnswer t p s) := by
  unfold poolAnswer
  split
  · exact grows_countFn h₀
  · exact .ite (grows_countFn (.set h₀)) (grows_emit (.ite (.set h₀) (grows_writePlain (.set h₀))))

theorem grows_deliver (h₀ : Grows s₀ s) : Grows s₀ (deliver t w s) := by
  unfold deliver
  split
  · exact grows_placeData h₀
  · exact grows_placeReturn h₀
  · exact grows_takeSnare h₀
  · exact grows_emit h₀
  · exact grows_emit h₀
  · exact .ite (grows_poolAnswer h₀) (grows_poolRequest h₀)
  · exact grows_takeOffer h₀
  · exact grows_takeAnswer h₀
  · exact grows_takeCommit h₀
  · exact h₀
  · exact grows_closeRecv h₀
  · exact h₀

theorem grows_waitFrame (h₀ : Grows s₀ s) : Grows s₀ (waitFrame w s) := .set h₀

theorem grows_earlyWrites (h₀ : Grows s₀ s) : Grows s₀ (earlyWrites t w s) := by
  refine .ite h₀ ?_
  split
  · split
    · exact grows_emit (grows_bumpOpen (.set h₀))
    · exact h₀
  · split
    · exact grows_emit (grows_bumpOpen (.set h₀))
    · exact h₀
  · split
    · exact .ite (grows_emit (grows_bumpOpen (.set h₀))) h₀
    · exact h₀
  · exact h₀

theorem grows_verifyFrame (h₀ : Grows s₀ s) : Grows s₀ (verifyFrame t w s) := by
  unfold verifyFrame
  dsimp only
  refine .ite (grows_gongHalt (grows_earlyWrites h₀)) ?_
  refine .ite (grows_gongHalt h₀) ?_
  split
  · exact grows_freeFrame (grows_advanceRecv (grows_countFn (grows_countPort (grows_countSealed (grows_cacheKid h₀)))))
  · exact grows_freeFrame (grows_deliver (grows_advanceRecv (grows_countSealed (grows_cacheKid h₀))))

theorem grows_openOn (h₀ : Grows s₀ s) : Grows s₀ (openOn t w s) :=
  .ite (grows_dropFrame h₀) (.ite (grows_dropFrame h₀) (.ite (grows_gongHalt h₀) (.ite (grows_waitFrame h₀) (.ite (grows_waitFrame h₀)
    (grows_verifyFrame h₀)))))

theorem grows_openFrame (h₀ : Grows s₀ s) : Grows s₀ (openFrame w s) := by
  unfold openFrame
  dsimp only
  refine .ite h₀ ?_
  refine .ite (grows_gongHalt h₀) ?_
  refine .ite (grows_emit (grows_waitFrame h₀)) ?_
  refine .ite (grows_waitFrame h₀) ?_
  split
  · exact grows_openOn (grows_keyRecv h₀)
  · exact .ite (grows_waitFrame (grows_keyRecv h₀)) (grows_dropFrame (grows_keyRecv h₀))

theorem grows_retryList {l : List WaitSt} (h₀ : Grows s₀ s) : Grows s₀ (retryList l s) := by
  induction l generalizing s with
  | nil => exact h₀
  | cons _ _ ih => exact ih (grows_openFrame h₀)

theorem grows_retryWaits (h₀ : Grows s₀ s) : Grows s₀ (retryWaits s) := .ite h₀ (grows_retryList (.set h₀))

theorem grows_sealedFrame {a : Arrival} (h₀ : Grows s₀ s) : Grows s₀ (sealedFrame a h b s) :=
  grows_settle (grows_arrive (fun _ => grows_retryWaits (grows_openFrame .refl)) h₀)

theorem grows_receiveWaitExpiry (h₀ : Grows s₀ s) : Grows s₀ (receiveWaitExpiry job sid s) := by
  unfold receiveWaitExpiry
  dsimp only
  split
  · exact grows_retryWaits h₀
  · split
    · exact .ite (grows_settle (grows_retryWaits (grows_dropFrame (grows_modRecv (.set (grows_retryWaits h₀)))))) (grows_retryWaits h₀)
    · exact grows_settle (grows_retryWaits (grows_dropFrame (.set (grows_retryWaits h₀))))

theorem grows_chimeRelease {fn : Fn} {port : Option (Fin 32)} (h₀ : Grows s₀ s) : Grows s₀ (chimeRelease fn port s) := by
  unfold chimeRelease
  split
  · exact grows_settle (grows_retryWaits (grows_releaseChime h₀))
  · exact grows_settle (grows_releaseLocal h₀)

end Sys2Proof.Machine
end

section
/-! SUPPORT. What the home's operations keep of the queue and of the outputs. -/
namespace Sys2Proof.Machine

variable {s₀ s : State} {h : HomeHdr} {a : Arrival} {e : EccReport} {hstat : Byte}

theorem grows_homeMod {g : HomeSt → HomeSt} (h₀ : Grows s₀ s) : Grows s₀ (homeMod h g s) := .set h₀
theorem grows_homeDrop (h₀ : Grows s₀ s) : Grows s₀ (homeDrop h s) := .set h₀

theorem grows_homeReply {payload : List Byte} {ue mac ce : W32} (h₀ : Grows s₀ s) : Grows s₀ (homeReply a h hstat payload ue mac ce s) :=
  grows_sendHome h₀

theorem grows_homeStatus (h₀ : Grows s₀ s) : Grows s₀ (homeStatus a h hstat s) := grows_homeReply h₀

theorem grows_onHome {max : Nat} {nodes : Bool} {g : HomeSt → State → State} (hg : ∀ x u, Grows u (g x u)) (h₀ : Grows s₀ s) :
    Grows s₀ (onHome a h max nodes g s) := by
  unfold onHome
  split
  · exact grows_homeStatus h₀
  · exact h₀.trans (hg _ _)

theorem grows_serveLines (h₀ : Grows s₀ s) : Grows s₀ (serveLines a h e s) := by
  unfold serveLines
  split
  · exact grows_homeStatus h₀
  · exact grows_homeReply h₀

theorem grows_leaseLines {x : HomeSt} (h₀ : Grows s₀ s) : Grows s₀ (leaseLines a h e x s) :=
  .ite (grows_homeMod h₀) (.ite (grows_homeStatus h₀) (grows_serveLines (grows_homeMod h₀)))

theorem grows_serveWaiting {l : List (Arrival × HomeHdr × EccReport)} (h₀ : Grows s₀ s) : Grows s₀ (serveWaiting l s) := by
  induction l generalizing s with
  | nil => exact h₀
  | cons _ _ ih =>
    refine ih ?_
    split
    · exact grows_leaseLines h₀
    · exact h₀

theorem grows_endLeases {is : List Nat} (h₀ : Grows s₀ s) : Grows s₀ (endLeases h is s) := by
  unfold endLeases
  split
  · exact h₀
  · exact grows_serveWaiting (grows_homeMod h₀)

theorem grows_homeRow {spelt : Bool} {g : State → State} (hg : ∀ u, Grows u (g u)) (h₀ : Grows s₀ s) : Grows s₀ (homeRow a spelt g s) :=
  grows_settle (grows_arrive (fun _ => (grows_returnCredits .refl).trans (hg _)) h₀)

theorem grows_homeAlloc {size : W64} {depth : Byte} (h₀ : Grows s₀ s) : Grows s₀ (homeAlloc a h size depth s) := by
  refine .ite (grows_homeStatus h₀) ?_
  refine .ite (grows_homeStatus h₀) ?_
  refine .ite (grows_homeStatus h₀) ?_
  split
  · exact grows_homeStatus h₀
  · exact grows_homeStatus (.set h₀)

theorem grows_homeFree (h₀ : Grows s₀ s) : Grows s₀ (homeFree a h s) :=
  grows_onHome (fun _ _ => .ite (grows_homeStatus (grows_homeDrop .refl)) (grows_homeStatus .refl)) h₀

theorem grows_homeRebind {nk : BitVec 12} (h₀ : Grows s₀ s) : Grows s₀ (homeRebind a h nk s) :=
  grows_onHome (fun _ _ => .ite (grows_homeStatus (grows_homeMod .refl)) (grows_homeStatus .refl)) h₀

theorem grows_homeReadLines (h₀ : Grows s₀ s) : Grows s₀ (homeReadLines a h e s) :=
  grows_onHome (fun _ _ => .ite (grows_homeStatus .refl) (.ite (grows_leaseLines .refl) (grows_serveLines .refl))) h₀

theorem grows_homeWriteLines {ls : List (Line × W64)} (h₀ : Grows s₀ s) : Grows s₀ (homeWriteLines a h ls s) :=
  grows_onHome (fun _ _ => .ite (grows_homeStatus .refl) (.ite (grows_endLeases (grows_homeStatus (grows_homeMod .refl))) (grows_homeStatus
    (grows_homeMod .refl)))) h₀

theorem grows_homeReadNodes {addrs : List W64} (h₀ : Grows s₀ s) : Grows s₀ (homeReadNodes a h addrs e s) :=
  grows_onHome (fun _ _ => .ite (grows_homeStatus .refl) (grows_homeReply .refl)) h₀

theorem grows_homeWriteNodes {ns : List (W64 × Node × W64)} (h₀ : Grows s₀ s) : Grows s₀ (homeWriteNodes a h ns s) :=
  grows_onHome (fun _ _ => .ite (grows_homeStatus .refl) (grows_homeStatus (grows_homeMod .refl))) h₀

theorem grows_homeLeaseRelease (h₀ : Grows s₀ s) : Grows s₀ (homeLeaseRelease a h s) :=
  grows_onHome (fun _ _ => .ite (grows_homeStatus .refl) (grows_endLeases (grows_homeStatus .refl))) h₀

end Sys2Proof.Machine
end

section
/-! SUPPORT. What the rings' rows keep of the queue and of the outputs. -/
namespace Sys2Proof.Machine

variable {s₀ s : State} {f fn : Fn} {a : RegAcc} {x : Fetched (BitVec 512)}

theorem grows_ringEnable (h₀ : Grows s₀ s) : Grows s₀ (ringEnable a s) := .ite h₀ (.ite (grows_ringMod h₀) (grows_emit (grows_ringMod h₀)))

theorem grows_ringEnableDone {writeOk : Bool} (h₀ : Grows s₀ s) : Grows s₀ (ringEnableDone fn x writeOk s) := by
  refine .ite h₀ ?_
  split
  · exact grows_settleRing (grows_ringMod h₀)
  · exact .ite (grows_settleRing (grows_ringMod h₀)) (.ite (grows_settleRing (grows_postDoorbell (grows_ringMod h₀))) (grows_settleRing
    (grows_ringMod (grows_ringMod h₀))))

theorem grows_ringDisable (h₀ : Grows s₀ s) : Grows s₀ (ringDisable a s) := .ite (grows_disableRing h₀) h₀

theorem grows_wakeRing (h₀ : Grows s₀ s) : Grows s₀ (wakeRing f s) := by
  unfold wakeRing
  split
  · exact .ite (grows_emit (grows_ringMod h₀)) (.ite (grows_emit (grows_emit (grows_ringMod h₀))) (grows_emit (grows_ringMod h₀)))
  · exact h₀
  · exact grows_ringMod h₀
  · exact h₀

theorem grows_wakeWrite {offset : BitVec 12} (h₀ : Grows s₀ s) : Grows s₀ (wakeWrite a offset s) := .ite (grows_wakeRing h₀) h₀

theorem grows_takeEvents {d : DrvHalf} (h₀ : Grows s₀ s) : Grows s₀ (takeEvents f d s) :=
  .ite (grows_raiseMsix (grows_ringMod h₀)) (grows_ringMod h₀)

theorem grows_actOnRecord (h₀ : Grows s₀ s) : Grows s₀ (actOnRecord f d s) := by
  have hpost : ∀ (c : Prop) [Decidable c] u, Grows s₀ u → Grows s₀ (if c then u else postDoorbell f u) :=
    fun _ _ _ hu => .ite hu (grows_postDoorbell hu)
  have htail : Grows s₀ (if badTail (ringOf s f) d then ringFault f 0x0001 (takeEvents f d s)
      else ringMod f (fun r => { r with cmdTail := d.cmdTail }) (takeEvents f d s)) :=
    .ite (grows_ringFault (grows_takeEvents h₀)) (grows_ringMod (grows_takeEvents h₀))
  exact hpost _ _ (grows_drainAsync (.ite (grows_ringFault htail) (grows_ringMod htail)))

theorem grows_doorbellReadDone (h₀ : Grows s₀ s) : Grows s₀ (doorbellReadDone fn x s) := by
  refine .ite h₀ ?_
  refine .ite ?_ ?_
  · refine grows_wakeRing ?_
    split
    · exact grows_ringFault (grows_ringMod h₀)
    · exact grows_actOnRecord (grows_ringMod h₀)
  · split
    · exact grows_ringFault (grows_ringMod h₀)
    · exact grows_actOnRecord (grows_ringMod h₀)

theorem grows_dispatchRaw {raw : BitVec 512} (h₀ : Grows s₀ s) : Grows s₀ (dispatchRaw f raw s) := by
  unfold dispatchRaw
  split
  · exact grows_settle (grows_complete (grows_postDoorbell (grows_traceVf (grows_ringMod h₀))))
  · exact .set (grows_postDoorbell (grows_traceVf (grows_ringMod h₀)))

theorem grows_scanDispatch (h₀ : Grows s₀ s) : Grows s₀ (scanDispatch x s) := by
  refine .ite h₀ ?_
  split
  · exact h₀
  · split
    · exact grows_ringFault (.set h₀)
    · exact .ite (grows_ringMod h₀) (grows_dispatchRaw (.set h₀))

theorem grows_hostDmaDone {what : DmaWhat} {ok : Bool} (h₀ : Grows s₀ s) : Grows s₀ (hostDmaDone what ok s) := by
  refine .ite h₀ ?_
  split
  · exact .ite h₀ (grows_ringFault h₀)
  · split
    · exact grows_lateDone h₀
    · exact .ite (grows_lateDone h₀) (.ite (grows_settle (grows_modProg h₀)) (grows_settle (grows_complete (grows_releaseHolds h₀))))

end Sys2Proof.Machine
end

section
/-! SUPPORT. What the control frames and port events keep of the queue and of the outputs. -/
namespace Sys2Proof.Machine

variable {s₀ s : State} {sid epoch : W32} {sealIdle openIdle : BitVec 32} {port : Fin 32} {a : Arrival} {ch : BitVec 128} {tagOk : Bool}
  {job : W16} {relays : List (BitVec 12)}

theorem grows_readmit {id : BitVec 12} (h₀ : Grows s₀ s) : Grows s₀ (readmit port id s) := grows_portMod h₀

theorem grows_beat {fl : Byte} (h₀ : Grows s₀ s) : Grows s₀ (beat a boot fl s) := by
  have hlost : ∀ (c : Prop) [Decidable c] cause u, Grows s₀ u → Grows s₀ (if c then neighbourLost a.port cause u else u) :=
    fun _ _ _ _ hu => .ite (grows_neighbourLost hu) hu
  have hback : ∀ (c : Prop) [Decidable c] u, Grows s₀ u → Grows s₀ (if c then readmit a.port (sidSrc a.route) u else u) :=
    fun _ _ _ hu => .ite (grows_readmit hu) hu
  have hwake : ∀ (c : Prop) [Decidable c] u, Grows s₀ u → Grows s₀ (if c then wakeOpen a.port u else u) :=
    fun _ _ _ hu => .ite (grows_wakeOpen hu) hu
  exact grows_portMod (hwake _ _ (hback _ _ (grows_portMod (hlost _ _ _ (grows_portMod (hlost _ _ _ h₀))))))

theorem grows_knell {boot : W64} (h₀ : Grows s₀ s) : Grows s₀ (knell a boot s) := grows_neighbourLost (grows_portMod h₀)
theorem grows_proxyKnell {lost : BitVec 12} (h₀ : Grows s₀ s) : Grows s₀ (proxyKnell a lost s) := .ite h₀ (grows_peerLoss h₀)
theorem grows_holdReq {r : HeldReq} (h₀ : Grows s₀ s) : Grows s₀ (holdReq port r s) := .ite (.set h₀) (.ite (grows_countPort h₀) (.set h₀))

theorem grows_openReq (h₀ : Grows s₀ s) : Grows s₀ (openReq a sid job ch s) := by
  unfold openReq
  dsimp only
  split
  · exact grows_answerOpen (grows_holdReq h₀)
  · exact grows_holdReq h₀

theorem grows_openForRecv {p : InProg} {inn : W32} {peer : BitVec 12} {kid : W16} {out : Option W32} {sd : Bool} {e0 : W32} {sk : W16} (h₀
    : Grows s₀ s) :
    Grows s₀ (openForRecv p inn peer kid ch out sd e0 sk epoch relays s) := by
  refine .ite ?_ ?_
  · refine grows_complete ?_
    refine grows_activateKid ?_
    refine grows_activateKid ?_
    refine .set ?_
    split
    · exact grows_releaseKid h₀
    · exact grows_placeKey h₀
  · refine grows_modProg ?_
    refine .set ?_
    split
    · exact grows_releaseKid h₀
    · exact grows_placeKey h₀

theorem grows_openAck (h₀ : Grows s₀ s) : Grows s₀ (openAck a sid job epoch ch relays tagOk s) := by
  unfold openAck
  split
  · exact grows_countPort h₀
  · split
    · exact .ite (grows_retryWaits (grows_openForRecv h₀)) (grows_gongHalt h₀)
    · exact h₀

theorem grows_grantMore {l : List (BitVec 4 × BitVec 12)} (h₀ : Grows s₀ s) : Grows s₀ (grantMore port l s) := by
  induction l generalizing s with
  | nil => exact h₀
  | cons _ _ ih => exact ih (grows_grant h₀)

theorem grows_loopChecks {depth : Nat} (h₀ : Grows s₀ s) : Grows s₀ (loopChecks a depth tagOk s) :=
  .ite (grows_countPort h₀) (.ite h₀ (grows_countPort h₀))

theorem grows_loop (h₀ : Grows s₀ s) : Grows s₀ (loop a tagOk s) := by
  unfold loop
  split
  · exact .ite (grows_sendLoop (grows_loopChecks h₀)) h₀
  · exact grows_arrive (fun _ => .refl) h₀

theorem grows_beatSend (h₀ : Grows s₀ s) : Grows s₀ (beatSend port s) := .ite (.set h₀) (grows_sendBeat h₀)

theorem grows_portDown (h₀ : Grows s₀ s) : Grows s₀ (portDown port s) :=
  .ite (grows_settle (grows_portLost (grows_portMod h₀))) (grows_portMod h₀)

theorem grows_lendPort (h₀ : Grows s₀ s) : Grows s₀ (lendPort sealIdle openIdle port s) := .ite (grows_portMod h₀) h₀

theorem grows_lendingCheck (h₀ : Grows s₀ s) : Grows s₀ (lendingCheck sealIdle openIdle s) :=
  .ite (grows_eachPort (fun _ _ => grows_lendPort .refl) h₀) h₀

end Sys2Proof.Machine
end

section
/-! SUPPORT. What the rows of SELF_TEST keep of the queue and of the outputs. -/
namespace Sys2Proof.Machine

variable {s₀ s : State} {seed : W64} {p : InProg} {unit : W16} {patterns : W32} {run : Option TestRun}

theorem grows_zeroiseUnit {u : Nat} (h₀ : Grows s₀ s) : Grows s₀ (zeroiseUnit u s) := by
  unfold zeroiseUnit
  split
  · exact grows_foldl (fun _ _ => grows_finishRetire .refl) (grows_clearCache h₀)
  · exact h₀

theorem grows_dropPorts {l : List (Fin 32)} (h₀ : Grows s₀ s) : Grows s₀ (dropPorts l s) := by
  induction l generalizing s with
  | nil => exact h₀
  | cons _ _ ih => exact ih (.ite (grows_portLost h₀) h₀)

theorem grows_endTest {units : List W16} {patterns : Nat} {r : TestRun} (h₀ : Grows s₀ s) :
    Grows s₀ (endTest units seed patterns r p s) := by
  unfold endTest
  split
  · exact grows_complete (.set h₀)
  · exact grows_complete (grows_dropPorts (.set (grows_keepMisrs (.set h₀))))

theorem grows_startTest (h₀ : Grows s₀ s) : Grows s₀ (startTest unit patterns seed run p s) := by
  unfold startTest
  split
  · exact grows_endTest (grows_foldl (fun _ _ => grows_zeroiseUnit .refl) (grows_openMisrs (.set h₀)))
  · exact grows_goOn (grows_foldl (fun _ _ => grows_zeroiseUnit .refl) (grows_openMisrs (.set h₀)))

theorem grows_selfTest {h : CmdHdr} (h₀ : Grows s₀ s) : Grows s₀ (selfTest h unit patterns seed run s) := by
  unfold selfTest
  split
  · refine .ite ?_ h₀
    split
    · exact grows_settle (grows_endTest h₀)
    · exact h₀
  · exact grows_runRow (fun _ _ => grows_startTest .refl) h₀

end Sys2Proof.Machine
end

section
/-! SUPPORT. What the register writes keep of the queue and of the outputs. -/
namespace Sys2Proof.Machine

variable {s₀ s : State} {k depth : Nat} {v : W64} {a : RegAcc} {p : Fin 32} {last : W32}

theorem grows_haltClear (h₀ : Grows s₀ s) : Grows s₀ (haltClear a s) := .ite (.set h₀) h₀
theorem grows_recoveryRequest (h₀ : Grows s₀ s) : Grows s₀ (recoveryRequest a s) := .ite (.set h₀) h₀
theorem grows_setGo (h₀ : Grows s₀ s) : Grows s₀ (setGo a s) := .ite (grows_eachPort (fun _ _ => grows_tryUp .refl) (.set h₀)) h₀
theorem grows_routeStage {reg1 : Bool} (h₀ : Grows s₀ s) : Grows s₀ (routeStage a reg1 v s) := .ite h₀ (.ite (.set h₀) (.ite h₀ (.set h₀)))
theorem grows_routeCommit (h₀ : Grows s₀ s) : Grows s₀ (routeCommit a v s) := .ite h₀ (.set h₀)

theorem grows_ptbWrite {g : State → State} (hg : ∀ u, Grows u (g u)) (h₀ : Grows s₀ s) : Grows s₀ (ptbWrite a g s) :=
  .ite h₀ (.ite (grows_countPkg h₀) (.ite (h₀.trans (hg _)) h₀))

theorem grows_ptbHsk (h₀ : Grows s₀ s) : Grows s₀ (ptbHsk v s) := .set h₀
theorem grows_ptbBp (h₀ : Grows s₀ s) : Grows s₀ (ptbBp v s) := .set h₀
theorem grows_ptbTaghold (h₀ : Grows s₀ s) : Grows s₀ (ptbTaghold v s) := .set h₀
theorem grows_ptbBeat (h₀ : Grows s₀ s) : Grows s₀ (ptbBeat v s) := .set h₀

theorem grows_dropLoopKid (h₀ : Grows s₀ s) : Grows s₀ (dropLoopKid k s) := by
  unfold dropLoopKid
  split
  · exact grows_retireKid (.set h₀)
  · exact h₀

theorem grows_takeLoopKid (h₀ : Grows s₀ s) : Grows s₀ (takeLoopKid k s) := by
  refine .set ?_
  refine grows_activateKid ?_
  refine grows_placeKey ?_
  split
  · exact .set (grows_bumpDraw h₀)
  · exact grows_bumpDraw h₀

theorem grows_endPortLoop (h₀ : Grows s₀ s) : Grows s₀ (endPortLoop p s) := grows_portMod (grows_dropLoopKid h₀)
theorem grows_endPoolLoop (h₀ : Grows s₀ s) : Grows s₀ (endPoolLoop k s) := .set (grows_endLoop (grows_dropLoopKid h₀))
theorem grows_loopReads {v : W32} (h₀ : Grows s₀ s) : Grows s₀ (loopReads v s) := .set h₀

theorem grows_setPortLoop {partner : BitVec 5} (h₀ : Grows s₀ s) : Grows s₀ (setPortLoop p depth partner last s) :=
  .ite (grows_loopReads (grows_endPortLoop h₀)) (.ite (grows_loopReads (grows_endPortLoop h₀)) (.ite (grows_loopReads (grows_endPortLoop
    h₀)) (grows_loopReads (grows_sendLoop (grows_takeLoopKid (grows_portMod (grows_endPortLoop h₀)))))))

theorem grows_setPoolLoop (h₀ : Grows s₀ s) : Grows s₀ (setPoolLoop k depth last s) :=
  .ite (grows_loopReads (grows_endPoolLoop h₀)) (.ite (grows_loopReads (grows_endPoolLoop h₀)) (.ite (grows_loopReads (grows_endPoolLoop
    h₀)) (grows_loopReads (grows_startLoop (.set (grows_takeLoopKid (grows_endPoolLoop h₀)))))))

theorem grows_ptbLoop (h₀ : Grows s₀ s) : Grows s₀ (ptbLoop v s) :=
  .ite (.ite (grows_setPoolLoop h₀) (grows_loopReads h₀)) (grows_setPortLoop h₀)

theorem grows_writeRing {o : Nat} (h₀ : Grows s₀ s) : Grows s₀ (writeRing a o v s) :=
  .ite h₀ (.ite (grows_ringMod h₀) (.ite (grows_ringMod h₀) (.ite (grows_ringMod h₀) (.ite (.ite (grows_ringMod h₀) h₀) (.ite (.ite
    (grows_ringMod h₀) h₀) h₀)))))

theorem grows_writeSeen (h₀ : Grows s₀ s) : Grows s₀ (writeSeen a v s) := .ite (.set h₀) h₀
theorem grows_writeFabId (h₀ : Grows s₀ s) : Grows s₀ (writeFabId a v s) := .ite (.set h₀) h₀
theorem grows_writeRouteSel (h₀ : Grows s₀ s) : Grows s₀ (writeRouteSel a v s) := .ite (.set h₀) h₀
theorem grows_writeCtrl (h₀ : Grows s₀ s) : Grows s₀ (writeCtrl a v s) := .ite (grows_ringEnable h₀) (grows_ringDisable h₀)
theorem grows_writeRoute0 (h₀ : Grows s₀ s) : Grows s₀ (writeRoute0 a v s) := .ite (grows_routeCommit h₀) (grows_routeStage h₀)

theorem grows_registerWrite {offset : W16} (h₀ : Grows s₀ s) : Grows s₀ (registerWrite a offset v s) :=
  .ite (grows_wakeWrite h₀) (.ite (grows_writeCtrl h₀) (.ite (grows_writeRing h₀) (.ite (grows_writeSeen h₀) (.ite (.ite
    (grows_recoveryRequest h₀) h₀) (.ite (.ite (grows_haltClear h₀) h₀) (.ite (grows_writeFabId h₀) (.ite (.ite (grows_setGo h₀) h₀) (.ite
    (grows_writeRouteSel h₀) (.ite (grows_writeRoute0 h₀) (.ite (grows_routeStage h₀) (.ite (grows_ptbWrite (fun _ => grows_ptbHsk .refl)
    h₀) (.ite (grows_ptbWrite (fun _ => grows_ptbBp .refl) h₀) (.ite (grows_ptbWrite (fun _ => grows_ptbTaghold .refl) h₀) (.ite
    (grows_ptbWrite (fun _ => grows_ptbBeat .refl) h₀) (.ite (grows_ptbWrite (fun _ => grows_ptbLoop .refl) h₀) h₀)))))))))))))))

end Sys2Proof.Machine
end

section
/-! SUPPORT. What the mailboxes and the SPDM responder keep of the queue and of the outputs. -/
namespace Sys2Proof.Machine

variable {s₀ s : State} {code slot index : Byte} {q : SpdmReq} {p : BitVec 1} {r : Resp} {me : Instr}

theorem grows_mailMod {g : MailSt → MailSt} (h₀ : Grows s₀ s) : Grows s₀ (mailMod p g s) := .ite (.set h₀) (.set h₀)
theorem grows_respond (h₀ : Grows s₀ s) : Grows s₀ (respond p r s) := grows_emit h₀

theorem grows_mail {f : State → State} (hf : ∀ u, Grows u (f u)) (h₀ : Grows s₀ s) : Grows s₀ (mail p me f s) :=
  .ite h₀ (.ite (.ite h₀ (grows_emit (grows_mailMod h₀))) (.ite h₀ ((Grows.ite (grows_emit (.set h₀)) (.set h₀)).trans (hf _))))

theorem grows_unsupported (h₀ : Grows s₀ s) : Grows s₀ (unsupported q code s) := grows_respond h₀
theorem grows_parityDrop (h₀ : Grows s₀ s) : Grows s₀ (parityDrop q s) := grows_respond (grows_bumpOpen h₀)

theorem grows_spdm {f : State → State} (hf : ∀ u, Grows u (f u)) (h₀ : Grows s₀ s) : Grows s₀ (spdm q me f s) :=
  grows_mail (fun _ => .ite (grows_parityDrop .refl) (.ite (hf _) (grows_respond .refl))) h₀

theorem grows_attested {f : State → State} (hf : ∀ u, Grows u (f u)) (h₀ : Grows s₀ s) : Grows s₀ (attested q code f s) :=
  .ite (h₀.trans (hf _)) (grows_unsupported h₀)

theorem grows_doeDiscovery (h₀ : Grows s₀ s) : Grows s₀ (doeDiscovery p index s) := grows_respond h₀
theorem grows_getVersion (h₀ : Grows s₀ s) : Grows s₀ (getVersion q s) := grows_respond (grows_mailMod h₀)
theorem grows_getCapabilities (h₀ : Grows s₀ s) : Grows s₀ (getCapabilities q s) := grows_respond (grows_mailMod h₀)

theorem grows_negotiate {offer : Algorithms} (h₀ : Grows s₀ s) : Grows s₀ (negotiate q offer s) :=
  .ite (grows_respond (grows_mailMod h₀)) (grows_respond (grows_mailMod h₀))

theorem grows_getDigests (h₀ : Grows s₀ s) : Grows s₀ (getDigests q s) := grows_respond h₀

theorem grows_getCertificate {offset length : W16} (h₀ : Grows s₀ s) : Grows s₀ (getCertificate q slot offset length s) := by
  unfold getCertificate
  split
  · exact .ite (grows_respond h₀) (grows_respond h₀)
  · exact grows_respond h₀

theorem grows_owe (h₀ : Grows s₀ s) : Grows s₀ (owe q r s) := .ite (grows_respond (grows_mailMod h₀)) (grows_mailMod h₀)
theorem grows_challenge (h₀ : Grows s₀ s) : Grows s₀ (challenge q slot s) := .ite (grows_owe (grows_bumpDraw h₀)) (grows_respond h₀)

theorem grows_getMeasurements {signs : Option Key} (h₀ : Grows s₀ s) : Grows s₀ (getMeasurements q index signs s) := by
  unfold getMeasurements
  dsimp only
  split
  · exact grows_respond h₀
  · exact .ite (grows_owe (grows_bumpDraw h₀)) (grows_respond h₀)

theorem grows_keyExchange (h₀ : Grows s₀ s) : Grows s₀ (keyExchange q slot s) := by
  refine .ite (grows_respond h₀) ?_
  refine .ite (grows_respond h₀) ?_
  refine grows_owe ?_
  refine .set ?_
  refine grows_mailMod ?_
  refine grows_placeKey ?_
  split
  · exact .set (grows_bumpDraw h₀)
  · exact grows_bumpDraw h₀

theorem grows_finishSession {session : Nat} {verifyOk : Bool} (h₀ : Grows s₀ s) : Grows s₀ (finishSession q session verifyOk s) :=
  .ite (grows_unsupported h₀) (.ite (grows_respond h₀) (grows_respond (grows_mailMod h₀)))

theorem grows_endSession (h₀ : Grows s₀ s) : Grows s₀ (endSession q s) := by
  unfold endSession
  split
  · exact grows_unsupported h₀
  · exact grows_respond (grows_retireKid (grows_mailMod h₀))

theorem grows_respondIfReady (h₀ : Grows s₀ s) : Grows s₀ (respondIfReady q s) := by
  unfold respondIfReady
  dsimp only
  split
  · exact grows_respond (grows_mailMod h₀)
  · exact .ite (grows_respond h₀) (grows_unsupported h₀)

theorem grows_otherRequest (h₀ : Grows s₀ s) : Grows s₀ (otherRequest q code s) := .ite (grows_respond h₀) (grows_unsupported h₀)

theorem grows_vendorMsg {may : State → Bool} {f : State → State} (hf : ∀ u, Grows u (f u)) (h₀ : Grows s₀ s) :
    Grows s₀ (vendorMsg q me may f s) :=
  grows_spdm (fun _ => .ite (grows_respond .refl) (.ite (hf _) (grows_unsupported .refl))) h₀

theorem grows_liveSession (h₀ : Grows s₀ s) : Grows s₀ (liveSession p r s) := by
  unfold liveSession
  split
  · split
    · exact grows_activateKid h₀
    · exact h₀
  · exact h₀

theorem grows_mailDone (h₀ : Grows s₀ s) : Grows s₀ (mailDone p s) := by
  unfold mailDone
  dsimp only
  split
  · exact h₀
  · exact .ite (grows_mailMod (grows_liveSession h₀)) (grows_respond (grows_mailMod (grows_liveSession h₀)))

theorem grows_kxeDone {who : KxeWho} (h₀ : Grows s₀ s) : Grows s₀ (kxeDone who s) := by
  unfold kxeDone
  split
  · exact .ite (grows_settle (grows_modProg h₀)) (grows_lateDone h₀)
  · exact grows_mailDone h₀

end Sys2Proof.Machine
end

section
/-! SUPPORT. What the rows of IDE_KM and of lost links keep of the queue and of the outputs. -/
namespace Sys2Proof.Machine

variable {s₀ s : State} {l failed : List Fn} {q : SpdmReq} {i : IdeSel}

theorem grows_query (h₀ : Grows s₀ s) : Grows s₀ (query q s) := grows_respond h₀

theorem grows_transientIde {key : Key} (h₀ : Grows s₀ s) : Grows s₀ (transientIde key s) :=
  grows_retireKid (grows_activateKid (grows_placeKey (grows_reserveInt h₀)))

theorem grows_keyProg {key : Key} {iv : W64} (h₀ : Grows s₀ s) : Grows s₀ (keyProg q i key iv s) :=
  .ite (grows_respond h₀) (grows_respond (.set (grows_transientIde h₀)))

theorem grows_kSetGo (h₀ : Grows s₀ s) : Grows s₀ (kSetGo q i s) := .ite (grows_respond h₀) (grows_respond (.set h₀))

theorem grows_kSetStop (h₀ : Grows s₀ s) : Grows s₀ (kSetStop q i s) :=
  .ite (grows_respond h₀) (grows_respond (.ite (grows_settle (grows_tdisErrorClean (.set h₀))) (.set h₀)))

theorem grows_faultRings (h₀ : Grows s₀ s) : Grows s₀ (faultRings failed l s) := by
  induction l generalizing s with
  | nil => exact h₀
  | cons _ _ ih => exact ih (.ite (grows_ringFault h₀) h₀)

theorem grows_dropStops (h₀ : Grows s₀ s) : Grows s₀ (dropStops l s) := by
  induction l generalizing s with
  | nil => exact h₀
  | cons _ _ ih => exact ih (.ite h₀ (grows_fnMod h₀))

theorem grows_eachError (h₀ : Grows s₀ s) : Grows s₀ (eachError l s) := by
  induction l generalizing s with
  | nil => exact h₀
  | cons _ _ ih => exact ih (grows_fnMod h₀)

theorem grows_linkDown {p : BitVec 1} (h₀ : Grows s₀ s) : Grows s₀ (linkDown p failed s) :=
  .ite (grows_settle (grows_tdisErrorClean (grows_faultRings (grows_dropStops (grows_retireKids (grows_mailMod (.set h₀)))))))
    (grows_eachError (grows_dropStops (grows_retireKids (grows_mailMod (.set h₀)))))

end Sys2Proof.Machine
end

section
/-! SUPPORT. What the life-cycle commands keep of the queue and of the outputs. -/
namespace Sys2Proof.Machine

variable {s₀ s : State} {p : InProg} {addr : W64} {env : StartEnv}

theorem grows_startChallenge (h₀ : Grows s₀ s) : Grows s₀ (startChallenge addr p s) :=
  grows_goOn (grows_sendHost (grows_bumpDraw (.set h₀)))

theorem grows_startTransition {req : Fetched LcReq} (h₀ : Grows s₀ s) : Grows s₀ (startTransition req env p s) := by
  unfold startTransition
  split
  · exact h₀
  · exact grows_goOn (.set h₀)

theorem grows_startStatus (h₀ : Grows s₀ s) : Grows s₀ (startStatus addr p s) := grows_goOn (grows_sendHost h₀)

theorem grows_startOwnerStore {it : Fetched OwnerItem} (h₀ : Grows s₀ s) : Grows s₀ (startOwnerStore it p s) := by
  unfold startOwnerStore
  split
  · exact h₀
  · exact .ite (grows_emit (grows_goOn h₀)) (grows_complete h₀)

theorem grows_flashWriteDone {job : FlashJob} (h₀ : Grows s₀ s) : Grows s₀ (flashWriteDone job env s) := by
  unfold flashWriteDone
  split
  · exact grows_settle (grows_modProg h₀)
  · exact grows_settle (.set h₀)

end Sys2Proof.Machine
end

section
/-! SUPPORT. What the rows of TDISP and of VF resets keep of the queue and of the outputs. -/
namespace Sys2Proof.Machine

variable {s₀ s : State} {vf : BitVec 12} {q : SpdmReq} {t : TdiSt}

theorem grows_tdispError {code : Nat} (h₀ : Grows s₀ s) : Grows s₀ (tdispError q code s) := grows_respond h₀

theorem grows_onIface {f : TdiSt → State → State} (hf : ∀ x u, Grows u (f x u)) (h₀ : Grows s₀ s) : Grows s₀ (onIface q vf f s) :=
  .ite (h₀.trans (hf _ _)) (grows_tdispError h₀)

theorem grows_tdiMod {g : TdiSt → TdiSt} (h₀ : Grows s₀ s) : Grows s₀ (tdiMod vf g s) := grows_fnMod h₀

theorem grows_lockIface {stream : Nat} {assocOk entropyOk : Bool} (h₀ : Grows s₀ s) :
    Grows s₀ (lockIface q vf stream assocOk entropyOk t s) := by
  unfold lockIface
  split
  · exact grows_tdispError h₀
  · exact grows_respond (grows_tdiMod (grows_bumpDraw h₀))

theorem grows_ifaceReport (h₀ : Grows s₀ s) : Grows s₀ (ifaceReport q vf t s) := .ite (grows_respond h₀) (grows_tdispError h₀)

theorem grows_startIface {nonce : Key} (h₀ : Grows s₀ s) : Grows s₀ (startIface q vf nonce t s) :=
  .ite (grows_tdispError h₀) (.ite (grows_tdispError h₀) (grows_respond (grows_tdiMod h₀)))

theorem grows_stopIface (h₀ : Grows s₀ s) : Grows s₀ (stopIface q vf t s) :=
  .ite (grows_settle (grows_startCleanup (grows_tdiMod h₀))) (.ite (grows_tdiMod h₀) (grows_respond (grows_tdiMod h₀)))

theorem grows_vfEnable {tick : Nat} {place : Placement} (h₀ : Grows s₀ s) : Grows s₀ (vfEnable vf tick place s) :=
  .ite h₀ (grows_viewMod (grows_viewMod (grows_fnMod h₀)))

theorem grows_configured {ev : VfEvent} (h₀ : Grows s₀ s) : Grows s₀ (configured vf ev s) := by
  unfold configured
  split
  · exact .ite (grows_fnMod h₀) h₀
  · exact h₀

theorem grows_pfReset (h₀ : Grows s₀ s) : Grows s₀ (pfReset s) :=
  grows_settle (grows_disableRing (grows_flushFn (grows_squashReads (grows_abortCmds (grows_ringMod h₀)))))

end Sys2Proof.Machine
end

section
/-! SUPPORT. What the tamper sources and power states keep of the queue and of the outputs. -/
namespace Sys2Proof.Machine

variable {s₀ s : State} {t : Power} {p : Fin 32} {env : StartEnv}

theorem grows_notePin {t : TamperSrc} (h₀ : Grows s₀ s) : Grows s₀ (notePin t s) := by
  unfold notePin
  split
  · exact .ite h₀ (.set h₀)
  · exact h₀

theorem grows_droopWarning (h₀ : Grows s₀ s) : Grows s₀ (droopWarning s) := .ite h₀ (grows_emit (.set h₀))
theorem grows_setPower (h₀ : Grows s₀ s) : Grows s₀ (setPower t s) := .set h₀
theorem grows_endLending (h₀ : Grows s₀ s) : Grows s₀ (endLending p s) := .ite (grows_portMod h₀) h₀
theorem grows_cacheOff {k : Nat} (h₀ : Grows s₀ s) : Grows s₀ (cacheOff k s) := grows_regionMod (grows_writeBackAll h₀)

theorem grows_enterA2 (h₀ : Grows s₀ s) : Grows s₀ (enterA2 s) :=
  grows_setPower (grows_eachIdx (fun _ _ => grows_cacheOff .refl) (grows_eachPort (fun _ _ => grows_endLending .refl) h₀))

theorem grows_wakeA1 (h₀ : Grows s₀ s) : Grows s₀ (wakeA1 s) :=
  grows_settle (grows_poolPump (grows_eachPort (fun _ _ => grows_pump .refl) (grows_retryWaits (grows_setPower h₀))))

theorem grows_sleepPort (h₀ : Grows s₀ s) : Grows s₀ (sleepPort p s) :=
  .ite (grows_portMod (.ite (grows_takeDown h₀) h₀)) (.ite (grows_takeDown h₀) h₀)

theorem grows_closeViews (h₀ : Grows s₀ s) : Grows s₀ (closeViews l s) := by
  fun_induction closeViews l s with
  | case1 => exact h₀
  | case2 _ _ _ ih => exact ih (.ite (grows_closeWindow (grows_closeWindow h₀)) h₀)
  | case3 _ _ ih => exact ih h₀

theorem grows_taborOff (h₀ : Grows s₀ s) : Grows s₀ (taborOff s) :=
  .set (grows_closeWindow (grows_closeViews (grows_applyEvents (.set h₀))))

theorem grows_taborOn (h₀ : Grows s₀ s) : Grows s₀ (taborOn s) := .set h₀

theorem grows_enterA3 (h₀ : Grows s₀ s) : Grows s₀ (enterA3 s) :=
  grows_setPower (.set (grows_taborOff (grows_eachPort (fun _ _ => grows_sleepPort .refl) h₀)))

theorem grows_readOwed {l : List Fn} (h₀ : Grows s₀ s) : Grows s₀ (readOwed l s) := by
  induction l generalizing s with
  | nil => exact h₀
  | cons _ _ ih => exact ih (.ite (grows_emit (grows_ringMod h₀)) h₀)

/-- What a command makes of `s` is a next state that has grown from it. -/
def Advances (s : State) (o : Host.Outcome State Fault Refusal) : Prop := ∃ t, o = .next t ∧ Grows s t

theorem advances_next {t : State} (h : Grows s t) : Advances s (.next t) := ⟨t, rfl, h⟩

/-- The commands that come to a DOE mailbox. -/
def mailCommand (c : Instr) : Bool :=
  match c with
  | .doeDiscovery _ _ => true
  | _ => (mailReq c).isSome

theorem exec_mailCommand_advances {c : Instr} (hc : mailCommand c = true) : Advances s (exec c s) := by
  cases c with
  | doeDiscovery _ _ => exact advances_next (grows_mail (fun _ => grows_doeDiscovery .refl) .refl)
  | getVersion _ => exact advances_next (grows_spdm (fun _ => grows_getVersion .refl) .refl)
  | getCapabilities _ => exact advances_next (grows_spdm (fun _ => grows_getCapabilities .refl) .refl)
  | negotiateAlgorithms _ _ => exact advances_next (grows_spdm (fun _ => grows_negotiate .refl) .refl)
  | getDigests _ => exact advances_next (grows_spdm (fun _ => grows_attested (fun _ => grows_getDigests .refl) .refl) .refl)
  | getCertificate _ _ _ _ => exact advances_next (grows_spdm (fun _ => grows_attested (fun _ => grows_getCertificate .refl) .refl) .refl)
  | challenge _ _ _ => exact advances_next (grows_spdm (fun _ => grows_attested (fun _ => grows_challenge .refl) .refl) .refl)
  | getMeasurements _ _ _ _ _ =>
    exact advances_next (grows_spdm (fun _ => .ite (grows_attested (fun _ => grows_getMeasurements .refl) .refl) (grows_getMeasurements .refl)) .refl)
  | keyExchange _ _ => exact advances_next (grows_spdm (fun _ => grows_attested (fun _ => grows_keyExchange .refl) .refl) .refl)
  | finish _ _ _ => exact advances_next (grows_spdm (fun _ => grows_attested (fun _ => grows_finishSession .refl) .refl) .refl)
  | endSession _ => exact advances_next (grows_spdm (fun _ => grows_endSession .refl) .refl)
  | respondIfReady _ => exact advances_next (grows_spdm (fun _ => grows_respondIfReady .refl) .refl)
  | spdmUnsupportedRequest _ _ => exact advances_next (grows_spdm (fun _ => grows_otherRequest .refl) .refl)
  | query _ => exact advances_next (grows_vendorMsg (fun _ => grows_query .refl) .refl)
  | keyProg _ _ _ _ => exact advances_next (grows_vendorMsg (fun _ => grows_keyProg .refl) .refl)
  | kSetGo _ _ => exact advances_next (grows_vendorMsg (fun _ => grows_kSetGo .refl) .refl)
  | kSetStop _ _ => exact advances_next (grows_vendorMsg (fun _ => grows_kSetStop .refl) .refl)
  | getTdispVersion _ => exact advances_next (grows_vendorMsg (fun _ => grows_respond .refl) .refl)
  | getTdispCapabilities _ => exact advances_next (grows_vendorMsg (fun _ => grows_respond .refl) .refl)
  | lockInterfaceRequest _ _ _ _ _ =>
    exact advances_next (grows_vendorMsg (fun _ => grows_onIface (fun _ _ => grows_lockIface .refl) .refl) .refl)
  | getDeviceInterfaceReport _ _ =>
    exact advances_next (grows_vendorMsg (fun _ => grows_onIface (fun _ _ => grows_ifaceReport .refl) .refl) .refl)
  | getDeviceInterfaceState _ _ =>
    exact advances_next (grows_vendorMsg (fun _ => grows_onIface (fun _ _ => grows_respond .refl) .refl) .refl)
  | startInterfaceRequest _ _ _ =>
    exact advances_next (grows_vendorMsg (fun _ => grows_onIface (fun _ _ => grows_startIface .refl) .refl) .refl)
  | stopInterfaceRequest _ _ =>
    exact advances_next (grows_vendorMsg (fun _ => grows_onIface (fun _ _ => grows_stopIface .refl) .refl) .refl)
  | tdispUnsupportedRequest _ _ => exact advances_next (grows_vendorMsg (fun _ => grows_tdispError .refl) .refl)
  | _ => cases hc

theorem serveMail_cases (i : Instr) (s : State) : serveMail i s = s ∨ mailCommand i = true ∧ serveMail i s = nextOf (exec i s) s := by
  unfold serveMail
  split
  case h_26 => exact .inl rfl
  all_goals exact .inr ⟨rfl, rfl⟩

theorem grows_nextOf {o : Host.Outcome State Fault Refusal} (ho : Advances s o) (h₀ : Grows s₀ s) : Grows s₀ (nextOf o s) := by
  obtain ⟨t, rfl, ht⟩ := ho
  exact h₀.trans ht

theorem grows_serveMail {i : Instr} (h₀ : Grows s₀ s) : Grows s₀ (serveMail i s) := by
  obtain h | ⟨hi, h⟩ := serveMail_cases i s
  · rwa [h]
  · rw [h]
    exact grows_nextOf (exec_mailCommand_advances hi) h₀

theorem grows_serveHeld {p : BitVec 1} (h₀ : Grows s₀ s) : Grows s₀ (serveHeld p s) := by
  unfold serveHeld
  split
  · exact grows_serveMail (grows_mailMod h₀)
  · exact h₀

theorem grows_leaveA3 (h₀ : Grows s₀ s) : Grows s₀ (leaveA3 s) :=
  grows_serveHeld (grows_serveHeld (grows_readOwed (grows_taborOn (grows_deriveIdentity (grows_setPower h₀)))))

theorem grows_enterOff (h₀ : Grows s₀ s) : Grows s₀ (enterOff s) :=
  grows_setPower (.set (grows_hostLost (grows_zeroiseAll (grows_tdisError (grows_endPerturb h₀)))))

theorem grows_changePower (h₀ : Grows s₀ s) : Grows s₀ (changePower t env s) := by
  unfold changePower
  split
  · exact grows_setPower (grows_eachPort (fun _ _ => grows_endLending .refl) h₀)
  · exact grows_eachPort (fun _ _ => grows_sendBeat .refl) (grows_setPower h₀)
  · exact grows_enterOff h₀
  · exact grows_wakeA1 h₀
  · exact .ite (grows_leaveA3 h₀) (grows_enterA2 h₀)
  · exact grows_enterA3 h₀
  · exact grows_start h₀
  · exact h₀

theorem grows_powerRequest (h₀ : Grows s₀ s) : Grows s₀ (powerRequest t env s) := by
  refine .ite h₀ ?_
  split
  · exact grows_emit h₀
  · exact grows_changePower (grows_emit h₀)

theorem grows_pwrokFall (h₀ : Grows s₀ s) : Grows s₀ (pwrokFall s) := grows_afterReset (.ite (.set h₀) h₀)

end Sys2Proof.Machine
end

section
/-! SUPPORT. What the commands of recovery and migration keep of the queue and of the outputs. -/
namespace Sys2Proof.Machine

variable {s₀ s : State} {p : InProg} {f : Fn} {h : CmdHdr} {addr : W64} {kid : W16}

theorem grows_startReset (h₀ : Grows s₀ s) : Grows s₀ (startReset h p s) := .ite (grows_beginReset h₀) (grows_goOn h₀)

theorem grows_startReplay {count : W32} {descs : Fetched (List ReplayDesc)} (h₀ : Grows s₀ s) : Grows s₀ (startReplay h count descs p s) :=
  .ite (grows_goOn (.set h₀)) (grows_runReplay (grows_goOn h₀))

theorem grows_placeMigration {key : Key} {reply : Option HostData} (h₀ : Grows s₀ s) : Grows s₀ (placeMigration p key addr reply s) :=
  grows_goOn (grows_placeKey (grows_reserveInt h₀))

theorem grows_startMigrateKey {msg : Fetched MigMsg} (h₀ : Grows s₀ s) : Grows s₀ (startMigrateKey addr msg p s) := by
  unfold startMigrateKey
  split
  · exact h₀
  · refine .ite (grows_goOn (grows_sendHost (grows_fnMod (grows_bumpDraw h₀)))) ?_
    refine .ite ?_ ?_
    · split
      · exact grows_goOn h₀
      · exact h₀
    · refine .ite ?_ ?_
      · split
        · exact grows_goOn h₀
        · split
          · exact grows_goOn h₀
          · exact grows_placeMigration (grows_bumpDraw (grows_bumpDraw (grows_bumpDraw h₀)))
      · split
        · exact grows_placeMigration h₀
        · exact grows_goOn h₀

theorem grows_saveOf {fresh : Bool} (h₀ : Grows s₀ s) : Grows s₀ (saveOf s f fresh).2 := by
  have hnew : Grows s₀ (saveOf.newSave s).2 := grows_bumpDraw (grows_bumpDraw h₀)
  unfold saveOf
  split
  · split
    · exact hnew
    · exact h₀
  · exact hnew

theorem grows_writeChunks {mig : Key} {l : List (Byte × Nat)} {n n' : Nat} {v : SaveSt} (h₀ : Grows s₀ s) :
    Grows s₀ (writeChunks f mig addr l n n' v s).2.2.2 := by
  fun_induction writeChunks f mig addr l n n' v s with
  | case1 | case2 => exact h₀
  | case3 _ _ _ _ _ _ _ _ _ ih => exact ih (grows_sendHost (grows_bumpOpen h₀))

theorem grows_startSaveImage {bufLen : W64} (h₀ : Grows s₀ s) : Grows s₀ (startSaveImage kid addr bufLen cursor p s) := by
  have hsave : Grows s₀ (saveOf s p.target (!(cursorSection cursor == 1) && cursorPos cursor == 0)).2 := grows_saveOf h₀
  have hend : ∀ (b : Bool) u, Grows s₀ u → Grows s₀ (if b then bumpOpen u else u) := fun _ _ hu => .ite (grows_bumpOpen hu) hu
  exact .ite (grows_complete (grows_fnMod (hend _ _ (grows_writeChunks hsave)))) (grows_goOn (grows_fnMod (hend _ _ (grows_writeChunks hsave))))

theorem grows_writeSegments {l : List (Nat × List Byte)} (h₀ : Grows s₀ s) : Grows s₀ (writeSegments f l s) := by
  induction l generalizing s with
  | nil => exact h₀
  | cons _ _ ih =>
    refine ih ?_
    split
    · exact grows_sendSpace h₀
    · exact h₀

theorem grows_placeTenant {x : SlotSt} (h₀ : Grows s₀ s) : Grows s₀ (placeTenant f kid x s) := by
  unfold placeTenant
  split
  · exact h₀
  · extract_lets own
    have hkid : ∀ t, Grows s₀ t → Grows s₀ (if own then (kid, t) else reserveKid f s).2 := fun t ht => by
      split
      · exact ht
      · exact grows_reserveKid h₀
    exact grows_activateKid (grows_placeKey (hkid _ (.set h₀)))

theorem grows_recreate {i : ImageItem} (h₀ : Grows s₀ s) : Grows s₀ (recreate f i s) := by
  unfold recreate
  split
  · exact grows_fnMod h₀
  · exact grows_fnMod h₀
  · exact grows_fnMod h₀
  · exact grows_placeTenant h₀
  · exact .ite h₀ (.set h₀)
  · exact grows_ringMod (grows_bumpOpen h₀)

theorem grows_recreateAll {l : List ImageItem} (h₀ : Grows s₀ s) : Grows s₀ (recreateAll f l s) := by
  induction l generalizing s with
  | nil => exact h₀
  | cons _ _ ih => exact ih (grows_recreate h₀)

theorem grows_endRestore {r : RestoreSt} (h₀ : Grows s₀ s) : Grows s₀ (endRestore f kid r s) := by
  refine .ite ?_ ?_
  · split
    · exact grows_fnMod (grows_recreateAll h₀)
    · exact .ite (grows_applyFilter (grows_fnMod (grows_recreateAll h₀))) (grows_fnMod (grows_fnMod (grows_recreateAll h₀)))
  · refine grows_retireKid ?_
    refine grows_fnMod ?_
    split
    · exact grows_fnMod (grows_recreateAll h₀)
    · exact .ite (grows_applyFilter (grows_fnMod (grows_recreateAll h₀))) (grows_fnMod (grows_fnMod (grows_recreateAll h₀)))

theorem grows_failRestore {st : W16} (h₀ : Grows s₀ s) : Grows s₀ (failRestore p st s) := grows_complete (grows_tdiError h₀)

theorem grows_startRestoreImage {cursor : W64} {chunks : Fetched (List Chunk)} (h₀ : Grows s₀ s) :
    Grows s₀ (startRestoreImage kid cursor chunks p s) := by
  unfold startRestoreImage
  dsimp only
  split
  · exact h₀
  · split
    · exact grows_failRestore (grows_writeSegments h₀)
    · exact grows_complete (grows_endRestore (grows_writeSegments h₀))
    · exact grows_complete (grows_fnMod (.ite (grows_bumpOpen (grows_writeSegments h₀)) (grows_writeSegments h₀)))

theorem grows_startDirtySync (h₀ : Grows s₀ s) : Grows s₀ (startDirtySync addr p s) := by
  unfold startDirtySync
  split
  · exact h₀
  · exact grows_goOn (.set (grows_fnMod h₀))

end Sys2Proof.Machine
end

section
/-! SUPPORT. What the recovery mailbox's rows keep of the queue and of the outputs. -/
namespace Sys2Proof.Machine

variable {s₀ s : State} {rcmd : Byte} {rstat : W16} {env : StartEnv}

theorem grows_recBody {body : List Byte} (h₀ : Grows s₀ s) : Grows s₀ (recBody rcmd rstat body s) := grows_emit h₀
theorem grows_recRespond (h₀ : Grows s₀ s) : Grows s₀ (recRespond rcmd rstat s) := grows_recBody h₀

theorem grows_recMail {ok : Bool} {f : State → State} (hf : ∀ u, Grows u (f u)) (h₀ : Grows s₀ s) : Grows s₀ (recMail rcmd ok f s) :=
  .ite h₀ (.ite (h₀.trans (hf _)) (grows_recRespond h₀))

theorem grows_recStatus (h₀ : Grows s₀ s) : Grows s₀ (recStatus s) := grows_recBody h₀
theorem grows_recChallenge (h₀ : Grows s₀ s) : Grows s₀ (recChallenge s) := grows_recBody (grows_bumpDraw (.set h₀))

theorem grows_recTransition {r : LcReq} (h₀ : Grows s₀ s) : Grows s₀ (recTransition r env s) := by
  unfold recTransition
  split
  · exact grows_recRespond h₀
  · exact grows_recRespond h₀
  · exact .ite (grows_recRespond h₀) (.ite (grows_start (grows_recRespond (grows_finishOwner (.set h₀)))) (grows_recRespond (.set h₀)))

theorem grows_imgStart {length : Nat} (h₀ : Grows s₀ s) : Grows s₀ (imgStart length s) :=
  .ite (grows_recRespond h₀) (grows_recRespond (.set h₀))

theorem grows_imgTake {bytes n : Nat} (h₀ : Grows s₀ s) : Grows s₀ (imgTake bytes n s) :=
  .ite (grows_recRespond h₀) (grows_recRespond (.set h₀))

theorem grows_imgVerify {img : FwImage} (h₀ : Grows s₀ s) : Grows s₀ (imgVerify img s) :=
  .ite (grows_emit (grows_recRespond (.set h₀))) (grows_recRespond h₀)

theorem grows_imageWritten {readBackOk : Bool} (h₀ : Grows s₀ s) : Grows s₀ (imageWritten readBackOk env s) :=
  .ite (grows_start (.set h₀)) h₀

end Sys2Proof.Machine
end

section
/-! SUPPORT. What the commands of debug and telemetry keep of the queue and of the outputs. -/
namespace Sys2Proof.Machine

variable {s₀ s : State} {p : InProg} {bad : List Nat} {fn : Fn} {ctx : W16}

theorem grows_startGrant {cert : Fetched Cert} (h₀ : Grows s₀ s) : Grows s₀ (startGrant cert p s) := by
  unfold startGrant
  split
  · exact h₀
  · exact grows_goOn (grows_reserveInt h₀)

theorem grows_startRevoke (h₀ : Grows s₀ s) : Grows s₀ (startRevoke p s) := by
  unfold startRevoke
  split
  · exact grows_complete h₀
  · exact grows_goOn (grows_revokeGrant h₀)

theorem grows_readView {v : ViewId} {reader : Fn} {bufLen : Nat} (h₀ : Grows s₀ s) : Grows s₀ (readView v reader bufLen bad s).2.2 :=
  .set h₀

theorem grows_startTelemRead {h : CmdHdr} {addr : W64} {bufLen : W32} (h₀ : Grows s₀ s) : Grows s₀ (startTelemRead h addr bufLen bad p s) :=
  grows_goOn (grows_sendHost (.set h₀))

theorem grows_startTraceConfig {share gib : Byte} (h₀ : Grows s₀ s) : Grows s₀ (startTraceConfig share gib p s) :=
  grows_complete (.set (.ite (grows_toScrubber h₀) h₀))

theorem grows_commandStart (h₀ : Grows s₀ s) : Grows s₀ (commandStart fn ctx s) := by
  unfold commandStart
  dsimp only
  split
  · exact grows_emit (.set h₀)
  · exact .ite (grows_emit (.set h₀)) (grows_emit h₀)

theorem grows_taborEvent {type format units tick : Nat} (h₀ : Grows s₀ s) : Grows s₀ (taborEvent fn ctx type format units tick s) :=
  .ite h₀ (grows_addSet (.set h₀))

theorem grows_traceSlot (h₀ : Grows s₀ s) : Grows s₀ (traceSlot f s) :=
  .ite h₀ (.set (grows_activateKid (grows_placeKey (grows_reserveInt h₀))))

theorem grows_traceBlockSeal {f : Fn} (h₀ : Grows s₀ s) : Grows s₀ (traceBlockSeal f s) := .ite h₀ (grows_emit (.set (grows_traceSlot h₀)))

end Sys2Proof.Machine
end

section
/-! SUPPORT. What the TAP's instructions keep of the queue and of the outputs. -/
namespace Sys2Proof.Machine

variable {s₀ s : State} {st : W16} {d : W32} {r : LcReq} {env : StartEnv}

theorem grows_tapBypass (h₀ : Grows s₀ s) : Grows s₀ (tapBypass s) := grows_emit h₀
theorem grows_tapOpen (h₀ : Grows s₀ s) : Grows s₀ (tapOpen s) := grows_bumpOpen (grows_emit h₀)

theorem grows_tap {n : Nat} {f : State → State} (hf : ∀ u, Grows u (f u)) (h₀ : Grows s₀ s) : Grows s₀ (tap n f s) :=
  .ite (h₀.trans (hf _)) (grows_tapBypass h₀)

theorem grows_tapLcAnswer (h₀ : Grows s₀ s) : Grows s₀ (tapLcAnswer st d s) := grows_emit h₀

theorem grows_tapRun (h₀ : Grows s₀ s) : Grows s₀ (tapRun r env s) :=
  grows_lcEnd (grows_emit (.ite (grows_lcBegin h₀) (.ite (grows_lcErased (grows_lcJournal (grows_lcBegin h₀))) (grows_lcErased
    (grows_lcBegin h₀)))))

theorem grows_tapTransition (h₀ : Grows s₀ s) : Grows s₀ (tapTransition r env s) := by
  unfold tapTransition
  split
  · exact grows_tapLcAnswer h₀
  · exact .ite (grows_tapRun (.set h₀)) (grows_tapLcAnswer (.set h₀))

theorem grows_tapChallenge (h₀ : Grows s₀ s) : Grows s₀ (tapChallenge s) := by
  unfold tapChallenge
  split
  · exact grows_tapLcAnswer h₀
  · exact grows_emit (grows_bumpDraw (.set h₀))

theorem grows_lcMailbox {op : LcMailOp} (h₀ : Grows s₀ s) : Grows s₀ (lcMailbox op s) := by
  refine .ite (grows_tapBypass h₀) ?_
  split
  · exact grows_emit h₀
  · exact .ite (grows_tapChallenge h₀) (grows_tapLcAnswer h₀)
  · exact .ite (grows_tapTransition h₀) (grows_tapLcAnswer h₀)

theorem grows_tapDbgAnswer (h₀ : Grows s₀ s) : Grows s₀ (tapDbgAnswer st d s) := grows_emit h₀

theorem grows_tapGrant (h₀ : Grows s₀ s) : Grows s₀ (tapGrant c s) := by
  unfold tapGrant
  split
  · exact grows_tapDbgAnswer h₀
  · exact .ite (grows_settle (grows_tapDbgAnswer (grows_applyGrant (grows_reserveInt h₀)))) (grows_tapDbgAnswer h₀)

theorem grows_tapRevoke (h₀ : Grows s₀ s) : Grows s₀ (tapRevoke s) := by
  unfold tapRevoke
  split
  · exact grows_tapDbgAnswer h₀
  · exact grows_settle (.set (grows_revokeGrant h₀))

theorem grows_dbgMailbox {op : Byte} {c : Cert} (h₀ : Grows s₀ s) : Grows s₀ (dbgMailbox op c s) :=
  .ite (grows_tapBypass h₀) (.ite (.ite (grows_tapGrant h₀) (grows_tapDbgAnswer h₀)) (.ite (.ite (grows_tapRevoke h₀) (grows_tapDbgAnswer
    h₀)) (grows_tapDbgAnswer h₀)))

theorem grows_traceRd {reader : Fn} {bad : List Nat} (h₀ : Grows s₀ s) : Grows s₀ (traceRd reader bad s) := grows_emit (.set h₀)

theorem grows_tileDbg {f : Fn} (h₀ : Grows s₀ s) : Grows s₀ (tileDbg f s) := by
  unfold tileDbg
  split
  · exact .ite (grows_emit h₀) (grows_emit (grows_countFn h₀))
  · exact grows_emit (grows_countFn h₀)

theorem grows_scanDump (h₀ : Grows s₀ s) : Grows s₀ (scanDump s) := grows_afterReset (grows_tapOpen h₀)

end Sys2Proof.Machine
end

section
/-! SUPPORT. The statement on steps. -/
namespace Sys2Proof.Machine

theorem exec_advances (c : Instr) (s : State) : Advances s (exec c s) := by
  by_cases hm : mailCommand c = true
  · exact exec_mailCommand_advances hm
  cases c with
  | wakeWrite _ _ => exact advances_next (grows_wakeWrite .refl)
  | doorbellReadDone _ _ => exact advances_next (grows_doorbellReadDone .refl)
  | scanDispatch _ => exact advances_next (grows_scanDispatch .refl)
  | joinJob _ _ _ _ _ => exact advances_next (grows_runRow (fun _ _ => grows_startJoin .refl) .refl)
  | leaveJob _ _ => exact advances_next (grows_runRow (fun _ _ => grows_startLeave .refl) .refl)
  | nop _ => exact advances_next (grows_runRow (fun _ _ => grows_complete .refl) .refl)
  | keyAlloc _ _ _ _ => exact advances_next (grows_runRow (fun _ _ => grows_startAlloc .refl) .refl)
  | keyDerive _ _ _ _ => exact advances_next (grows_runRow (fun _ _ => grows_startDerive .refl) .refl)
  | keyRotate _ _ => exact advances_next (grows_runRow (fun _ _ => grows_startRotate .refl) .refl)
  | keyRetire _ _ => exact advances_next (grows_runRow (fun _ _ => grows_startRetire .refl) .refl)
  | flushConfirm _ _ => exact advances_next (grows_whenLive (fun _ => grows_flushConfirm .refl) .refl)
  | park _ _ _ _ _ => exact advances_next (grows_runRow (fun _ _ => grows_startPark .refl) .refl)
  | resume _ _ _ _ _ => exact advances_next (grows_runRow (fun _ _ => grows_startResume .refl) .refl)
  | checkpointWrite _ => exact advances_next (grows_whenLive (fun _ => grows_checkpointWrite .refl) .refl)
  | regionCreate _ _ _ _ _ => exact advances_next (grows_runRow (fun _ _ => grows_startRegion .refl) .refl)
  | regionFree _ _ => exact advances_next (grows_runRow (fun _ _ => grows_startFree .refl) .refl)
  | keeperHandover _ _ _ => exact advances_next (grows_runRow (fun _ _ => grows_startHandover .refl) .refl)
  | reduce _ _ _ _ _ _ _ _ => exact advances_next (grows_runRow (fun _ _ => grows_startReduce .refl) .refl)
  | streamOpen _ _ _ _ _ => exact advances_next (grows_runRow (fun _ _ => grows_startOpen .refl) .refl)
  | streamClose _ _ _ _ _ => exact advances_next (grows_runRow (fun _ _ => grows_startClose .refl) .refl)
  | batchCancel _ _ => exact advances_next (grows_runRow (fun _ _ => grows_startCancel .refl) .refl)
  | carveGrow _ _ _ _ => exact advances_next (grows_runRow (fun _ _ => grows_startGrow .refl) .refl)
  | carveShrink _ _ _ _ => exact advances_next (grows_runRow (fun _ _ => grows_startShrink .refl) .refl)
  | contextCreate _ => exact advances_next (grows_runRow (fun _ _ => grows_startCreate .refl) .refl)
  | contextAbandon _ => exact advances_next (grows_runRow (fun _ _ => grows_startAbandon .refl) .refl)
  | fenceCreate _ _ _ => exact advances_next (grows_runRow (fun _ _ => grows_startFenceCreate .refl) .refl)
  | fenceRelease _ _ => exact advances_next (grows_runRow (fun _ _ => grows_startRelease .refl) .refl)
  | fenceSignal _ _ _ => exact advances_next (grows_runRow (fun _ _ => grows_startSignal .refl) .refl)
  | fenceWait _ _ _ => exact advances_next (grows_runRow (fun _ _ => grows_startWait .refl) .refl)
  | memMap _ _ _ _ _ => exact advances_next (grows_runRow (fun _ _ => grows_startMap .refl) .refl)
  | memUnmap _ _ => exact advances_next (grows_runRow (fun _ _ => grows_startUnmap .refl) .refl)
  | quiesceVf _ => exact advances_next (grows_runRow (fun _ _ => grows_goOn (grows_quiesceVf .refl)) .refl)
  | resetVf _ => exact advances_next (grows_runRow (fun _ _ => grows_startReset .refl) .refl)
  | resetPackage _ _ => exact advances_next (grows_runRow (fun _ _ => grows_beginPackageReset .refl) .refl)
  | replayContext _ _ _ => exact advances_next (grows_runRow (fun _ _ => grows_startReplay .refl) .refl)
  | migrateKey _ _ _ _ => exact advances_next (grows_runRow (fun _ _ => grows_startMigrateKey .refl) .refl)
  | migrateFreeze _ => exact advances_next (grows_runRow (fun _ _ => grows_goOn (grows_quiesceVf .refl)) .refl)
  | migrateSave _ _ _ _ _ => exact advances_next (grows_runRow (fun _ _ => grows_startSaveImage .refl) .refl)
  | migrateRestore _ _ _ _ => exact advances_next (grows_runRow (fun _ _ => grows_startRestoreImage .refl) .refl)
  | dirtyLogStart _ _ _ => exact advances_next (grows_runRow (fun _ _ => grows_complete (grows_fnMod (.set .refl))) .refl)
  | dirtyLogStop _ => exact advances_next (grows_runRow (fun _ _ => grows_complete (grows_fnMod .refl)) .refl)
  | dirtyLogSync _ _ _ => exact advances_next (grows_runRow (fun _ _ => grows_startDirtySync .refl) .refl)
  | telemWindow _ _ => exact advances_next (grows_runRow (fun _ _ => grows_complete (grows_viewMod .refl)) .refl)
  | telemRead _ _ _ _ => exact advances_next (grows_runRow (fun _ _ => grows_startTelemRead .refl) .refl)
  | traceConfig _ _ _ => exact advances_next (grows_runRow (fun _ _ => grows_startTraceConfig .refl) .refl)
  | debugGrant _ _ _ => exact advances_next (grows_runRow (fun _ _ => grows_startGrant .refl) .refl)
  | debugRevoke _ => exact advances_next (grows_runRow (fun _ _ => grows_startRevoke .refl) .refl)
  | lcChallenge _ _ => exact advances_next (grows_runRow (fun _ _ => grows_startChallenge .refl) .refl)
  | lcTransition _ _ _ _ => exact advances_next (grows_runRow (fun _ _ => grows_startTransition .refl) .refl)
  | lcStatus _ _ _ => exact advances_next (grows_runRow (fun _ _ => grows_startStatus .refl) .refl)
  | ownerStore _ _ _ _ => exact advances_next (grows_runRow (fun _ _ => grows_startOwnerStore .refl) .refl)
  | bulkCtxOpen _ _ _ _ => exact advances_next (grows_runRow (fun _ _ => grows_startBulkOpen .refl) .refl)
  | bulkOp _ _ _ _ =>
    refine advances_next ?_
    refine grows_runRow ?_ .refl
    intro _ _
    refine grows_takeTurn ?_ .refl
    intro _ _
    split
    · exact grows_startOp .refl
    · exact .refl
  | bulkCtxSave _ _ _ _ =>
    refine advances_next ?_
    refine grows_runRow ?_ .refl
    intro _ _
    refine grows_takeTurn ?_ .refl
    intro _ _
    split
    · exact grows_startSave .refl
    · exact .refl
  | bulkCtxRestore _ _ _ _ _ =>
    refine advances_next ?_
    refine grows_runRow ?_ .refl
    intro _ _
    refine grows_takeTurn ?_ .refl
    intro _ _
    split
    · exact grows_startRestore .refl
    · exact .refl
  | bulkCtxClose _ _ => exact advances_next (grows_runRow (fun _ _ => grows_takeTurn (fun _ _ => grows_closeNow .refl) .refl) .refl)
  | setProfile _ _ => exact advances_next (grows_runRow (fun _ _ => grows_complete (.set .refl)) .refl)
  | selfTest _ _ _ _ _ => exact advances_next (grows_selfTest .refl)
  | ringEnable _ => exact advances_next (grows_ringEnable .refl)
  | ringEnableDone _ _ _ => exact advances_next (grows_ringEnableDone .refl)
  | ringDisable _ => exact advances_next (grows_ringDisable .refl)
  | haltClear _ => exact advances_next (grows_haltClear .refl)
  | recoveryRequest _ => exact advances_next (grows_recoveryRequest .refl)
  | go _ => exact advances_next (grows_setGo .refl)
  | routeCommit _ _ => exact advances_next (grows_routeCommit .refl)
  | routeStage _ _ _ => exact advances_next (grows_routeStage .refl)
  | ptbHskWrite _ _ => exact advances_next (grows_ptbWrite (fun _ => grows_ptbHsk .refl) .refl)
  | ptbBpWrite _ _ => exact advances_next (grows_ptbWrite (fun _ => grows_ptbBp .refl) .refl)
  | ptbTagholdWrite _ _ => exact advances_next (grows_ptbWrite (fun _ => grows_ptbTaghold .refl) .refl)
  | ptbBeatWrite _ _ => exact advances_next (grows_ptbWrite (fun _ => grows_ptbBeat .refl) .refl)
  | ptbLoopWrite _ _ => exact advances_next (grows_ptbWrite (fun _ => grows_ptbLoop .refl) .refl)
  | registerWrite _ _ _ => exact advances_next (grows_registerWrite .refl)
  | sealRequest _ => exact advances_next (grows_settle (grows_atPort (fun _ => grows_sealRequest .refl) .refl))
  | tokenRequest _ _ => exact advances_next (grows_settle (grows_atPort (fun _ => grows_tokenRequest .refl) .refl))
  | refusalRequest _ _ _ _ _ _ => exact advances_next (grows_settle (grows_whenLive (fun _ => grows_refusalRequest .refl) .refl))
  | chimeRequest _ _ => exact advances_next (grows_settle (grows_atPort (fun _ => grows_chimeRequest .refl) .refl))
  | localChimeRequest _ _ _ _ _ => exact advances_next (grows_atPort (fun _ => grows_localChime .refl) .refl)
  | memberPoolRequest _ _ _ _ => exact advances_next (grows_settle (grows_atPort (fun _ => grows_memberPool .refl) .refl))
  | localPoolRequest _ => exact advances_next (grows_settle (grows_atPort (fun _ => grows_localPool .refl) .refl))
  | debugMasterRequest _ _ => exact advances_next (grows_whenLive (fun _ => grows_debugMaster .refl) .refl)
  | firewallAccess _ => exact advances_next (grows_firewallAccess .refl)
  | switchNotice _ _ => exact advances_next (grows_switchNotice .refl)
  | commandStart _ _ => exact advances_next (grows_whenLive (fun _ => grows_commandStart .refl) .refl)
  | taborEvent _ _ _ _ _ _ => exact advances_next (grows_whenLive (fun _ => grows_taborEvent .refl) .refl)
  | syncWaitRegister _ _ _ _ => exact advances_next (grows_whenLive (fun _ => grows_syncWait .refl) .refl)
  | writeCompletion _ => exact advances_next (grows_writeCompletion .refl)
  | chimeRelease _ _ => exact advances_next (grows_whenLive (fun _ => grows_chimeRelease .refl) .refl)
  | data _ _ _ => exact advances_next (grows_sealedFrame .refl)
  | chime _ _ _ => exact advances_next (grows_sealedFrame .refl)
  | token _ _ _ => exact advances_next (grows_sealedFrame .refl)
  | return_ _ _ _ => exact advances_next (grows_sealedFrame .refl)
  | refusal _ _ _ => exact advances_next (grows_sealedFrame .refl)
  | poolRead _ _ _ => exact advances_next (grows_sealedFrame .refl)
  | poolWrite _ _ _ => exact advances_next (grows_sealedFrame .refl)
  | poolReduce _ _ _ => exact advances_next (grows_sealedFrame .refl)
  | poolResponse _ _ _ => exact advances_next (grows_sealedFrame .refl)
  | mgmtOffer _ _ _ => exact advances_next (grows_sealedFrame .refl)
  | mgmtAnswer _ _ _ _ _ => exact advances_next (grows_sealedFrame .refl)
  | mgmtCommit _ _ _ => exact advances_next (grows_sealedFrame .refl)
  | epochEnd _ _ _ => exact advances_next (grows_sealedFrame .refl)
  | close _ _ => exact advances_next (grows_sealedFrame .refl)
  | homeResponse _ _ _ => exact advances_next (grows_settle (grows_arrive (fun _ => grows_homeAnswer .refl) .refl))
  | alloc _ _ _ _ => exact advances_next (grows_homeRow (fun _ => grows_homeAlloc .refl) .refl)
  | free _ _ => exact advances_next (grows_homeRow (fun _ => grows_homeFree .refl) .refl)
  | rebind _ _ _ => exact advances_next (grows_homeRow (fun _ => grows_homeRebind .refl) .refl)
  | readLines _ _ => exact advances_next (grows_homeRow (fun _ => grows_homeReadLines .refl) .refl)
  | writeLines _ _ _ => exact advances_next (grows_homeRow (fun _ => grows_homeWriteLines .refl) .refl)
  | readNodes _ _ _ => exact advances_next (grows_homeRow (fun _ => grows_homeReadNodes .refl) .refl)
  | writeNodes _ _ _ => exact advances_next (grows_homeRow (fun _ => grows_homeWriteNodes .refl) .refl)
  | leaseRelease _ _ => exact advances_next (grows_homeRow (fun _ => .ite (grows_homeStatus .refl) (grows_homeLeaseRelease .refl)) .refl)
  | relayForward _ => exact advances_next (grows_settle (grows_arrive (fun _ => .refl) .refl))
  | beat _ _ _ _ => exact advances_next (grows_settle (grows_arrive (fun _ => grows_beat .refl) .refl))
  | knell _ _ _ => exact advances_next (grows_settle (grows_arrive (fun _ => grows_knell .refl) .refl))
  | proxyKnell _ _ _ _ => exact advances_next (grows_settle (grows_arrive (fun _ => grows_proxyKnell .refl) .refl))
  | openReq _ _ _ _ => exact advances_next (grows_settle (grows_arrive (fun _ => grows_openReq .refl) .refl))
  | openAck _ _ _ _ _ _ _ _ => exact advances_next (grows_settle (grows_arrive (fun _ => grows_openAck .refl) .refl))
  | credit _ _ => exact advances_next (grows_settle (grows_arrive (fun _ => grows_pump (grows_grantMore .refl)) .refl))
  | loop _ _ => exact advances_next (grows_settle (.ite (grows_loop .refl) .refl))
  | reservedKindFrame _ => exact advances_next (grows_settle (grows_arrive (fun _ => .refl) .refl))
  | beatSend _ => exact advances_next (grows_whenLive (fun _ => grows_beatSend .refl) .refl)
  | neighbourLostSilence _ => exact advances_next (grows_whenLive (fun _ => .ite (grows_settle (grows_neighbourLost .refl)) .refl) .refl)
  | portDown _ => exact advances_next (grows_portDown .refl)
  | portTrained _ => exact advances_next (grows_tryUp (grows_portMod .refl))
  | openReqResend _ _ => exact advances_next (grows_whenLive (fun _ => grows_openReqResend .refl) .refl)
  | openReqHoldExpiry _ _ => exact advances_next (grows_whenLive (fun _ => .set .refl) .refl)
  | streamOpenTimeout _ _ => exact advances_next (grows_whenLive (fun _ => grows_streamOpenTimeout .refl) .refl)
  | streamCloseTimeout _ _ => exact advances_next (grows_whenLive (fun _ => grows_streamCloseTimeout .refl) .refl)
  | receiveWaitExpiry _ _ => exact advances_next (grows_whenLive (fun _ => grows_receiveWaitExpiry .refl) .refl)
  | homeExchangeTimeout _ => exact advances_next (grows_whenLive (fun _ => grows_homeTimeout .refl) .refl)
  | handoverTimeout _ _ => exact advances_next (grows_whenLive (fun _ => grows_handoverTimeout .refl) .refl)
  | dirtyNodeWriteback _ _ _ _ =>
    refine advances_next ?_
    refine grows_whenLive ?_ .refl
    intro _
    split
    · exact grows_settle (grows_poolPump (grows_writeBack .refl))
    · exact .refl
  | overflowSweep _ _ _ _ =>
    refine advances_next ?_
    refine grows_whenLive ?_ .refl
    intro _
    split
    · exact grows_settle (grows_poolPump (grows_sweepMod .refl))
    · exact .refl
  | quarantineEpoch => exact advances_next (grows_whenLive (fun _ => grows_quarantineTick .refl) .refl)
  | fabricEpochBoundary => exact advances_next (.ite (grows_settle (grows_epochBoundary .refl)) .refl)
  | windowEnd _ => exact advances_next (.ite (grows_windowEnd .refl) .refl)
  | traceBlockSeal _ => exact advances_next (grows_whenLive (fun _ => grows_traceBlockSeal .refl) .refl)
  | lendingCheck _ _ => exact advances_next (grows_whenLive (fun _ => grows_lendingCheck .refl) .refl)
  | bankRestoreDone _ _ => exact advances_next (grows_portMod .refl)
  | budgetReport _ => exact advances_next (grows_whenLive (fun _ => grows_emit .refl) .refl)
  | scrubDone => exact advances_next (.ite (grows_scrubDone .refl) .refl)
  | powerStateRequest _ _ => exact advances_next (grows_powerRequest .refl)
  | tamperSourceFire _ => exact advances_next (grows_tamperSource (grows_notePin .refl))
  | clockMonitorMeasure _ _ => exact advances_next (.ite (grows_tamperSource .refl) .refl)
  | meshPattern _ => exact advances_next (.ite (grows_tamperSource .refl) .refl)
  | droopWarning _ => exact advances_next (grows_droopWarning .refl)
  | avkPwrokRise _ => exact advances_next (.ite (grows_start .refl) .refl)
  | avkPwrokFall => exact advances_next (grows_pwrokFall .refl)
  | bistLimitRecheck _ => exact advances_next (grows_bistRecheck .refl)
  | svnFuseBurn => exact advances_next (.ite (.set .refl) .refl)
  | vfEnable _ _ => exact advances_next (grows_vfEnable .refl)
  | vfFunctionLevelReset _ => exact advances_next (grows_whenLive (fun _ => grows_settle (grows_tdiError .refl)) (grows_configured .refl))
  | pfFunctionLevelReset => exact advances_next (grows_whenLive (fun _ => grows_pfReset .refl) .refl)
  | ideIntegrityFailure _ _ => exact advances_next (grows_whenLive (fun _ => grows_settle (grows_tdisErrorClean .refl)) .refl)
  | linkDown _ _ => exact advances_next (grows_linkDown .refl)
  | recoveryStatus => exact advances_next (grows_recMail (fun _ => grows_recStatus .refl) .refl)
  | recoveryLcChallenge => exact advances_next (grows_recMail (fun _ => grows_recChallenge .refl) .refl)
  | recoveryLcTransition _ _ => exact advances_next (grows_recMail (fun _ => grows_recTransition .refl) .refl)
  | imgBegin _ => exact advances_next (grows_recMail (fun _ => grows_imgStart .refl) .refl)
  | imgData _ _ => exact advances_next (grows_recMail (fun _ => grows_imgTake .refl) .refl)
  | imgCommit _ => exact advances_next (grows_recMail (fun _ => grows_imgVerify .refl) .refl)
  | imageWriteDone _ _ => exact advances_next (grows_imageWritten .refl)
  | extest => exact advances_next (grows_tapOpen .refl)
  | samplePreload => exact advances_next (grows_bumpOpen (grows_emit .refl))
  | idcode => exact advances_next (grows_emit .refl)
  | lcMbox _ => exact advances_next (grows_lcMailbox .refl)
  | dbgMbox _ _ => exact advances_next (grows_dbgMailbox .refl)
  | statusRd => exact advances_next (grows_tap (fun _ => grows_emit .refl) .refl)
  | ctrRd => exact advances_next (grows_tap (fun _ => grows_emit .refl) .refl)
  | traceRd _ _ => exact advances_next (grows_tap (fun _ => grows_traceRd .refl) .refl)
  | memPort _ _ => exact advances_next (.ite (grows_debugMaster .refl) (grows_tapBypass .refl))
  | tileDbg _ => exact advances_next (grows_tap (fun _ => grows_tileDbg .refl) .refl)
  | ksMetaRd _ => exact advances_next (grows_tap (fun _ => grows_emit .refl) .refl)
  | otpRd _ => exact advances_next (grows_tap (fun _ => grows_emit .refl) .refl)
  | ctrlDbg => exact advances_next (grows_tap (fun _ => grows_tapOpen .refl) .refl)
  | kxeDbg => exact advances_next (grows_tap (fun _ => grows_tapOpen .refl) .refl)
  | entropyRd => exact advances_next (grows_tap (fun _ => grows_tapOpen .refl) .refl)
  | scanAon => exact advances_next (grows_tap (fun _ => grows_scanDump .refl) .refl)
  | scanCipher => exact advances_next (grows_tap (fun _ => grows_scanDump .refl) .refl)
  | bypass _ => exact advances_next (grows_tapBypass .refl)
  | parityError _ => exact advances_next (grows_gongHalt .refl)
  | reservedFtypeFrame _ _ _ => exact advances_next (grows_sealedFrame .refl)
  | kxeOperationDone _ => exact advances_next (grows_whenLive (fun _ => grows_kxeDone .refl) .refl)
  | bulkRequestDone _ _ _ => exact advances_next (grows_whenLive (fun _ => grows_bulkRequestDone .refl) .refl)
  | flashWriteDone _ _ => exact advances_next (grows_whenLive (fun _ => grows_flashWriteDone .refl) .refl)
  | hostDmaDone _ _ => exact advances_next (grows_hostDmaDone .refl)
  | checkerAccessDone _ => exact advances_next (grows_accessDone .refl)
  | pcieControllerUncorrectable _ _ =>
    exact advances_next (grows_whenLive (fun _ => grows_settle (grows_tdisErrorClean (grows_emit .refl))) .refl)
  | _ => exact absurd rfl hm

/-- Settles O60: a step runs the command at the front of the queue on the state with the queue's rest, and every command's effect is made
of operations that leave the queue and send outputs after those sent before. -/
theorem stepTakesOneCommand : Obligations.StepTakesOneCommand := by
  intro c rest s
  obtain ⟨t, ht, hgrows⟩ := exec_advances c { s with pending := rest }
  exact ⟨t, ht, hgrows.pending, hgrows.out⟩

/-- Settles O1: `step` is a match on the queue. -/
theorem stepRunsFrontCommand : Obligations.StepRunsFrontCommand := by
  refine ⟨fun c rest s => rfl, fun s hs => ?_⟩
  rw [step, hs]

end Sys2Proof.Machine
end

section
/-! SUPPORT. The ring's register writes: a wake, an enable, a disable, and the end of an enable. -/
namespace Sys2Proof.Machine

section
variable {s : State} {a : RegAcc} {f : Fn} {x : Fetched (BitVec 512)} {ok : Bool}

theorem exec_ringEnable (a : RegAcc) (s : State) : exec (.ringEnable a) s = .next (ringEnable a s) := rfl
theorem exec_ringDisable (a : RegAcc) (s : State) : exec (.ringDisable a) s = .next (ringDisable a s) := rfl
theorem exec_ringEnableDone (f : Fn) (x : Fetched (BitVec 512)) (ok : Bool) (s : State) :
    exec (.ringEnableDone f x ok) s = .next (ringEnableDone f x ok s) := rfl

/-! ### Wakes (R60) -/

/-- Above A2, a wake sends its read without asking for power first. -/
theorem wakeRing_powered (h2 : s.pkg.power ≠ .a2) (h3 : s.pkg.power ≠ .a3) : wakeRing f s = (match (ringOf s f).dbRead with
    | .idle => emit (.recordRead (viaOf s f)) (ringMod f (fun r => { r with dbRead := .issued }) s)
    | .owed => s
    | .issued => ringMod f (fun r => { r with dbRead := .again }) s
    | .again => s) := by
  unfold wakeRing
  rw [if_neg h3, if_neg h2] <;> rfl

theorem wakeWrite_acts (ht : regTriggers a s = true) (he : (ringOf s a.fn).enabled = true) : wakeWrite a 0 s = wakeRing a.fn s := by
  simp [wakeWrite, ht, he]

theorem wakeWrite_ignored {o : BitVec 12} (h : regTriggers a s = false ∨ o ≠ 0 ∨ (ringOf s a.fn).enabled = false) :
    wakeWrite a o s = s :=
  if_neg (by simp only [Bool.and_eq_true, beq_iff_eq]; grind)

/-! ### Enabling and disabling (R410, R411) -/

theorem ringEnable_off (ht : regTriggers a s = true) (hc : (ringOf s a.fn).ctrl = false) (he : (ringOf s a.fn).enabled = false)
    (hg : (ringOf s a.fn).enabling = false) : ringEnable a s = (if enableRefusal s a.fn = 0
      then emit (.recordRead (viaOf s a.fn)) (ringMod a.fn (fun r => { r with enableErr := 0, ctrl := true, enabling := true }) s)
      else ringMod a.fn (fun r => { r with enableErr := enableRefusal s a.fn }) s) := by
  simp [ringEnable, ht, hc, he, hg, ite_not]

theorem ringDisable_accepted (ht : regTriggers a s = true) :
    ringDisable a s = settleRing a.fn (ringMod a.fn (fun r => { r with ctrl := false }) s) := by
  simp [ringDisable, ht, disableRing]

/-! ### The end of an enable (R76) -/

/-- A ring freshly enabled that is faulted from the start. -/
def faultedRing (code : W16) (w : Bool) (r : RingSt) : RingSt :=
  { freshRing r with faulted := true, faultCode := code, hostWriteFailed := w }

/-- The ring that the end of an enable leaves: fresh, and faulted by the record's read, its driver half or its write. -/
def enabledRing (x : Fetched (BitVec 512)) (ok : Bool) : RingSt → RingSt :=
  match x with
  | .failed => faultedRing 0x0003 false
  | .ok raw => if raw ≠ 0 then faultedRing 0x0005 false else if ok then freshRing else faultedRing 0x0004 true

theorem enabledRing_unread : enabledRing .failed ok = faultedRing 0x0003 false := rfl
theorem enabledRing_driverHalf {raw : BitVec 512} (h : raw ≠ 0) : enabledRing (.ok raw) ok = faultedRing 0x0005 false := if_pos h
theorem enabledRing_clean : enabledRing (.ok 0) true = freshRing := by simp [enabledRing]
theorem enabledRing_unwritten : enabledRing (.ok 0) false = faultedRing 0x0004 true := by simp [enabledRing]

/-- Whatever the end, the ring is `freshRing` but for its fault. -/
theorem enabledRing_fresh (x : Fetched (BitVec 512)) (ok : Bool) (r : RingSt) : ∃ b c w,
    enabledRing x ok r = { freshRing r with faulted := b, faultCode := c, hostWriteFailed := w } := by
  rcases x with raw | _
  · by_cases h : raw = 0
    · subst h
      cases ok
      · exact ⟨_, _, _, congrFun enabledRing_unwritten r⟩
      · exact ⟨_, _, _, congrFun enabledRing_clean r⟩
    · exact ⟨_, _, _, congrFun (enabledRing_driverHalf h) r⟩
  · exact ⟨_, _, _, congrFun enabledRing_unread r⟩

theorem ringMod_ringMod (f : Fn) (g h : RingSt → RingSt) (s : State) : ringMod f g (ringMod f h s) = ringMod f (fun r => g (h r)) s := by
  simp only [ringMod, fnMod, mapMod, mapGet_mapSet_self, mapSet_mapSet_self]

/-- With ENABLE still set the enabled ring does not settle off again; only a clean end writes the record's device half. -/
theorem ringEnableDone_underWay (hr : ready s = true) (he : (ringOf s f).enabling = true) (hc : (ringOf s f).ctrl = true) :
    ringEnableDone f x ok s = if x = .ok 0 ∧ ok = true then postDoorbell f (ringMod f freshRing s)
      else ringMod f (enabledRing x ok) s := by
  have hgo : (!ready s || !(ringOf s f).enabling) = false := by simp [hr, he]
  have hstays : ∀ c w, settleRing f (ringMod f (faultedRing c w) s) = ringMod f (faultedRing c w) s := fun c w =>
    settleRing_on f _ (by rw [ringOf_ringMod_self]; exact hc)
  rcases x with raw | _
  · by_cases h : raw = 0
    · subst h
      cases ok
      · rw [if_neg (by simp), enabledRing_unwritten, ← hstays]
        simp [ringEnableDone, hgo, ringMod_ringMod]
        rfl
      · rw [if_pos ⟨rfl, rfl⟩, ← settleRing_on f (postDoorbell f _) (by rw [ringOf_postDoorbell, ringOf_ringMod_self]; exact hc)]
        simp [ringEnableDone, hgo]
    · rw [if_neg (fun e => h (Fetched.ok.inj e.1)), enabledRing_driverHalf h, ← hstays]
      unfold ringEnableDone
      simp only [hgo, Bool.false_eq_true, if_false, if_pos h]
      rfl
  · rw [if_neg (fun e => nomatch e.1), enabledRing_unread, ← hstays]
    unfold ringEnableDone
    simp only [hgo, Bool.false_eq_true, if_false]
    rfl

theorem ringOf_ringEnableDone (hr : ready s = true) (he : (ringOf s f).enabling = true) (hc : (ringOf s f).ctrl = true) :
    ringOf (ringEnableDone f x ok s) f = enabledRing x ok (ringOf s f) := by
  rw [ringEnableDone_underWay hr he hc]
  split
  · rename_i h
    obtain ⟨rfl, rfl⟩ := h
    rw [ringOf_postDoorbell, ringOf_ringMod_self, enabledRing_clean]
  · exact ringOf_ringMod_self ..

theorem fnOf_ringEnableDone_ne {g : Fn} (hr : ready s = true) (he : (ringOf s f).enabling = true) (hc : (ringOf s f).ctrl = true)
    (hg : g ≠ f) : fnOf (ringEnableDone f x ok s) g = fnOf s g := by
  rw [ringEnableDone_underWay hr he hc]
  split
  · rw [fnOf_postDoorbell_ne _ _ _ hg, fnOf_ringMod_ne _ _ _ _ hg]
  · rw [fnOf_ringMod_ne _ _ _ _ hg]

theorem out_ringEnableDone_clean (hr : ready s = true) (he : (ringOf s f).enabling = true) (hc : (ringOf s f).ctrl = true)
    (hd : (fnOf s f).dirty = none) : (ringEnableDone f (.ok 0) true s).out =
      s.out ++ [.doorbell (viaOf s f) (devHalf (freshRing (ringOf s f))) (devBytes (devHalf (freshRing (ringOf s f))))] := by
  have hvia : viaOf (ringMod f freshRing s) f = viaOf s f := by simp [viaOf, ringMod]
  have hdirty : (fnOf (ringMod f freshRing s) f).dirty = none := by simpa [ringMod] using hd
  rw [ringEnableDone_underWay hr he hc, if_pos ⟨rfl, rfl⟩, postDoorbell_off _ _ hdirty, hvia, ringOf_ringMod_self]
  rfl

end
end Sys2Proof.Machine
end

section
/-! SUPPORT. The statement on the ring's register writes. -/
open Sys2Proof Sys2Proof.Machine

/-- Settles O2: the three register writes by their equations, the enable's end by the ring it leaves: `freshRing` but for its fault. -/
theorem ringRegisterWrites : Obligations.RingRegisterWrites := by
  unfold Obligations.RingRegisterWrites
  refine ⟨fun s a o => ⟨?_, ?_, ?_, ?_⟩, fun s f half ok hr he hc => ⟨_, exec_ringEnableDone f half ok s, ?_, ?_⟩⟩
  · rintro ht rfl hen h2 h3
    rw [exec_wakeWrite, wakeWrite_acts ht hen, wakeRing_powered h2 h3] <;> rfl
  · intro h
    rw [exec_wakeWrite, wakeWrite_ignored h]
  · intro ht hc he hg
    rw [exec_ringEnable, ringEnable_off ht hc he hg]
  · intro ht
    rw [exec_ringDisable, ringDisable_accepted ht]
  · intro r q
    have hq : q = enabledRing half ok r := ringOf_ringEnableDone hr he hc
    obtain ⟨b, c, w, hfresh⟩ := enabledRing_fresh half ok r
    rw [hq, hfresh]
    refine ⟨rfl, hc, rfl, rfl, rfl, rfl, rfl, rfl, rfl, rfl, rfl, rfl, rfl, rfl, rfl, rfl, ?_, ?_, ?_, ?_⟩ <;> rw [← hfresh]
    · rintro rfl rfl
      rw [enabledRing_clean]
      exact ⟨rfl, out_ringEnableDone_clean hr he hc⟩
    · rintro rfl
      rw [enabledRing_unread]
      exact ⟨rfl, rfl⟩
    · rintro raw rfl hraw
      rw [enabledRing_driverHalf hraw]
      exact ⟨rfl, rfl⟩
    · rintro rfl rfl
      rw [enabledRing_unwritten]
      exact ⟨rfl, rfl⟩
  · exact fun g hg => fnOf_ringEnableDone_ne hr he hc hg
end

section
/-! SUPPORT. Debug grants: what a grant's end leaves of the keys, the loops, the perturbation settings and the TDIs. -/
namespace Sys2Proof.Machine

/-! ### Changes of the key store alone -/

/-- `t` differs from `s` in its key store, its counters and its open values alone. -/
def KeysOnly (s t : State) : Prop := t = { s with ks := t.ks, opens := t.opens, tabor := t.tabor }

namespace KeysOnly

theorem refl (s : State) : KeysOnly s s := rfl
theorem trans {s t u : State} (h : KeysOnly s t) (h' : KeysOnly t u) : KeysOnly s u := by unfold KeysOnly at *; rw [h', h]
theorem ite {c : Prop} [Decidable c] {s t u : State} (ht : KeysOnly s t) (hu : KeysOnly s u) : KeysOnly s (if c then t else u) := by
  split
  · exact ht
  · exact hu

theorem ports {s t : State} (h : KeysOnly s t) : t.ports = s.ports := by rw [h]
theorem pkg {s t : State} (h : KeysOnly s t) : t.pkg = s.pkg := by rw [h]
theorem fns {s t : State} (h : KeysOnly s t) : t.fns = s.fns := by rw [h]
theorem aon {s t : State} (h : KeysOnly s t) : t.aon = s.aon := by rw [h]
theorem grant {s t : State} (h : KeysOnly s t) : t.grant = s.grant := by rw [h]
theorem ptb {s t : State} (h : KeysOnly s t) : t.ptb = s.ptb := by rw [h]
theorem loops {s t : State} (h : KeysOnly s t) : t.loops = s.loops := by rw [h]

end KeysOnly

section
variable (kid : W16) (s : State)

theorem keysOnly_traceKid (old new : Nat) : KeysOnly s (traceKid kid old new s) := rfl
theorem keysOnly_finishRetire : KeysOnly s (finishRetire kid s) := by rw [finishRetire_frame]; rfl
theorem keysOnly_setKid (st : KidState) : KeysOnly s (setKid kid st s) := by unfold setKid; split <;> rfl

theorem keysOnly_releaseKid : KeysOnly s (releaseKid kid s) := by
  unfold releaseKid
  split
  · split <;> rfl
  · rfl

/-- A retirement's first two steps (R136), with its end where no engine caches the key. -/
theorem keysOnly_beginRetire (code : Nat) : KeysOnly s (finishRetire kid (traceKid kid code 3 (setKid kid .retiring s))) :=
  ((keysOnly_setKid ..).trans (keysOnly_traceKid ..)).trans (keysOnly_finishRetire ..)

theorem keysOnly_retireKid : KeysOnly s (retireKid kid s) := by
  unfold retireKid
  split
  · split
    · exact keysOnly_beginRetire ..
    · exact keysOnly_beginRetire ..
    · exact .ite (keysOnly_beginRetire ..) (keysOnly_releaseKid ..)
    · exact .refl s
  · exact .refl s

theorem keysOnly_retireKids (l : List W16) : KeysOnly s (retireKids l s) := by
  induction l generalizing s with
  | nil => exact .refl s
  | cons k l ih => exact (keysOnly_retireKid k s).trans (ih _)

theorem grant_releaseKid : (releaseKid kid s).grant = s.grant := (keysOnly_releaseKid kid s).grant

end

/-! ### The end of perturbation (R366) -/

/-- A port out of loopback. -/
def outOfLoop (p : Fin 32) (s : State) : State :=
  if (portOf s p).loopDepth ≠ 0 then portMod p (fun x => { x with loopDepth := 0, loopPartner := 0 }) s else s

theorem outOfLoop_frame (p : Fin 32) (s : State) : outOfLoop p s = { s with ports := (outOfLoop p s).ports } := by
  unfold outOfLoop; split <;> rfl

theorem loopDepth_outOfLoop_self (p : Fin 32) (s : State) : (portOf (outOfLoop p s) p).loopDepth = 0 := by
  unfold outOfLoop
  split
  · simp
  · rename_i h; simpa using h

theorem loopDepth_outOfLoop {p q : Fin 32} {s : State} (h : (portOf s q).loopDepth = 0) : (portOf (outOfLoop p s) q).loopDepth = 0 := by
  by_cases hq : q = p
  · subst hq; exact loopDepth_outOfLoop_self q s
  · unfold outOfLoop
    split
    · rw [portOf_portMod_ne _ _ _ _ hq]; exact h
    · exact h

theorem eachPort_outOfLoop_frame (l : List (Fin 32)) (s : State) :
    eachPort outOfLoop l s = { s with ports := (eachPort outOfLoop l s).ports } := by
  induction l generalizing s with
  | nil => rfl
  | cons p l ih => rw [eachPort, ih, outOfLoop_frame]

theorem loopDepth_eachPort_outOfLoop {q : Fin 32} {l : List (Fin 32)} {s : State} (h : q ∈ l ∨ (portOf s q).loopDepth = 0) :
    (portOf (eachPort outOfLoop l s) q).loopDepth = 0 := by
  induction l generalizing s with
  | nil => exact h.resolve_left (List.not_mem_nil)
  | cons p l ih =>
    refine ih ?_
    rcases h with h | h
    · rcases List.mem_cons.1 h with rfl | h
      · exact .inr (loopDepth_outOfLoop_self q s)
      · exact .inl h
    · exact .inr (loopDepth_outOfLoop h)

/-- The KIDs of every loop, retired. -/
def loopKidsRetired (s : State) : State := retireKids (s.ptb.loopKids.map (·.2)) s

theorem keysOnly_loopKidsRetired (s : State) : KeysOnly s (loopKidsRetired s) := keysOnly_retireKids ..

/-- What the end of perturbation leaves before the ports leave loopback. -/
def perturbEnded (s : State) : State :=
  { loopKidsRetired s with ptb := {}, loops := [], regions := (loopKidsRetired s).regions.filter (fun r => !r.2.loop) }

theorem fns_perturbEnded (s : State) : (perturbEnded s).fns = s.fns := (keysOnly_loopKidsRetired s).fns
theorem aon_perturbEnded (s : State) : (perturbEnded s).aon = s.aon := (keysOnly_loopKidsRetired s).aon
theorem grant_perturbEnded (s : State) : (perturbEnded s).grant = s.grant := (keysOnly_loopKidsRetired s).grant

theorem endPerturb_eq (s : State) : endPerturb s = eachPort outOfLoop allPorts (perturbEnded s) := rfl

theorem endPerturb_frame (s : State) : endPerturb s = { perturbEnded s with ports := (endPerturb s).ports } := by
  rw [endPerturb_eq, eachPort_outOfLoop_frame]

theorem loopDepth_endPerturb (s : State) (q : Fin 32) : (portOf (endPerturb s) q).loopDepth = 0 :=
  loopDepth_eachPort_outOfLoop (.inl (List.mem_finRange q))

theorem ptb_endPerturb (s : State) : (endPerturb s).ptb = {} := congrArg State.ptb (endPerturb_frame s)
theorem loops_endPerturb (s : State) : (endPerturb s).loops = [] := congrArg State.loops (endPerturb_frame s)
theorem fns_endPerturb (s : State) : (endPerturb s).fns = s.fns :=
  (congrArg State.fns (endPerturb_frame s)).trans (fns_perturbEnded s)
theorem aon_endPerturb (s : State) : (endPerturb s).aon = s.aon :=
  (congrArg State.aon (endPerturb_frame s)).trans (aon_perturbEnded s)
theorem grant_endPerturb (s : State) : (endPerturb s).grant = s.grant :=
  (congrArg State.grant (endPerturb_frame s)).trans (grant_perturbEnded s)

/-! ### The record of the rights (Table 03-19) -/

theorem ringLocal_writeAsync (f : Fn) (a : AsyncRec) (s : State) : RingLocal f s (writeAsync f a s) := ringLocal_writeRecord ..

theorem ringLocal_asyncRecord (f : Fn) (a : AsyncRec) (s : State) : RingLocal f s (asyncRecord f a s) :=
  .ite (.refl f s) ((RingLocal.ite (ringLocal_writeAsync ..) (.ite (ringLocal_ringMod ..) (ringLocal_ringMod ..))).trans
    ((ringLocal_signalEvent ..).trans (ringLocal_postDoorbell ..)))

/-- `t` comes from `s` by records and traces: its functions stand with the host as before, and nothing else that rights rest on moved. -/
structure RecordsOnly (s t : State) : Prop where
  edge : ∃ o, Edge o s t
  tdi : ∀ f, (fnOf t f).tdi = (fnOf s f).tdi

namespace RecordsOnly

theorem refl (s : State) : RecordsOnly s s := ⟨⟨_, .refl s⟩, fun _ => rfl⟩
theorem trans {s t u : State} (h : RecordsOnly s t) (h' : RecordsOnly t u) : RecordsOnly s u := by
  obtain ⟨⟨o, e⟩, a⟩ := h
  obtain ⟨⟨o', e'⟩, a'⟩ := h'
  exact ⟨⟨_, e.trans e'⟩, fun f => (a' f).trans (a f)⟩

theorem of_ringLocal {f : Fn} {s t : State} (h : RingLocal f s t) : RecordsOnly s t :=
  ⟨h.edge, fun g => if hg : g = f then hg ▸ h.tdi else by rw [h.others g hg]⟩

theorem grant {s t : State} (h : RecordsOnly s t) : t.grant = s.grant := by obtain ⟨o, e⟩ := h.edge; rw [e]
theorem aon {s t : State} (h : RecordsOnly s t) : t.aon = s.aon := by obtain ⟨o, e⟩ := h.edge; rw [e]
theorem ports {s t : State} (h : RecordsOnly s t) : t.ports = s.ports := by obtain ⟨o, e⟩ := h.edge; rw [e]
theorem ptb {s t : State} (h : RecordsOnly s t) : t.ptb = s.ptb := by obtain ⟨o, e⟩ := h.edge; rw [e]
theorem loops {s t : State} (h : RecordsOnly s t) : t.loops = s.loops := by obtain ⟨o, e⟩ := h.edge; rw [e]

end RecordsOnly

theorem recordsOnly_asyncRecords (a : AsyncRec) (l : List Fn) (s : State) :
    RecordsOnly s (l.foldl (fun w f => asyncRecord f a w) s) := by
  induction l generalizing s with
  | nil => exact .refl s
  | cons f l ih => exact (RecordsOnly.of_ringLocal (ringLocal_asyncRecord f a s)).trans (ih _)

theorem recordsOnly_rightsChanged (s : State) : RecordsOnly s (rightsChanged s) :=
  RecordsOnly.trans ⟨⟨_, edge_trace ..⟩, fun _ => rfl⟩ (recordsOnly_asyncRecords ..)

/-! ### The end of a grant (R352) -/

/-- Where a state opens no rights of its own, none is in force once the grant has ended. -/
theorem rightsInForce_no_grant {s : State} (hg : s.grant = none)
    (hl : lcState s = lcProvisioned ∨ lcState s = lcDeployed ∨ (lcState s = lcAnalysis ∧ s.aon.session = false)) : rightsInForce s = 0 := by
  have h : (lcState s == lcTestOpen || lcState s == lcAssembled || (lcState s == lcAnalysis && s.aon.session)) = false := by
    rcases hl with h | h | ⟨h, hs⟩
    · rw [h]; rfl
    · rw [h]; rfl
    · rw [h, hs]; rfl
  simp [rightsInForce, h, hg]

theorem rightsInForce_congr {s t : State} (ha : t.aon = s.aon) (hg : t.grant = s.grant) : rightsInForce t = rightsInForce s := by
  unfold rightsInForce lcState
  rw [ha, hg]

section
variable (g : GrantSt) (s : State)

/-- The state a grant's end leaves before the functions hear of it. -/
def grantEnded : State := retireKid g.kid (endPerturb { s with grant := none })

theorem revokeGrant_eq : revokeGrant g s = rightsChanged (grantEnded g s) := rfl

theorem keysOnly_grantEnded : KeysOnly (endPerturb { s with grant := none }) (grantEnded g s) := keysOnly_retireKid ..

theorem grant_grantEnded : (grantEnded g s).grant = none := (keysOnly_grantEnded g s).grant.trans (grant_endPerturb _)

theorem aon_grantEnded : (grantEnded g s).aon = s.aon := (keysOnly_grantEnded g s).aon.trans (aon_endPerturb _)

theorem fns_grantEnded : (grantEnded g s).fns = s.fns := (keysOnly_grantEnded g s).fns.trans (fns_endPerturb _)

theorem ptb_grantEnded : (grantEnded g s).ptb = {} := (keysOnly_grantEnded g s).ptb.trans (ptb_endPerturb _)

theorem loops_grantEnded : (grantEnded g s).loops = [] := (keysOnly_grantEnded g s).loops.trans (loops_endPerturb _)

theorem loopDepth_grantEnded (q : Fin 32) : (portOf (grantEnded g s) q).loopDepth = 0 := by
  rw [portOf, (keysOnly_grantEnded g s).ports]
  exact loopDepth_endPerturb _ q

theorem recordsOnly_revokeGrant : RecordsOnly (grantEnded g s) (revokeGrant g s) := recordsOnly_rightsChanged _

theorem grant_revokeGrant : (revokeGrant g s).grant = none := (recordsOnly_revokeGrant g s).grant.trans (grant_grantEnded g s)

end

/-! ### The commands -/

theorem exec_debugGrant (h : CmdHdr) (len : W32) (c : Fetched Cert) (s : State) :
    exec (.debugGrant h len c) s = .next (runRow (debugGrantRow h len c) (startGrant c) s) := rfl
theorem exec_debugRevoke (h : CmdHdr) (s : State) : exec (.debugRevoke h) s = .next (runRow (debugRevokeRow h) startRevoke s) := rfl

theorem startRevoke_none {s : State} (hg : s.grant = none) (p : InProg) : startRevoke p s = complete p stOk 0 0 s := by
  simp [startRevoke, hg]

theorem startRevoke_some {s : State} {g : GrantSt} (hg : s.grant = some g) (p : InProg) :
    startRevoke p s = goOn p { kids := [g.kid] } (.done stOk 0 0) (revokeGrant g s) := by
  simp [startRevoke, hg]

theorem actGrant_refused {c : Cert} {s : State} (h : certAuth s c = false) (p : InProg) (kid : W16) :
    actGrant p c kid s = complete p stAuthFailed 0 0 (releaseKid kid s) := by
  simp [actGrant, h]

theorem actGrant_granted {c : Cert} {s : State} (h : certAuth s c = true) (p : InProg) (kid : W16) :
    actGrant p c kid s = complete p stOk 0 ((rightsInForce (applyGrant c kid s)).setWidth 128) (applyGrant c kid s) := by
  simp [actGrant, h]

/-- The lowest right of a mask is a right of it. -/
theorem lowestRight_mem {m : W64} {n : Nat} (h : lowestRight m = some n) : m.getLsbD n = true :=
  List.find?_some (p := fun n => m.getLsbD n) h

theorem certPermitted_beyond {s : State} {c : Cert} {n : Nat} (h : lowestRight (c.rights &&& ~~~(grantable (lcState s) c.issuer)) = some n) :
    (stNotPermitted, BitVec.ofNat 32 n) ∈ (certPermitted s c).filterMap id := by
  simp [certPermitted, h]

/-- Table 13-3, check 3: the right it names is asked for and is not the issuer's to grant. -/
theorem lowestRight_beyond {r m : W64} {n : Nat} (h : lowestRight (r &&& ~~~m) = some n) : r.getLsbD n = true ∧ m.getLsbD n = false := by
  have := lowestRight_mem h
  simp only [BitVec.getLsbD_and, BitVec.getLsbD_not, Bool.and_eq_true, Bool.not_eq_true', decide_eq_true_eq] at this
  exact ⟨this.1, this.2.2⟩

end Sys2Proof.Machine
end

section
/-! SUPPORT. The statements on the debug grant's commands. -/
open Sys2Proof Sys2Proof.Machine

/-- Settles O41: each command by the equation of its start, the end of a grant's checks by whether they authenticate. -/
theorem debugRights : Obligations.DebugRights := by
  unfold Obligations.DebugRights
  intro s h p len c
  refine ⟨fun a => ⟨_, _, rfl, ?_⟩, fun q kid u hc => ⟨actGrant_refused hc q kid, grant_releaseKid kid u⟩,
    fun q kid u hc => ⟨_, actGrant_granted hc q kid, rfl⟩, fun a => ⟨fun hg => ?_, fun g hg => ⟨?_, grant_revokeGrant g s, ptb_endPerturb _⟩⟩,
    fun n hn => ⟨certPermitted_beyond hn, lowestRight_beyond hn⟩⟩
  · rw [exec_debugGrant, runRow_admitted a]
    rfl
  · rw [exec_debugRevoke, runRow_admitted a, startRevoke_none hg]
  · rw [exec_debugRevoke, runRow_admitted a, startRevoke_some hg]

/-- Settles O47: the grant's end retires its KID after every loop and setting has ended, and the records that follow move no TDI. -/
theorem debugRevokeEndsTheGrant : Obligations.DebugRevokeEndsTheGrant := by
  unfold Obligations.DebugRevokeEndsTheGrant
  intro s h p a
  refine ⟨fun hg => by rw [exec_debugRevoke, runRow_admitted a, startRevoke_none hg], fun g hg hl =>
    ⟨endPerturb { s with grant := none }, revokeGrant g s, by rw [exec_debugRevoke, runRow_admitted a, startRevoke_some hg],
      ptb_endPerturb _, loops_endPerturb _, loopDepth_endPerturb _, ?_⟩⟩
  have hnone : rightsInForce (grantEnded g s) = 0 :=
    (rightsInForce_congr (s := { s with grant := none }) (aon_grantEnded g s) (grant_grantEnded g s)).trans (rightsInForce_no_grant rfl hl)
  have hu := recordsOnly_revokeGrant g s
  have hrec : revokeGrant g s = (listedFns (grantEnded g s)).foldl
      (fun w f => asyncRecord f { kind := 4, status := stOk, result := 0 } w) (trace .pf 0x43 0xFFFF 0 (grantEnded g s)) := by
    rw [revokeGrant_eq, rightsChanged, hnone]
    rfl
  refine ⟨hrec, grant_revokeGrant g s, (rightsInForce_congr hu.aon hu.grant).trans hnone, hu.ptb.trans (ptb_grantEnded g s),
    hu.loops.trans (loops_grantEnded g s), fun q => ?_, fun f => (hu.tdi f).trans ?_⟩
  · rw [portOf, hu.ports]
    exact loopDepth_grantEnded g s q
  · rw [fnOf, fns_grantEnded]
    rfl
end

section
/-! SUPPORT. The debug master's requests to memory and to pool data (R354). -/
namespace Sys2Proof.Machine

section
variable {s : State} {f : Fn} {addr : BitVec 48} {n : Nat} {w : Bool} {e : BitVec 3} {off : W64} {len : W32} {data : List Byte}

/-! ### Memory -/

theorem debugMaster_memory_served (h : fwAllows s .debugMaster f addr.toNat n w = true) :
    debugMaster (.memory f addr n) w s = emit (.debugMaster true) (if w then markWrite f addr.toNat n s else s) := by
  simp [debugMaster, h]

theorem debugMaster_memory_refused (h : fwAllows s .debugMaster f addr.toNat n w = false) :
    debugMaster (.memory f addr n) w s = emit (.debugMaster false) (countRefused .pf addr.toNat n s) := by
  simp [debugMaster, h]

theorem out_markWritten (f : Fn) (a n : Nat) (w : Bool) (s : State) : (if w = true then markWrite f a n s else s).out = s.out := by
  split
  · rw [markWrite_frame]
  · rfl

theorem dataReach_iff {v : BitVec 12} : dataReach s v = true ↔
    inScope s v = true ∧ (fnOf s (.vf v)).job = none ∧ (fnOf s (.vf v)).tdi.state = .unlocked := by
  simp [dataReach, and_assoc]

/-- A VF's memory is reached with the right of the access, in scope, unbound, unlocked, and inside the VF's carve-out. -/
theorem fwAllows_debugMaster_vf {v : BitVec 12} (h : fwAllows s .debugMaster (.vf v) addr.toNat n w = true) :
    hasRight s (if w then 6 else 5) = true ∧ inScope s v = true ∧ (fnOf s (.vf v)).job = none ∧
      (fnOf s (.vf v)).tdi.state = .unlocked ∧ carveOk s (.vf v) addr.toNat n false = true := by
  simp only [fwAllows, debugOk, Bool.and_eq_true] at h
  obtain ⟨⟨hright, hreach⟩, hok⟩ := h
  obtain ⟨hscope, hjob, htdi⟩ := dataReach_iff.1 hreach
  exact ⟨hright, hscope, hjob, htdi, hok⟩

/-- The PF's memory is only read. -/
theorem fwAllows_debugMaster_pf (h : fwAllows s .debugMaster .pf addr.toNat n w = true) :
    w = false ∧ hasRight s 5 = true ∧ pfScope s = true := by
  simp only [fwAllows, debugOk, Bool.and_eq_true, Bool.not_eq_true'] at h
  exact ⟨h.1.1.1, h.1.1.2, h.1.2⟩

/-! ### Pool data -/

theorem debugPool_no_loop (h : s.regions.find? (fun r => r.2.loop && r.2.engine == e.toNat) = none) :
    debugPool e off len data w s = emit (.debugPool (grantKid s) stNotPermitted []) (countFn .pf 0x2D s) := by
  simp [debugPool, h]

theorem debugPool_no_right (h : hasRight s (if w then 8 else 7) = false) :
    debugPool e off len data w s = emit (.debugPool (grantKid s) stNotPermitted []) (countFn .pf 0x2D s) := by
  unfold debugPool
  split
  · simp [h]
  · rfl

theorem debugPool_served {k : Nat} {r : RegionSt} (hk : s.regions.find? (fun r => r.2.loop && r.2.engine == e.toNat) = some (k, r))
    (hright : hasRight s (if w then 8 else 7) = true) (hshape : poolShapeOk (if w then 2 else 1) 0 0 true off.toNat len.toNat = true)
    (hlen : off.toNat + len.toNat ≤ r.size) :
    debugPool e off len data w s = loopJob k (grantKid s) false (if w then .write else .read) off.toNat len.toNat data s := by
  unfold debugPool
  rw [hk]
  simp only [hright, hshape, Bool.not_true, Bool.false_eq_true, if_false, if_neg (Nat.not_lt.2 hlen)]

theorem no_loop_of_regions (h : ∀ r ∈ s.regions, ¬ (r.2.loop = true ∧ r.2.engine = e.toNat)) :
    s.regions.find? (fun r => r.2.loop && r.2.engine == e.toNat) = none :=
  List.find?_eq_none.2 fun r hr => by simpa using h r hr

theorem exec_debugMasterRequest {t : DebugTarget} (hs : serving s = true) : exec (.debugMasterRequest t w) s = .next (debugMaster t w s) := by
  rw [show exec (.debugMasterRequest t w) s = .next (whenLive (debugMaster t w) s) from rfl, whenLive_live _ _ hs]

end
end Sys2Proof.Machine
end

section
/-! SUPPORT. The statement on the debug master. -/
open Sys2Proof Sys2Proof.Machine

/-- Settles O26: memory by whether Table 10-3 admits the access, pool data by the loop and the right. -/
theorem debugMasterReach : Obligations.DebugMasterReach := by
  unfold Obligations.DebugMasterReach
  intro s f addr n w hs
  refine ⟨?memory, fun e off len data => ⟨fun h => ?refused, fun k r hk hright hshape hlen => ?served⟩⟩
  case memory =>
    cases ha : fwAllows s .debugMaster f addr.toNat n w
    · refine ⟨_, false, exec_debugMasterRequest hs, ?_⟩
      rw [debugMaster_memory_refused ha, countRefused_frame]
      exact ⟨rfl, fun _ => rfl, nofun, nofun⟩
    · refine ⟨_, true, exec_debugMasterRequest hs, ?_⟩
      rw [debugMaster_memory_served ha]
      refine ⟨congrArg (· ++ [Output.debugMaster true]) (out_markWritten f addr.toNat n w s), nofun, fun _ v hv => ?_, fun _ hv => ?_⟩
      · subst hv
        exact fwAllows_debugMaster_vf ha
      · subst hv
        exact fwAllows_debugMaster_pf ha
  case refused =>
    rw [exec_debugMasterRequest hs]
    rcases h with h | h
    · exact congrArg _ (debugPool_no_loop (no_loop_of_regions h))
    · exact congrArg _ (debugPool_no_right h)
  case served =>
    rw [exec_debugMasterRequest hs]
    exact congrArg _ (debugPool_served hk hright hshape hlen)
end

section
/-! SUPPORT. The perturbation page (R365, R417): the stored fields as they read back, and the loops of ports and pool engines. -/
namespace Sys2Proof.Machine

/-! ### Fields of a register -/

/-- Two separate fields of a value, the low one at bit zero, are the value under their mask. -/
theorem fields_eq_and (v mask : W64) (n lo m : Nat) (hlo : n ≤ lo)
    (hmask : ∀ j : Fin 64, mask.getLsbD j = (decide (j.val < n) || (decide (lo ≤ j.val) && decide (j.val < lo + m)))) :
    BitVec.ofNat 64 (v.toNat / 2 ^ lo % 2 ^ m * 2 ^ lo + v.toNat % 2 ^ n) = v &&& mask := by
  have hlt : v.toNat % 2 ^ n < 2 ^ lo := (Nat.mod_lt _ (by positivity)).trans_le (Nat.pow_le_pow_right (by omega) hlo)
  apply BitVec.eq_of_getLsbD_eq
  intro j hj
  rw [BitVec.getLsbD_and, hmask ⟨j, hj⟩, BitVec.getLsbD_ofNat, Nat.mul_comm, Nat.testBit_two_pow_mul_add _ hlt]
  simp only [hj, decide_true, Bool.true_and, Nat.testBit_mod_two_pow, Nat.testBit_div_two_pow, ← BitVec.testBit_toNat]
  by_cases h : j < lo
  · simp [h, Bool.and_comm, Nat.not_le.2 h]
  · have hjn : ¬ j < n := by omega
    simp only [if_neg h, Nat.sub_add_cancel (Nat.not_lt.1 h), hjn, decide_false, Bool.false_or, Nat.not_lt.1 h, decide_true, Bool.true_and, Bool.and_comm]
    congr 1
    exact decide_eq_decide.2 (by omega)

/-! ### Writes of the perturbation registers -/

section
variable {s : State} {a : RegAcc} {v : W64} {g : State → State}

theorem ptbWrite_outside (h : pfAccess a s = false) : ptbWrite a g s = s := by simp [ptbWrite, h]
theorem ptbWrite_idle (h : pfAccess a s = true) (hp : perturbActs s = false) : ptbWrite a g s = countPkg 0x14 s := by simp [ptbWrite, h, hp]
theorem ptbWrite_high (h : pfAccess a s = true) (hp : perturbActs s = true) (hl : coversLow a = false) : ptbWrite a g s = s := by
  simp [ptbWrite, h, hp, hl]
theorem ptbWrite_acts (h : pfAccess a s = true) (hp : perturbActs s = true) (hl : coversLow a = true) : ptbWrite a g s = g s := by
  simp [ptbWrite, h, hp, hl]

theorem exec_ptbHskWrite (a : RegAcc) (v : W64) (s : State) : exec (.ptbHskWrite a v) s = .next (ptbWrite a (ptbHsk v) s) := rfl
theorem exec_ptbBpWrite (a : RegAcc) (v : W64) (s : State) : exec (.ptbBpWrite a v) s = .next (ptbWrite a (ptbBp v) s) := rfl
theorem exec_ptbTagholdWrite (a : RegAcc) (v : W64) (s : State) : exec (.ptbTagholdWrite a v) s = .next (ptbWrite a (ptbTaghold v) s) := rfl
theorem exec_ptbBeatWrite (a : RegAcc) (v : W64) (s : State) : exec (.ptbBeatWrite a v) s = .next (ptbWrite a (ptbBeat v) s) := rfl
theorem exec_ptbLoopWrite (a : RegAcc) (v : W64) (s : State) : exec (.ptbLoopWrite a v) s = .next (ptbWrite a (ptbLoop v) s) := rfl

/-- Each of the five rows is a write of the page. -/
theorem exec_ptb {c : Instr} (hc : c ∈ [Instr.ptbHskWrite a v, .ptbBpWrite a v, .ptbTagholdWrite a v, .ptbBeatWrite a v, .ptbLoopWrite a v]) :
    ∃ g, ∀ s, exec c s = .next (ptbWrite a g s) := by
  simp only [List.mem_cons, List.not_mem_nil, or_false] at hc
  rcases hc with rfl | rfl | rfl | rfl | rfl
  · exact ⟨_, exec_ptbHskWrite a v⟩
  · exact ⟨_, exec_ptbBpWrite a v⟩
  · exact ⟨_, exec_ptbTagholdWrite a v⟩
  · exact ⟨_, exec_ptbBeatWrite a v⟩
  · exact ⟨_, exec_ptbLoopWrite a v⟩

/-! ### What the page reads back -/

theorem readPtb_handshake (hp : perturbActs s = true) :
    readPtb s 0x000 = BitVec.ofNat 64 (s.ptb.hskCrossing.toNat * 2 ^ 8 + s.ptb.hskDelay.toNat) := by simp [readPtb, hp]
theorem readPtb_backpressure (hp : perturbActs s = true) : readPtb s 0x008 = s.ptb.bp.setWidth 64 := by simp [readPtb, hp]
theorem readPtb_taghold (hp : perturbActs s = true) :
    readPtb s 0x010 = BitVec.ofNat 64 (s.ptb.tagPort.toNat * 2 ^ 16 + s.ptb.tagCycles.toNat) := by simp [readPtb, hp]
theorem readPtb_beat (hp : perturbActs s = true) :
    readPtb s 0x018 = BitVec.ofNat 64 (s.ptb.beatPort.toNat * 2 ^ 8 + s.ptb.beatCount.toNat) := by simp [readPtb, hp]

/-- A crossing that the register takes is stored with its delay, any other as zero. -/
theorem ptb_ptbHsk (v : W64) (s : State) : (ptbHsk v s).ptb.hskCrossing = (if crossingOk (fieldOf v 8 6) then BitVec.ofNat 6 (fieldOf v 8 6) else 0) ∧
    (ptbHsk v s).ptb.hskDelay = (if crossingOk (fieldOf v 8 6) then v.setWidth 8 else 0) := ⟨rfl, rfl⟩

theorem readPtb_ptbHsk (hp : perturbActs s = true) : readPtb (ptbHsk v s) 0x000 =
    (if v.toNat / 256 % 64 / 8 < 6 ∧ v.toNat / 256 % 64 % 8 < 6 ∧ v.toNat / 256 % 64 / 8 ≠ v.toNat / 256 % 64 % 8 then v &&& 0x3FFF else 0) := by
  have hmask := fields_eq_and v 0x3FFF 8 8 6 (by decide) (by decide)
  obtain ⟨hcross, hdelay⟩ := ptb_ptbHsk v s
  rw [readPtb_handshake (s := ptbHsk v s) hp, hcross, hdelay]
  split
  · rename_i hc
    have h := of_decide_eq_true hc
    simp only [fieldOf, Nat.reducePow] at h
    rw [if_pos h, ← hmask, BitVec.toNat_ofNat, BitVec.toNat_setWidth, fieldOf, Nat.mod_mod]
  · rename_i hc
    have h := of_decide_eq_false (Bool.eq_false_iff.2 hc)
    simp only [fieldOf, Nat.reducePow] at h
    rw [if_neg h]
    rfl

theorem readPtb_ptbBp (hp : perturbActs s = true) : readPtb (ptbBp v s) 0x008 = v &&& 0xFFFFFFFF := by
  rw [readPtb_backpressure (s := ptbBp v s) hp, ← fields_eq_and v 0xFFFFFFFF 32 32 0 (by decide) (by decide)]
  apply BitVec.eq_of_toNat_eq
  simp [ptbBp, Nat.mod_one]

theorem readPtb_ptbTaghold (hp : perturbActs s = true) : readPtb (ptbTaghold v s) 0x010 = v &&& 0x1F0FFF := by
  rw [readPtb_taghold (s := ptbTaghold v s) hp, ← fields_eq_and v 0x1F0FFF 12 16 5 (by decide) (by decide)]
  simp [ptbTaghold, fieldOf]

theorem readPtb_ptbBeat (hp : perturbActs s = true) : readPtb (ptbBeat v s) 0x018 = v &&& 0x1FFF := by
  rw [readPtb_beat (s := ptbBeat v s) hp, ← fields_eq_and v 0x1FFF 8 8 5 (by decide) (by decide)]
  simp [ptbBeat, fieldOf]

end

/-! ### The KIDs of the loops -/

section
variable (k : Nat) (kid : W16) (q : Fin 32) (s : State)

theorem keysOnly_placeKey (x : SlotSt) : KeysOnly s (placeKey kid x s) := by unfold placeKey; split <;> rfl
theorem keysOnly_activateKid : KeysOnly s (activateKid kid s) := .ite ((keysOnly_setKid ..).trans (keysOnly_traceKid ..)) (.refl s)
theorem keysOnly_reserveInt : KeysOnly s (reserveInt s).2 := by unfold reserveInt; split <;> rfl

/-- A debug key takes one draw, and else moves the key store alone. -/
theorem keysOnly_placeDebug : KeysOnly (bumpDraw s) (placeDebug s).2 :=
  (keysOnly_reserveInt _).trans ((keysOnly_placeKey ..).trans (keysOnly_activateKid ..))

theorem dropLoopKid_frame : ∃ p, KeysOnly { s with ptb := p } (dropLoopKid k s) := by
  unfold dropLoopKid
  split
  · exact ⟨_, keysOnly_retireKid ..⟩
  · exact ⟨s.ptb, .refl s⟩

theorem ports_dropLoopKid : (dropLoopKid k s).ports = s.ports := by
  obtain ⟨p, h⟩ := dropLoopKid_frame k s
  exact h.ports

theorem pkg_dropLoopKid : (dropLoopKid k s).pkg = s.pkg := by
  obtain ⟨p, h⟩ := dropLoopKid_frame k s
  rw [h]

theorem ports_takeLoopKid : (takeLoopKid k s).ports = s.ports := by
  have h := (keysOnly_placeDebug s).ports
  unfold takeLoopKid
  exact h

theorem loopKid_takeLoopKid : (mapFind (takeLoopKid k s).ptb.loopKids k).isSome = true := by
  simp [takeLoopKid, mapFind_mapSet_self]

/-! ### The loopback of a port (R208) -/

theorem loopDepth_endPortLoop : (portOf (endPortLoop q s) q).loopDepth = 0 := by rw [endPortLoop, portOf_portMod_self]

theorem portOf_endPortLoop_ne {r : Fin 32} (h : r ≠ q) : portOf (endPortLoop q s) r = portOf s r := by
  rw [endPortLoop, portOf_portMod_ne _ _ _ _ h, portOf, ports_dropLoopKid]
  rfl

theorem portPresent_endPortLoop (n : Nat) : portPresent (endPortLoop q s) n = portPresent s n := by
  have hpkg : (endPortLoop q s).pkg = s.pkg := pkg_dropLoopKid q.val s
  unfold portPresent engineOfPort
  rw [hpkg]

/-- The port as it enters loopback at `depth`, before its test frame. -/
def loopEntered (depth : Nat) (partner : BitVec 5) : State :=
  takeLoopKid q.val (portMod q (fun x => { x with loopDepth := depth, loopPartner := if depth = 2 then partner else 0 }) (endPortLoop q s))

theorem loopDepth_loopEntered (depth : Nat) (partner : BitVec 5) : (portOf (loopEntered q s depth partner) q).loopDepth = depth := by
  rw [portOf, loopEntered, ports_takeLoopKid, ← portOf, portOf_portMod_self]

theorem portOf_loopEntered_ne {r : Fin 32} (h : r ≠ q) (depth : Nat) (partner : BitVec 5) :
    portOf (loopEntered q s depth partner) r = portOf s r := by
  rw [portOf, loopEntered, ports_takeLoopKid, ← portOf, portOf_portMod_ne _ _ _ _ h, portOf_endPortLoop_ne _ _ h]

end

section
variable {q : Fin 32} {s : State} {depth : Nat} {partner : BitVec 5} {last : W32}

theorem setPortLoop_invalid (h : portPresent s q.val = false ∨ 4 < depth) :
    setPortLoop q depth partner last s = loopReads 0 (endPortLoop q s) := by
  unfold setPortLoop
  exact if_pos (by rw [portPresent_endPortLoop]; simpa using h)

theorem setPortLoop_off (hp : portPresent s q.val = true) : setPortLoop q 0 partner last s = loopReads last (endPortLoop q s) := by
  unfold setPortLoop
  rw [if_neg (by rw [portPresent_endPortLoop]; simp [hp]), if_pos rfl]

theorem setPortLoop_no_slot (hp : portPresent s q.val = true) (h1 : 1 ≤ depth) (h4 : depth ≤ 4)
    (hk : (intSlotCheck (endPortLoop q s)).isSome = true) : setPortLoop q depth partner last s = loopReads 0 (endPortLoop q s) := by
  unfold setPortLoop
  rw [if_neg (by rw [portPresent_endPortLoop]; simp [hp, h4]), if_neg (by omega), if_pos hk]

theorem setPortLoop_on (hp : portPresent s q.val = true) (h1 : 1 ≤ depth) (h4 : depth ≤ 4) (hk : intSlotCheck (endPortLoop q s) = none) :
    setPortLoop q depth partner last s = loopReads last (sendLoop q (loopEntered q s depth partner)) := by
  unfold setPortLoop
  rw [if_neg (by rw [portPresent_endPortLoop]; simp [hp, h4]), if_neg (by omega), if_neg (by simp [hk])]
  rfl

theorem portOf_loopReads (r : Fin 32) (v : W32) (s : State) : portOf (loopReads v s) r = portOf s r := rfl
theorem portOf_sendLoop (q r : Fin 32) (s : State) : portOf (sendLoop q s) r = portOf s r := rfl

/-- A loop setting leaves every other port as it was. -/
theorem portOf_setPortLoop_ne {r : Fin 32} (h : r ≠ q) : portOf (setPortLoop q depth partner last s) r = portOf s r := by
  by_cases hbad : portPresent s q.val = false ∨ 4 < depth
  · rw [setPortLoop_invalid hbad, portOf_loopReads]
    exact portOf_endPortLoop_ne q s h
  · obtain ⟨hp, h4⟩ : portPresent s q.val = true ∧ depth ≤ 4 := by simpa [not_or] using hbad
    rcases Nat.eq_zero_or_pos depth with rfl | h1
    · rw [setPortLoop_off hp, portOf_loopReads]
      exact portOf_endPortLoop_ne q s h
    · rcases hk : intSlotCheck (endPortLoop q s) with _ | x
      · rw [setPortLoop_on hp h1 h4 hk, portOf_loopReads, portOf_sendLoop]
        exact portOf_loopEntered_ne q s h depth partner
      · rw [setPortLoop_no_slot hp h1 h4 (by simp [hk]), portOf_loopReads]
        exact portOf_endPortLoop_ne q s h

theorem getLast_out_emit (o : Output) (s : State) (v : W32) : (loopReads v (emit o s)).out.getLast? = some o := by
  simp [loopReads, emit]

/-- The frame goes out last. -/
theorem sendLoop_frame (q : Fin 32) (s : State) : ∃ f,
    sendLoop q s = emit (.loopFrame q (portOf s q).loopDepth f) { s with opens := s.opens + 37 } := ⟨_, rfl⟩

theorem setPortLoop_loops (hp : portPresent s q.val = true) (h1 : 1 ≤ depth) (h4 : depth ≤ 4) (hk : intSlotCheck (endPortLoop q s) = none) :
    let t := setPortLoop q depth partner last s
    (portOf t q).loopDepth = depth ∧ (mapFind t.ptb.loopKids q.val).isSome = true ∧ t.ptb.loopLast = last ∧
      ∃ f, t.out.getLast? = some (.loopFrame q depth f) := by
  have hdepth := loopDepth_loopEntered q s depth partner
  have hkid : (mapFind (loopEntered q s depth partner).ptb.loopKids q.val).isSome = true := loopKid_takeLoopKid ..
  rw [setPortLoop_on hp h1 h4 hk]
  generalize loopEntered q s depth partner = u at hdepth hkid
  obtain ⟨f, hf⟩ := sendLoop_frame q u
  rw [hf, hdepth]
  refine ⟨hdepth, hkid, rfl, f, getLast_out_emit ..⟩

end

/-! ### The loop of a pool engine (R282) -/

section
variable {s : State} {k depth : Nat} {last : W32}

theorem setPoolLoop_invalid (h : poolPresent (endPoolLoop k s) k = false ∨ 1 < depth) :
    setPoolLoop k depth last s = loopReads 0 (endPoolLoop k s) := by
  unfold setPoolLoop
  exact if_pos (by simpa using h)

theorem setPoolLoop_off (hp : poolPresent (endPoolLoop k s) k = true) : setPoolLoop k 0 last s = loopReads last (endPoolLoop k s) := by
  unfold setPoolLoop
  rw [if_neg (by simp [hp]), if_pos rfl]

theorem setPoolLoop_on (hp : poolPresent (endPoolLoop k s) k = true) (hr : engineRegions (endPoolLoop k s) k = 0)
    (hk : intSlotCheck (endPoolLoop k s) = none) :
    let x := takeLoopKid (32 + k) (endPoolLoop k s)
    setPoolLoop k 1 last s = loopReads last (startLoop k (mapGet 0 x.ptb.loopKids (32 + k))
      { x with ptb := { x.ptb with poolLoops := x.ptb.poolLoops ++ [k] } }) := by
  unfold setPoolLoop
  rw [if_neg (by simp [hp]), if_neg (by decide), if_neg (by simp [hr, hk])]

end

/-! ### PTB_LOOP by its fields -/

section
variable {v : W64} {s : State}

/-- The bits of a loop setting that the register keeps. -/
def loopSetting (v : W64) : W32 := BitVec.ofNat 32 (v.toNat % 2 ^ 32) &&& 0x001F079F

theorem ptbLoop_port {q : Fin 32} (h7 : v.getLsbD 7 = false) (hq : v.toNat % 32 = q.val) :
    ptbLoop v s = setPortLoop q (v.toNat / 256 % 8) (BitVec.ofNat 5 (fieldOf v 16 5)) (loopSetting v) s := by
  have h0 : fieldOf v 0 5 = q.val := by rw [← hq]; simp [fieldOf]
  unfold ptbLoop
  rw [h7]
  simp only [Bool.false_eq_true, if_false, h0]
  rfl

theorem ptbLoop_pool (h7 : v.getLsbD 7 = true) (hk : v.toNat % 32 < 8) :
    ptbLoop v s = setPoolLoop (v.toNat % 32) (v.toNat / 256 % 8) (loopSetting v) s := by
  have h0 : fieldOf v 0 5 = v.toNat % 32 := by simp [fieldOf]
  unfold ptbLoop
  rw [h7]
  simp only [if_true, h0, if_pos hk]
  rfl

end

end Sys2Proof.Machine
end

section
/-! SUPPORT. The statement on the perturbation registers. -/
open Sys2Proof Sys2Proof.Machine

/-- Settles O50: a write that acts stores its register's fields, or changes the loop of the unit it names. -/
theorem perturbationWrites : Obligations.PerturbationWrites := by
  unfold Obligations.PerturbationWrites
  intro s a v c hc
  obtain ⟨g, hg⟩ := exec_ptb hc
  refine ⟨fun h => by rw [hg, ptbWrite_outside h], fun h hp => by rw [hg, ptbWrite_idle h hp],
    fun h hp hl => by rw [hg, ptbWrite_high h hp hl], fun h hp hl => ⟨?hsk, ?bp, ?tag, ?beat, ?port, ?pool⟩⟩
  case hsk => exact ⟨_, by rw [exec_ptbHskWrite, ptbWrite_acts h hp hl], rfl, readPtb_ptbHsk hp⟩
  case bp => exact ⟨_, by rw [exec_ptbBpWrite, ptbWrite_acts h hp hl], rfl, readPtb_ptbBp hp⟩
  case tag => exact ⟨_, by rw [exec_ptbTagholdWrite, ptbWrite_acts h hp hl], rfl, readPtb_ptbTaghold hp⟩
  case beat => exact ⟨_, by rw [exec_ptbBeatWrite, ptbWrite_acts h hp hl], rfl, readPtb_ptbBeat hp⟩
  case port =>
    intro q h7 hq w
    refine ⟨_, by rw [exec_ptbLoopWrite, ptbWrite_acts h hp hl, ptbLoop_port h7 hq], fun r hr => portOf_setPortLoop_ne hr,
      fun hbad => ?_, fun hpres h0 => ?_, fun hpres h1 h4 hk => ?_⟩
    · rw [hq] at hbad
      rw [setPortLoop_invalid hbad]
      exact ⟨rfl, loopDepth_endPortLoop q s⟩
    · rw [hq] at hpres
      rw [h0, setPortLoop_off hpres]
      exact ⟨rfl, loopDepth_endPortLoop q s⟩
    · rw [hq] at hpres ⊢
      exact setPortLoop_loops hpres h1 h4 hk
  case pool =>
    intro h7 hk w
    have hexec : exec (.ptbLoopWrite a v) s = .next (setPoolLoop (v.toNat % 32) (v.toNat / 256 % 8) (loopSetting v) s) := by
      rw [exec_ptbLoopWrite, ptbWrite_acts h hp hl, ptbLoop_pool h7 hk]
    refine ⟨fun h0 hpres => ?_, fun hbad => ?_, fun h1 hpres hr hslot => ?_⟩
    · rw [hexec, h0, setPoolLoop_off hpres]
      rfl
    · rw [hexec, setPoolLoop_invalid hbad]
      rfl
    · rw [hexec, h1, setPoolLoop_on hpres hr hslot]
      rfl
end

section
/-! SUPPORT. Tamper sources, clock and mesh measurements, droop warnings and parity errors (R18, R369 to R374): what each leaves. -/
namespace Sys2Proof.Machine

section
variable {s : State} {src : TamperSrc} {i : HaltInfo} {u : W16}

/-! ### The halt that a Tocsin leaves -/

theorem tocsin_phase (i : HaltInfo) (lv : Byte) (sources : W32) (why : Byte) (s : State) : (tocsin i lv sources why s).pkg.phase = .halted := by
  obtain ⟨o, h⟩ := tocsin_of_halted i lv sources why s
  rw [h, halted_frame]

/-- The record a Tocsin latches, with its level and pin. -/
theorem tocsin_latched (i : HaltInfo) (lv : Byte) (sources : W32) (why : Byte) (s : State) :
    (tocsin i lv sources why s).aon.halt = haltRecord i lv sources s ∧ (tocsin i lv sources why s).aon.haltPin = true ∧
      (tocsin i lv sources why s).aon.tocsin = lv.toNat := by
  have haon := congrArg State.aon (tocsin_frame i lv sources why s)
  exact ⟨congrArg AonSt.halt haon, congrArg AonSt.haltPin haon, congrArg AonSt.tocsin haon⟩

/-! ### Sources (R369, R370, R374) -/

theorem exec_tamperSourceFire (src : TamperSrc) (s : State) : exec (.tamperSourceFire src) s = .next (tamperSource src (notePin src s)) := rfl
theorem exec_clockMonitorMeasure (x y : Nat) (s : State) :
    exec (.clockMonitorMeasure x y) s = .next (if clockBad x y then tamperSource .clock s else s) := rfl
theorem exec_meshPattern (b : Bool) (s : State) : exec (.meshPattern b) s = .next (if b then tamperSource .mesh s else s) := rfl
theorem exec_droopWarning (d : Fin 24) (s : State) : exec (.droopWarning d) s = .next (droopWarning s) := rfl
theorem exec_parityError (u : W16) (s : State) : exec (.parityError u) s = .next (gongHalt { cause := 7, unit := u } s) := rfl

/-- A pin that fires is noted low; nothing else moves. -/
theorem notePin_frame (src : TamperSrc) (s : State) : ∃ b, notePin src s = { s with aon := { s.aon with pinsLow := b } } := by
  unfold notePin
  split
  · split
    · exact ⟨s.aon.pinsLow, rfl⟩
    · exact ⟨_, rfl⟩
  · exact ⟨s.aon.pinsLow, rfl⟩

theorem tamperSource_off (h : s.pkg.phase = .off) : tamperSource src (notePin src s) = s := by
  have hn : notePin src s = s := by
    unfold notePin
    split
    · exact if_pos h
    · rfl
  rw [hn, tamperSource, if_pos h]

theorem tamperSource_unarmed (hp : s.pkg.phase ≠ .off) (hs : lcState s ≠ lcScrap) (hb : lcState s ≠ lcBroken) (ha : srcArmed src s = false) :
    tamperSource src s = noteSeen src s := by
  rw [tamperSource, if_neg hp, if_neg (not_or.2 ⟨hs, hb⟩), if_pos (by rw [ha]; rfl)]

theorem tamperSource_fires (hp : s.pkg.phase ≠ .off) (hs : lcState s ≠ lcScrap) (hb : lcState s ≠ lcBroken) (ha : srcArmed src s = true)
    (hh : s.pkg.phase ≠ .halted) : tamperSource src s = fireSource src s := by
  rw [tamperSource, if_neg hp, if_neg (not_or.2 ⟨hs, hb⟩), if_neg (by rw [ha]; decide), if_neg hh]

/-- A source that fires halts the package under its own cause, level and bit. -/
theorem fireSource_halts (src : TamperSrc) (s : State) : (fireSource src s).pkg.phase = .halted ∧
    (fireSource src s).aon.haltPin = true ∧ (fireSource src s).aon.halt.cause = srcCause src ∧
    (fireSource src s).aon.halt.level = srcLevel src s ∧ (fireSource src s).aon.tocsin = (srcLevel src s).toNat ∧
    (fireSource src s).aon.halt.sources = BitVec.ofNat 32 (2 ^ srcBit src) ∧
    (fireSource src s).aon.halt.boot = BitVec.ofNat 64 s.pkg.boot ∧ (fireSource src s).aon.halt.unit = srcUnit src := by
  obtain ⟨hhalt, hpin, hlevel⟩ := tocsin_latched { cause := srcCause src, unit := srcUnit src, whereF := srcWhere src s } (srcLevel src s)
    (BitVec.ofNat 32 (2 ^ srcBit src)) 0x02 s
  refine ⟨tocsin_phase .., hpin, ?_, ?_, hlevel, ?_, ?_, ?_⟩
  all_goals rw [fireSource, hhalt, haltRecord]

/-- What a source's firing does, whichever row brings it. -/
def Fires (src : TamperSrc) (c : Instr) (s : State) : Prop :=
  (s.pkg.phase = .off → exec c s = .next s) ∧
  (s.pkg.phase ≠ .off → lcState s ≠ lcScrap → lcState s ≠ lcBroken →
    (srcArmed src (notePin src s) = false → exec c s = .next (noteSeen src (notePin src s))) ∧
    (srcArmed src (notePin src s) = true → s.pkg.phase ≠ .halted →
      ∃ t, exec c s = .next t ∧ t.pkg.phase = .halted ∧ t.aon.haltPin = true ∧ t.aon.halt.cause = srcCause src ∧
        t.aon.halt.level = srcLevel src s ∧ t.aon.tocsin = (srcLevel src s).toNat ∧ t.aon.halt.sources = BitVec.ofNat 32 (2 ^ srcBit src) ∧
        t.aon.halt.boot = BitVec.ofNat 64 s.pkg.boot ∧ t.aon.halt.unit = srcUnit src))

theorem fires_of_exec {c : Instr} (h : exec c s = .next (tamperSource src (notePin src s))) : Fires src c s := by
  obtain ⟨b, hpin⟩ := notePin_frame src s
  have hphase : (notePin src s).pkg = s.pkg := by rw [hpin]
  have hlc : lcState (notePin src s) = lcState s := by rw [hpin]; rfl
  have hlevel : srcLevel src (notePin src s) = srcLevel src s := by rw [hpin]; rfl
  refine ⟨fun hoff => by rw [h, tamperSource_off hoff], fun hoff hs hb => ⟨fun ha => ?_, fun ha hh => ⟨_, h, ?_⟩⟩⟩
  · rw [h, tamperSource_unarmed (by rwa [hphase]) (by rwa [hlc]) (by rwa [hlc]) ha]
  · rw [tamperSource_fires (by rwa [hphase]) (by rwa [hlc]) (by rwa [hlc]) ha (by rwa [hphase]), ← hlevel, ← hphase]
    exact fireSource_halts src (notePin src s)

/-! ### Measurements (Table 14-1) -/

theorem clockBad_iff {x y : Nat} : clockBad x y = true ↔ x < 1000000 ∨ 1100000 < x ∨ y < 45000 ∨ 55000 < y := decide_eq_true_iff

theorem exec_clock_outside {x y : Nat} (h : x < 1000000 ∨ 1100000 < x ∨ y < 45000 ∨ 55000 < y) :
    exec (.clockMonitorMeasure x y) s = .next (tamperSource .clock s) := by
  rw [exec_clockMonitorMeasure, if_pos (clockBad_iff.2 h)]

theorem exec_clock_inside {x y : Nat} (h : 1000000 ≤ x) (h' : x ≤ 1100000) (g : 45000 ≤ y) (g' : y ≤ 55000) :
    exec (.clockMonitorMeasure x y) s = .next s := by
  rw [exec_clockMonitorMeasure, if_neg (fun hbad => by have := clockBad_iff.1 hbad; omega)]

/-! ### Droop warnings (R373) -/

theorem droopWarning_off (h : s.pkg.phase = .off) : droopWarning s = s := if_pos h

/-- A warning counts up to 0xFFFF and asks for throttling. -/
theorem droopWarning_on (h : s.pkg.phase ≠ .off) : (droopWarning s).out = s.out ++ [.throttle] ∧
    (droopWarning s).aon.droop.toNat = min (s.aon.droop.toNat + 1) 0xFFFF ∧
    droopWarning s = { s with out := (droopWarning s).out, aon := { s.aon with droop := (droopWarning s).aon.droop } } := by
  have heq : droopWarning s = emit .throttle { s with aon := { s.aon with
      droop := if s.aon.droop = 0xFFFF then s.aon.droop else s.aon.droop + 1 } } := if_neg h
  rw [heq]
  refine ⟨rfl, ?_, rfl⟩
  show (if s.aon.droop = 0xFFFF then s.aon.droop else s.aon.droop + 1).toNat = _
  split
  · rename_i hmax
    rw [hmax]
    rfl
  · rename_i hmax
    have hlt : s.aon.droop.toNat ≠ 0xFFFF := fun e => hmax (BitVec.eq_of_toNat_eq e)
    rw [BitVec.toNat_add]
    have := s.aon.droop.isLt
    simp
    omega

/-! ### Parity errors (R18) -/

theorem gongHalt_running (h0 : s.pkg.phase ≠ .off) (h1 : s.pkg.phase ≠ .halted) (h2 : s.pkg.phase ≠ .romHalt) :
    gongHalt i s = tocsin i 1 0 0x01 s := by
  unfold gongHalt
  split
  · contradiction
  · contradiction
  · contradiction
  · rfl

/-- The log's second write changes flash and what has been sent. -/
theorem relog_frame (s : State) : relog s = { s with out := (relog s).out, flash := (relog s).flash } := by
  unfold relog
  split <;> rfl

/-- In a standing halt only bit 31 of SOURCES is set, and the log may hold it. -/
theorem gongHalt_standing (h : s.pkg.phase = .halted) :
    (gongHalt i s).aon = { s.aon with halt := { s.aon.halt with sources := s.aon.halt.sources ||| 0x80000000 } } ∧
    gongHalt i s = { s with aon := (gongHalt i s).aon, flash := (gongHalt i s).flash, out := (gongHalt i s).out,
                            opens := (gongHalt i s).opens } := by
  unfold gongHalt
  rw [h]
  dsimp only
  split
  · rw [relog_frame]
    exact ⟨rfl, rfl⟩
  · exact ⟨rfl, rfl⟩

theorem gongHalt_off (h : s.pkg.phase = .off) : gongHalt i s = s := by
  unfold gongHalt
  rw [h]

end

end Sys2Proof.Machine
end

section
/-! SUPPORT. The statement on the tamper rows. -/
open Sys2Proof Sys2Proof.Machine

/-- Settles O52: every row that fires a source fires it alike; a parity error is a Tocsin of its own or a bit of a standing record. -/
theorem tamperResponses : Obligations.TamperResponses := by
  unfold Obligations.TamperResponses
  intro s fires
  refine ⟨fun src => fires_of_exec (exec_tamperSourceFire src s), fun x y h h' g g' => exec_clock_inside h h' g g',
    fun x y h => fires_of_exec (src := .clock) (exec_clock_outside h), exec_meshPattern false s, fires_of_exec (src := .mesh) (exec_meshPattern true s),
    fun d h => ?_, fun d h => ⟨_, exec_droopWarning d s, droopWarning_on h⟩, fun u h => ?_, fun u h0 h1 h2 => ?_,
    fun u h => ⟨_, exec_parityError u s, gongHalt_standing h⟩⟩
  · rw [exec_droopWarning, droopWarning_off h]
  · rw [exec_parityError, gongHalt_off h]
  · obtain ⟨hhalt, hpin, hlevel⟩ := tocsin_latched { cause := 7, unit := u } 1 0 0x01 s
    refine ⟨_, by rw [exec_parityError, gongHalt_running h0 h1 h2], tocsin_phase .., ?_, ?_, ?_, hlevel, hpin⟩
    all_goals rw [hhalt, haltRecord]
end

section
/-! SUPPORT. SELF_TEST's run (R387 to R394): the caches its units lose, the signatures and failures it leaves, its end. -/
namespace Sys2Proof.Machine

section
variable {s : State} {u : Nat} {e : Nat}

/-! ### Key caches of units under test -/

theorem caches_finishRetire (kid : W16) (s : State) : (finishRetire kid s).ks.caches = s.ks.caches := by
  unfold finishRetire
  split
  · split <;> rfl
  · rfl

theorem caches_finishRetires (l : List W16) (s : State) : (l.foldl (fun s k => finishRetire k s) s).ks.caches = s.ks.caches := by
  induction l generalizing s with
  | nil => rfl
  | cons k l ih => exact (ih _).trans (caches_finishRetire k s)

theorem keysOnly_finishRetires (l : List W16) (s : State) : KeysOnly s (l.foldl (fun s k => finishRetire k s) s) := by
  induction l generalizing s with
  | nil => exact .refl s
  | cons k l ih => exact (keysOnly_finishRetire k s).trans (ih _)

theorem zeroiseUnit_cached (h : unitCache u = some e) :
    zeroiseUnit u s = (mapGet [] s.ks.caches e).foldl (fun s k => finishRetire k s) (clearCache e s) := by simp [zeroiseUnit, h]

theorem zeroiseUnit_uncached (h : unitCache u = none) : zeroiseUnit u s = s := by simp [zeroiseUnit, h]

theorem keysOnly_zeroiseUnit (u : Nat) (s : State) : KeysOnly s (zeroiseUnit u s) := by
  rcases h : unitCache u with _ | e
  · rw [zeroiseUnit_uncached h]; exact .refl s
  · rw [zeroiseUnit_cached h]
    exact (show KeysOnly s (clearCache e s) from rfl).trans (keysOnly_finishRetires ..)

/-- A unit's cache is empty once zeroised, and no other's gains. -/
theorem cache_zeroiseUnit (u e : Nat) (s : State) :
    mapGet [] (zeroiseUnit u s).ks.caches e = if unitCache u = some e then [] else mapGet [] s.ks.caches e := by
  rcases h : unitCache u with _ | e'
  · rw [zeroiseUnit_uncached h, if_neg nofun]
  · rw [zeroiseUnit_cached h, caches_finishRetires, clearCache, mapGet, mapFind_mapErase]
    by_cases he : e = e'
    · rw [if_pos he, if_pos (congrArg some he.symm)]
      rfl
    · rw [if_neg he, if_neg (fun h => he (Option.some.inj h).symm), mapGet]

/-- The units of a list, zeroised. -/
def zeroisedUnits (l : List W16) (s : State) : State := l.foldl (fun s u => zeroiseUnit u.toNat s) s

theorem keysOnly_zeroisedUnits (l : List W16) (s : State) : KeysOnly s (zeroisedUnits l s) := by
  induction l generalizing s with
  | nil => exact .refl s
  | cons u l ih => exact (keysOnly_zeroiseUnit u.toNat s).trans (ih _)

theorem cache_zeroisedUnits {l : List W16} (h : (∃ x ∈ l, unitCache x.toNat = some e) ∨ mapGet [] s.ks.caches e = []) :
    mapGet [] (zeroisedUnits l s).ks.caches e = [] := by
  induction l generalizing s with
  | nil => exact h.resolve_left (by simp)
  | cons u l ih =>
    refine ih ?_
    rw [cache_zeroiseUnit]
    rcases h with ⟨x, hx, hxe⟩ | h
    · rcases List.mem_cons.1 hx with rfl | hx
      · exact .inr (if_pos hxe)
      · exact .inl ⟨x, hx, hxe⟩
    · right
      split
      · rfl
      · exact h

/-! ### What a run leaves of its units -/

/-- Storing for every key of a list: each of them holds its own value. -/
theorem mapFind_foldl_mapSet {β : Type} (g : Nat → β) (l : List Nat) (m : FMap β) (k : Nat) :
    mapFind (l.foldl (fun m u => mapSet m u (g u)) m) k = if k ∈ l then some (g k) else mapFind m k := by
  induction l generalizing m with
  | nil => simp
  | cons u l ih =>
    rw [List.foldl_cons, ih, mapFind_mapSet]
    by_cases hk : k ∈ l
    · simp [hk]
    · by_cases hu : k = u
      · subst hu; simp
      · simp [hk, hu]

theorem misr_keepMisrs (runs : List UnitRun) (l : List W16) (seed : W64) (n : Nat) (s : State) {x : W16} (hx : x ∈ l) :
    mapFind (keepMisrs runs (l.map (·.toNat)) seed n s).pkg.misr x.toNat = some (seed, n, deltaOf runs x.toNat) := by
  rw [keepMisrs, mapFind_foldl_mapSet, if_pos (List.mem_map_of_mem hx)]

/-- A unit of the run fails by its memories or by its signature. -/
theorem mem_failing (runs : List UnitRun) {l : List W16} (seed : W64) (n : Nat) {x : W16} (hx : x ∈ l) :
    x ∈ failing true runs (l.map (·.toNat)) seed n ↔
      memoryFails runs x.toNat = true ∨ logicPass runs (l.map (·.toNat)) seed n x.toNat = false := by
  have hfails : ∀ v : Nat, (memoryFails runs v || (true && !logicPass runs (l.map (·.toNat)) seed n v)) = true ↔
      memoryFails runs v = true ∨ logicPass runs (l.map (·.toNat)) seed n v = false := fun v => by simp
  simp only [failing, List.mem_map, List.mem_filter, hfails]
  constructor
  · rintro ⟨_, ⟨⟨y, -, rfl⟩, h⟩, hy⟩
    rw [BitVec.ofNat_toNat, BitVec.setWidth_eq] at hy
    rwa [← hy]
  · intro h
    exact ⟨x.toNat, ⟨⟨x, hx, rfl⟩, h⟩, by simp⟩

/-- The state in which a run's results stand: the units back from the test, their signatures kept, the failed ones unusable. -/
def ranUnits (l : List W16) (seed : W64) (n : Nat) (r : TestRun) (s : State) : State :=
  let w := keepMisrs r.units (l.map (·.toNat)) seed n { s with pkg := { s.pkg with testing := s.pkg.testing.filter (fun u => !l.contains u) } }
  let failed := failing true r.units (l.map (·.toNat)) seed n
  { w with pkg := { w.pkg with bad := w.pkg.bad ++ failed, serviceFail := w.pkg.serviceFail || !failed.isEmpty } }

theorem limitCheck_stops {r : TestRun} (h : r.limits ≠ 0) :
    limitCheck (some r) = some (stLimits, if r.limits = 1 then 0x801 else 0x802) := if_neg h

theorem limitCheck_met {r : TestRun} (h : r.limits = 0) : limitCheck (some r) = none := if_pos h

theorem endTest_limits {r : TestRun} (h : r.limits ≠ 0) (l : List W16) (seed : W64) (n : Nat) (q : InProg) (s : State) :
    endTest l seed n r q s = complete q stLimits (if r.limits = 1 then 0x801 else 0x802) 0
      { s with pkg := { s.pkg with testing := s.pkg.testing.filter (fun x => !l.contains x) } } := by
  unfold endTest
  rw [limitCheck_stops h]

theorem endTest_ran {r : TestRun} (h : r.limits = 0) (l : List W16) (seed : W64) (n : Nat) (q : InProg) (s : State) :
    endTest l seed n r q s = complete q stOk 0 (failBitmap (failing true r.units (l.map (·.toNat)) seed n))
      (dropPorts allPorts (ranUnits l seed n r s)) := by
  unfold endTest ranUnits
  rw [limitCheck_met h]

theorem dropPorts_cons (f : Fin 32) (l : List (Fin 32)) (v : State) :
    dropPorts (f :: l) v = dropPorts l (if (portOf v f).up = true ∧ portPresent v f.val = false then portLost f 3 v else v) := by
  simp only [dropPorts, Bool.and_eq_true, Bool.not_eq_true']

/-! ### The command -/

/-- The state in which a run begins. -/
def runBegun (units : List Nat) (seed : W64) (n : Nat) (s : State) : State :=
  zeroisedUnits (units.map (BitVec.ofNat 16))
    (openMisrs units seed n { s with pkg := { s.pkg with testing := s.pkg.testing ++ units.map (BitVec.ofNat 16) } })

theorem pkg_runBegun (units : List Nat) (seed : W64) (n : Nat) (s : State) :
    (runBegun units seed n s).pkg.testing = s.pkg.testing ++ units.map (BitVec.ofNat 16) ∧ (runBegun units seed n s).pkg.bad = s.pkg.bad := by
  rw [runBegun, (keysOnly_zeroisedUnits _ _).pkg]
  exact ⟨rfl, rfl⟩

theorem startTest_unended (unit : W16) (pt : W32) (sd : W64) (p : InProg) (s : State) : startTest unit pt sd none p s =
    goOn p { engine := true } (.selfTest ((namedUnits s unit).map (BitVec.ofNat 16)) (seedOf sd) (patternsOf pt))
      (runBegun (namedUnits s unit) (seedOf sd) (patternsOf pt) s) := rfl

theorem startTest_ended (unit : W16) (pt : W32) (sd : W64) (r : TestRun) (p : InProg) (s : State) : startTest unit pt sd (some r) p s =
    endTest ((namedUnits s unit).map (BitVec.ofNat 16)) (seedOf sd) (patternsOf pt) r p
      (runBegun (namedUnits s unit) (seedOf sd) (patternsOf pt) s) := rfl

end
end Sys2Proof.Machine
end

section
/-! SUPPORT. The statement on the self-test's runs. -/
open Sys2Proof Sys2Proof.Machine

/-- Settles O45: the run's start by what its units lose, its end by the limits and by what `ranUnits` leaves. -/
theorem selfTestRuns : Obligations.SelfTestRuns := by
  unfold Obligations.SelfTestRuns
  intro s h u pt sd units
  refine ⟨fun p run a hn => ?_, fun q l seed n r hs hrun => ?_, fun q l seed n r => ⟨fun hl => endTest_limits hl l seed n q s, fun hl => ?_,
    fun x hx => mem_failing r.units seed n hx⟩, dropPorts_cons⟩
  · obtain ⟨htest, hbad⟩ := pkg_runBegun (namedUnits s u) (seedOf sd) (patternsOf pt) s
    refine ⟨runBegun (namedUnits s u) (seedOf sd) (patternsOf pt) s, ?_, htest, hbad, fun x hx e he => cache_zeroisedUnits (.inl ⟨x, hx, he⟩)⟩
    rw [exec_selfTest_of_idle h u pt sd run s hn, runRow_admitted a]
    cases run
    case none => rw [startTest_unended]
    case some r => rw [startTest_ended]
  · simp only [exec_selfTest, selfTest, hrun, hs]
    exact ⟨rfl, rfl⟩
  · exact ⟨ranUnits l seed n r s, endTest_ran hl l seed n q s, rfl, rfl, rfl, rfl, fun x hx => misr_keepMisrs r.units l seed n _ hx⟩
end

section
/-! SUPPORT. The package TAP (R353, Table 13-4): instructions under a right, the trace's drain, the life-cycle and debug mailboxes. -/
namespace Sys2Proof.Machine

section
variable {s : State} {n : Nat} {g : State → State}

/-! ### Rights -/

theorem tap_right (h : tapRight s n = true) : tap n g s = g s := if_pos h
theorem tap_no_right (h : tapRight s n = false) : tap n g s = emit (.tdo []) s := if_neg (by rw [h]; decide)

/-- An instruction that one right opens is `tap` of that right. -/
theorem exec_tapUnder {c : Instr} (h : tapUnder c = some n) : ∃ g, ∀ s, exec c s = .next (tap n g s) := by
  unfold tapUnder at h
  split at h <;> cases h <;> exact ⟨_, fun _ => rfl⟩

theorem exec_statusRd (s : State) : exec .statusRd s = .next (tap 1 (fun s => emit (.tdo (statusWords s)) s) s) := rfl
theorem exec_ctrRd (s : State) : exec .ctrRd s = .next (tap 2 (fun s => emit (.tapCounts (readView .package .pf 0 [] s).1) s) s) := rfl
theorem exec_ksMetaRd (k : Nat) (s : State) : exec (.ksMetaRd k) s = .next (tap 11 (fun s => emit (.tdo (metaWords k s)) s) s) := rfl
theorem exec_otpRd (k : Nat) (s : State) : exec (.otpRd k) s = .next (tap 12 (fun s => emit (.tdo [otpWord s.otp k]) s) s) := rfl
theorem exec_traceRd (f : Fn) (bad : List Nat) (s : State) :
    exec (.traceRd f bad) s = .next (tap (if f = .pf then 3 else 15) (traceRd f bad) s) := rfl
theorem exec_tileDbg (f : Fn) (s : State) : exec (.tileDbg f) s = .next (tap 9 (tileDbg f) s) := rfl
theorem exec_memPort (t : DebugTarget) (w : Bool) (s : State) :
    exec (.memPort t w) s = .next (if [5, 6, 7, 8].any (tapRight s) then debugMaster t w s else tapBypass s) := rfl
theorem exec_ctrlDbg (s : State) : exec .ctrlDbg s = .next (tap 17 tapOpen s) := rfl
theorem exec_entropyRd (s : State) : exec .entropyRd s = .next (tap 19 tapOpen s) := rfl
theorem exec_kxeDbg (s : State) : exec .kxeDbg s = .next (tap 20 tapOpen s) := rfl
theorem exec_scanAon (s : State) : exec .scanAon s = .next (tap 13 scanDump s) := rfl
theorem exec_scanCipher (s : State) : exec .scanCipher s = .next (tap 18 scanDump s) := rfl
theorem exec_lcMbox (o : LcMailOp) (s : State) : exec (.lcMbox o) s = .next (lcMailbox o s) := rfl
theorem exec_dbgMbox (o : Byte) (c : Cert) (s : State) : exec (.dbgMbox o c) s = .next (dbgMailbox o c s) := rfl

/-! ### Reads -/

/-- R105, R113: no word of OTP shows the DRS, the pairing keys, the authority hash or the floors. -/
theorem otpWord_secrets (o : OtpSt) (d : Key) (p : List Key) (h : Hash) (l : List Nat) (k : Nat) :
    otpWord { o with drs := d, pairing := p, authority := h, floor := l } k = otpWord o k := rfl

/-- With room for every record and no bad block, a drain delivers the whole slice. -/
theorem drain_all (l : List TraceBlock) : drain [] l ((l.map (fun b => b.recs.length)).sum) = (l.flatMap (·.recs), 0, []) := by
  induction l with
  | nil => rfl
  | cons b l ih =>
    simp only [List.map_cons, List.sum_cons, drain, List.contains_nil, Bool.false_eq_true, if_false, Nat.le_add_right, if_true,
      Nat.add_sub_cancel_left, ih, List.flatMap_cons]

/-- A reader's slice, emptied: nothing stored, nothing lost since. -/
def emptySlice (f : Fn) (s : State) : State :=
  let t := { (mapGet {} s.tabor.trace f.key) with blocks := [], lost := 0 }
  { s with tabor := { s.tabor with trace := mapPut {} s.tabor.trace f.key t } }

theorem blocks_emptySlice (f : Fn) (s : State) : (mapGet {} (emptySlice f s).tabor.trace f.key).blocks = [] := by
  rw [emptySlice, mapGet_mapPut, if_pos rfl]

theorem traceRd_all (f : Fn) (s : State) : traceRd f [] s =
    emit (.tapTrace f ((mapGet {} s.tabor.trace f.key).blocks.flatMap (·.recs)) (mapGet {} s.tabor.trace f.key).lost) (emptySlice f s) := by
  simp only [traceRd, drain_all, Nat.add_zero]
  rfl

/-! ### The tile port and the memory port -/

theorem tileDbg_reached {v : BitVec 12} (h : dataReach s v = true) : tileDbg (.vf v) s = emit (.debugMaster true) s := if_pos h
theorem tileDbg_refused {v : BitVec 12} (h : dataReach s v = false) :
    tileDbg (.vf v) s = emit (.debugMaster false) (countFn .pf 0x2D s) := if_neg (by rw [h]; decide)

theorem dataRights_eq (s : State) : [5, 6, 7, 8].any (tapRight s) = (tapRight s 5 || tapRight s 6 || tapRight s 7 || tapRight s 8) := by
  simp [Bool.or_assoc]

theorem exec_memPort_closed (h : (tapRight s 5 || tapRight s 6 || tapRight s 7 || tapRight s 8) = false) (t : DebugTarget) (w : Bool) :
    exec (.memPort t w) s = .next (emit (.tdo []) s) := by
  rw [exec_memPort, dataRights_eq, h]
  rfl

theorem exec_memPort_open (h : (tapRight s 5 || tapRight s 6 || tapRight s 7 || tapRight s 8) = true) (t : DebugTarget) (w : Bool) :
    exec (.memPort t w) s = .next (debugMaster t w s) := by
  rw [exec_memPort, dataRights_eq, if_pos h]

/-! ### The life-cycle mailbox (R79, R83) -/

theorem lcMailbox_closed (h : lcMailOpen s = false) (o : LcMailOp) : lcMailbox o s = emit (.tdo []) s := by
  unfold lcMailbox
  rw [h]
  rfl

theorem lcMailbox_status (h : lcMailOpen s = true) : lcMailbox .status s = emit (.tapLc stOk 0 (some (lcStatusOf s)) none) s := by
  unfold lcMailbox
  rw [h]
  rfl

theorem lcMailbox_challenge (h : lcMailOpen s = true) : lcMailbox .challenge s =
    if serving s then tapChallenge s else tapLcAnswer stBadState ((lcState s).setWidth 32) s := by
  unfold lcMailbox
  rw [h]
  rfl

theorem lcMailbox_transition (h : lcMailOpen s = true) (r : LcReq) (e : StartEnv) : lcMailbox (.transition r e) s =
    if serving s then tapTransition r e s else tapLcAnswer stBadState ((lcState s).setWidth 32) s := by
  unfold lcMailbox
  rw [h]
  rfl

theorem tapChallenge_idle (h : lcBusy s = none) : tapChallenge s = emit (.tapLc stOk 0 none (some (drawn s)))
    { s with aon := { s.aon with nonce := some (drawn s) }, draws := s.draws + 1 } := by
  rw [tapChallenge, h]
  rfl

section
variable {r : LcReq} {e : StartEnv}

theorem tapTransition_refused {st : W16} {d : W32} (h : firstFail (lcFields s r ++ [lcBusy s, lcStateCheck s r, lcLimits s r]) = some (st, d)) :
    tapTransition r e s = emit (.tapLc st d none none) s := by
  rw [tapTransition, h]
  rfl

theorem tapTransition_checked (h : firstFail (lcFields s r ++ [lcBusy s, lcStateCheck s r, lcLimits s r]) = none) : tapTransition r e s =
    if lcAuth s r then tapRun r e { s with aon := { s.aon with nonce := none } }
    else tapLcAnswer stAuthFailed 0 { s with aon := { s.aon with nonce := none } } := by
  rw [tapTransition, h]

end

/-! ### The debug mailbox (R349, R352) -/

section
variable {c : Cert}

theorem dbgMailbox_off (h : s.pkg.phase = .off) (o : Byte) (c : Cert) : dbgMailbox o c s = emit (.tdo []) s := if_pos h

theorem dbgMailbox_status (h : s.pkg.phase ≠ .off) {o : Byte} (h8 : o ≠ 0x68) (h9 : o ≠ 0x69) :
    dbgMailbox o c s = emit (.tapDbg stOk 0 (rightsInForce s)) s := by
  rw [dbgMailbox, if_neg h, if_neg h8, if_neg h9]
  rfl

theorem dbgMailbox_grant (h : s.pkg.phase ≠ .off) : dbgMailbox 0x68 c s =
    if serving s then tapGrant c s else tapDbgAnswer stBadState ((lcState s).setWidth 32) s := by
  rw [dbgMailbox, if_neg h, if_pos rfl]

theorem dbgMailbox_revoke (h : s.pkg.phase ≠ .off) : dbgMailbox 0x69 c s =
    if serving s then tapRevoke s else tapDbgAnswer stBadState ((lcState s).setWidth 32) s := by
  rw [dbgMailbox, if_neg h, if_neg (by decide), if_pos rfl]

theorem tapRevoke_none (h : s.grant = none) : tapRevoke s = emit (.tapDbg stOk 0 (rightsInForce s)) s := by
  rw [tapRevoke, h]
  rfl

theorem tapRevoke_some {g : GrantSt} (h : s.grant = some g) : tapRevoke s = settle { revokeGrant g s with tapRevoke := some g.kid } := by
  rw [tapRevoke, h]

theorem tapGrant_refused {st : W16} {d : W32}
    (h : firstFail (certFields c ++ certPermitted s c ++ [certState s c, certBusy s, intSlotCheck s]) = some (st, d)) :
    tapGrant c s = emit (.tapDbg st d (rightsInForce s)) s := by
  rw [tapGrant, h]
  rfl

section
variable (h : firstFail (certFields c ++ certPermitted s c ++ [certState s c, certBusy s, intSlotCheck s]) = none)
include h

theorem tapGrant_unauthenticated (ha : certAuth s c = false) : tapGrant c s = emit (.tapDbg stAuthFailed 0 (rightsInForce s)) s := by
  rw [tapGrant, h]
  dsimp only
  rw [ha]
  rfl

theorem tapGrant_granted (ha : certAuth s c = true) : tapGrant c s =
    settle (tapDbgAnswer stOk 0 (applyGrant c (reserveInt s).1 (reserveInt s).2)) := by
  rw [tapGrant, h]
  dsimp only
  rw [if_pos ha]

end
end

end
end Sys2Proof.Machine
end

section
/-! SUPPORT. The statement on the TAP's instructions. -/
open Sys2Proof Sys2Proof.Machine

/-- Settles O58: each instruction by its right, each mailbox by its operation and by whether the controller runs. -/
theorem tapInstructions : Obligations.TapInstructions := by
  unfold Obligations.TapInstructions
  refine ⟨fun c n s hc hn => ?right, fun s => ?_⟩
  case right =>
    obtain ⟨g, hg⟩ := exec_tapUnder hc
    rw [hg, tap_no_right hn]
  intro seen
  refine ⟨fun c => rfl, rfl, rfl, rfl, fun h => ?status, fun h => ?counts, fun h k => ?keys, fun h k => ?fuses,
    fun k d p h l => otpWord_secrets s.otp d p h l k, fun f h => ?trace, fun h => ⟨fun v hv => ?reached, fun v hv => ?unreached, ?pf⟩,
    ⟨fun h => exec_memPort_closed h, fun h => ⟨fun f a n w => ⟨fun hw => ?served, fun hw => ?refused⟩, fun e o n l w => exec_memPort_open h _ w⟩⟩,
    fun h => ?ctrl, fun h => ?entropy, fun h => ?kxe, fun h => ?aon, fun h => ?cipher, fun h => ⟨?lcStatus, fun hs => ⟨?lcIdle, fun r e => ?lcStill⟩,
      fun hs => ⟨fun hb => ?challenge, fun r e => ⟨fun st d hf => ?lcRefused, fun hf => ⟨fun ha => ?lcUnauth, fun ha => ?lcRun⟩⟩⟩⟩,
    fun h o => ?lcClosed, fun h o c => ?dbgOff, fun h c => ⟨fun o h8 h9 => ?dbgStatus, fun hs => ⟨?dbgIdle, ?dbgStill⟩,
      fun hs => ⟨fun hg => ?none, fun g hg => ?revoke, fun st d hf => ?dbgRefused, fun hf => ⟨fun ha => ?dbgUnauth, fun ha => ?grant⟩⟩⟩⟩
  case status => rw [exec_statusRd, tap_right h]
  case counts => rw [exec_ctrRd, tap_right h]
  case keys => rw [exec_ksMetaRd, tap_right h]
  case fuses => rw [exec_otpRd, tap_right h]
  case trace =>
    have hexec := exec_traceRd f [] s
    rw [tap_right h, traceRd_all] at hexec
    exact ⟨_, hexec, rfl, blocks_emptySlice f s, rfl⟩
  case reached => rw [exec_tileDbg, tap_right h, tileDbg_reached hv]
  case unreached => rw [exec_tileDbg, tap_right h, tileDbg_refused hv]
  case pf => rw [exec_tileDbg, tap_right h]; rfl
  case served => rw [exec_memPort_open h, debugMaster_memory_served hw]
  case refused => rw [exec_memPort_open h, debugMaster_memory_refused hw]
  case ctrl => rw [exec_ctrlDbg, tap_right h]; rfl
  case entropy => rw [exec_entropyRd, tap_right h]; rfl
  case kxe => rw [exec_kxeDbg, tap_right h]; rfl
  case aon => rw [exec_scanAon, tap_right h]; rfl
  case cipher => rw [exec_scanCipher, tap_right h]; rfl
  case lcStatus => rw [exec_lcMbox, lcMailbox_status h]
  case lcIdle => rw [exec_lcMbox, lcMailbox_challenge h, hs]; rfl
  case lcStill => rw [exec_lcMbox, lcMailbox_transition h, hs]; rfl
  case challenge => rw [exec_lcMbox, lcMailbox_challenge h, if_pos hs, tapChallenge_idle hb]
  case lcRefused => rw [exec_lcMbox, lcMailbox_transition h, if_pos hs, tapTransition_refused hf]
  case lcUnauth => rw [exec_lcMbox, lcMailbox_transition h, if_pos hs, tapTransition_checked hf, ha]; rfl
  case lcRun => rw [exec_lcMbox, lcMailbox_transition h, if_pos hs, tapTransition_checked hf, if_pos ha]
  case lcClosed => rw [exec_lcMbox, lcMailbox_closed h]
  case dbgOff => rw [exec_dbgMbox, dbgMailbox_off h]
  case dbgStatus => rw [exec_dbgMbox, dbgMailbox_status h h8 h9]
  case dbgIdle => rw [exec_dbgMbox, dbgMailbox_grant h, hs]; rfl
  case dbgStill => rw [exec_dbgMbox, dbgMailbox_revoke h, hs]; rfl
  case none => rw [exec_dbgMbox, dbgMailbox_revoke h, if_pos hs, tapRevoke_none hg]
  case revoke => rw [exec_dbgMbox, dbgMailbox_revoke h, if_pos hs, tapRevoke_some hg]
  case dbgRefused => rw [exec_dbgMbox, dbgMailbox_grant h, if_pos hs, tapGrant_refused hf]
  case dbgUnauth => rw [exec_dbgMbox, dbgMailbox_grant h, if_pos hs, tapGrant_unauthenticated hf ha]
  case grant => rw [exec_dbgMbox, dbgMailbox_grant h, if_pos hs, tapGrant_granted hf ha]; rfl
end

section
/-! SUPPORT. The Tabor gate's windows (R355 to R359): the events that wait, the close of a window, the counts' difference. -/
namespace Sys2Proof.Machine

section
variable {s : State} {e : TaborEv} {l : List TaborEv} {v : ViewId}

/-! ### Events in stamp order (R356) -/

theorem insertEvent_perm (e : TaborEv) (l : List TaborEv) : (insertEvent e l).Perm (e :: l) := by
  induction l with
  | nil => exact .refl _
  | cons x l ih =>
    unfold insertEvent
    split
    · exact .refl _
    · exact (ih.cons x).trans (.swap e x l)

theorem insertEvent_sorted (h : l.Pairwise (fun a b => a.tick ≤ b.tick)) : (insertEvent e l).Pairwise (fun a b => a.tick ≤ b.tick) := by
  induction l with
  | nil => exact List.pairwise_singleton ..
  | cons x l ih =>
    obtain ⟨hx, hl⟩ := List.pairwise_cons.1 h
    unfold insertEvent
    split
    · rename_i hlt
      refine List.pairwise_cons.2 ⟨fun y hy => ?_, h⟩
      rcases List.mem_cons.1 hy with rfl | hy
      · exact hlt.le
      · exact hlt.le.trans (hx y hy)
    · rename_i hle
      refine List.pairwise_cons.2 ⟨fun y hy => ?_, ih hl⟩
      rcases List.mem_cons.1 ((insertEvent_perm e l).mem_iff.1 hy) with rfl | hy
      · exact Nat.not_lt.1 hle
      · exact hx y hy

theorem exec_taborEvent {f : Fn} {ctx : W16} {ty fm units tick : Nat} (hs : serving s = true) :
    exec (.taborEvent f ctx ty fm units tick) s = .next (taborEvent f ctx ty fm units tick s) := by
  rw [show exec (.taborEvent f ctx ty fm units tick) s = .next (whenLive (taborEvent f ctx ty fm units tick) s) from rfl, whenLive_live _ _ hs]

theorem taborEvent_unknown {f : Fn} {ctx : W16} {ty fm units tick : Nat} (h : 6 < ty ∨ 11 < fm) : taborEvent f ctx ty fm units tick s = s :=
  if_pos h

theorem taborEvent_known {f : Fn} {ctx : W16} {ty fm units tick : Nat} (ht : ty ≤ 6) (hf : fm ≤ 11) :
    taborEvent f ctx ty fm units tick s = addSet f ctx (12 * ty + fm) units { s with tabor := { s.tabor with
      events := insertEvent { fn := f.key, ctx := ctx, counter := 12 * ty + fm, units := units, tick := tick } s.tabor.events } } :=
  if_neg (by omega)

/-! ### What the close of a window moves -/

/-- Applying events moves the running counters alone. -/
theorem applyEvents_frame (l : List TaborEv) (s : State) :
    applyEvents l s = { s with tabor := { s.tabor with counts := (applyEvents l s).tabor.counts } } := by
  induction l generalizing s with
  | nil => rfl
  | cons e l ih => rw [applyEvents, ih]; rfl

theorem viewOf_congr {t : State} (h : ∃ ev c, t = { s with tabor := { s.tabor with events := ev, counts := c } }) (v : ViewId) :
    viewOf t v = viewOf s v := by
  obtain ⟨ev, c, rfl⟩ := h
  rfl

/-- The state with the due events of a function applied. -/
theorem applyBefore_frame (fn : Nat) (e : Nat) (s : State) : ∃ c, applyBefore fn (some e) s = { s with tabor := { s.tabor with
    events := s.tabor.events.filter (fun x => !(x.fn == fn && decide (x.tick < e))), counts := c } } := by
  unfold applyBefore
  exact ⟨_, applyEvents_frame _ _⟩

theorem viewOf_applyBefore (fn e : Nat) (s : State) (v : ViewId) : viewOf (applyBefore fn (some e) s) v = viewOf s v := by
  obtain ⟨c, h⟩ := applyBefore_frame fn e s
  exact viewOf_congr ⟨_, c, h⟩ v

theorem viewOf_viewMod (v : ViewId) (g : ViewSt → ViewSt) (s : State) : viewOf (viewMod v g s) v = g (viewOf s v) := by
  cases v with
  | vf i => exact viewOf_vf_viewMod i g s
  | pfOf i => exact viewOf_pfOf_viewMod i g s
  | package => rfl

/-- `t` has the views, the events and the running counters of `s`. -/
structure SameCounts (s t : State) : Prop where
  view : ∀ v, viewOf t v = viewOf s v
  events : t.tabor.events = s.tabor.events
  counts : t.tabor.counts = s.tabor.counts

theorem sameCounts_traceVf (f : Fn) (k : Nat) (c : W16) (d : BitVec 128) (s : State) : SameCounts s (traceVf f k c d s) := by
  cases f with
  | pf => exact ⟨fun _ => rfl, rfl, rfl⟩
  | vf v => exact ⟨fun v => by cases v <;> rfl, rfl, rfl⟩

theorem events_viewMod (v : ViewId) (g : ViewSt → ViewSt) (s : State) : (viewMod v g s).tabor.events = s.tabor.events := by cases v <;> rfl
theorem counts_viewMod (v : ViewId) (g : ViewSt → ViewSt) (s : State) : (viewMod v g s).tabor.counts = s.tabor.counts := by cases v <;> rfl

/-- A view whose window has just closed on the latch `e`. -/
def closedView (e : FMap Nat) (w : ViewSt) : ViewSt :=
  { w with closed := some (w.index, w.t0 + w.index * windowTicks w.window, w.window, latchDiff w.start e), start := e }

theorem closeWindow_eq (v : ViewId) (s : State) : closeWindow v s = viewMod v (closedView (latch s v)) s := rfl

/-- What a window's end leaves: the view closed on its latch and moved on, the events and counters as the due events left them. -/
theorem windowEnd_spec (v : ViewId) (s : State) :
    let m := applyBefore (viewFn v) (some (endTick (viewOf s v))) s
    viewOf (windowEnd v s) v = nextWindow (closedView (latch m v) (viewOf s v)) ∧ (windowEnd v s).tabor.events = m.tabor.events ∧
      (windowEnd v s).tabor.counts = m.tabor.counts := by
  intro m
  have hsame : SameCounts (viewMod v nextWindow (closeWindow v m)) (windowEnd v s) := by
    cases v with
    | vf i => exact sameCounts_traceVf (.vf i) 0x06 0xFFFF 0 (viewMod (.vf i) nextWindow (closeWindow (.vf i) m))
    | pfOf i => exact ⟨fun _ => rfl, rfl, rfl⟩
    | package => exact ⟨fun _ => rfl, rfl, rfl⟩
  rw [hsame.view, hsame.events, hsame.counts, viewOf_viewMod, closeWindow_eq, viewOf_viewMod, viewOf_applyBefore]
  exact ⟨rfl, by rw [events_viewMod, events_viewMod], by rw [counts_viewMod, counts_viewMod]⟩

theorem nextWindow_kept (w : ViewSt) : (nextWindow w).closed = w.closed ∧ (nextWindow w).start = w.start := by
  unfold nextWindow
  split <;> exact ⟨rfl, rfl⟩

theorem nextWindow_same {w : ViewSt} (h : w.pending = none) : nextWindow w = { w with index := w.index + 1 } := by simp [nextWindow, h]

theorem nextWindow_pending {w : ViewSt} {us : Nat} (h : w.pending = some us) :
    nextWindow w = { w with window := us, t0 := endTick w, index := 0, pending := none } := by simp [nextWindow, h]

theorem exec_windowEnd (v : ViewId) (s : State) : exec (.windowEnd v) s = .next (if serving s && viewRuns s v then windowEnd v s else s) := rfl

/-! ### The counts of a window (R357) -/

theorem mapFind_eq_none_of_not_mem {β : Type} {m : FMap β} {k : Nat} (h : k ∉ m.map (·.1)) : mapFind m k = none := by
  induction m with
  | nil => rfl
  | cons e m ih => grind [mapFind]

theorem mapGet_latchDiff (a b : FMap Nat) (k : Nat) : mapGet 0 (latchDiff a b) k = (mapGet 0 b k + 2 ^ 48 - mapGet 0 a k) % 2 ^ 48 := by
  have hfold : ∀ l : List Nat, mapGet 0 (l.foldr (fun k m => mapPut 0 m k ((mapGet 0 b k + 2 ^ 48 - mapGet 0 a k) % 2 ^ 48)) []) k =
      if k ∈ l then (mapGet 0 b k + 2 ^ 48 - mapGet 0 a k) % 2 ^ 48 else 0 := by
    intro l
    induction l with
    | nil => rfl
    | cons j l ih =>
      rw [List.foldr_cons, mapGet_mapPut, ih]
      by_cases hj : k = j
      · subst hj; simp
      · simp [hj]
  rw [latchDiff, hfold]
  split
  · rfl
  · rename_i h
    rw [List.mem_append, not_or] at h
    obtain ⟨hb, ha⟩ := h
    rw [mapGet, mapGet, mapFind_eq_none_of_not_mem hb, mapFind_eq_none_of_not_mem ha]
    rfl

end
end Sys2Proof.Machine
end

section
/-! SUPPORT. The statement on the windows. -/
open Sys2Proof Sys2Proof.Machine

/-- Settles O40: an event waits in stamp order; a window's end applies the due ones, closes the view on its latch and moves it on. -/
theorem windowsCountEveryEvent : Obligations.WindowsCountEveryEvent := by
  unfold Obligations.WindowsCountEveryEvent
  refine ⟨fun s f ctx ty fm units tick hs => ⟨fun h => ?unknown, fun ht hf => ?known⟩, fun s v hs hr => ?_, fun s v hr => ?stands,
    mapGet_latchDiff, fun us => rfl⟩
  case unknown => rw [exec_taborEvent hs, taborEvent_unknown h]
  case known =>
    exact ⟨_, _, by rw [exec_taborEvent hs, taborEvent_known ht hf], rfl, insertEvent_perm .., insertEvent_sorted⟩
  case stands => rw [exec_windowEnd, hr, Bool.and_false]; rfl
  intro w e
  obtain ⟨hview, hevents, hcounts⟩ := windowEnd_spec v s
  obtain ⟨hclosed, hstart⟩ := nextWindow_kept (closedView (latch (applyBefore (viewFn v) (some e) s) v) w)
  have hm : (applyBefore (viewFn v) (some e) s).tabor.events = s.tabor.events.filter (fun x => !(x.fn == viewFn v && decide (x.tick < e))) := by
    obtain ⟨c, h⟩ := applyBefore_frame (viewFn v) e s
    rw [h]
  refine ⟨windowEnd v s, _, by rw [exec_windowEnd, hs, hr]; rfl, rfl, hm, hevents, hcounts, ?_, ?_, fun hp => ?_, fun us hp => ?_⟩
  · rw [hview]; exact hclosed
  · rw [hview]; exact hstart
  · rw [hview, nextWindow_same (w := closedView _ w) hp]
    exact ⟨rfl, rfl, rfl⟩
  · rw [hview, nextWindow_pending (w := closedView _ w) hp]
    exact ⟨rfl, rfl, rfl, rfl⟩
end

section
/-! SUPPORT. What admission gives of a command's fields, its buffer and its permissions. -/
namespace Sys2Proof
open Sys2Proof.Machine

theorem firstField_none {l : List Check} (h : firstField l = none) : ∀ x ∈ l, x = none := by
  induction l with
  | nil => simp
  | cons a l ih =>
    cases a with
    | none => simpa [firstField] using ih h
    | some c =>
      simp only [firstField] at h
      split at h
      · split at h <;> cases h
      · cases h

namespace Admitted

variable {s : State} {r : Row} {p : InProg}

theorem malformed (a : Admitted s r p) : ∀ x ∈ (r.checks s).malformed, x = none := by
  obtain ⟨hfields, -⟩ := first_none a.passes
  exact fun x hx => firstField_none hfields x (List.mem_cons_of_mem _ hx)

theorem buffer (a : Admitted s r p) : ∀ x ∈ (r.checks s).buffer, x = none := by
  obtain ⟨-, hbuffer, -⟩ := first_none a.passes
  exact hbuffer

theorem permitted (a : Admitted s r p) : ∀ x ∈ (r.checks s).permitted, x = none := by
  obtain ⟨-, -, -, hpermitted, -⟩ := first_none a.passes
  exact hpermitted

theorem limits (a : Admitted s r p) : ∀ x ∈ (r.checks s).limits, x = none := by
  obtain ⟨-, -, -, -, -, -, -, -, hlimits, -, -⟩ := first_none a.passes
  exact hlimits

end Admitted
end Sys2Proof
end

section
/-! SUPPORT. Windows asked for, telemetry read, trace slices and per-command sets (R357 to R363, R301). -/
namespace Sys2Proof.Machine

section
variable {s : State} {h : CmdHdr} {p : InProg}

/-! ### TELEM_WINDOW -/

theorem exec_telemWindow (h : CmdHdr) (us : W32) (s : State) : exec (.telemWindow h us) s = .next (runRow (telemWindowRow h us) (fun p s =>
    complete p stOk 0 (BitVec.ofNat 128 (windowFor (viewFor h) (hasRight s 14) us.toNat))
      (viewMod (viewFor h) (fun w => { w with pending := some (windowFor (viewFor h) (hasRight s 14) us.toNat) }) s)) s) := rfl

theorem viewFor_vf {v : BitVec 12} (hf : h.fn = .vf v) : viewFor h = .vf v := by simp [viewFor, hf]

/-- Through the PF the view is a VF's as the PF sees it, or the package's. -/
theorem viewFor_pf (hf : h.fn = .pf) : (∃ v, viewFor h = .pfOf v) ∨ viewFor h = .package := by
  simp only [viewFor, hf]
  split
  · exact .inl ⟨_, rfl⟩
  · exact .inr rfl

theorem windowFor_fine (v : ViewId) (us : Nat) : windowFor v true us = us := by cases v <;> rfl

theorem windowFor_coarse (hf : h.fn = .pf) (us : Nat) : windowFor (viewFor h) false us = floorPow2 (us / 1000) * 1000 := by
  rcases viewFor_pf hf with ⟨v, hv⟩ | hv <;> rw [hv] <;> rfl

/-- The largest power of two of milliseconds that fits. -/
theorem floorPow2_bounds {us : Nat} (h : 1000 ≤ us) : floorPow2 (us / 1000) * 1000 ≤ us ∧ us < 2 * (floorPow2 (us / 1000) * 1000) := by
  have hpos : us / 1000 ≠ 0 := by omega
  have hlo : floorPow2 (us / 1000) ≤ us / 1000 := Nat.log2_self_le hpos
  have hhi : us / 1000 < 2 * floorPow2 (us / 1000) := by
    rw [floorPow2, ← pow_succ']
    exact Nat.lt_log2_self
  omega

theorem telemWindow_long {us : W32} (a : Admitted s (telemWindowRow h us) p) (hf : h.fn = .pf) (hr : hasRight s 14 = false) : 1000 ≤ us.toNat := by
  have hfine : failIf (h.fn == .pf && decide (us.toNat < 1000) && !hasRight s 14) stNotPermitted 14 = none :=
    a.permitted _ (List.mem_singleton.2 rfl)
  rw [failIf_eq_none, hf, hr] at hfine
  exact Nat.not_lt.1 (of_decide_eq_false (by simpa using hfine))

/-! ### TELEM_READ -/

/-- A drain delivers no more than there is room for. -/
theorem drain_room (bad : List Nat) (l : List TraceBlock) (room : Nat) : (drain bad l room).1.length ≤ room := by
  fun_induction drain bad l room with
  | case1 => simp
  | case2 b bs room hbad r n left heq ih => rw [heq] at ih; exact ih
  | case3 b bs room hbad hroom r n left heq ih =>
    rw [heq] at ih
    rw [List.length_append]
    simp only at ih
    omega
  | case4 b bs room hbad hroom => exact List.length_take_le ..

/-- With no bad block, what is delivered and what stays are the slice, oldest first. -/
theorem drain_keeps (l : List TraceBlock) (room : Nat) :
    l.flatMap (·.recs) = (drain [] l room).1 ++ (drain [] l room).2.2.flatMap (·.recs) := by
  induction l generalizing room with
  | nil => rfl
  | cons b l ih =>
    unfold drain
    simp only [List.contains_nil, Bool.false_eq_true, if_false, List.flatMap_cons]
    by_cases hfit : b.recs.length ≤ room
    · simp only [if_pos hfit, List.append_assoc]
      rw [← ih (room - b.recs.length)]
    · simp only [if_neg hfit]
      by_cases h0 : room = 0
      · subst h0; simp
      · simp only [if_neg h0, List.flatMap_cons]
        rw [← List.append_assoc, List.take_append_drop]

/-- A reader's slice once a read has drained it. -/
def drainedSlice (v : ViewId) (f : Fn) (len : Nat) (bad : List Nat) (s : State) : TraceSt :=
  { (mapGet {} s.tabor.trace f.key) with
      blocks := (drain bad (mapGet {} s.tabor.trace f.key).blocks ((len - recordBytes v) / 32)).2.2, lost := 0 }

/-- The state that a read leaves. -/
def readSlice (v : ViewId) (f : Fn) (len : Nat) (bad : List Nat) (s : State) : State :=
  { s with tabor := { s.tabor with trace := mapPut {} s.tabor.trace f.key (drainedSlice v f len bad s) } }

/-- Bytes that a read writes. -/
def bytesRead (v : ViewId) (f : Fn) (len : Nat) (bad : List Nat) (s : State) : Nat :=
  recordBytes v + 32 * (drain bad (mapGet {} s.tabor.trace f.key).blocks ((len - recordBytes v) / 32)).1.length

theorem readView_spec (v : ViewId) (f : Fn) (len : Nat) (bad : List Nat) (s : State) :
    (readView v f len bad s).2 = (bytesRead v f len bad s, readSlice v f len bad s) := rfl

theorem slice_readSlice (v : ViewId) (f : Fn) (len : Nat) (bad : List Nat) (s : State) :
    mapGet {} (readSlice v f len bad s).tabor.trace f.key = drainedSlice v f len bad s := by
  rw [readSlice, mapGet_mapPut, if_pos rfl]

theorem exec_telemRead (h : CmdHdr) (addr : W64) (len : W32) (bad : List Nat) (s : State) :
    exec (.telemRead h addr len bad) s = .next (runRow (telemReadRow h addr len) (startTelemRead h addr len bad) s) := rfl

theorem startTelemRead_eq (h : CmdHdr) (addr : W64) (len : W32) (bad : List Nat) (p : InProg) (s : State) :
    startTelemRead h addr len bad p s =
      goOn p { dma := true } (.done stOk 0 (BitVec.ofNat 128 (bytesRead (viewFor h) (sliceFor h s) len.toNat bad s)))
        (sendHost h.fn addr (readView (viewFor h) (sliceFor h s) len.toNat bad s).1 (readSlice (viewFor h) (sliceFor h s) len.toNat bad s)) := rfl

theorem telemRead_fits {addr : W64} {len : W32} (a : Admitted s (telemReadRow h addr len) p) : recordBytes (viewFor h) ≤ len.toNat := by
  have hlen : badField (decide (len.toNat < recordBytes (viewFor h))) 32 = none := a.malformed _ (List.mem_singleton.2 rfl)
  exact Nat.not_lt.1 (of_decide_eq_false (failIf_eq_none.1 hlen))

theorem bytesRead_le (v : ViewId) (f : Fn) {len : Nat} (bad : List Nat) (s : State) (h : recordBytes v ≤ len) : bytesRead v f len bad s ≤ len := by
  have hroom := drain_room bad (mapGet {} s.tabor.trace f.key).blocks ((len - recordBytes v) / 32)
  unfold bytesRead
  omega

/-! ### TRACE_CONFIG -/

/-- A slice that is discarded. -/
def discarded (e : Nat × TraceSt) : Nat × TraceSt := (e.1, { e.2 with queue := [], blocks := [] })

/-- The state that a trace configuration leaves. -/
def traceConfigured (share gib : Byte) (s : State) : State :=
  let u := if gib.toNat < s.tabor.gib then toScrubber 0x62 none [(traceLo s, traceHi - gib.toNat * 2 ^ 30)] s else s
  { u with tabor := { s.tabor with share := share.toNat, gib := gib.toNat
                                   trace := if gib.toNat = s.tabor.gib then s.tabor.trace else s.tabor.trace.map discarded } }

theorem startTraceConfig_eq (share gib : Byte) (p : InProg) (s : State) :
    startTraceConfig share gib p s = complete p stOk 0 0 (traceConfigured share gib s) := by
  unfold startTraceConfig traceConfigured
  by_cases h : gib.toNat < s.tabor.gib
  · simp only [if_pos h]
    rfl
  · simp only [if_neg h]
    rfl

theorem exec_traceConfig (h : CmdHdr) (share gib : Byte) (s : State) :
    exec (.traceConfig h share gib) s = .next (runRow (traceConfigRow h share gib) (startTraceConfig share gib) s) := rfl

/-! ### COMMAND_START -/

section
variable {f : Fn} {ctx : W16} {c : CmdSet}

theorem exec_commandStart (hs : serving s = true) : exec (.commandStart f ctx) s = .next (commandStart f ctx s) := by
  rw [show exec (.commandStart f ctx) s = .next (whenLive (commandStart f ctx) s) from rfl, whenLive_live _ _ hs]

/-- The set of a context. -/
def setOfCtx (f : Fn) (ctx : W16) (c : CmdSet) : Bool := c.fn == f.key && c.ctx == ctx

/-- A set with its counts at zero, where it is the context's. -/
def resetSet (f : Fn) (ctx : W16) (c : CmdSet) : CmdSet := if setOfCtx f ctx c then { c with counts := [], sat := false } else c

theorem commandStart_held (h : s.tabor.sets.find? (setOfCtx f ctx) = some c) : commandStart f ctx s =
    emit (.snapshot f ctx c.counts c.sat false) { s with tabor := { s.tabor with sets := s.tabor.sets.map (resetSet f ctx) } } := by
  unfold commandStart
  dsimp only
  rw [show s.tabor.sets.find? (fun c => c.fn == f.key && c.ctx == ctx) = some c from h]
  rfl

theorem commandStart_free (h : s.tabor.sets.find? (setOfCtx f ctx) = none) (hl : s.tabor.sets.length < 1024) : commandStart f ctx s =
    emit (.snapshot f ctx [] false false)
      { s with tabor := { s.tabor with sets := s.tabor.sets ++ [{ fn := f.key, ctx := ctx, counts := [], sat := false }] } } := by
  unfold commandStart
  dsimp only
  rw [show s.tabor.sets.find? (fun c => c.fn == f.key && c.ctx == ctx) = none from h]
  exact if_pos hl

theorem commandStart_none (h : s.tabor.sets.find? (setOfCtx f ctx) = none) (hl : 1024 ≤ s.tabor.sets.length) :
    commandStart f ctx s = emit (.snapshot f ctx [] false true) s := by
  unfold commandStart
  dsimp only
  rw [show s.tabor.sets.find? (fun c => c.fn == f.key && c.ctx == ctx) = none from h]
  exact if_neg (Nat.not_lt.2 hl)

theorem resetSet_mine {x : CmdSet} {l : List CmdSet} (hx : x ∈ l.map (resetSet f ctx)) (hm : setOfCtx f ctx x = true) :
    x.counts = [] ∧ x.sat = false := by
  obtain ⟨y, -, rfl⟩ := List.mem_map.1 hx
  unfold resetSet at hm ⊢
  split
  · exact ⟨rfl, rfl⟩
  · rename_i hy
    rw [if_neg hy] at hm
    exact absurd hm hy

end

/-! ### TRACE_BLOCK_SEAL -/

section
variable {f : Fn}

theorem exec_traceBlockSeal (hs : serving s = true) : exec (.traceBlockSeal f) s = .next (traceBlockSeal f s) := by
  rw [show exec (.traceBlockSeal f) s = .next (whenLive (traceBlockSeal f) s) from rfl, whenLive_live _ _ hs]

theorem traceBlockSeal_empty (h : (mapGet {} s.tabor.trace f.key).queue = []) : traceBlockSeal f s = s := by
  unfold traceBlockSeal
  rw [h]
  rfl

/-- The block that a slice seals next. -/
def nextBlock (f : Fn) (w : State) : TraceBlock :=
  let t := mapGet {} w.tabor.trace f.key
  { seq := t.seq, recs := t.queue.take 7, image := traceImage (traceKey w f) f t.seq (t.queue.take 7) }

/-- The slice with its next block sealed; where it was full, its oldest block is overwritten. -/
def sealedSlice (f : Fn) (w : State) : TraceSt :=
  let t := mapGet {} w.tabor.trace f.key
  let full := sliceBlocks w f ≤ t.blocks.length
  let lost := if full then ((t.blocks.head?.map (fun b => b.recs.length)).getD 0) else 0
  { t with blocks := (if full then t.blocks.drop 1 else t.blocks) ++ [nextBlock f w], queue := t.queue.drop 7, seq := t.seq + 1, lost := t.lost + lost }

/-- The state with the next block sealed and written. -/
def blockSealed (f : Fn) (w : State) : State :=
  let t := mapGet {} w.tabor.trace f.key
  emit (.traceWrite (sliceBase w f + 256 * (t.seq % max 1 (sliceBlocks w f))) (nextBlock f w).image)
    { w with tabor := { w.tabor with trace := mapSet w.tabor.trace f.key (sealedSlice f w) } }

theorem traceBlockSeal_queued (h : (mapGet {} s.tabor.trace f.key).queue ≠ []) : traceBlockSeal f s = blockSealed f (traceSlot f s) := by
  unfold traceBlockSeal
  rw [if_neg (by simpa using h)]
  rfl

theorem slice_blockSealed (f : Fn) (w : State) : mapGet {} (blockSealed f w).tabor.trace f.key = sealedSlice f w :=
  mapGet_mapSet_self ..

theorem sealedSlice_room {w : State} (h : (mapGet {} w.tabor.trace f.key).blocks.length < sliceBlocks w f) :
    (sealedSlice f w).blocks = (mapGet {} w.tabor.trace f.key).blocks ++ [nextBlock f w] ∧
      (sealedSlice f w).lost = (mapGet {} w.tabor.trace f.key).lost := by
  have hfull := Nat.not_le.2 h
  constructor
  · show (if _ then _ else _) ++ _ = _
    rw [if_neg hfull]
  · show _ + (if _ then _ else 0) = _
    rw [if_neg hfull, Nat.add_zero]

end

end
end Sys2Proof.Machine
end

section
/-! SUPPORT. The statement on telemetry and trace. -/
open Sys2Proof Sys2Proof.Machine

/-- Settles O39: each row by what it leaves of the view, the reader's slice or the sets. -/
theorem telemetryAndTraceCommands : Obligations.TelemetryAndTraceCommands := by
  unfold Obligations.TelemetryAndTraceCommands
  refine ⟨fun s h p us a => ?window, fun s h p addr len bad a => ?read, fun s h p share gib a => ?config, fun s f ctx hs => ?start,
    fun s f hs => ⟨fun hq => ?empty, fun hq => ?sealed⟩⟩
  case window =>
    refine ⟨_, by rw [exec_telemWindow, runRow_admitted a], ?_, fun hf hr => ?_⟩
    · rintro (⟨v, hf⟩ | hr)
      · rw [viewFor_vf hf]
        rfl
      · rw [hr, windowFor_fine]
    · rw [hr, windowFor_coarse hf]
      obtain ⟨hlo, hhi⟩ := floorPow2_bounds (telemWindow_long a hf hr)
      exact ⟨_, rfl, hlo, hhi⟩
  case read =>
    refine ⟨_, bytesRead (viewFor h) (sliceFor h s) len.toNat bad s, readSlice (viewFor h) (sliceFor h s) len.toNat bad s,
      by rw [exec_telemRead, runRow_admitted a, startTelemRead_eq], Nat.le_add_right .., bytesRead_le _ _ _ _ (telemRead_fits a), rfl, ?_⟩
    dsimp only
    rw [slice_readSlice]
    refine ⟨rfl, rfl, ?_⟩
    rintro rfl
    exact ⟨_, drain_keeps .., rfl⟩
  case config =>
    refine ⟨traceConfigured share gib s, by rw [exec_traceConfig, runRow_admitted a, startTraceConfig_eq], rfl, rfl, fun hg => if_pos hg, fun hg e he => ?_,
      fun hg => ?_⟩
    · rw [show (traceConfigured share gib s).tabor.trace = s.tabor.trace.map discarded from if_neg hg] at he
      obtain ⟨x, -, rfl⟩ := List.mem_map.1 he
      exact ⟨rfl, rfl⟩
    · unfold traceConfigured
      rw [if_neg (Nat.not_lt.2 hg)]
  case start =>
    intro mine
    refine ⟨fun c hc => ?_, fun hn hl => ?_, fun hn hl => ?_⟩
    · exact ⟨_, by rw [exec_commandStart hs, commandStart_held hc], rfl, fun x hx hm => resetSet_mine hx hm, List.length_map ..⟩
    · exact ⟨_, by rw [exec_commandStart hs, commandStart_free hn hl], rfl, List.length_append ..⟩
    · rw [exec_commandStart hs, commandStart_none hn hl]
  case empty => rw [exec_traceBlockSeal hs, traceBlockSeal_empty hq]
  case sealed =>
    intro w t
    refine ⟨blockSealed f w, nextBlock f w, by rw [exec_traceBlockSeal hs, traceBlockSeal_queued hq], rfl, rfl, rfl, rfl, ?_⟩
    dsimp only
    rw [slice_blockSealed]
    exact ⟨List.getLast?_concat .., rfl, rfl, fun hl => sealedSlice_room hl⟩
end

section
/-! SUPPORT. Quiescence, resets and replays (R306 to R316): the first part of each command, and the parts that end it. -/
namespace Sys2Proof.Machine

section
variable {s : State} {h : CmdHdr} {p : InProg} {f : Fn} {ctx : W16} {n : W32}

/-! ### QUIESCE_VF (R309) -/

theorem exec_quiesceVf (h : CmdHdr) (s : State) : exec (.quiesceVf h) s =
    .next (runRow (quiesceVfRow h) (fun p s => goOn p {} .quiesce (quiesceVf (hdrTarget h) s)) s) := rfl

theorem quiesceVf_running (hq : (fnOf s f).quiesced = false) :
    quiesceVf f s = fnMod f (fun x => { x with quiesced := true, quiesceSet := (progOf s f).map (·.idx) }) s := by
  rw [quiesceVf, hq]
  rfl

theorem not_quiesced_of_quiesceVf (a : Admitted s (quiesceVfRow h) p) : (fnOf s (hdrTarget h)).quiesced = false := by
  have hstate : failIf ((fnOf s (hdrTarget h)).quiesced || (fnOf s (hdrTarget h)).frozen) stBadState 0 = none :=
    a.state _ (List.mem_singleton.2 rfl)
  exact (Bool.or_eq_false_iff.1 (failIf_eq_none.1 hstate)).1

/-! ### RESET_VF (R314) -/

theorem exec_resetVf (h : CmdHdr) (s : State) : exec (.resetVf h) s = .next (runRow (resetVfRow h) (startReset h) s) := rfl

theorem startReset_first (ha : otherResets s (hdrTarget h) p = []) : startReset h p s = beginReset p (hdrTarget h) s := by
  unfold startReset
  simp only [ha, List.isEmpty_nil, if_true]

theorem startReset_behind (ha : otherResets s (hdrTarget h) p ≠ []) :
    startReset h p s = goOn p { cmds := otherResets s (hdrTarget h) p } (.reset (hdrTarget h) 9) s :=
  if_neg (by simpa using ha)

theorem beginReset_unprivileged (hp : privileged s f = false) :
    beginReset p f s = actReset p f (resetUnits f (abortCmds (s.prog.filter (endedByReset f)) s)) := by
  unfold beginReset
  rw [hp]
  rfl

/-- The state of a privileged VF's reset before its transfers have drained. -/
def resetDraining (f : Fn) (s : State) : State :=
  let u := ringMod f (fun r => { r with closing := true }) (quiesceVf f (resetUnits f (abortCmds (s.prog.filter (endedByReset f)) s)))
  squashReads [f] (abortCmds ((progOf u f).filter awaitsSignal) u)

theorem beginReset_privileged (hp : privileged s f = true) : beginReset p f s =
    goOn p (drainHold (resetDraining f s) [f] ((resetDraining f s).prog.filter (fun q => q.fn == f || (q.opcode == 0x58 && q.target == f))))
      (.reset f 0) (resetDraining f s) := by
  unfold beginReset
  rw [hp]
  rfl

/-! ### RESET_PACKAGE (R316) -/

theorem exec_resetPackage (h : CmdHdr) (env : StartEnv) (s : State) :
    exec (.resetPackage h env) s = .next (runRow (resetPackageRow h) (fun p s => beginPackageReset p env s) s) := rfl

/-! ### REPLAY_CONTEXT (R311, R312) -/

theorem exec_replayContext (h : CmdHdr) (n : W32) (d : Fetched (List ReplayDesc)) (s : State) :
    exec (.replayContext h n d) s = .next (runRow (replayContextRow h n d) (startReplay h n d) s) := rfl

theorem startReplay_reopens (hc : h.ctx = 0xFFFF ∧ (fnOf s (hdrTarget h)).frozen = true) (d : Fetched (List ReplayDesc)) :
    startReplay h n d p s = goOn p { boundary := true } (.replay 0xFFFF [] 0 0) { s with staged := s.staged ++ [.freeze (hdrTarget h).key false] } :=
  if_pos hc

theorem startReplay_runs (hc : ¬ (h.ctx = 0xFFFF ∧ (fnOf s (hdrTarget h)).frozen = true)) (l : List ReplayDesc) :
    startReplay h n (.ok l) p s =
      runReplay p (hdrTarget h) h.ctx n (if n = 0 then [] else l.take n.toNat) 0 (goOn p {} (.replay h.ctx [] n 0) s) :=
  if_neg hc

section
variable {d : ReplayDesc} {l : List ReplayDesc} {k : Nat}

theorem runReplay_fault {st : W16} {x : W32} (hf : descFault s f ctx d = some (st, x)) :
    runReplay p f ctx n (d :: l) k s = complete p st x (BitVec.ofNat 128 k) { s with replayEngine := none } := by
  rw [runReplay, hf]
  rfl

theorem runReplay_nop (hf : descFault s f ctx d = none) (ho : rawByte d.raw 0 = 0x0F) :
    runReplay p f ctx n (d :: l) k s = runReplay p f ctx n l (k + 1) s := by
  rw [runReplay, hf]
  exact if_pos ho

theorem runReplay_bulk {e : Nat} {b : BulkCtx} (hf : descFault s f ctx d = none) (ho : rawByte d.raw 0 ≠ 0x0F)
    (hb : bulkFor s f ctx (descBctx d) = some (e, b)) :
    runReplay p f ctx n (d :: l) k s = descStart p e b d (.replay ctx (d :: l) n (BitVec.ofNat 32 k)) s := by
  rw [runReplay, hf]
  dsimp only
  rw [if_neg ho, hb]

end

section
variable {d : ReplayDesc} {l : List ReplayDesc} {k : W32} {r : BulkDone}

theorem replayDone_next (ha : p.act = .replay ctx (d :: l) n k) (hok : (descFinish p.target d r s).1 = stOk) :
    replayDone p r s = runReplay p p.target ctx n l (k.toNat + 1) (descFinish p.target d r s).2.2 := by
  unfold replayDone
  rw [ha]
  exact if_neg (not_not.2 hok)

theorem replayDone_stops (ha : p.act = .replay ctx (d :: l) n k) (hok : (descFinish p.target d r s).1 ≠ stOk) :
    replayDone p r s = complete p (descFinish p.target d r s).1 0 (BitVec.ofNat 128 k.toNat)
      { (descFinish p.target d r s).2.2 with replayEngine := none } := by
  unfold replayDone
  rw [ha]
  exact if_pos hok

end

theorem finishReplay_ctx (hc : ctx ≠ 0xFFFF) : finishReplay p f ctx n s = complete p stOk 0 (n.setWidth 128)
    (endQuiesce f (liveAgain (suspendedKids { s with replayEngine := none } f ctx)
      (fnMod f (fun x => { x with ctxs := mapMod {} x.ctxs ctx.toNat (fun c => { c with suspect := false }) }) { s with replayEngine := none }))) := by
  unfold finishReplay
  dsimp only
  rw [if_neg hc]

theorem finishReplay_vf (hc : ctx = 0xFFFF) : finishReplay p f ctx n s =
    complete p stOk 0 (n.setWidth 128) (endQuiesce f (fnMod f (fun x => { x with frozen := false }) { s with replayEngine := none })) := by
  unfold finishReplay
  dsimp only
  rw [if_pos hc]

end
end Sys2Proof.Machine
end

section
/-! SUPPORT. The statement on quiescence, resets and replays. -/
open Sys2Proof Sys2Proof.Machine

/-- Settles O37: the first part of each command by its row, its ends by the cases of the parts that bring them. -/
theorem quiesceResetAndReplay : Obligations.QuiesceResetAndReplay := by
  unfold Obligations.QuiesceResetAndReplay
  refine ⟨fun s h p => ?start, fun q u => rfl, fun q f u => ⟨rfl, rfl, rfl⟩, fun q env u => rfl, fun q f ctx n d l k v =>
    ⟨rfl, fun st x hf => runReplay_fault hf, fun hf ho => runReplay_nop hf ho, fun e b hf ho hb => runReplay_bulk hf ho hb⟩,
    fun q ctx d l n k r v ha => ⟨fun hok => replayDone_next ha hok, fun hok => replayDone_stops ha hok⟩,
    fun q f ctx n u => ⟨fun hc => finishReplay_ctx hc, fun hc => finishReplay_vf hc⟩⟩
  case start =>
    intro f
    refine ⟨fun a => ?quiesce, fun a => ?reset, fun env a => ?package, fun n l a => ⟨fun hc => ?reopens, fun hc => ?replay⟩⟩
    case quiesce => rw [exec_quiesceVf, runRow_admitted a, quiesceVf_running (not_quiesced_of_quiesceVf a)]
    case reset =>
      intro w
      refine ⟨fun ha hp => ?_, fun ha hp => ?_, fun ha => ?_⟩
      · rw [exec_resetVf, runRow_admitted a, startReset_first ha, beginReset_unprivileged hp]
      · rw [exec_resetVf, runRow_admitted a, startReset_first ha, beginReset_privileged hp]
        rfl
      · rw [exec_resetVf, runRow_admitted a, startReset_behind ha]
    case package =>
      rw [exec_resetPackage, runRow_admitted a]
      rfl
    case reopens => rw [exec_replayContext, runRow_admitted a, startReplay_reopens hc]
    case replay => rw [exec_replayContext, runRow_admitted a, startReplay_runs hc]
end

section
/-! SUPPORT. Migration and dirty logging (R318 to R327): the first part of each command, and the parts that end it. -/
namespace Sys2Proof.Machine

section
variable {s : State} {h : CmdHdr} {p : InProg} {addr len : W64}

/-! ### MIGRATE_KEY (R318 to R320) -/

theorem exec_migrateKey (h : CmdHdr) (addr len : W64) (m : Fetched MigMsg) (s : State) :
    exec (.migrateKey h addr len m) s = .next (runRow (migrateKeyRow h addr len m) (startMigrateKey addr m) s) := rfl

section
variable {m : MigMsg}

theorem startMigrateKey_start (hk : msgKind m = 0) : startMigrateKey addr (.ok m) p s = goOn p { dma := true } (.done stOk 0 0)
    (sendHost .pf addr (.migMessage (migOffer s.otp.deviceId (BitVec.ofNat 64 (msgLe m 16 8)) (BitVec.ofNat 16 p.target.key) (drawn s)))
      (fnMod p.target (fun x => { x with
        nonceS := some (drawn s), migPeer := some (s.otp.deviceId, BitVec.ofNat 64 (msgLe m 16 8), BitVec.ofNat 16 p.target.key) }) (bumpDraw s))) := by
  unfold startMigrateKey
  dsimp only
  rw [if_pos hk]
  rfl

theorem startMigrateKey_offer {k : IdentityKeys} (hk : msgKind m = 1) (hi : s.ks.identity = some k) :
    startMigrateKey addr (.ok m) p s =
      goOn p { kxe := true } (.migrateKey 0 addr (some (.migMessage (migAccept s k m (BitVec.ofNat 16 p.target.key))))) s := by
  unfold startMigrateKey
  simp only [hk, hi]
  rfl

theorem startMigrateKey_accept_refused {st : W16} {d : W32} (hk : msgKind m = 2) (hc : acceptCheck s p.target m = some (st, d)) :
    startMigrateKey addr (.ok m) p s = goOn p { kxe := true } (.done st d 0) s := by
  unfold startMigrateKey
  simp only [hk, hc]
  rfl

theorem startMigrateKey_accept_no_point (hk : msgKind m = 2) (hc : acceptCheck s p.target m = none) (he : encapsulate s m = none) :
    startMigrateKey addr (.ok m) p s = goOn p { kxe := true } (.done stAuthFailed 0 0) s := by
  unfold startMigrateKey
  simp only [hk, hc, he]
  rfl

theorem startMigrateKey_accept {ct eph : List Byte} {key : Key} (hk : msgKind m = 2) (hc : acceptCheck s p.target m = none)
    (he : encapsulate s m = some (ct, eph, key)) : startMigrateKey addr (.ok m) p s =
      placeMigration p key addr (some (.migMessage (migEncap m ct eph (migConfirm m key)))) (bumpDraw (bumpDraw (bumpDraw s))) := by
  unfold startMigrateKey
  simp only [hk, hc, he]
  rfl

theorem startMigrateKey_encap {key : Key} (hk : msgKind m = 3) (hd : decapsulate s m = some key) :
    startMigrateKey addr (.ok m) p s = placeMigration p key addr none s := by
  unfold startMigrateKey
  simp only [hk, hd]
  rfl

theorem startMigrateKey_encap_refused (hk : msgKind m = 3) (hd : decapsulate s m = none) :
    startMigrateKey addr (.ok m) p s = goOn p { kxe := true } (.done stAuthFailed 0 0) s := by
  unfold startMigrateKey
  simp only [hk, hd]
  rfl

end

/-! ### MIGRATE_FREEZE, MIGRATE_SAVE, MIGRATE_RESTORE (R321 to R325) -/

theorem exec_migrateFreeze (h : CmdHdr) (s : State) : exec (.migrateFreeze h) s =
    .next (runRow (migrateFreezeRow h) (fun p s => goOn p {} (.freeze 0) (quiesceVf (hdrTarget h) s)) s) := rfl

theorem exec_migrateSave (h : CmdHdr) (kid : W16) (addr len cursor : W64) (s : State) : exec (.migrateSave h kid addr len cursor) s =
    .next (runRow (migrateSaveRow h kid addr len cursor) (startSaveImage kid addr len cursor) s) := rfl

theorem exec_migrateRestore (h : CmdHdr) (kid : W16) (cursor : W64) (l : Fetched (List Chunk)) (s : State) :
    exec (.migrateRestore h kid cursor l) s = .next (runRow (migrateRestoreRow h kid cursor l) (startRestoreImage kid cursor l) s) := rfl

/-- The segment that a restore is of; none for a whole image. -/
def onlySegment (cursor : W64) : Option Nat := if cursorSection cursor = 1 then some (cursorPos cursor) else none

/-- The migration key of a restore; none for a restore on the same unit. -/
def restoreKey (s : State) (kid : W16) : Option Key := if kid = 0 then none else some (keyOf s kid)

/-- What a restore's chunks make of the restore in progress. -/
def imageStep (f : Fn) (kid : W16) (cursor : W64) (l : List Chunk) (s : State) : Option (Option RestoreSt × Bool) :=
  applyChunks (segCount s f) (onlySegment cursor) (restoreKey s kid) (migrationWrap s) (fnOf s f).restore l

/-- The state with the segments of the applied chunks written. -/
def segmentsWritten (f : Fn) (kid : W16) (cursor : W64) (l : List Chunk) (s : State) : State :=
  writeSegments f (appliedSegments (segCount s f) (onlySegment cursor) (restoreKey s kid) (migrationWrap s) (fnOf s f).restore l) s

section
variable {kid : W16} {cursor : W64} {l : List Chunk} {r : RestoreSt}

theorem startRestoreImage_wrong (hy : imageStep p.target kid cursor l s = none) : startRestoreImage kid cursor (.ok l) p s =
    complete p stAuthFailed 0 0 (tdiError false p.target (segmentsWritten p.target kid cursor l s)) := by
  unfold imageStep onlySegment restoreKey at hy
  unfold startRestoreImage
  simp only [hy]
  rfl

theorem startRestoreImage_ended (hy : imageStep p.target kid cursor l s = some (some r, true)) : startRestoreImage kid cursor (.ok l) p s =
    complete p stOk 0 (cursorEnd.setWidth 128) (endRestore p.target kid r (segmentsWritten p.target kid cursor l s)) := by
  unfold imageStep onlySegment restoreKey at hy
  unfold startRestoreImage
  simp only [hy]
  rfl

theorem startRestoreImage_goes_on (hy : imageStep p.target kid cursor l s = some (some r, false)) (ho : onlySegment cursor = none) :
    startRestoreImage kid cursor (.ok l) p s =
      complete p stOk 0 (resAt 0 r.pos) (fnMod p.target (fun x => { x with restore := some r }) (segmentsWritten p.target kid cursor l s)) := by
  unfold segmentsWritten
  unfold imageStep at hy
  rw [ho] at hy ⊢
  unfold onlySegment at ho
  unfold restoreKey at hy ⊢
  unfold startRestoreImage
  simp only [ho, hy]
  rfl

end

/-! ### Dirty logging (R326, R327) -/

theorem exec_dirtyLogStart (h : CmdHdr) (addr len : W64) (s : State) : exec (.dirtyLogStart h addr len) s =
    .next (runRow (dirtyLogStartRow h addr len) (fun p s => complete p stOk 0 0
      (fnMod p.target (fun x => { x with dirty := some { bufAddr := addr, bufLen := len, activeB := false, pagesA := [], pagesB := [], overflow := false } })
        { s with staged := s.staged ++ [.clearMarks p.target.key] })) s) := rfl

theorem exec_dirtyLogStop (h : CmdHdr) (s : State) : exec (.dirtyLogStop h) s =
    .next (runRow (dirtyLogStopRow h) (fun p s => complete p stOk 0 0 (fnMod p.target (fun x => { x with dirty := none }) s)) s) := rfl

theorem exec_dirtyLogSync (h : CmdHdr) (addr len : W64) (s : State) :
    exec (.dirtyLogSync h addr len) s = .next (runRow (dirtyLogSyncRow h addr len) (startDirtySync addr) s) := rfl

theorem startDirtySync_on {d : DirtyLog} (hd : (fnOf s p.target).dirty = some d) : startDirtySync addr p s =
    goOn p { boundary := true } (.dirtySync addr (if d.activeB then d.pagesB else d.pagesA).length 0)
      { (fnMod p.target (fun x => { x with dirty := some (if d.activeB then { d with activeB := false, pagesA := [] }
          else { d with activeB := true, pagesB := [] }) }) s) with staged := s.staged ++ [.takeMarks p.target.key (p.fn, p.idx)] } := by
  unfold startDirtySync
  rw [hd]

theorem takeMarks_sync {fn bits k : Nat} (hq : findProg s p.fn p.idx = some p) (ha : p.act = .dirtySync addr bits k) :
    let m := (fnOf s (fnAt fn)).marks
    let v := fnMod (fnAt fn) (fun x => { x with marks := [] }) s
    takeMarks fn (p.fn, p.idx) s = modProg p.fn p.idx
      (fun x => { x with hold := { x.hold with boundary := false, dma := true }, act := .dirtySync addr (bits + m.length) 1 })
      (sendHost .pf addr (.segmentMap ((segCount v (fnAt fn) + 7) / 8) m) v) := by
  unfold takeMarks
  simp only [hq, ha]

/-! ### The parts that end the commands -/

theorem actFreezeVf_busy (hi : vfIdle s p.target = false) : actFreezeVf p 0 s = s := if_pos ⟨rfl, by rw [hi]; rfl⟩

theorem actFreezeVf_idle (hi : vfIdle s p.target = true) : actFreezeVf p 0 s = actFreeze p p.target 0 s :=
  if_neg (fun hn => by rw [hi] at hn; exact Bool.false_ne_true hn.2)

theorem actFreezeVf_end (p : InProg) (s : State) : actFreezeVf p 1 s = complete p stOk 0 0 (freezeViews p.target s) := rfl

theorem actDirtySync_end {d : DirtyLog} (hd : (fnOf s p.target).dirty = some d) (bits : Nat) : actDirtySync p bits 1 s =
    if d.overflow then complete p stLimits 0x604 (BitVec.ofNat 128 bits) (fnMod p.target (fun x => { x with dirty := some { d with overflow := false } }) s)
    else complete p stOk 0 (BitVec.ofNat 128 bits) s := by
  unfold actDirtySync
  rw [if_neg (by decide), hd]

end
end Sys2Proof.Machine
end

section
/-! SUPPORT. The statement on migration and dirty logging. -/
open Sys2Proof Sys2Proof.Machine

/-- Settles O38: the first part of each command by its row and its operands' cases, its ends by the parts that bring them. -/
theorem migrationCommands : Obligations.MigrationCommands := by
  unfold Obligations.MigrationCommands
  refine ⟨fun s h p addr len => ?start, fun q kid addr u => ⟨rfl, fun d => rfl⟩, fun q u => ⟨fun hi => actFreezeVf_busy hi, fun hi => ?freeze,
    actFreezeVf_end q u, fun bits d hd => actDirtySync_end hd bits, fun fn addr bits k hq ha => takeMarks_sync hq ha⟩⟩
  case freeze =>
    rw [actFreezeVf_idle hi]
    rfl
  case start =>
    intro f vf
    refine ⟨fun m a => ?key, fun a => ?vfFreeze, fun kid cursor a => ?save, fun kid cursor l a => ?restore, fun a => ?logStart, fun a => ?logStop,
      fun d a hd => ?logSync⟩
    case key =>
      have hexec : exec (.migrateKey h addr len (.ok m)) s = .next (settle (startMigrateKey addr (.ok m) p s)) := by
        rw [exec_migrateKey, runRow_admitted a]
      intro t no
      refine ⟨fun hk => ?_, fun k hk hi => ?_, fun st d hk hc => ?_, fun hk hc => ⟨fun he => ?_, fun ct eph key he => ?_⟩,
        fun hk => ⟨fun key hd => ?_, fun hd => ?_⟩⟩
      · exact hexec.trans (congrArg (fun u => Host.Outcome.next (settle u)) (startMigrateKey_start hk))
      · exact hexec.trans (congrArg (fun u => Host.Outcome.next (settle u)) (startMigrateKey_offer hk hi))
      · exact hexec.trans (congrArg (fun u => Host.Outcome.next (settle u)) (startMigrateKey_accept_refused hk hc))
      · exact hexec.trans (congrArg (fun u => Host.Outcome.next (settle u)) (startMigrateKey_accept_no_point hk hc he))
      · exact hexec.trans (congrArg (fun u => Host.Outcome.next (settle u)) (startMigrateKey_accept hk hc he))
      · exact hexec.trans (congrArg (fun u => Host.Outcome.next (settle u)) (startMigrateKey_encap hk hd))
      · exact hexec.trans (congrArg (fun u => Host.Outcome.next (settle u)) (startMigrateKey_encap_refused hk hd))
    case vfFreeze => rw [exec_migrateFreeze, runRow_admitted a]
    case save =>
      rw [exec_migrateSave, runRow_admitted a]
      rfl
    case restore =>
      have hexec : exec (.migrateRestore h kid cursor (.ok l)) s = .next (settle (startRestoreImage kid cursor (.ok l) p s)) := by
        rw [exec_migrateRestore, runRow_admitted a]
      intro mig only y w
      refine ⟨fun hy => ?_, fun r hy => ?_, fun r hy ho => ?_⟩
      · exact hexec.trans (congrArg (fun u => Host.Outcome.next (settle u)) (startRestoreImage_wrong hy))
      · exact hexec.trans (congrArg (fun u => Host.Outcome.next (settle u)) (startRestoreImage_ended hy))
      · exact hexec.trans (congrArg (fun u => Host.Outcome.next (settle u)) (startRestoreImage_goes_on hy ho))
    case logStart => rw [exec_dirtyLogStart, runRow_admitted a]
    case logStop => rw [exec_dirtyLogStop, runRow_admitted a]
    case logSync => rw [exec_dirtyLogSync, runRow_admitted a, startDirtySync_on hd]
end

section
/-! SUPPORT. Bulk contexts (R331 to R345): the open, the turn of a command on its engine, and what the engine's reports leave. -/
namespace Sys2Proof.Machine

section
variable {s : State} {h : CmdHdr} {p : InProg} {bctx : W32} {k : Nat} {b : BulkCtx}

/-! ### What leaves the bulk contexts as they were -/

@[simp] theorem bulk_markPages (f : Fn) (page n : Nat) (s : State) : (markPages f page n s).bulk = s.bulk := by
  induction n generalizing page s with
  | zero => rfl
  | succ n ih =>
    rw [markPages, ih]
    obtain hs | ⟨d, hs⟩ | ⟨d, o, hs⟩ := markPage_cases f page s
    · rw [hs]
    · rw [hs]
      rfl
    · rw [hs]
      rfl

@[simp] theorem bulk_markHost (f : Fn) (a n : Nat) (s : State) : (markHost f a n s).bulk = s.bulk := by
  unfold markHost
  split
  · rfl
  · exact bulk_markPages ..

@[simp] theorem bulk_sendSpace (f : Fn) (a : W64) (d : HostData) (s : State) : (sendSpace f a d s).bulk = s.bulk := by
  have hmark : (markSpace f a (hostBytes d).length s).bulk = s.bulk := by
    unfold markSpace
    split
    · rw [markWrite_frame]
    · exact bulk_markHost ..
  exact hmark

theorem hostWrite_mem_sendSpace (f : Fn) (a : W64) (d : HostData) (s : State) :
    Output.hostWrite (viaOf s f) a d (hostBytes d) ∈ (sendSpace f a d s).out :=
  List.mem_append_right _ (List.mem_singleton.2 rfl)

/-- The state with an engine's cache filled under the KID that a context names. -/
def keyFilled (e : Nat) (kid : W16) (s : State) : State := if kid = 0 then s else cacheKid (42 + e) kid s

theorem keyFilled_frame (e : Nat) (kid : W16) (s : State) :
    (keyFilled e kid s).bulk = s.bulk ∧ (keyFilled e kid s).bulkReuse = s.bulkReuse := by
  unfold keyFilled
  split
  · exact ⟨rfl, rfl⟩
  · rw [cacheKid_frame]
    exact ⟨rfl, rfl⟩

/-! ### BULK_CTX_OPEN (R332, R333) -/

theorem exec_bulkCtxOpen (h : CmdHdr) (engine mode : Byte) (kid : W16) (s : State) : exec (.bulkCtxOpen h engine mode kid) s =
    .next (runRow (bulkCtxOpenRow h engine mode kid) (startBulkOpen engine mode kid) s) := rfl

section
variable {engine mode : Byte} {kid : W16} {e : Nat}

theorem bulkPresent_of_bulkEngine (he : bulkEngine s engine = some e) : bulkPresent s e = true := by
  unfold bulkEngine at he
  split at he
  · cases h0 : bulkPresent s 0 && !bulkTesting s 0 <;> cases h1 : bulkPresent s 1 && !bulkTesting s 1 <;>
      simp only [h0, h1, Option.some.injEq, reduceCtorEq] at he <;> simp only [Bool.and_eq_true] at h0 h1
    · exact he ▸ h1.1
    · exact he ▸ h0.1
    · split at he
      · exact he ▸ h1.1
      · exact he ▸ h0.1
  · split at he
    · next hp => exact Option.some.inj he ▸ hp
    · exact absurd he nofun

theorem engine_and_index_of_open (a : Admitted s (bulkCtxOpenRow h engine mode kid) p) :
    ∃ e k, bulkEngine s engine = some e ∧ freeBulk s e = some k := by
  have hengine : ∃ e, bulkEngine s engine = some e := by
    by_cases hany : engine = 0xFF
    · have hbusy := failIf_eq_none.1 (a.busy _ (List.mem_singleton.2 rfl))
      rw [if_pos hany] at hbusy
      exact Option.isSome_iff_exists.1 (Option.isNone_eq_false_iff.1 hbusy)
    · have hunit := failIf_eq_none.1 (a.unit _ (List.mem_singleton.2 rfl))
      rw [if_neg hany, Bool.not_eq_false'] at hunit
      exact ⟨engine.toNat, by rw [bulkEngine, if_neg hany, if_pos hunit]⟩
  obtain ⟨e, he⟩ := hengine
  have hslot : (match bulkEngine s engine with | some e => failIf (freeBulk s e).isNone stNoSlot 6 | none => none) = none :=
    a.slots _ (List.mem_singleton.2 rfl)
  simp only [he, failIf_eq_none] at hslot
  obtain ⟨k, hk⟩ := Option.isSome_iff_exists.1 (Option.isNone_eq_false_iff.1 hslot)
  exact ⟨e, k, he, hk⟩

/-- The context that an open makes. -/
def openedBulk (p : InProg) (mode : Byte) (kid : W16) (s : State) : BulkCtx :=
  { vf := p.fn, mode := mode, ctx := p.ctx, ctxGen := p.ctxGen, kid := kid, key := none
    tweak := if kid = 0 then none else tweakOf mode (keyOf s kid)
    state := if kid ≠ 0 ∨ unkeyed mode then .idle else .lost, decrypt := false, duLog2 := 0, chain := {} }

theorem unkeyed_iff : unkeyed mode = true ↔ mode = 4 ∨ mode = 5 := by simp [unkeyed]

theorem openedBulk_idle (hk : kid ≠ 0 ∨ mode = 4 ∨ mode = 5) : (openedBulk p mode kid s).state = .idle :=
  if_pos (hk.imp_right unkeyed_iff.2)

theorem openedBulk_lost (hk : kid = 0) (h4 : mode ≠ 4) (h5 : mode ≠ 5) : (openedBulk p mode kid s).state = .lost :=
  if_neg (not_or.2 ⟨not_not.2 hk, fun hu => (unkeyed_iff.1 hu).elim h4 h5⟩)

theorem startBulkOpen_eq (he : bulkEngine s engine = some e) (hk : freeBulk s e = some k) : startBulkOpen engine mode kid p s =
    complete p stOk 0 ((bctxOf (mapGet 0 s.bulkReuse k) k).setWidth 128)
      { keyFilled e kid s with bulk := mapSet s.bulk k (openedBulk p mode kid s) } := by
  obtain ⟨hbulk, hreuse⟩ := keyFilled_frame e kid s
  rw [← hreuse, ← hbulk]
  simp only [startBulkOpen, he, hk]
  rfl

end

/-! ### The turn of a command on its engine (R339) -/

/-- A command on a bulk context whose turn is taken at its dispatch: it waits for room, or for the commands ahead of it, or runs. -/
theorem runRow_takeTurn {r : Row} (a : Admitted s r p) (bctx : W32) (wait : Act) (run : InProg → State → State) :
    runRow r (takeTurn bctx wait run) s = settle
      (if Config.bulkQueue ≤ engineLoad s (bctx.toNat / 16 % 2) then goOn p { room := some (bctx.toNat / 16 % 2) } wait s
      else if bulkAhead s (p.fn, p.idx) bctx = [] then run p s else goOn p { cmds := bulkAhead s (p.fn, p.idx) bctx } wait s) := by
  obtain ⟨-, -, -, -, -, -, -, -, -, hnew, -⟩ := dispatched_spec a.found
  rw [runRow_admitted a, takeTurn]
  simp only [hnew, Bool.false_and, Bool.not_false, Bool.true_and, decide_eq_true_eq, List.isEmpty_iff]

/-- A row one of whose state checks refuses a handle of no context, admitted, has its context. -/
theorem bulkFor_of_admitted {r : Row} (a : Admitted s r p)
    (hcheck : bulkFor s r.hdr.fn r.hdr.ctx bctx = none → some (stBadState, 0) ∈ (r.checks s).state) :
    ∃ k b, bulkFor s p.fn p.ctx bctx = some (k, b) := by
  obtain ⟨-, hfn, -, -, -, -, hctx, -⟩ := dispatched_spec a.found
  rw [hfn, hctx]
  cases hb : bulkFor s r.hdr.fn r.hdr.ctx bctx with
  | none => exact absurd (a.state _ (hcheck hb)) nofun
  | some x => exact ⟨x.1, x.2, rfl⟩

theorem exec_bulkOp (h : CmdHdr) (bctx : W32) (op : BulkOperands) (aux : Fetched Aux) (s : State) : exec (.bulkOp h bctx op aux) s =
    .next (runRow (bulkOpRow h bctx op aux) (takeTurn bctx (.bulkOp bctx op aux true) (fun p s =>
      match bulkFor s p.fn p.ctx bctx with | some (k, b) => startOp p k b bctx op aux s | none => s)) s) := rfl

theorem exec_bulkCtxSave (h : CmdHdr) (bctx : W32) (dst : W64) (flags : Byte) (s : State) : exec (.bulkCtxSave h bctx dst flags) s =
    .next (runRow (bulkCtxSaveRow h bctx dst flags) (takeTurn bctx (.bulkSave bctx dst (opWrapped flags) true) (fun p s =>
      match bulkFor s p.fn p.ctx bctx with | some (k, b) => startSave p k b bctx dst (opWrapped flags) s | none => s)) s) := rfl

theorem exec_bulkCtxRestore (h : CmdHdr) (bctx : W32) (src : W64) (flags : Byte) (rec : Fetched BulkRec) (s : State) :
    exec (.bulkCtxRestore h bctx src flags rec) s =
      .next (runRow (bulkCtxRestoreRow h bctx src flags rec) (takeTurn bctx (.bulkRestore bctx (opWrapped flags) rec true) (fun p s =>
        match bulkFor s p.fn p.ctx bctx with | some (k, b) => startRestore p k b bctx (opWrapped flags) rec s | none => s)) s) := rfl

theorem exec_bulkCtxClose (h : CmdHdr) (bctx : W32) (s : State) : exec (.bulkCtxClose h bctx) s =
    .next (runRow (bulkCtxCloseRow h bctx) (takeTurn bctx (.bulkClose bctx) (closeNow bctx)) s) := rfl

theorem closeNow_open (hb : bulkFor s p.fn p.ctx bctx = some (k, b)) : closeNow bctx p s = complete p stOk 0 0 (closeBulk k s) := by
  rw [closeNow, hb]

theorem bulkFor_of_op {op : BulkOperands} {aux : Fetched Aux} (a : Admitted s (bulkOpRow h bctx op aux) p) :
    ∃ k b, bulkFor s p.fn p.ctx bctx = some (k, b) := by
  refine bulkFor_of_admitted a fun hb => ?_
  replace hb : bulkFor s h.fn h.ctx bctx = none := hb
  simp only [bulkOpRow, opChecks, opChecksOn, hb, List.mem_singleton]

theorem bulkFor_of_save {dst : W64} {flags : Byte} (a : Admitted s (bulkCtxSaveRow h bctx dst flags) p) :
    ∃ k b, bulkFor s p.fn p.ctx bctx = some (k, b) := by
  refine bulkFor_of_admitted a fun hb => ?_
  replace hb : bulkFor s h.fn h.ctx bctx = none := hb
  simp only [bulkCtxSaveRow, saveBulkChecks, saveChecksOn, hb, List.mem_singleton]

theorem bulkFor_of_restore {src : W64} {flags : Byte} {rec : Fetched BulkRec} (a : Admitted s (bulkCtxRestoreRow h bctx src flags rec) p) :
    ∃ k b, bulkFor s p.fn p.ctx bctx = some (k, b) := by
  refine bulkFor_of_admitted a fun hb => ?_
  replace hb : bulkFor s h.fn h.ctx bctx = none := hb
  simp only [bulkCtxRestoreRow, restoreBulkChecks, restoreChecksOn, hb, List.mem_cons, true_or, or_true]

theorem bulkFor_of_close (a : Admitted s (bulkCtxCloseRow h bctx) p) : ∃ k b, bulkFor s p.fn p.ctx bctx = some (k, b) := by
  refine bulkFor_of_admitted a fun hb => ?_
  replace hb : bulkFor s h.fn h.ctx bctx = none := hb
  simp only [bulkCtxCloseRow, closeBulkChecks, bctxCheck, hb, List.mem_singleton]
  rfl

/-! ### The engine's reports (R335 to R342) -/

section
variable {f : Fn} {i : W32} {r : BulkDone} {q : InProg} {op : BulkOperands} {aux : Fetched Aux} {c : BulkCtx}

theorem exec_bulkRequestDone (hs : serving s = true) (f : Fn) (i : W32) (r : BulkDone) :
    exec (.bulkRequestDone f i r) s = .next (bulkRequestDone f i r s) :=
  congrArg Host.Outcome.next (whenLive_live _ _ hs)

theorem bulkRequestDone_late (hq : findProg s f i = some q) (he : q.hold.engine = false) : bulkRequestDone f i r s = lateDone f i s := by
  simp only [bulkRequestDone, hq, he, Bool.not_false, if_true]

/-- The report on a command that works on a bulk context is the engine's: no replay's. -/
theorem bulkRequestDone_command (hq : findProg s f i = some q) (he : q.hold.engine = true) (hb : bulkOf q.act = some bctx) :
    bulkRequestDone f i r s = settle (engineDone q r s) := by
  simp only [bulkRequestDone, hq, he, Bool.not_true, Bool.false_eq_true, if_false]
  split
  · next ha => rw [ha] at hb; exact absurd hb nofun
  · rfl

theorem engineDone_held (hb : bulkOf q.act = some bctx) (hr : s.replayEngine = some (bctx.toNat / 16 % 2)) : engineDone q r s = s := by
  simp only [engineDone, hb, hr, beq_self_eq_true, Bool.or_true, if_true]

section
variable (he : q.hold.engine = true) (hr : s.replayEngine ≠ some (bctx.toNat / 16 % 2))
include he hr

theorem engineDone_op (ha : q.act = .bulkOp bctx op aux false) : engineDone q r s = opDone q bctx op aux r s := by
  simp only [engineDone, bulkOf, ha, he, beq_eq_false_iff_ne.2 hr, Bool.not_true, Bool.or_self, Bool.false_eq_true, if_false]

theorem engineDone_save {dst : W64} {w : Bool} (ha : q.act = .bulkSave bctx dst w false) : engineDone q r s = saveDone q bctx dst w r s := by
  simp only [engineDone, bulkOf, ha, he, beq_eq_false_iff_ne.2 hr, Bool.not_true, Bool.or_self, Bool.false_eq_true, if_false]

theorem engineDone_restore {w : Bool} {rec : Fetched BulkRec} (ha : q.act = .bulkRestore bctx w rec false) :
    engineDone q r s = restoreDone q bctx w rec r s := by
  simp only [engineDone, bulkOf, ha, he, beq_eq_false_iff_ne.2 hr, Bool.not_true, Bool.or_self, Bool.false_eq_true, if_false]

end

/-! #### An op -/

/-- The state with the context after an op in place and what a cipher mode produced written. -/
def outputWritten (f : Fn) (k : Nat) (op : BulkOperands) (c : BulkCtx) (r : BulkDone) (s : State) : State :=
  let t := { s with bulk := mapSet s.bulk k (opLeaves s c op r) }
  if hashMode c.mode ∨ opBytes op r = 0 then t else sendSpace f op.dst (.plain (opOut s c op r)) t

/-- That state with the digest of a FINAL op written, where the transfers went well. -/
def digestWritten (f : Fn) (k : Nat) (op : BulkOperands) (c : BulkCtx) (r : BulkDone) (s : State) : State :=
  if r.dmaOk = true ∧ writesAux op = true then sendSpace f (op.aux + 32) (.digest (opDigest s c op r)) (outputWritten f k op c r s)
  else outputWritten f k op c r s

/-- The status of an op's end. -/
def opStatus (op : BulkOperands) (aux : Fetched Aux) (c : BulkCtx) (r : BulkDone) (s : State) : W16 :=
  if r.dmaOk then (if opRejects s c op aux r then stAuthFailed else stOk) else stDmaError

theorem opBytes_failed (op : BulkOperands) (hd : r.dmaOk = false) : opBytes op r = min r.data.length op.length.toNat := by
  simp only [opBytes, hd, Bool.false_eq_true, if_false]

theorem opBytes_done (op : BulkOperands) (hd : r.dmaOk = true) : opBytes op r = op.length.toNat := if_pos hd

theorem opBytes_le (op : BulkOperands) (r : BulkDone) : opBytes op r ≤ op.length.toNat := by
  unfold opBytes
  split
  · exact le_rfl
  · exact Nat.min_le_right ..

theorem opFinish_found (hc : mapFind s.bulk (bctx.toNat % 65536) = some c) : opFinish f bctx op aux r s =
    (opStatus op aux c r s, BitVec.ofNat 32 (opBytes op r), digestWritten f (bctx.toNat % 65536) op c r s) := by
  cases hd : r.dmaOk
  case false => simp [opFinish, hc, hd, opStatus, digestWritten, outputWritten]
  case true =>
    simp only [opFinish, hc, hd, opStatus, digestWritten, outputWritten, opBytes_done op hd, BitVec.ofNat_toNat, BitVec.setWidth_eq,
      Bool.not_true, Bool.false_eq_true, if_false, if_true, true_and]

theorem opDone_found (hc : mapFind s.bulk (bctx.toNat % 65536) = some c) : opDone q bctx op aux r s =
    complete q (opStatus op aux c r s) 0 (BitVec.ofNat 128 (opBytes op r)) (digestWritten q.fn (bctx.toNat % 65536) op c r s) := by
  have hcount : (BitVec.ofNat 32 (opBytes op r)).setWidth 128 = BitVec.ofNat 128 (opBytes op r) := by
    have hle := opBytes_le op r
    apply BitVec.eq_of_toNat_eq
    simp only [BitVec.toNat_setWidth, BitVec.toNat_ofNat]
    omega
  rw [opDone, opFinish_found hc]
  dsimp only
  rw [hcount]

theorem bulk_digestWritten : (digestWritten f k op c r s).bulk = mapSet s.bulk k (opLeaves s c op r) := by
  have hout : (outputWritten f k op c r s).bulk = mapSet s.bulk k (opLeaves s c op r) := by
    unfold outputWritten
    dsimp only
    split
    · rfl
    · exact bulk_sendSpace ..
  unfold digestWritten
  split
  · rw [bulk_sendSpace, hout]
  · exact hout

theorem output_mem_digestWritten (hm : hashMode c.mode = false) (hn : opBytes op r ≠ 0) :
    ∃ v o, Output.hostWrite v op.dst (.plain (opOut s c op r)) o ∈ (digestWritten f k op c r s).out := by
  have hout : ∃ v o, Output.hostWrite v op.dst (.plain (opOut s c op r)) o ∈ (outputWritten f k op c r s).out := by
    rw [outputWritten, if_neg (not_or.2 ⟨Bool.eq_false_iff.1 hm, hn⟩)]
    exact ⟨_, _, hostWrite_mem_sendSpace ..⟩
  obtain ⟨v, o, hout⟩ := hout
  have hgrows : Grows (outputWritten f k op c r s) (digestWritten f k op c r s) := .ite (grows_sendSpace .refl) .refl
  exact ⟨v, o, hgrows.out.subset hout⟩

theorem digest_mem_digestWritten (hd : r.dmaOk = true) (hw : writesAux op = true) :
    ∃ v o, Output.hostWrite v (op.aux + 32) (.digest (opDigest s c op r)) o ∈ (digestWritten f k op c r s).out := by
  rw [digestWritten, if_pos ⟨hd, hw⟩]
  exact ⟨_, _, hostWrite_mem_sendSpace ..⟩

theorem opLeaves_final (hf : opFinal op.flags = true) : opLeaves s c op r = { c with state := .idle, chain := {} } := if_pos hf

theorem opLeaves_keys : (opLeaves s c op r).kid = c.kid ∧ (opLeaves s c op r).key = c.key := by
  unfold opLeaves
  split <;> exact ⟨rfl, rfl⟩

theorem opLeaves_more (hf : opFinal op.flags = false) : (opLeaves s c op r).state = c.state ∧
    (opLeaves s c op r).chain.msgBytes = c.chain.msgBytes + BitVec.ofNat 64 (opBytes op r) ∧ (opLeaves s c op r).chain.iv = c.chain.iv := by
  rw [opLeaves, if_neg (Bool.eq_false_iff.1 hf)]
  exact ⟨rfl, rfl, rfl⟩

/-! #### A save and a restore -/

theorem saveDone_found {dst : W64} {w : Bool} (hc : mapFind s.bulk (bctx.toNat % 65536) = some c) : saveDone q bctx dst w r s =
    if r.dmaOk then complete q stOk 0 384 (sendSpace q.fn dst (.bulkRecord (bulkRecord s q.fn c w)) s) else complete q stDmaError 0 0 s := by
  simp only [saveDone, saveFinish, hc]
  split <;> rfl

section
variable {w : Bool} {x : BulkRec}

/-- The state with a record's context in place; a wrapped one gives up the key under which the context worked. -/
def restoredBulk (f : Fn) (k : Nat) (w : Bool) (x : BulkRec) (c : BulkCtx) (s : State) : State :=
  let t := { s with bulk := mapSet s.bulk k (restored s f c w x) }
  if w && !(t.bulk.any (fun e => e.1 / 16 == k / 16 && e.2.kid == c.kid)) then finishRetire c.kid (uncacheKid (42 + k / 16) c.kid t) else t

theorem bulk_restoredBulk (f : Fn) (k : Nat) (w : Bool) (x : BulkRec) (c : BulkCtx) (s : State) :
    (restoredBulk f k w x c s).bulk = mapSet s.bulk k (restored s f c w x) := by
  unfold restoredBulk
  dsimp only
  split
  · exact congrArg State.bulk (finishRetire_frame ..)
  · rfl

theorem restoreDone_failed (hc : mapFind s.bulk (bctx.toNat % 65536) = some c) (hd : r.dmaOk = false) :
    restoreDone q bctx w (.ok x) r s = complete q stDmaError 0 0 s := by
  simp only [restoreDone, restoreFinish, hc, hd, Bool.not_false, if_true]
  rfl

theorem restoreDone_restored (hc : mapFind s.bulk (bctx.toNat % 65536) = some c) (hd : r.dmaOk = true) :
    restoreDone q bctx w (.ok x) r s = complete q stOk 0 0 (restoredBulk q.fn (bctx.toNat % 65536) w x c s) := by
  simp only [restoreDone, restoreFinish, hc, hd, Bool.not_true, Bool.false_eq_true, if_false]
  rfl

end
end
end
end Sys2Proof.Machine
end

section
/-! SUPPORT. The statement on the life of bulk contexts. -/
open Sys2Proof Sys2Proof.Machine

/-- Settles O43: the open by the engine and index it finds, the four others by `runRow_takeTurn`, the reports by what each kind of request
leaves. -/
theorem bulkContextLife : Obligations.BulkContextLife := by
  unfold Obligations.BulkContextLife
  intro s h p bctx e turn
  refine ⟨fun engine mode kid a => ?opened, fun op aux a => ?op, fun dst fl a => ?save, fun src fl rec a => ?restore, fun a => ?close,
    fun hs f i r q hq => ⟨fun he => ?late, fun b op aux c he ha hc => ⟨fun hr => ?held, fun hr => ?opReport⟩,
      fun b dst w c he ha hr hc => ?saveReport, fun b w x c he ha hr hc => ?restoreReport⟩⟩
  case opened =>
    obtain ⟨e, k, he, hk⟩ := engine_and_index_of_open a
    obtain ⟨hfree, hlow, hhigh⟩ := firstFree_spec _ _ _ _ hk
    refine ⟨e, k, openedBulk p mode kid s, { keyFilled e kid s with bulk := mapSet s.bulk k (openedBulk p mode kid s) }, ?_,
      bulkPresent_of_bulkEngine he, hlow, hhigh, Option.not_isSome_iff_eq_none.1 (Bool.eq_false_iff.1 hfree), ?_,
      fun j hj => mapFind_mapSet_ne _ _ _ _ hj, rfl, rfl, rfl, rfl, rfl, rfl, openedBulk_idle, openedBulk_lost⟩
    · rw [exec_bulkCtxOpen, runRow_admitted a, startBulkOpen_eq he hk]
    · rw [mapFind_mapSet, if_pos rfl]
  case op =>
    obtain ⟨k, b, hb⟩ := bulkFor_of_op a
    refine ⟨k, b, hb, ?_⟩
    rw [exec_bulkOp, runRow_takeTurn a, hb]
  case save =>
    obtain ⟨k, b, hb⟩ := bulkFor_of_save a
    refine ⟨k, b, hb, ?_⟩
    rw [exec_bulkCtxSave, runRow_takeTurn a, hb]
    rfl
  case restore =>
    obtain ⟨k, b, hb⟩ := bulkFor_of_restore a
    refine ⟨k, b, hb, ?_⟩
    rw [exec_bulkCtxRestore, runRow_takeTurn a, hb]
    rfl
  case close =>
    obtain ⟨k, b, hb⟩ := bulkFor_of_close a
    refine ⟨k, b, hb, ?_⟩
    rw [exec_bulkCtxClose, runRow_takeTurn a, closeNow_open hb]
  case late => rw [exec_bulkRequestDone hs, bulkRequestDone_late hq he]
  case held =>
    have hb : bulkOf q.act = some b := by rw [ha]; rfl
    rw [exec_bulkRequestDone hs, bulkRequestDone_command hq he hb, engineDone_held hb hr]
  case opReport =>
    have hb : bulkOf q.act = some b := by rw [ha]; rfl
    refine ⟨digestWritten q.fn (b.toNat % 65536) op c r s, opStatus op aux c r s, BitVec.ofNat 128 (opBytes op r), ?_,
      fun hd => ⟨?_, by rw [opBytes_failed op hd]⟩, fun hd => ⟨?_, if_pos hd⟩, output_mem_digestWritten, digest_mem_digestWritten, opLeaves s c op r, ?_,
      opLeaves_keys.1, opLeaves_keys.2, fun hf => ?_, opLeaves_more⟩
    · rw [exec_bulkRequestDone hs, bulkRequestDone_command hq he hb, engineDone_op he hr ha, opDone_found hc]
    · simp only [opStatus, hd, Bool.false_eq_true, if_false]
    · rw [opBytes_done op hd, BitVec.ofNat_toNat]
    · rw [bulk_digestWritten, mapFind_mapSet, if_pos rfl]
    · rw [opLeaves_final hf]
      exact ⟨rfl, rfl⟩
  case saveReport =>
    have hb : bulkOf q.act = some b := by rw [ha]; rfl
    rw [exec_bulkRequestDone hs, bulkRequestDone_command hq he hb, engineDone_save he hr ha, saveDone_found hc]
  case restoreReport =>
    have hb : bulkOf q.act = some b := by rw [ha]; rfl
    have hexec : exec (.bulkRequestDone f i r) s = .next (settle (restoreDone q b w (.ok x) r s)) := by
      rw [exec_bulkRequestDone hs, bulkRequestDone_command hq he hb, engineDone_restore he hr ha]
    refine ⟨fun hd => by rw [hexec, restoreDone_failed hc hd],
      fun hd => ⟨restoredBulk q.fn (b.toNat % 65536) w x c s, by rw [hexec, restoreDone_restored hc hd], ?_⟩⟩
    rw [bulk_restoredBulk, mapFind_mapSet, if_pos rfl]
end

section
/-! SUPPORT. Life-cycle commands (R84, R86, R95, R97, R50): their rows, the parts of a transition by its KIND, and the ends of the flash
writes and of the KXE's operations that they wait for. -/
namespace Sys2Proof.Machine

/-! ### The rows' meanings -/

theorem exec_lcChallenge (h : CmdHdr) (addr : W64) (s : State) :
    exec (.lcChallenge h addr) s = .next (runRow (lcChallengeRow h addr) (startChallenge addr) s) := rfl
theorem exec_lcTransition (h : CmdHdr) (len : W32) (r : Fetched LcReq) (env : StartEnv) (s : State) :
    exec (.lcTransition h len r env) s = .next (runRow (lcTransitionRow h len r) (startTransition r env) s) := rfl
theorem exec_lcStatus (h : CmdHdr) (addr : W64) (len : W32) (s : State) :
    exec (.lcStatus h addr len) s = .next (runRow (lcStatusRow h addr len) (startStatus addr) s) := rfl
theorem exec_ownerStore (h : CmdHdr) (item : Byte) (len : W32) (it : Fetched OwnerItem) (s : State) :
    exec (.ownerStore h item len it) s = .next (runRow (ownerStoreRow h item len it) (startOwnerStore it) s) := rfl
theorem exec_setProfile (h : CmdHdr) (k : Byte) (s : State) : exec (.setProfile h k) s = .next (runRow (setProfileRow h k)
    (fun p s => complete p stOk 0 (k.setWidth 128) { s with aon := { s.aon with pendingProfile := some (k.setWidth 2) } }) s) := rfl
theorem exec_flashWriteDone (job : FlashJob) (env : StartEnv) (s : State) :
    exec (.flashWriteDone job env) s = .next (whenLive (flashWriteDone job env) s) := rfl
theorem exec_kxeOperationDone (who : KxeWho) (s : State) : exec (.kxeOperationDone who) s = .next (whenLive (kxeDone who) s) := rfl

/-! ### The parts of LC_TRANSITION (Table 04-11) -/

section Parts

variable {r : LcReq} {env : StartEnv} (q : InProg) (s : State)

theorem actLc_refused : actLc q r env 9 s = complete q stAuthFailed 0 0 s := rfl

theorem actLc_factory (h : r.kind.toNat ≤ 4) :
    actLc q r env 0 s = lcEnd r env (complete q stOk 0 (lcResult (lcBegin r s)) (lcBegin r s)) := by
  simp [actLc, h]

/-- After its authentication a field transition waits for flash: CLAIM and TRANSFER for the journal, ANALYSIS and SCRAP for the erase. -/
theorem actLc_field (h : 4 < r.kind.toNat) : actLc q r env 0 s =
    goOn q { flash := true } (.lcTransition r env (if r.kind.toNat ≤ 6 then 1 else 2)) (lcBegin r s) := by
  simp only [actLc, Nat.not_le.2 h, if_false, if_true, reduceCtorEq]
  split <;> rfl

/-- A completed TEST_UNLOCK resets nothing (R95). -/
theorem lcEnd_testUnlock (h : r.kind = 2) : lcEnd r env s = s := by simp [lcEnd, h]

end Parts

/-! ### The ends of waits -/

/-- What the read-back of a flash write makes of a command: a transition that waits for it goes on, with the surroundings of a start that
may follow. -/
def flashRead (env : StartEnv) (q : InProg) : InProg :=
  match q.act with
  | .lcTransition r _ step =>
    if q.hold.flash then { q with hold := { q.hold with flash := false }, act := .lcTransition r env step } else q
  | _ => q

theorem flashWriteDone_transition (env : StartEnv) (s : State) :
    flashWriteDone .transition env s = settle { s with prog := s.prog.map (flashRead env) } := rfl

theorem flashRead_waiting {env e : StartEnv} {q : InProg} {r : LcReq} {n : Nat} (ha : q.act = .lcTransition r e n)
    (hf : q.hold.flash = true) :
    flashRead env q = { q with hold := { q.hold with flash := false }, act := .lcTransition r env n } := by
  simp [flashRead, ha, hf]

theorem flashRead_other {env : StartEnv} {q : InProg} (h : ¬ (∃ r e n, q.act = .lcTransition r e n) ∨ q.hold.flash = false) :
    flashRead env q = q := by
  unfold flashRead
  split
  · next r e n ha =>
    obtain hn | hf := h
    · exact absurd ⟨r, e, n, ha⟩ hn
    · rw [hf]; rfl
  · rfl

end Sys2Proof.Machine
end

section
/-! SUPPORT. The statement on life-cycle commands. -/
open Sys2Proof Sys2Proof.Machine

/-- Settles O42: each command by the equation of its start, LC_TRANSITION's parts by its KIND, and the read-back of a transition's flash
write by what it makes of each command in progress. -/
theorem lifeCycleCommands : Obligations.LifeCycleCommands := by
  unfold Obligations.LifeCycleCommands
  intro s h p addr len env
  refine ⟨fun a => ⟨_, ?challenge, rfl⟩, fun r a => ?transition, fun q r u => actLc_refused q u, fun q r u hk => actLc_factory q u hk,
    fun q r u hk => lcEnd_testUnlock _ hk, fun q r u hk => ⟨_, actLc_field q u hk⟩, fun a => ?status, fun item it a => ?store,
    fun q x u => rfl, fun k a => ?profile, fun hs f i => ⟨fun q it _ _ => ?stored, ?kxe⟩,
    fun hs => ⟨{ s with prog := s.prog.map (flashRead env) }, ?read, rfl, ?length, ?each⟩⟩
  case challenge => rw [exec_lcChallenge, runRow_admitted a]; rfl
  case transition => rw [exec_lcTransition, runRow_admitted a]; rfl
  case status => rw [exec_lcStatus, runRow_admitted a]; rfl
  case store => rw [exec_ownerStore, runRow_admitted a]; rfl
  case profile => rw [exec_setProfile, runRow_admitted a]
  case stored => rw [exec_flashWriteDone, whenLive_live _ _ hs]; rfl
  case kxe => rw [exec_kxeOperationDone, whenLive_live _ _ hs]; rfl
  case read => rw [exec_flashWriteDone, whenLive_live _ _ hs, flashWriteDone_transition]
  case length => exact List.length_map _
  case each =>
    intro i q x hq hx
    rw [List.getElem?_map, hq] at hx
    cases hx
    refine ⟨fun ⟨r, e, n, ha⟩ hf => ?_, flashRead_other⟩
    rw [flashRead_waiting ha hf]
    exact ⟨rfl, r, e, n, ha, rfl⟩
end

section
/-! SUPPORT. The recovery mailbox (R92, R399 to R401): which requests are served, what a request not allowed answers, and what each row
makes of the state. -/
namespace Sys2Proof.Machine

/-! ### The rows' meanings -/

theorem exec_recoveryStatus (s : State) : exec .recoveryStatus s = .next (recMail 0x01 true recStatus s) := rfl
theorem exec_recoveryLcChallenge (s : State) :
    exec .recoveryLcChallenge s = .next (recMail 0x02 (journalWaits s) recChallenge s) := rfl
theorem exec_recoveryLcTransition (r : LcReq) (env : StartEnv) (s : State) :
    exec (.recoveryLcTransition r env) s = .next (recMail 0x03 (journalWaits s) (recTransition r env) s) := rfl
theorem exec_imgBegin (n : Nat) (s : State) : exec (.imgBegin n) s = .next (recMail 0x10 (takesImage s) (imgStart n) s) := rfl
theorem exec_imgData (o n : Nat) (s : State) : exec (.imgData o n) s =
    .next (recMail 0x11 (takesImage s && s.pkg.imgLen.isSome && o == s.pkg.imgGot) (imgTake n (s.pkg.imgLen.getD 0)) s) := rfl
theorem exec_imgCommit (i : FwImage) (s : State) : exec (.imgCommit i) s =
    .next (recMail 0x12 (takesImage s && s.pkg.imgLen == some s.pkg.imgGot) (imgVerify i) s) := rfl
theorem exec_imageWriteDone (ok : Bool) (env : StartEnv) (s : State) :
    exec (.imageWriteDone ok env) s = .next (imageWritten ok env s) := rfl

/-! ### Requests served (R400) -/

section Mailbox

variable {s : State} {rcmd : Byte} {allowed : Bool} {f : State → State}

theorem recMail_idle (h : romServes s = false) : recMail rcmd allowed f s = s := by simp [recMail, h]
theorem recMail_allowed (h : romServes s = true) (ha : allowed = true) : recMail rcmd allowed f s = f s := by simp [recMail, h, ha]
theorem recMail_refused (h : romServes s = true) (ha : allowed = false) : recMail rcmd allowed f s = recRespond rcmd stBadState s := by
  simp [recMail, h, ha]

end Mailbox

/-! ### LC_TRANSITION in a journal wait (R92) -/

section Transition

variable {s : State} {r : LcReq} {env : StartEnv} {k : Nat}

theorem recTransition_malformed (h : firstFail (lcFields s r) ≠ none) : recTransition r env s = recRespond 0x03 stMalformed s := by
  obtain ⟨c, hc⟩ := Option.ne_none_iff_exists'.1 h
  rw [recTransition, hc]

/-- No transition is pending that the request resubmits. -/
theorem recTransition_foreign (h : firstFail (lcFields s r) = none) (hk : ∀ k, pendingOwner s = some k → resubmits s r k = false) :
    recTransition r env s = recRespond 0x03 stBadState s := by
  rw [recTransition, h]
  cases hp : pendingOwner s with
  | none => rfl
  | some k => simp only [hk k hp, Bool.not_false, if_true]

theorem recTransition_resubmitted (h : firstFail (lcFields s r) = none) (hp : pendingOwner s = some k) (hr : resubmits s r k = true) :
    recTransition r env s = if lcAuth s r then
        start true env (recRespond 0x03 stOk (finishOwner k r.newOwnerHash { s with aon := { s.aon with nonce := none } }))
      else recRespond 0x03 stAuthFailed { s with aon := { s.aon with nonce := none } } := by
  rw [recTransition, h, hp]
  simp only [hr, Bool.not_true, Bool.false_eq_true, if_false]

end Transition

/-! ### The firmware image (R401) -/

section Image

variable {s : State} {i : FwImage} {n len : Nat} {ok : Bool} {env : StartEnv}

theorem imgStart_fits (h : n ≤ imageMax) :
    imgStart n s = recRespond 0x10 stOk { s with pkg := { s.pkg with imgLen := some n, imgGot := 0 } } := if_neg (Nat.not_lt.2 h)
theorem imgStart_long (h : imageMax < n) : imgStart n s = recRespond 0x10 stMalformed s := if_pos h

theorem imgTake_fits (h1 : 1 ≤ n) (h2 : n ≤ 65536) (h3 : s.pkg.imgGot + n ≤ len) :
    imgTake n len s = recRespond 0x11 stOk { s with pkg := { s.pkg with imgGot := s.pkg.imgGot + n } } := if_neg (by omega)
theorem imgTake_bad (h : n = 0 ∨ 65536 < n ∨ len < s.pkg.imgGot + n) : imgTake n len s = recRespond 0x11 stMalformed s := if_pos h

theorem imgVerify_passes (h : imageReason s (some i) = 0) : imgVerify i s =
    emit .flashWrite (recRespond 0x12 stOk { s with pkg := { s.pkg with writing := true, imgNew := some i } }) := if_pos h
theorem imgVerify_fails (h : imageReason s (some i) ≠ 0) :
    imgVerify i s = recRespond 0x12 (commitStatus (imageReason s (some i))) s := if_neg h

theorem imageWritten_awaited (hw : s.pkg.writing = true) (hp : s.pkg.phase = .recovery) : imageWritten ok env s =
    start true env { s with flash := { s.flash with image := if ok then s.pkg.imgNew else none } } := if_pos ⟨hw, hp⟩
theorem imageWritten_other (h : s.pkg.writing = false ∨ s.pkg.phase ≠ .recovery) : imageWritten ok env s = s := by
  refine if_neg fun ⟨hw, hp⟩ => ?_
  rw [hw] at h
  simp [hp] at h

end Image

end Sys2Proof.Machine
end

section
/-! SUPPORT. The statement on the recovery mailbox. -/
open Sys2Proof Sys2Proof.Machine

/-- Settles O57: each row by whether ROM serves it, whether the present mode allows it, and the case of its own check. -/
theorem recoveryMailboxRows : Obligations.RecoveryMailboxRows := by
  unfold Obligations.RecoveryMailboxRows
  intro s
  refine ⟨fun hi => ?idle, fun hs => ⟨?status, fun hj => ?noJournal, fun hj => ?journal, fun hx => ?noImage, fun hx => ?image⟩,
    fun ok env => ⟨fun hw hp => congrArg Host.Outcome.next (imageWritten_awaited hw hp),
      fun h => congrArg Host.Outcome.next (imageWritten_other h)⟩⟩
  case idle =>
    refine ⟨?_, ?_, fun r e => ?_, fun n => ?_, fun o n => ?_, fun i => ?_⟩
    all_goals exact congrArg Host.Outcome.next (recMail_idle hi)
  case status => exact congrArg Host.Outcome.next (recMail_allowed hs rfl)
  case noJournal =>
    exact ⟨congrArg Host.Outcome.next (recMail_refused hs hj), fun r e => congrArg Host.Outcome.next (recMail_refused hs hj)⟩
  case journal =>
    have htr : ∀ r e, exec (.recoveryLcTransition r e) s = .next (recTransition r e s) := fun r e => by
      rw [exec_recoveryLcTransition, recMail_allowed hs hj]
    refine ⟨congrArg Host.Outcome.next (recMail_allowed hs hj), fun r e hf => (htr r e).trans (by rw [recTransition_malformed hf]; rfl),
      fun r e hf hk => (htr r e).trans (by rw [recTransition_foreign hf hk]; rfl), fun r e k hf hp hr => ⟨fun ha => ?_, fun ha => ?_⟩⟩
    all_goals
      rw [htr, recTransition_resubmitted hf hp hr, ha]
      rfl
  case noImage =>
    refine ⟨fun n => ?_, fun o n => ?_, fun i => ?_⟩
    · exact congrArg Host.Outcome.next (recMail_refused hs hx)
    · exact congrArg Host.Outcome.next (recMail_refused hs (by rw [hx]; rfl))
    · exact congrArg Host.Outcome.next (recMail_refused hs (by rw [hx]; rfl))
  case image =>
    have hbegin : ∀ n, exec (.imgBegin n) s = .next (imgStart n s) := fun n => by rw [exec_imgBegin, recMail_allowed hs hx]
    have hdata : ∀ len n, s.pkg.imgLen = some len → exec (.imgData s.pkg.imgGot n) s = .next (imgTake n len s) := fun len n hl => by
      rw [exec_imgData, recMail_allowed hs (by rw [hx, hl]; simp), hl, Option.getD_some]
    have hcommit : ∀ i, s.pkg.imgLen = some s.pkg.imgGot → exec (.imgCommit i) s = .next (imgVerify i s) := fun i hl => by
      rw [exec_imgCommit, recMail_allowed hs (by rw [hx, hl]; simp)]
    refine ⟨fun n hn => (hbegin n).trans (congrArg _ (imgStart_fits hn)), fun n hn => (hbegin n).trans (congrArg _ (imgStart_long hn)),
      fun len n hl => ⟨fun h1 h2 h3 => (hdata len n hl).trans (congrArg _ (imgTake_fits h1 h2 h3)),
        fun h => (hdata len n hl).trans (congrArg _ (imgTake_bad h))⟩,
      fun o n h => congrArg Host.Outcome.next (recMail_refused hs ?offset),
      fun i hl => congrArg Host.Outcome.next (recMail_refused hs ?incomplete),
      fun i hl => ⟨fun h => (hcommit i hl).trans (congrArg _ (imgVerify_passes h)),
        fun h => (hcommit i hl).trans (congrArg _ (imgVerify_fails h))⟩⟩
    case offset =>
      obtain ho | hl := h
      · simp [ho]
      · simp [hl]
    case incomplete => simp [hl]
end

section
/-! SUPPORT. Words and fuses of which bits only burn (R80, R113). -/
namespace Sys2Proof
open Sys2Proof.Machine

/-! ### Words -/

theorem bitsLe_iff {n : Nat} {a b : BitVec n} : bitsLe a b ↔ ∀ i, a.getLsbD i = true → b.getLsbD i = true := by
  unfold bitsLe
  constructor
  · intro h i ha
    have hbit : (a &&& ~~~b).getLsbD i = (0 : BitVec n).getLsbD i := by rw [h]
    simpa [-BitVec.getLsbD_eq_getElem, ha, BitVec.lt_of_getLsbD ha] using hbit
  · intro h
    refine BitVec.eq_of_getLsbD_eq fun i hi => ?_
    simpa [hi] using h i

theorem bitsLe.refl {n : Nat} (a : BitVec n) : bitsLe a a := bitsLe_iff.2 fun _ h => h

theorem bitsLe.trans {n : Nat} {a b c : BitVec n} (h : bitsLe a b) (h' : bitsLe b c) : bitsLe a c :=
  bitsLe_iff.2 fun i ha => bitsLe_iff.1 h' i (bitsLe_iff.1 h i ha)

theorem bitsLe_zero {n : Nat} (a : BitVec n) : bitsLe 0 a := bitsLe_iff.2 fun i h => by simp at h

theorem bitsLe_or {n : Nat} (a x : BitVec n) : bitsLe a (a ||| x) := bitsLe_iff.2 fun i h => by simp [h]

/-- Burning the same bits of each copy of a word. -/
theorem bitsLe_getD_map_or {n : Nat} (l : List (BitVec n)) (x : BitVec n) (k : Nat) :
    bitsLe (l.getD k 0) ((l.map (· ||| x)).getD k 0) := by
  rw [List.getD_eq_getElem?_getD, List.getD_eq_getElem?_getD, List.getElem?_map]
  cases l[k]? with
  | none => exact .refl _
  | some a => exact bitsLe_or a x

/-- Burning bits of one word of a list. -/
theorem bitsLe_getD_set_or {n : Nat} (l : List (BitVec n)) (x : BitVec n) (j k : Nat) :
    bitsLe (l.getD k 0) ((l.set j (l.getD j 0 ||| x)).getD k 0) := by
  simp only [List.getD_eq_getElem?_getD, List.getElem?_set]
  split
  · next hjk =>
    subst hjk
    split
    · exact bitsLe_or ..
    · next hj => rw [List.getElem?_eq_none (Nat.le_of_not_lt hj)]; exact .refl _
  · exact .refl _

/-- ROM's repair of the three copies of a word (R81). -/
theorem bitsLe_repairWord (l : List W64) {k : Nat} (hk : k < 3) : bitsLe (l.getD k 0) ((repairWord l).getD k 0) := by
  match k, hk with
  | 0, _ | 1, _ | 2, _ => exact bitsLe_or ..

/-- ROM's repair of the tokens of word 6 (R81). -/
theorem bitsLe_repairTokens (w : W64) : bitsLe w (repairTokens w) := by
  unfold repairTokens
  generalize List.range 16 = l
  suffices h : ∀ v, bitsLe w v →
      bitsLe w (l.foldl (fun w i => if tokenUsed w i then w ||| BitVec.ofNat 64 (7 * 2 ^ (3 * i)) else w) v) from h w (bitsLe.refl w)
  induction l with
  | nil => exact fun _ h => h
  | cons i l ih =>
    refine fun v h => ih (if tokenUsed v i then v ||| BitVec.ofNat 64 (7 * 2 ^ (3 * i)) else v) ?_
    split
    · exact h.trans (bitsLe_or ..)
    · exact h

/-! ### The fuses -/

theorem OtpLe.refl (a : OtpSt) : OtpLe a a :=
  ⟨fun _ _ => .refl _, fun _ _ => .refl _, .refl _, .refl _, .refl _, fun _ => .refl _, fun _ => .refl _, le_rfl, le_rfl, rfl, rfl, rfl⟩

theorem OtpLe.trans {a b c : OtpSt} (h : OtpLe a b) (h' : OtpLe b c) : OtpLe a c where
  state k hk := (h.state k hk).trans (h'.state k hk)
  progress k hk := (h.progress k hk).trans (h'.progress k hk)
  tansy := h.tansy.trans h'.tansy
  owner := h.owner.trans h'.owner
  drs := h.drs.trans h'.drs
  pairing k := (h.pairing k).trans (h'.pairing k)
  owners k := (h.owners k).trans (h'.owners k)
  boot := h.boot.trans h'.boot
  svn := h.svn.trans h'.svn
  device := h'.device.trans h.device
  authority := h'.authority.trans h.authority
  floor := h'.floor.trans h.floor

theorem otpLe_state (a : OtpSt) (x : W64) : OtpLe a { a with state := a.state.map (· ||| x) } :=
  { OtpLe.refl a with state := fun k _ => bitsLe_getD_map_or a.state x k }
theorem otpLe_progress (a : OtpSt) (x : W64) : OtpLe a { a with progress := a.progress.map (· ||| x) } :=
  { OtpLe.refl a with progress := fun k _ => bitsLe_getD_map_or a.progress x k }
theorem otpLe_tansy (a : OtpSt) (x : W64) : OtpLe a { a with tansy := a.tansy ||| x } := { OtpLe.refl a with tansy := bitsLe_or .. }
theorem otpLe_owner (a : OtpSt) (x : W64) : OtpLe a { a with owner := a.owner ||| x } := { OtpLe.refl a with owner := bitsLe_or .. }
theorem otpLe_pairing (a : OtpSt) (d : Nat) (x : Key) : OtpLe a { a with pairing := a.pairing.set d (a.pairing.getD d 0 ||| x) } :=
  { OtpLe.refl a with pairing := bitsLe_getD_set_or a.pairing x d }
theorem otpLe_owners (a : OtpSt) (k : Nat) (x : Hash) : OtpLe a { a with owners := a.owners.set k (a.owners.getD k 0 ||| x) } :=
  { OtpLe.refl a with owners := bitsLe_getD_set_or a.owners x k }

/-- Each of ROM's repairs burns a bit that most of its copies have (R81). -/
theorem otpLe_repairOtp (a : OtpSt) : OtpLe a (repairOtp a) :=
  { OtpLe.refl a with
    state := fun _ hk => bitsLe_repairWord a.state hk
    progress := fun _ hk => bitsLe_repairWord a.progress hk
    tansy := bitsLe_repairTokens a.tansy
    owner := (bitsLe_or ..).trans (bitsLe_or ..) }

end Sys2Proof
end

section
/-! SUPPORT. Fuses that only burn (R80, R113): a state in which everything fused in `o` is still fused. -/
namespace Sys2Proof.Machine

/-- Everything fused in `o` is fused in `s`. -/
def Fused (o : OtpSt) (s : State) : Prop := OtpLe o s.otp

namespace Fused

variable {o : OtpSt} {s t : State}

/-- A burn. -/
theorem burn (h : Fused o s) (hb : OtpLe s.otp t.otp) : Fused o t := OtpLe.trans h hb

/-- A change that leaves the fuses. -/
theorem congr (h : Fused o s) (he : t.otp = s.otp) : Fused o t := by rwa [Fused, he]

/-- A change of other fields. -/
theorem set (h : Fused o s) {x1 x2 x3 x4 x5 x6 x7 x8 x9 x10 x11 x12 x13 x14 x15 x16 x17 x18 x19 x20 x21 x22 x23 x24 x25 x26 x27 x28 x29
      x30 x31 x32 x33 x34 x35 x36 x37 x38 x39 x40 x41 x42 x43 x44 x45 x46 x47 x48 x49 x50 x51 x52 x53 x54 x55 x56 x57} :
    Fused o (.mk x1 x2 x3 x4 x5 x6 s.otp x7 x8 x9 x10 x11 x12 x13 x14 x15 x16 x17 x18 x19 x20 x21 x22 x23 x24 x25 x26 x27 x28 x29 x30 x31
      x32 x33 x34 x35 x36 x37 x38 x39 x40 x41 x42 x43 x44 x45 x46 x47 x48 x49 x50 x51 x52 x53 x54 x55 x56 x57) :=
  h

theorem sendsOnly (h : Fused o s) (hs : SendsOnly s t) : Fused o t := h.congr (by rw [hs])
theorem ringLocal {f : Fn} (h : Fused o s) (hs : RingLocal f s t) : Fused o t := by
  obtain ⟨x, hx⟩ := hs.edge
  exact h.congr (by rw [hx])
theorem keysOnly (h : Fused o s) (hs : KeysOnly s t) : Fused o t := h.congr (by rw [hs])

theorem ite {c : Prop} [Decidable c] (hs : Fused o s) (ht : Fused o t) : Fused o (if c then s else t) := by
  split
  · exact hs
  · exact ht

end Fused

theorem fused_foldl {α : Type} {o : OtpSt} {g : State → α → State} (hg : ∀ u x, Fused o u → Fused o (g u x)) {l : List α} {s : State}
    (h₀ : Fused o s) :
    Fused o (l.foldl g s) := by
  induction l generalizing s with
  | nil => exact h₀
  | cons x l ih => exact ih (hg s x h₀)

end Sys2Proof.Machine
end

section
/-! SUPPORT. The operations that write fuses (R80, R81, R90, R94, R99 to R101, R143, R385, R398): each burns bits, or counts up. -/
namespace Sys2Proof.Machine

variable {o : OtpSt} {s : State} {k : Nat} {env : StartEnv}

theorem fused_burnKill (h₀ : Fused o s) : Fused o (burnKill s) := h₀.burn (otpLe_owner ..)
theorem fused_burnState {bits : W64} (h₀ : Fused o s) : Fused o (burnState bits s) := h₀.burn (otpLe_state ..)
theorem fused_burnMark {base m : Nat} (h₀ : Fused o s) : Fused o (burnMark base m s) := h₀.burn (otpLe_progress ..)
theorem fused_burnOwner {h : Hash} (h₀ : Fused o s) : Fused o (burnOwner k h s) := h₀.burn (otpLe_owners ..)

theorem fused_installOwner (h₀ : Fused o s) : Fused o (installOwner k s) := by
  have h₁ : Fused o { s with otp := { s.otp with owner := s.otp.owner ||| spread 0 (BitVec.ofNat 8 (2 ^ k)) }
                             flash := { s.flash with journal := [] } } := h₀.burn (otpLe_owner ..)
  exact .ite (fused_burnState h₁) h₁

theorem fused_readOtp (h₀ : Fused o s) : Fused o (readOtp s) := by
  have h₁ : Fused o (shadow { s with otp := repairOtp s.otp }) := h₀.burn (otpLe_repairOtp ..)
  exact .ite (fused_burnState h₁) h₁

/-- The DRS is drawn only while none of its bits reads 1 (R100). -/
theorem fused_provision (h₀ : Fused o s) : Fused o (provision env s) := by
  unfold provision
  split
  · exact h₀
  split
  · exact fused_burnState h₀
  next hd =>
    rw [not_not] at hd
    have hdrs : OtpLe s.otp { s.otp with drs := drawn s } := { OtpLe.refl s.otp with drs := hd ▸ bitsLe_zero _ }
    exact .ite h₀ (fused_burnState (h₀.burn hdrs))

theorem fused_advanceBoot (h₀ : Fused o s) : Fused o (advanceBoot env s) := by
  have hboot : OtpLe s.otp { s.otp with bootPairs := s.otp.bootPairs + env.weakPairs + 1 } :=
    { OtpLe.refl s.otp with boot := by rw [Nat.add_assoc]; exact Nat.le_add_right .. }
  exact .ite h₀ (.ite h₀ (h₀.burn hboot))

theorem fused_useToken (h₀ : Fused o s) : Fused o (useToken s) := by
  unfold useToken
  split
  · exact h₀.burn (otpLe_tansy ..)
  · exact h₀

theorem fused_drawPairing {l : List Nat} (h₀ : Fused o s) : Fused o (drawPairing l s) := by
  induction l generalizing s with
  | nil => exact h₀
  | cons _ _ ih => exact ih (.ite (h₀.burn (otpLe_pairing ..)) h₀)

theorem fused_svnFuseBurn (h₀ : Fused o s) :
    Fused o (if ready s && decide (s.otp.svn < s.pkg.svn) then { s with otp := { s.otp with svn := s.pkg.svn } } else s) := by
  split
  · next hc =>
    have hsvn : s.otp.svn < s.pkg.svn := of_decide_eq_true (Bool.and_eq_true_iff.1 hc).2
    exact h₀.burn { OtpLe.refl s.otp with svn := hsvn.le }
  · exact h₀

end Sys2Proof.Machine
end

section
/-! SUPPORT. Fuses stay burned through the shared operations. -/
namespace Sys2Proof.Machine

variable {o : OtpSt} {s : State} {code units counter kind n : Nat} {f : Fn} {ctx : W16} {p : InProg} {data : BitVec 128} {a : AsyncRec}

theorem fused_emit {x : Output} (h₀ : Fused o s) : Fused o (emit x s) := h₀

theorem fused_bumpDraw (h₀ : Fused o s) : Fused o (bumpDraw s) := .set h₀
theorem fused_bumpOpen (h₀ : Fused o s) : Fused o (bumpOpen s) := .set h₀
theorem fused_fnMod {g : FnSt → FnSt} (h₀ : Fused o s) : Fused o (fnMod f g s) := .set h₀
theorem fused_ringMod {g : RingSt → RingSt} (h₀ : Fused o s) : Fused o (ringMod f g s) := h₀.ringLocal (ringLocal_ringMod ..)

theorem fused_modProg {idx : W32} {g : InProg → InProg} (h₀ : Fused o s) : Fused o (modProg f idx g s) := .set h₀
theorem fused_countPort {port : Fin 32} (h₀ : Fused o s) : Fused o (countPort port code s) := .set h₀
theorem fused_countPkg (h₀ : Fused o s) : Fused o (countPkg code s) := .set h₀
theorem fused_countFn (h₀ : Fused o s) : Fused o (countFn f code s) := .set h₀
theorem fused_countOp (h₀ : Fused o s) : Fused o (countOp f counter units s) := .set h₀
theorem fused_addSet (h₀ : Fused o s) : Fused o (addSet f ctx counter units s) := h₀.sendsOnly (sendsOnly_addSet ..)

theorem fused_countSealed (h₀ : Fused o s) : Fused o (countSealed f ctx units s) := h₀.sendsOnly (sendsOnly_countSealed ..)

theorem fused_trace {reader : Fn} (h₀ : Fused o s) : Fused o (trace reader kind ctx data s) := .set h₀

theorem fused_traceVf (h₀ : Fused o s) : Fused o (traceVf f kind ctx data s) := h₀.ringLocal (ringLocal_traceVf ..)

theorem fused_whenLive {f : State → State} (hf : ∀ u, Fused o u → Fused o (f u)) (h₀ : Fused o s) : Fused o (whenLive f s) :=
  .ite (hf _ h₀) h₀

theorem fused_signalEvent (h₀ : Fused o s) : Fused o (signalEvent f s) := h₀.ringLocal (ringLocal_signalEvent ..)

theorem fused_lateDone {i : W32} (h₀ : Fused o s) : Fused o (lateDone f i s) := by
  unfold lateDone
  split
  · exact h₀
  · exact .ite (.set h₀) (fused_countFn (.set h₀))

theorem fused_markHost {addr : Nat} (h₀ : Fused o s) : Fused o (markHost f addr n s) := h₀.ringLocal (ringLocal_markHost ..)

theorem fused_sendHost {addr : W64} {d : HostData} (h₀ : Fused o s) : Fused o (sendHost f addr d s) := fused_emit (fused_markHost h₀)
theorem fused_postDoorbell (h₀ : Fused o s) : Fused o (postDoorbell f s) := h₀.ringLocal (ringLocal_postDoorbell ..)

theorem fused_writeRecord {mk : Bool → CplRec} (h₀ : Fused o s) : Fused o (writeRecord f mk s) := h₀.ringLocal (ringLocal_writeRecord ..)

theorem fused_asyncRecord (h₀ : Fused o s) : Fused o (asyncRecord f a s) := h₀.ringLocal (ringLocal_asyncRecord ..)

theorem fused_settleRing (h₀ : Fused o s) : Fused o (settleRing f s) := h₀.ringLocal (ringLocal_settleRing ..)

theorem fused_dropProg (h₀ : Fused o s) : Fused o (dropProg p s) := .set h₀

theorem fused_complete {st : W16} {detail : W32} {result : BitVec 128} (h₀ : Fused o s) : Fused o (complete p st detail result s) :=
  fused_settleRing (fused_postDoorbell (fused_traceVf (.ite (fused_signalEvent (fused_writeRecord (fused_dropProg h₀))) (fused_writeRecord
    (fused_dropProg h₀)))))

theorem fused_ringFault {code : W16} (h₀ : Fused o s) : Fused o (ringFault f code s) := h₀.ringLocal (ringLocal_ringFault ..)

theorem fused_runCmd {r : Row} {f : InProg → State → State} (hf : ∀ x u, Fused o u → Fused o (f x u)) (h₀ : Fused o s) :
    Fused o (runCmd r f s) := by
  refine .ite ?_ h₀
  split
  · exact h₀
  · split
    · exact fused_complete h₀
    · exact hf _ _ h₀

theorem fused_holdCmd {hold : Hold} {act : Act} (h₀ : Fused o s) : Fused o (holdCmd p hold act s) := fused_modProg h₀

end Sys2Proof.Machine
end

section
/-! SUPPORT. Fuses stay burned through the operations of the key store. -/
namespace Sys2Proof.Machine

variable {o : OtpSt} {s : State} {kid : W16} {engine : Nat}

theorem fused_reserveKid {f : Fn} (h₀ : Fused o s) : Fused o (reserveKid f s).2 := h₀.sendsOnly (sendsOnly_reserveKid ..)

theorem fused_reserveInt (h₀ : Fused o s) : Fused o (reserveInt s).2 := h₀.sendsOnly (sendsOnly_reserveInt ..)

theorem fused_placeKey {x : SlotSt} (h₀ : Fused o s) : Fused o (placeKey kid x s) := h₀.sendsOnly (sendsOnly_placeKey ..)

theorem fused_traceKid {old new : Nat} (h₀ : Fused o s) : Fused o (traceKid kid old new s) := h₀.sendsOnly (sendsOnly_traceKid ..)

theorem fused_setKid {st : KidState} (h₀ : Fused o s) : Fused o (setKid kid st s) := h₀.sendsOnly (sendsOnly_setKid ..)

theorem fused_activateKid (h₀ : Fused o s) : Fused o (activateKid kid s) := h₀.sendsOnly (sendsOnly_activateKid ..)

theorem fused_releaseKid (h₀ : Fused o s) : Fused o (releaseKid kid s) := h₀.sendsOnly (sendsOnly_releaseKid ..)

theorem fused_uncacheKid (h₀ : Fused o s) : Fused o (uncacheKid engine kid s) := .set h₀
theorem fused_clearCache (h₀ : Fused o s) : Fused o (clearCache engine s) := .set h₀

theorem fused_finishRetire (h₀ : Fused o s) : Fused o (finishRetire kid s) := h₀.sendsOnly (sendsOnly_finishRetire ..)

theorem fused_cacheKid (h₀ : Fused o s) : Fused o (cacheKid engine kid s) := h₀.sendsOnly (sendsOnly_cacheKid ..)

theorem fused_retireKid (h₀ : Fused o s) : Fused o (retireKid kid s) := h₀.sendsOnly (sendsOnly_retireKid ..)

theorem fused_retireKids {l : List W16} (h₀ : Fused o s) : Fused o (retireKids l s) := h₀.sendsOnly (sendsOnly_retireKids ..)

theorem fused_quarantineTick (h₀ : Fused o s) : Fused o (quarantineTick s) := .set h₀
theorem fused_zeroiseKeys (h₀ : Fused o s) : Fused o (zeroiseKeys s) := .set h₀

theorem fused_placeStream {job ctx ctxGen : W16} {sid epoch : W32} {use : Byte} {t : State} (h₀ : Fused o s)
    (e : placeStream f job ctx ctxGen sid epoch use s = some (kid, t)) : Fused o t := h₀.sendsOnly (sendsOnly_placeStream e)

end Sys2Proof.Machine
end

section
/-! SUPPORT. Fuses stay burned through the operations of link ports, of sealing and of sending. -/
namespace Sys2Proof.Machine

variable {o : OtpSt} {s : State} {job ctx : W16} {sid route : W32} {n units : Nat} {kind vc : BitVec 4} {routeSel hopIndex : BitVec 2}
  {port : Fin
  32} {body : Body} {t : SendSt} {payload : List Byte} {i : TxItem} {dest : BitVec 12}

theorem fused_portMod {p : Fin 32} {g : PortSt → PortSt} (h₀ : Fused o s) : Fused o (portMod p g s) := .set h₀

theorem fused_eachPort {g : Fin 32 → State → State} {l : List (Fin 32)} (hg : ∀ x u, Fused o u → Fused o (g x u)) (h₀ : Fused o s) :
    Fused o (eachPort g l s) := by
  induction l generalizing s with
  | nil => exact h₀
  | cons _ _ ih => exact ih (hg _ _ h₀)

theorem fused_wire (h₀ : Fused o s) : Fused o (wire port kind vc routeSel hopIndex units route body s) := h₀.sendsOnly (sendsOnly_wire ..)

theorem fused_sendCredit (h₀ : Fused o s) : Fused o (sendCredit port s) := fused_portMod (fused_wire h₀)

theorem fused_flushDue {a : Fin 32} (h₀ : Fused o s) : Fused o (flushDue n a s) := by
  induction n generalizing s with
  | zero => exact h₀
  | succ _ ih => exact .ite (ih (fused_sendCredit h₀)) h₀

theorem fused_flushAll (h₀ : Fused o s) : Fused o (flushAll s) := fused_eachPort (fun _ _ => fused_flushDue) h₀
theorem fused_returnCredits (h₀ : Fused o s) : Fused o (returnCredits port vc n s) := h₀.sendsOnly (sendsOnly_returnCredits ..)

theorem fused_modSend {g : SendSt → SendSt} (h₀ : Fused o s) : Fused o (modSend job sid g s) := .set h₀
theorem fused_modRecv {g : RecvSt → RecvSt} (h₀ : Fused o s) : Fused o (modRecv job sid g s) := .set h₀

theorem fused_placeNext (h₀ : Fused o s) : Fused o (placeNext t s) := h₀.sendsOnly (sendsOnly_placeNext ..)

theorem fused_noteSent {epoch : W32} (h₀ : Fused o s) : Fused o (noteSent job sid epoch s) := .set h₀

theorem fused_endSend (h₀ : Fused o s) : Fused o (endSend job sid s) := h₀.sendsOnly (sendsOnly_endSend ..)

theorem fused_claimBatch {b : Nat} (h₀ : Fused o s) : Fused o (claimBatch b job s) := h₀.sendsOnly (sendsOnly_claimBatch ..)

theorem fused_pumpGo {l : List Nat} (h₀ : Fused o s) : Fused o (pumpGo port n l s) := h₀.sendsOnly (sendsOnly_pumpGo ..)

theorem fused_pump (h₀ : Fused o s) : Fused o (pump port s) := fused_pumpGo h₀
theorem fused_offer (h₀ : Fused o s) : Fused o (offer port i s) := fused_pump (fused_portMod h₀)
theorem fused_sendControl (h₀ : Fused o s) : Fused o (sendControl port kind routeSel hopIndex route body s) :=
  h₀.sendsOnly (sendsOnly_sendControl ..)

theorem fused_sendBeat (h₀ : Fused o s) : Fused o (sendBeat port s) := h₀.sendsOnly (sendsOnly_sendBeat ..)

theorem fused_wakeOpen (h₀ : Fused o s) : Fused o (wakeOpen port s) := .ite (fused_emit (fused_portMod h₀)) h₀

theorem fused_enqueue (h₀ : Fused o s) : Fused o (enqueue port i s) := h₀.sendsOnly (sendsOnly_enqueue ..)

theorem fused_sendRouted (h₀ : Fused o s) : Fused o (sendRouted dest kind body s) := by
  unfold sendRouted
  split
  · exact fused_sendControl (fused_portMod h₀)
  · exact h₀

theorem fused_sendHome (h₀ : Fused o s) : Fused o (sendHome dest units body s) := h₀.sendsOnly (sendsOnly_sendHome ..)

theorem fused_sendNak (h₀ : Fused o s) : Fused o (sendNak port s) := fused_portMod h₀

theorem fused_resendAll {l : List Frame} (h₀ : Fused o s) : Fused o (resendAll port l s) := by
  induction l generalizing s with
  | nil => exact h₀
  | cons _ _ ih => exact ih (fused_emit h₀)

theorem fused_takeAck {h : Hop} (h₀ : Fused o s) : Fused o (takeAck port h s).1 := by
  unfold takeAck
  split
  · exact h₀
  · extract_lets p left fresh s₁
    have h₁ : Fused o s₁ := fused_portMod h₀
    split
    · exact h₁
    · split
      · exact h₁
      · exact fused_resendAll (fused_portMod h₁)

theorem fused_grant {vc : Nat} (h₀ : Fused o s) : Fused o (grant port vc n s) := .ite (fused_portMod h₀) h₀
theorem fused_learn {a : Arrival} (h₀ : Fused o s) : Fused o (learn a s) := .ite (fused_portMod h₀) h₀

theorem fused_forward (h₀ : Fused o s) : Fused o (forward a s) := by
  have hback : ∀ u, Fused o u → Fused o (if creditKind a.hop.kind then returnCredits a.port a.hop.vc (frameCredits a.hop) u else u) :=
    fun _ hu => .ite (fused_returnCredits hu) hu
  have hthrough : ∀ p q g k, Fused o (portMod p g (portMod q k s)) := fun _ _ _ _ => fused_portMod (fused_portMod h₀)
  exact .ite (hback _ (fused_countPort h₀)) (.ite (hback _ (fused_countPort h₀)) (.ite (hback _ (fused_countPort h₀))
    (.ite (fused_offer (hthrough ..)) (.ite (fused_countPort (hthrough ..)) (fused_offer (hthrough ..))))))

theorem fused_sendLoop (h₀ : Fused o s) : Fused o (sendLoop port s) := fused_emit (.set h₀)
theorem fused_grantAll (h₀ : Fused o s) : Fused o (grantAll port s) := fused_flushDue (fused_portMod h₀)
theorem fused_tryUp (h₀ : Fused o s) : Fused o (tryUp port s) := .ite (fused_grantAll (fused_portMod h₀)) h₀

theorem fused_returnQueued {l : List TxItem} (h₀ : Fused o s) : Fused o (returnQueued l s) := by
  fun_induction returnQueued l s with
  | case1 => exact h₀
  | case2 _ _ _ _ _ _ _ _ _ _ _ _ ih => exact ih (fused_returnCredits h₀)
  | case3 _ _ _ _ ih => exact ih h₀

theorem fused_takeDown (h₀ : Fused o s) : Fused o (takeDown port s) :=
  fused_returnQueued (fused_eachPort (fun _ _ => fused_portMod) (.set (fused_portMod h₀)))

end Sys2Proof.Machine
end

section
/-! SUPPORT. Fuses stay burned through the operations of fences and of the snare. -/
namespace Sys2Proof.Machine

variable {o : OtpSt} {s : State} {f : Fn} {i : Nat} {l : List InProg} {holder : W16}

theorem fused_fenceMod {g : FenceSt → FenceSt} (h₀ : Fused o s) : Fused o (fenceMod f i g s) := fused_fnMod h₀

theorem fused_endWaits (h₀ : Fused o s) : Fused o (endWaits f i l s) := by
  induction l generalizing s with
  | nil => exact h₀
  | cons _ _ ih =>
    unfold endWaits
    split
    · refine .ite ?_ (ih h₀)
      split
      · exact ih (fused_complete h₀)
      · exact ih h₀
    · exact ih h₀

theorem fused_endUnitWaits {l : List (W16 × W64)} (h₀ : Fused o s) : Fused o (endUnitWaits f i l s) := by
  induction l generalizing s with
  | nil => exact h₀
  | cons _ _ ih =>
    unfold endUnitWaits
    split
    · exact ih (fused_emit (fused_fenceMod h₀))
    · exact ih h₀

theorem fused_evalWaits (h₀ : Fused o s) : Fused o (evalWaits f i s) := fused_endUnitWaits (fused_endWaits h₀)
theorem fused_forwardFence (h₀ : Fused o s) : Fused o (forwardFence f i s) := fused_emit h₀

theorem fused_setErr {e : FenceErr} {peer : BitVec 12} (h₀ : Fused o s) : Fused o (setErr f i e peer s) :=
  .ite (fused_traceVf (fused_evalWaits (fused_forwardFence (fused_fenceMod h₀)))) h₀

theorem fused_signalFence {add : Bool} {v : W64} {chime : Bool} (h₀ : Fused o s) : Fused o (signalFence f i add v chime s) := by
  unfold signalFence
  split
  · exact .ite (fused_countFn h₀) h₀
  · exact fused_countFn h₀
  · exact fused_evalWaits (fused_forwardFence (fused_fenceMod h₀))
  · exact fused_setErr (fused_countFn h₀)

theorem fused_recordProducer {src : BitVec 12} (h₀ : Fused o s) : Fused o (recordProducer f i src s) :=
  .ite h₀ (.ite (fused_fenceMod h₀) (fused_countFn (fused_fenceMod h₀)))

theorem fused_applySignals {src : Option (BitVec 12)} {l : List ChimeSig} (h₀ : Fused o s) : Fused o (applySignals f src l s) := by
  induction l generalizing s with
  | nil => exact h₀
  | cons _ _ ih =>
    unfold applySignals
    split
    · exact ih (fused_countFn h₀)
    · refine ih ?_
      refine fused_signalFence ?_
      split
      · exact fused_recordProducer h₀
      · exact h₀

theorem fused_abortWaits {only : InProg → Bool} (h₀ : Fused o s) : Fused o (abortWaits f i only l s) := by
  induction l generalizing s with
  | nil => exact h₀
  | cons _ _ ih =>
    unfold abortWaits
    split
    · exact .ite (ih (fused_complete h₀)) (ih h₀)
    · exact ih h₀

theorem fused_abortUnitWaits {c : Option W16} {l : List (W16 × W64)} (h₀ : Fused o s) : Fused o (abortUnitWaits f i c l s) := by
  induction l generalizing s with
  | nil => exact h₀
  | cons _ _ ih => exact .ite (ih (fused_emit (fused_fenceMod h₀))) (ih h₀)

theorem fused_freeFence (h₀ : Fused o s) : Fused o (freeFence f i s) :=
  fused_fnMod (fused_emit (fused_abortUnitWaits (fused_abortWaits h₀)))

theorem fused_dropRef (h₀ : Fused o s) : Fused o (dropRef f i holder s) :=
  .ite (.ite (fused_freeFence (fused_fenceMod h₀)) (fused_fenceMod h₀)) h₀

theorem fused_addRef (h₀ : Fused o s) : Fused o (addRef f i holder s) := .ite h₀ (fused_fenceMod h₀)

theorem fused_eachIdx {g : Nat → State → State} {l : List Nat} (hg : ∀ x u, Fused o u → Fused o (g x u)) (h₀ : Fused o s) :
    Fused o (eachIdx g l s) := by
  induction l generalizing s with
  | nil => exact h₀
  | cons _ _ ih => exact ih (hg _ _ h₀)

theorem fused_abandonFences {ctx : W16} (h₀ : Fused o s) : Fused o (abandonFences f ctx s) :=
  fused_eachIdx (fun _ _ => fused_dropRef) (fused_eachIdx (fun _ _ h => .ite (fused_setErr h) h) h₀)

theorem fused_freeAllFences (h₀ : Fused o s) : Fused o (freeAllFences f s) := fused_eachIdx (fun _ _ => fused_freeFence) h₀
theorem fused_stampMet (h₀ : Fused o s) : Fused o (stampMet s) := .set h₀

theorem fused_releaseChime {port : Fin 32} (h₀ : Fused o s) : Fused o (releaseChime f port s) := by
  unfold releaseChime
  split
  · exact h₀
  · exact fused_traceVf (fused_applySignals (.set h₀))

theorem fused_releaseLocal (h₀ : Fused o s) : Fused o (releaseLocal f s) := by
  unfold releaseLocal
  split
  · exact h₀
  · exact fused_traceVf (fused_applySignals (.set h₀))

end Sys2Proof.Machine
end

section
/-! SUPPORT. Fuses stay burned through the operations of halts and of Tocsin. -/
namespace Sys2Proof.Machine

variable {o : OtpSt} {s : State} {r : HaltRec} {i : HaltInfo}

theorem fused_logHalt (h₀ : Fused o s) : Fused o (logHalt r s) := fused_emit (.set h₀)
theorem fused_relogHalt (h₀ : Fused o s) : Fused o (relogHalt r s) := fused_emit (.set h₀)
theorem fused_relog (h₀ : Fused o s) : Fused o (relog s) := .ite (fused_relogHalt h₀) h₀

theorem fused_knellAll {reason : Byte} (h₀ : Fused o s) : Fused o (knellAll reason s) := h₀.sendsOnly (sendsOnly_knellAll ..)

theorem fused_tdisError (h₀ : Fused o s) : Fused o (tdisError s) := .set h₀

theorem fused_endPerturb (h₀ : Fused o s) : Fused o (endPerturb s) :=
  fused_eachPort (fun _ _ h => .ite (fused_portMod h) h) (.set (fused_retireKids h₀))

theorem fused_zeroiseAll (h₀ : Fused o s) : Fused o (zeroiseAll s) := .set (fused_zeroiseKeys h₀)
theorem fused_hostLost (h₀ : Fused o s) : Fused o (hostLost s) := fused_emit (fused_emit (.set h₀))
theorem fused_dropHost (h₀ : Fused o s) : Fused o (dropHost s) := fused_hostLost (fused_emit (fused_emit h₀))

theorem fused_tocsin {level : Byte} {sources : W32} (h₀ : Fused o s) : Fused o (tocsin i level sources reason s) := by
  have hburn : ∀ u, Fused o u → Fused o (if level = 2 then burnKill u else u) := fun _ hu => .ite (fused_burnKill hu) hu
  have hlog : ∀ r u, Fused o u → Fused o (if u.pkg.power = .off then u else logHalt r u) := fun _ _ hu => .ite hu (fused_logHalt hu)
  exact hlog _ _ (fused_dropHost (hburn _ (.set (fused_zeroiseAll (fused_tdisError (.ite h₀ (fused_knellAll h₀)))))))

theorem fused_gongHalt (h₀ : Fused o s) : Fused o (gongHalt i s) := by
  unfold gongHalt
  split
  · exact .ite (fused_bumpOpen (fused_relog (.set h₀))) (fused_bumpOpen (.set h₀))
  · exact h₀
  · exact .ite h₀ (fused_tocsin h₀)
  · exact fused_tocsin h₀

theorem fused_romHalt (h₀ : Fused o s) : Fused o (romHalt i s) := .set h₀

end Sys2Proof.Machine
end

section
/-! SUPPORT. Fuses stay burned through the keeper's operations. -/
namespace Sys2Proof.Machine

variable {o : OtpSt} {s : State} {k id level idx n j e leaf offset length : Nat} {status ctx gen : W16} {l : List Nat} {data : List Byte}
  {l' : List
  W32} {f : Fn} {r : RegionSt} {x : ExchSt} {cipher : List Line} {macs : List W64} {nodes : List (W64 × Node × W64)} {detail : W32} {w :
  SweepSt}

theorem fused_regionMod {g : RegionSt → RegionSt} (h₀ : Fused o s) : Fused o (regionMod k g s) := by
  unfold regionMod
  split
  · exact .set h₀
  · exact h₀

theorem fused_addFence {lo : Nat} (h₀ : Fused o s) : Fused o (addFence k lo n s) := by
  unfold addFence
  split
  · exact h₀
  · exact .ite h₀ (fused_asyncRecord (fused_regionMod h₀))

theorem fused_fenceBelow (h₀ : Fused o s) : Fused o (fenceBelow k level idx s) := by
  unfold fenceBelow
  split
  · exact h₀
  · exact fused_addFence h₀

theorem fused_putNode {n : Node} (h₀ : Fused o s) : Fused o (putNode k level idx n s) := by
  unfold putNode
  split
  · exact h₀
  · exact .ite (fused_regionMod h₀) (.set (fused_regionMod h₀))

theorem fused_sendExch {xid : W32} (h₀ : Fused o s) : Fused o (sendExch xid x cipher macs nodes s) := by
  unfold sendExch
  split
  · exact .set h₀
  · exact fused_sendHome h₀

theorem fused_newExch (h₀ : Fused o s) : Fused o (newExch x cipher macs nodes s).2 := fused_sendExch (.set h₀)

theorem fused_sendAll {mk : List Nat → ExchSt} {l : List (List Nat)} (h₀ : Fused o s) : Fused o (sendAll mk l l' s).2 := by
  induction l generalizing s l' with
  | nil => exact h₀
  | cons _ _ ih => exact ih (fused_sendExch (.set h₀))

theorem fused_writeLinesOut {release : Bool} {l : List (List Nat)} (h₀ : Fused o s) : Fused o (writeLinesOut k release l l' s).2 := by
  induction l generalizing s l' with
  | nil => exact h₀
  | cons _ _ ih =>
    unfold writeLinesOut
    split
    · exact h₀
    · exact ih (fused_sendExch (.set h₀))

theorem fused_writeNodesOut {l : List (List (Nat × Node))} (h₀ : Fused o s) : Fused o (writeNodesOut k l l' s).2 := by
  induction l generalizing s l' with
  | nil => exact h₀
  | cons _ _ ih =>
    unfold writeNodesOut
    split
    · exact h₀
    · exact ih (fused_sendExch (.set h₀))

theorem fused_beginSweep (h₀ : Fused o s) : Fused o (beginSweep k level idx j s) := by
  unfold beginSweep
  split
  · exact h₀
  · split
    · exact h₀
    · exact .ite h₀ (.ite (fused_putNode (fused_regionMod h₀)) (.ite (fused_putNode (fused_regionMod h₀)) h₀))

theorem fused_advance (h₀ : Fused o s) : Fused o (advance k level idx j s) := by
  unfold advance
  split
  · exact h₀
  · split
    · exact h₀
    · exact fused_putNode h₀

theorem fused_advanceLines (h₀ : Fused o s) : Fused o (advanceLines k l s) := by
  induction l generalizing s with
  | nil => exact h₀
  | cons _ _ ih => exact ih (fused_advance h₀)

theorem fused_writeBack (h₀ : Fused o s) : Fused o (writeBack k level idx s) := by
  fun_cases writeBack k level idx s with
  | case1 | case2 | case3 | case4 => exact h₀
  | case5 => exact fused_beginSweep h₀
  | case6 => exact fused_writeNodesOut (fused_regionMod (fused_advance h₀))

theorem fused_makeRoom (h₀ : Fused o s) : Fused o (makeRoom e s) := by
  refine .ite h₀ ?_
  split
  · exact h₀
  · split
    · exact .ite (fused_writeBack h₀) (fused_regionMod h₀)
    · exact h₀

theorem fused_cacheNode {n : Node} (h₀ : Fused o s) : Fused o (cacheNode k level idx n s) := by
  unfold cacheNode
  split
  · exact h₀
  · exact .ite (.set (fused_regionMod (fused_makeRoom h₀))) (fused_makeRoom h₀)

theorem fused_walkNode (h₀ : Fused o s) : Fused o (walkNode k level idx s) := by
  unfold walkNode
  split
  · exact h₀
  · refine .ite h₀ ?_
    split
    · exact h₀
    · refine .ite (fused_cacheNode h₀) ?_
      split
      · exact h₀
      · exact .ite (fused_cacheNode h₀) (fused_gongHalt h₀)

theorem fused_walk (h₀ : Fused o s) : Fused o (walk k leaf n s) := by
  induction n generalizing s with
  | zero => exact h₀
  | succ _ ih => exact ih (fused_walkNode h₀)

theorem fused_touchPath (h₀ : Fused o s) : Fused o (touchPath k leaf s) := .set (fused_regionMod h₀)
theorem fused_jobMod {g : PoolJob → PoolJob} (h₀ : Fused o s) : Fused o (jobMod id g s) := .set h₀

theorem fused_walkAll {h : Nat} (h₀ : Fused o s) : Fused o (walkAll k h l s) := by
  induction l generalizing s with
  | nil => exact h₀
  | cons _ _ ih => exact ih (fused_walk h₀)

theorem fused_issueFetches (h₀ : Fused o s) : Fused o (issueFetches id s) := by
  unfold issueFetches
  dsimp only
  split
  · exact h₀
  · split
    · exact h₀
    · exact .ite h₀ (fused_jobMod (fused_sendAll (fused_sendAll (fused_regionMod (fused_sendAll h₀)))))

theorem fused_answerMember {member : BitVec 12} {job : W16} {ret : BitVec 4} {ptag : W32} {pop : Byte} {rid : BitVec 40} (h₀ : Fused o s) :
    Fused o (answerMember member job ret ptag pop rid offset length status data s) := by
  unfold answerMember
  dsimp only
  split
  · exact h₀
  · exact .ite h₀ (fused_enqueue h₀)

theorem fused_sendMgmt {dst : BitVec 12} {bytes : List Byte} (h₀ : Fused o s) : Fused o (sendMgmt f dst bytes s) :=
  h₀.sendsOnly (sendsOnly_sendMgmt ..)

theorem fused_cancelOffer {nk : BitVec 12} {step : Nat} {st : W16} {d : W32} (h₀ : Fused o s) :
    Fused o (cancelOffer k nk step st d s) := by
  unfold cancelOffer
  split
  · exact .ite (fused_sendMgmt h₀) h₀
  · exact h₀

theorem fused_clearJobWaits (h₀ : Fused o s) : Fused o (clearJobWaits id s) := fused_stampMet (.set h₀)
theorem fused_doneLocal (h₀ : Fused o s) : Fused o (doneLocal f ctx gen status s) := .ite (fused_emit h₀) (fused_countFn h₀)
theorem fused_holdRead {fport job : Nat} (h₀ : Fused o s) : Fused o (holdRead fport f ctx gen job data s) := fused_emit (.set h₀)

theorem fused_finishJob (h₀ : Fused o s) : Fused o (finishJob id status detail data s) := by
  unfold finishJob
  split
  · exact h₀
  · split
    · exact .ite (fused_doneLocal (fused_clearJobWaits (.set h₀))) (fused_holdRead (.set h₀))
    · exact fused_answerMember (.set (fused_clearJobWaits h₀))
    · exact .ite (.set h₀) (fused_emit (.set h₀))
    · exact .ite (.set (fused_clearJobWaits h₀)) (fused_jobMod (fused_clearJobWaits h₀))

theorem fused_finishJobs {p : PoolJob → Bool} {l : List PoolJob} (h₀ : Fused o s) : Fused o (finishJobs p status detail l s) := by
  induction l generalizing s with
  | nil => exact h₀
  | cons _ _ ih => exact ih (.ite (fused_finishJob h₀) h₀)

theorem fused_settleJob (h₀ : Fused o s) : Fused o (settleJob id s) := by
  unfold settleJob
  split
  · exact h₀
  · exact .ite (fused_finishJob h₀) h₀

theorem fused_beginSweeps (h₀ : Fused o s) : Fused o (beginSweeps k l s) := by
  induction l generalizing s with
  | nil => exact h₀
  | cons _ _ ih => exact ih (fused_beginSweep h₀)

theorem fused_bufferLines {l : List (Nat × Line)} (h₀ : Fused o s) : Fused o (bufferLines k l s) := fused_regionMod h₀

theorem fused_runWrite {j : PoolJob} (h₀ : Fused o s) : Fused o (runWrite id j r s) :=
  .ite (fused_finishJob h₀) (.ite (fused_beginSweeps h₀) (fused_jobMod (fused_regionMod (fused_writeLinesOut (fused_advanceLines
    (fused_bufferLines h₀))))))

theorem fused_showLines (h₀ : Fused o s) : Fused o (showLines id s) := by
  unfold showLines
  split
  · exact h₀
  · split
    · exact fused_foldl (fun _ _ => fused_emit) (fused_jobMod h₀)
    · exact h₀

theorem fused_runJob (h₀ : Fused o s) : Fused o (runJob id s) := by
  unfold runJob
  dsimp only
  split
  · exact h₀
  · split
    · exact h₀
    · split
      · exact fused_gongHalt h₀
      · split
        · exact .ite h₀ (fused_finishJob h₀)
        · refine .ite h₀ ?_
          split
          · exact fused_finishJob (fused_eachIdx (fun _ _ => fused_touchPath) h₀)
          · exact fused_runWrite (fused_eachIdx (fun _ _ => fused_touchPath) h₀)

theorem fused_advanceJob (h₀ : Fused o s) : Fused o (advanceJob id s) := by
  unfold advanceJob
  split
  · exact h₀
  · refine .ite (fused_settleJob h₀) ?_
    split
    · exact h₀
    · exact .ite (fused_cacheKid h₀) (.ite (fused_showLines (fused_issueFetches (fused_walkAll (fused_cacheKid h₀)))) (fused_runJob
      (fused_showLines (fused_issueFetches (fused_walkAll (fused_cacheKid h₀))))))

theorem fused_advanceJobs (h₀ : Fused o s) : Fused o (advanceJobs l s) := by
  induction l generalizing s with
  | nil => exact h₀
  | cons _ _ ih => exact ih (fused_advanceJob h₀)

theorem fused_flushHeld (h₀ : Fused o s) : Fused o (flushHeld k s) := by
  unfold flushHeld
  split
  · exact h₀
  · exact .set (fused_regionMod (fused_writeLinesOut (fused_advanceLines (fused_beginSweeps (fused_finishJobs (fused_finishJobs h₀))))))

theorem fused_sweepMod {g : SweepSt → SweepSt} (h₀ : Fused o s) : Fused o (sweepMod k level idx g s) := fused_regionMod h₀

theorem fused_sweepLeaf (h₀ : Fused o s) : Fused o (sweepLeaf k r w s) :=
  .ite (fused_regionMod (fused_writeLinesOut (fused_bufferLines h₀))) (.ite (fused_sweepMod (fused_sendAll h₀)) h₀)

theorem fused_sweepInner (h₀ : Fused o s) : Fused o (sweepInner k r w s) := by
  unfold sweepInner
  dsimp only
  split
  · exact fused_gongHalt h₀
  · exact .ite (fused_regionMod (fused_writeNodesOut h₀)) (.ite (fused_sweepMod (fused_sendAll h₀)) h₀)

theorem fused_sweepAll {l : List SweepSt} (h₀ : Fused o s) : Fused o (sweepAll k l s) := by
  induction l generalizing s with
  | nil => exact h₀
  | cons _ _ ih =>
    refine ih ?_
    refine .ite ?_ h₀
    split
    · exact .ite (fused_sweepLeaf h₀) (fused_sweepInner h₀)
    · exact h₀

theorem fused_eachRegion (h₀ : Fused o s) : Fused o (eachRegion l s) := by
  induction l generalizing s with
  | nil => exact h₀
  | cons _ _ ih =>
    refine ih ?_
    split
    · exact fused_sweepAll (fused_flushHeld h₀)
    · exact fused_flushHeld h₀

theorem fused_poolRounds (h₀ : Fused o s) : Fused o (poolRounds n s) := by
  induction n generalizing s with
  | zero => exact h₀
  | succ _ ih => exact ih (fused_eachRegion (fused_advanceJobs h₀))

theorem fused_trimDirty (h₀ : Fused o s) : Fused o (trimDirty e n s) := by
  induction n generalizing s with
  | zero => exact h₀
  | succ _ ih =>
    refine .ite h₀ ?_
    split
    · exact h₀
    · exact ih (fused_writeBack h₀)

theorem fused_poolPump (h₀ : Fused o s) : Fused o (poolPump s) :=
  .ite h₀ (fused_eachIdx (fun _ _ => fused_trimDirty) (fused_poolRounds h₀))

theorem fused_addJob {from_ : PoolFrom} {kind : PoolKind} (h₀ : Fused o s) : Fused o (addJob k from_ kind offset length data s).2 :=
  .set h₀

theorem fused_writeBackLevel (h₀ : Fused o s) : Fused o (writeBackLevel k level s) := by
  unfold writeBackLevel
  split
  · exact h₀
  · exact fused_writeNodesOut (fused_regionMod (fused_eachIdx (fun _ _ => fused_advance) (fused_eachIdx (fun _ _ => fused_beginSweep) h₀)))

theorem fused_writeBackAll {n' : Nat} (h₀ : Fused o s) : Fused o (writeBackAll k n n' s) := by
  induction n generalizing s n' with
  | zero => exact h₀
  | succ _ ih => exact ih (fused_writeBackLevel h₀)

theorem fused_dropRegion (h₀ : Fused o s) : Fused o (dropRegion k s) := .set h₀

theorem fused_parkRegion (h₀ : Fused o s) : Fused o (parkRegion k s) := by
  unfold parkRegion
  split
  · exact h₀
  · exact .ite (fused_dropRegion h₀) (fused_dropRegion (.set h₀))

theorem fused_unparkFences (h₀ : Fused o s) : Fused o (unparkFences k s) := by
  unfold unparkFences
  dsimp only
  split
  · exact h₀
  · split
    · exact fused_regionMod (.set h₀)
    · exact h₀

theorem fused_loseRegion (h₀ : Fused o s) : Fused o (loseRegion k s) := by
  unfold loseRegion
  split
  · exact h₀
  · exact fused_finishJobs (fused_regionMod (.set h₀))

theorem fused_freeRegion (h₀ : Fused o s) : Fused o (freeRegion k s) := by
  unfold freeRegion
  split
  · exact h₀
  · exact .ite (fused_dropRegion h₀) (fused_newExch (fused_dropRegion h₀))

end Sys2Proof.Machine
end

section
/-! SUPPORT. Fuses stay burned through the losses of peers, of neighbours and of homes. -/
namespace Sys2Proof.Machine

variable {o : OtpSt} {s : State} {pkg : BitVec 12} {port : Fin 32} {cause : Byte} {p : InProg} {k : Nat} {l : List InProg} {gone : W16 →
  W32 → Bool}

theorem fused_endPeerLost (h₀ : Fused o s) : Fused o (endPeerLost pkg p s) := fused_complete h₀

theorem fused_undoEntry {dir : Nat} {dirIndex : W32} {step jobId : Nat} (h₀ : Fused o s) :
    Fused o (undoEntry p dir dirIndex step jobId s) := by
  unfold undoEntry
  dsimp only
  split
  · exact .ite (.set h₀) (fused_addJob (.set h₀))
  · exact .set h₀

theorem fused_failRegionCmds {home : BitVec 12} (h₀ : Fused o s) : Fused o (failRegionCmds k home l s) := by
  induction l generalizing s with
  | nil => exact h₀
  | cons _ _ ih =>
    refine ih ?_
    refine .ite h₀ ?_
    split
    · exact fused_endPeerLost (fused_releaseKid (.set h₀))
    · exact fused_endPeerLost (fused_releaseKid (.set h₀))
    · exact .ite (fused_endPeerLost (fused_undoEntry h₀)) (.ite (fused_endPeerLost (fused_regionMod h₀)) h₀)
    · exact .ite (fused_endPeerLost (fused_cancelOffer h₀)) h₀
    · exact h₀

theorem fused_regionLost (h₀ : Fused o s) : Fused o (regionLost k s) := by
  unfold regionLost
  split
  · exact h₀
  · exact fused_asyncRecord (fused_failRegionCmds (fused_loseRegion h₀))

theorem fused_regionsLost {l : List Nat} (h₀ : Fused o s) : Fused o (regionsLost l s) := by
  induction l generalizing s with
  | nil => exact h₀
  | cons _ _ ih =>
    unfold regionsLost
    split
    · exact ih h₀
    · exact ih (fused_failRegionCmds (fused_loseRegion h₀))

theorem fused_purgeQueue (h₀ : Fused o s) : Fused o (purgeQueue gone port s) :=
  fused_foldl (fun _ _ => fused_countPort) (fused_portMod h₀)

theorem fused_purgeWaits {l : List WaitSt} (h₀ : Fused o s) : Fused o (purgeWaits gone l s) := by
  induction l generalizing s with
  | nil => exact h₀
  | cons _ _ ih => exact .ite (ih (fused_returnCredits (fused_countPort (.set h₀)))) (ih h₀)

theorem fused_failStreamCmds (h₀ : Fused o s) : Fused o (failStreamCmds pkg l s) := by
  induction l generalizing s with
  | nil => exact h₀
  | cons _ _ ih =>
    refine ih ?_
    split
    · exact .ite (fused_endPeerLost (fused_releaseKid h₀)) h₀
    · exact .ite (fused_endPeerLost (fused_releaseKid (fused_releaseKid h₀))) h₀
    · exact .ite (fused_endPeerLost h₀) h₀
    · exact .ite (fused_endPeerLost h₀) h₀
    · exact .ite (fused_endPeerLost (fused_regionMod h₀)) h₀
    · exact h₀

theorem fused_breakFences {shared : Bool} {f : Fn} {l : List Nat} (h₀ : Fused o s) : Fused o (breakFences pkg shared f l s) := by
  induction l generalizing s with
  | nil => exact h₀
  | cons _ _ ih => exact ih (.ite (fused_setErr h₀) h₀)

theorem fused_breakAll {sharing l : List Fn} (h₀ : Fused o s) : Fused o (breakAll pkg sharing l s) := by
  induction l generalizing s with
  | nil => exact h₀
  | cons _ _ ih => exact ih (fused_breakFences h₀)

theorem fused_reportLost {l : List Fn} (h₀ : Fused o s) : Fused o (reportLost pkg l s) := by
  induction l generalizing s with
  | nil => exact h₀
  | cons _ _ ih => exact ih (fused_asyncRecord h₀)

theorem fused_failMembers (h₀ : Fused o s) : Fused o (failMembers pkg s) := fused_foldl (fun _ _ => fused_emit) (.set h₀)

theorem fused_peerLoss (h₀ : Fused o s) : Fused o (peerLoss pkg s) :=
  fused_poolPump (fused_reportLost (fused_trace (.set (fused_foldl (fun _ _ h => fused_releaseKid (.set h)) (fused_failMembers
    (fused_regionsLost (fused_purgeWaits (fused_eachPort (fun _ _ => fused_purgeQueue) (fused_breakAll (.set (fused_failStreamCmds
    (fused_retireKids (.set h₀)))))))))))))

theorem fused_purgeForwards (h₀ : Fused o s) : Fused o (purgeForwards port s) := by
  refine fused_returnQueued ?_
  refine fused_foldl ?_ (fused_portMod h₀)
  intro _ _ h
  split
  · exact fused_countPort h
  · exact h

theorem fused_proxyKnells {lostBoot : W64} {l : List (BitVec 12)} (h₀ : Fused o s) :
    Fused o (proxyKnells port pkg cause lostBoot l s) := by
  induction l generalizing s with
  | nil => exact h₀
  | cons _ _ ih =>
    refine ih ?_
    split
    · exact fused_sendControl (fused_portMod h₀)
    · exact fused_countPort h₀

theorem fused_neighbourLost (h₀ : Fused o s) : Fused o (neighbourLost port cause s) := by
  refine .ite h₀ ?_
  split
  · exact fused_purgeForwards (fused_portMod h₀)
  · exact fused_peerLoss (fused_proxyKnells (.ite (fused_sendControl (fused_portMod (fused_purgeForwards (fused_portMod h₀))))
    (fused_purgeForwards (fused_portMod h₀))))

theorem fused_portLost (h₀ : Fused o s) : Fused o (portLost port cause s) := fused_takeDown (fused_neighbourLost (fused_portMod h₀))

end Sys2Proof.Machine
end

section
/-! SUPPORT. Fuses stay burned through the operations of the Tabor gate. -/
namespace Sys2Proof.Machine

variable {o : OtpSt} {s : State} {v : ViewId} {f : Fn}

theorem fused_viewMod {g : ViewSt → ViewSt} (h₀ : Fused o s) : Fused o (viewMod v g s) := by
  unfold viewMod
  split <;> exact .set h₀

theorem fused_applyEvents {l : List TaborEv} (h₀ : Fused o s) : Fused o (applyEvents l s) := by
  induction l generalizing s with
  | nil => exact h₀
  | cons _ _ ih => exact ih (fused_countOp h₀)

theorem fused_applyBefore {fn : Nat} {tick : Option Nat} (h₀ : Fused o s) : Fused o (applyBefore fn tick s) := fused_applyEvents (.set h₀)
theorem fused_closeWindow (h₀ : Fused o s) : Fused o (closeWindow v s) := fused_viewMod h₀

theorem fused_windowEnd (h₀ : Fused o s) : Fused o (windowEnd v s) := by
  unfold windowEnd
  split
  · exact fused_traceVf (fused_viewMod (fused_closeWindow (fused_applyBefore h₀)))
  · exact fused_viewMod (fused_closeWindow (fused_applyBefore h₀))

theorem fused_resetViews (h₀ : Fused o s) : Fused o (resetViews f s) := by
  unfold resetViews
  split
  · exact h₀
  · exact .set (fused_viewMod (fused_viewMod (fused_closeWindow (fused_applyBefore h₀))))

theorem fused_freezeViews (h₀ : Fused o s) : Fused o (freezeViews f s) := by
  unfold freezeViews
  split
  · exact h₀
  · exact fused_viewMod (fused_viewMod (.set (fused_closeWindow (fused_closeWindow (fused_applyBefore h₀)))))

end Sys2Proof.Machine
end

section
/-! SUPPORT. Fuses stay burned through the ends of contexts, of jobs and of VFs. -/
namespace Sys2Proof.Machine

variable {o : OtpSt} {s : State} {f : Fn} {ctx : W16} {l : List Fn} {k : Nat} {p : InProg} {self : Fn × W32} {any : Bool} {c : CleanSt}

theorem fused_closeStreams {p : Fn → W16 → Bool} (h₀ : Fused o s) : Fused o (closeStreams p s) :=
  fused_retireKids (fused_purgeWaits (fused_eachPort (fun _ _ => fused_purgeQueue) (.set h₀)))

theorem fused_countFnN {code n : Nat} (h₀ : Fused o s) : Fused o (countFnN f code n s) := by
  induction n generalizing s with
  | zero => exact h₀
  | succ _ ih => exact ih (fused_countFn h₀)

theorem fused_uncacheCtx (h₀ : Fused o s) : Fused o (uncacheCtx f ctx s) := fused_foldl (fun _ _ => fused_finishRetire) (.set h₀)

theorem fused_foldSet (h₀ : Fused o s) : Fused o (foldSet f ctx s) := by
  unfold foldSet
  split
  · exact h₀
  · exact fused_emit (.set h₀)

theorem fused_clearCtx (h₀ : Fused o s) : Fused o (clearCtx f ctx s) :=
  fused_foldSet (.set (fused_uncacheCtx (fused_closeStreams (fused_countFnN (.set h₀)))))

theorem fused_toScrubber {opcode : W32} {carve : Option Nat} {l : List (Nat × Nat)} (h₀ : Fused o s) :
    Fused o (toScrubber opcode carve l s) :=
  .set h₀

theorem fused_freeObj {i : Nat} {x : ObjSt} (h₀ : Fused o s) : Fused o (freeObj f i x s) :=
  .ite (fused_toScrubber (fused_fnMod h₀)) (fused_fnMod h₀)

theorem fused_settleObjs {l : FMap ObjSt} (h₀ : Fused o s) : Fused o (settleObjs f l s) := by
  induction l generalizing s with
  | nil => exact h₀
  | cons _ _ ih => exact ih (.ite (fused_freeObj h₀) h₀)

theorem fused_settleAllObjs (h₀ : Fused o s) : Fused o (settleAllObjs l s) := by
  induction l generalizing s with
  | nil => exact h₀
  | cons _ _ ih => exact ih (fused_settleObjs h₀)

theorem fused_unmapObjs {p : ObjSt → Bool} {scrub : Bool} (h₀ : Fused o s) : Fused o (unmapObjs f p scrub s) := fused_fnMod h₀

theorem fused_closeBulk (h₀ : Fused o s) : Fused o (closeBulk k s) := by
  unfold closeBulk
  split
  · exact h₀
  · exact .ite (.set h₀) (fused_finishRetire (fused_uncacheKid (.set h₀)))

theorem fused_closeBulks {p : BulkCtx → Bool} (h₀ : Fused o s) : Fused o (closeBulks p s) :=
  fused_eachIdx (fun _ _ => fused_closeBulk) h₀

theorem fused_resetEngine {e : Nat} (h₀ : Fused o s) : Fused o (resetEngine e s) :=
  fused_foldl (fun _ _ => fused_finishRetire) (fused_clearCache (.set (.set h₀)))

theorem fused_endReplay (h₀ : Fused o s) : Fused o (endReplay s) := by
  unfold endReplay
  split
  · exact fused_resetEngine (.set h₀)
  · exact h₀

theorem fused_releaseHolds (h₀ : Fused o s) : Fused o (releaseHolds p s) := by
  unfold releaseHolds
  split
  · exact fused_releaseKid h₀
  · exact fused_releaseKid (.set h₀)
  · exact fused_releaseKid (.set h₀)
  · exact .ite (fused_regionMod h₀) (fused_parkRegion h₀)
  · exact .ite (fused_regionMod (fused_cancelOffer h₀)) (fused_dropRegion h₀)
  · exact fused_freeRegion h₀
  · exact fused_releaseKid h₀
  · exact .ite (fused_retireKids (.set (.ite (fused_retireKid (.set h₀)) (fused_releaseKid h₀)))) (fused_releaseKid (.ite (fused_retireKid
    (.set h₀)) (fused_releaseKid h₀)))
  · exact fused_releaseKid h₀
  · exact fused_releaseKid h₀
  · exact fused_endReplay h₀
  · exact h₀

theorem fused_leaveOut {q : InProg} (h₀ : Fused o s) : Fused o (leaveOut q s) := .ite (.set h₀) h₀

theorem fused_abortCmd (h₀ : Fused o s) : Fused o (abortCmd p s) := by
  unfold abortCmd
  split
  · exact h₀
  · exact fused_complete (fused_releaseHolds (fused_leaveOut h₀))

theorem fused_abortCmds {l : List InProg} (h₀ : Fused o s) : Fused o (abortCmds l s) := by
  induction l generalizing s with
  | nil => exact h₀
  | cons _ _ ih => exact ih (fused_abortCmd h₀)

theorem fused_switchBulk (h₀ : Fused o s) : Fused o (switchBulk f ctx s) :=
  .set (fused_foldl (fun _ _ h => fused_finishRetire (fused_uncacheKid h)) (fused_abortCmds h₀))

theorem fused_beginFree {opcode : Byte} (h₀ : Fused o s) : Fused o (beginFree opcode k s) := by
  unfold beginFree
  split
  · exact h₀
  · exact .ite (fused_retireKid (fused_regionMod h₀)) (fused_regionMod h₀)

theorem fused_endRegion (h₀ : Fused o s) : Fused o (endRegion k s) := by
  unfold endRegion
  split
  · exact h₀
  · exact .ite (fused_dropRegion h₀) (fused_freeRegion h₀)

theorem fused_endRegions {l : List Nat} (h₀ : Fused o s) : Fused o (endRegions l s) := by
  induction l generalizing s with
  | nil => exact h₀
  | cons _ _ ih => exact ih (fused_endRegion h₀)

theorem fused_beginEnd (h₀ : Fused o s) : Fused o (beginEnd f s) :=
  fused_retireKids (fused_eachIdx (fun _ _ => fused_beginFree) (fused_closeStreams h₀))

theorem fused_unbind (h₀ : Fused o s) : Fused o (unbind f s) := by
  unfold unbind
  split
  · exact h₀
  · exact .set (fused_fnMod h₀)

theorem fused_abandonCtx (h₀ : Fused o s) : Fused o (abandonCtx f ctx self s).2.2 := by
  unfold abandonCtx
  dsimp only
  exact fused_retireKids (fused_eachIdx (fun _ _ => fused_beginFree) (fused_closeBulks (fused_unmapObjs (fused_abandonFences
    (fused_abortCmds (fused_clearCtx (fused_fnMod h₀)))))))

theorem fused_abandonAll {l : List Nat} (h₀ : Fused o s) : Fused o (abandonAll f self l s) := by
  induction l generalizing s with
  | nil => exact h₀
  | cons _ _ ih => exact ih (fused_abandonCtx h₀)

theorem fused_blockCarve (h₀ : Fused o s) : Fused o (blockCarve k s) := .ite h₀ (.set h₀)

theorem fused_startCleanup {byReset : Option (Fn × W32)} (h₀ : Fused o s) : Fused o (startCleanup f byReset s) := by
  refine .ite ?_ (fused_resetViews (fused_fnMod (fused_retireKids (fused_closeBulks (fused_beginEnd (fused_freeAllFences (fused_unmapObjs
    (fused_abandonAll (fused_abortCmds (fused_ringMod h₀))))))))))
  split
  · exact fused_fnMod h₀
  · exact h₀

theorem fused_tdiError (h₀ : Fused o s) : Fused o (tdiError any f s) := .ite (fused_startCleanup (fused_fnMod h₀)) h₀

theorem fused_tdisErrorClean (h₀ : Fused o s) : Fused o (tdisErrorClean any l s) := by
  induction l generalizing s with
  | nil => exact h₀
  | cons _ _ ih => exact ih (fused_tdiError h₀)

theorem fused_answerStops {l : List (BitVec 1)} (h₀ : Fused o s) : Fused o (answerStops f l s) := by
  induction l generalizing s with
  | nil => exact h₀
  | cons _ _ ih => exact ih (fused_emit h₀)

theorem fused_disableRing (h₀ : Fused o s) : Fused o (disableRing f s) := fused_settleRing (fused_ringMod h₀)
theorem fused_flushFn (h₀ : Fused o s) : Fused o (flushFn f s) := .ite (fused_emit h₀) h₀

theorem fused_flushFns (h₀ : Fused o s) : Fused o (flushFns l s) := by
  induction l generalizing s with
  | nil => exact h₀
  | cons _ _ ih => exact ih (fused_flushFn h₀)

theorem fused_blockCarves (h₀ : Fused o s) : Fused o (blockCarves f s) :=
  fused_fnMod (fused_eachIdx (fun _ _ => fused_blockCarve) (fused_unbind (fused_endRegions h₀)))

theorem fused_endCleanup (h₀ : Fused o s) : Fused o (endCleanup f c s) := by
  unfold endCleanup
  extract_lets s₁ gen flushed told closed s₂ owed s₃
  have h₂ : Fused o s₂ := by
    have h₁ : Fused o s₁ := fused_fnMod h₀
    have hclosed : Fused o closed := fused_disableRing (fused_trace (fused_asyncRecord (fused_flushFn h₁)))
    unfold s₂
    split
    · split
      · exact fused_complete hclosed
      · exact hclosed
    · exact fused_disableRing h₁
  exact fused_answerStops (.ite h₂ (fused_fnMod h₂))

theorem fused_settleCleanup (h₀ : Fused o s) : Fused o (settleCleanup f c s) :=
  .ite h₀ (.ite (.ite h₀ (fused_blockCarves h₀)) (fused_endCleanup (.ite h₀ (fused_blockCarves h₀))))

theorem fused_settleCleanups (h₀ : Fused o s) : Fused o (settleCleanups l s) := by
  induction l generalizing s with
  | nil => exact h₀
  | cons _ _ ih =>
    refine ih ?_
    split
    · exact fused_settleCleanup h₀
    · exact h₀

end Sys2Proof.Machine
end

section
/-! SUPPORT. Fuses stay burned through the last parts of commands on keys, regions, streams and partitions. -/
namespace Sys2Proof.Machine

variable {o : OtpSt} {s : State} {job jobId kid : W16} {key step : Nat} {f vf : Fn} {p : InProg} {sid : W32}

theorem fused_goOn {hold : Hold} {act : Act} (h₀ : Fused o s) : Fused o (goOn p hold act s) := fused_holdCmd h₀

theorem fused_claimAll {l : List (BitVec 12 × W16)} (h₀ : Fused o s) : Fused o (claimAll f job l s) := by
  induction l generalizing s with
  | nil => exact h₀
  | cons _ _ ih => exact ih (.ite (fused_countFn h₀) (.set h₀))

theorem fused_applyFilter {x : FilterImage} (h₀ : Fused o s) : Fused o (applyFilter f x s) := .ite (fused_claimAll h₀) (fused_countFn h₀)

theorem fused_actJoin {key : Key} {ok : Bool} (h₀ : Fused o s) : Fused o (actJoin p jobId kid key ok s) := by
  refine .ite (fused_complete (fused_releaseKid h₀)) ?_
  refine fused_complete ?_
  split
  · exact .ite (fused_applyFilter (fused_fnMod (fused_fnMod (fused_activateKid (fused_placeKey h₀))))) (fused_fnMod (fused_activateKid
    (fused_placeKey h₀)))
  · exact fused_fnMod (fused_activateKid (fused_placeKey h₀))

theorem fused_actLeave (h₀ : Fused o s) : Fused o (actLeave p jobId s) := fused_goOn (fused_beginEnd h₀)

theorem fused_actLeaveDone {keys : List Nat} (h₀ : Fused o s) : Fused o (actLeaveDone p keys s) :=
  fused_complete (fused_unbind (fused_endRegions h₀))

theorem fused_cmdJob {k : Nat} {kind : PoolKind} {offset length : Nat} {data : List Byte} (h₀ : Fused o s) :
    Fused o (cmdJob p k kind offset length data s).2 :=
  fused_addJob h₀

theorem fused_takeJob {id : Nat} (h₀ : Fused o s) : Fused o (takeJob id s).2.2.2 := by
  unfold takeJob
  split
  · exact .set h₀
  · exact h₀

theorem fused_actPark {jobId : Nat} (h₀ : Fused o s) : Fused o (actPark p key dir kid dirIndex durable step jobId s) := by
  have hjob : Fused o (takeJob jobId s).2.2.2 := fused_takeJob h₀
  unfold actPark
  split
  · dsimp only
    split
    · exact .ite (fused_complete (fused_regionMod hjob)) (.ite (fused_complete (fused_regionMod hjob)) (fused_goOn hjob))
    · exact .ite (fused_poolPump (fused_goOn (fused_cmdJob h₀))) (fused_poolPump (fused_writeBackAll h₀))
    · exact .ite (fused_complete (fused_regionMod hjob)) (.ite (fused_goOn hjob) (fused_goOn (fused_retireKid hjob)))
    · exact fused_goOn (fused_retireKid h₀)
    · exact fused_complete (fused_parkRegion h₀)
  · exact fused_complete (fused_regionMod h₀)

theorem fused_failResume {st : W16} {dt : W32} (h₀ : Fused o s) : Fused o (failResume p key kid st dt s) :=
  fused_complete (fused_releaseKid (.set h₀))

theorem fused_actResume {jobId : Nat} (h₀ : Fused o s) : Fused o (actResume p key dir kid dirIndex durable step jobId s) := by
  have hjob : Fused o (takeJob jobId s).2.2.2 := fused_takeJob h₀
  unfold actResume
  split
  · dsimp only
    split
    · refine .ite (fused_failResume hjob) (.ite (fused_failResume hjob) ?_)
      split
      · exact fused_failResume hjob
      · exact .ite (fused_failResume hjob) (fused_poolPump (fused_goOn (fused_cmdJob (fused_regionMod (fused_placeKey hjob)))))
    · exact .ite (fused_failResume hjob) (fused_goOn hjob)
    · exact fused_complete (fused_regionMod (fused_activateKid (fused_unparkFences h₀)))
  · exact fused_failResume h₀

theorem fused_actHandover {newKeeper : BitVec 12} (h₀ : Fused o s) : Fused o (actHandover p key newKeeper step s) := by
  unfold actHandover
  split
  · exact fused_complete h₀
  · exact .ite (.ite (fused_goOn (fused_sendMgmt h₀)) (fused_poolPump (fused_writeBackAll h₀))) (fused_complete (fused_dropRegion h₀))

theorem fused_actReduce {ids : List Nat} (h₀ : Fused o s) : Fused o (actReduce p ids s) := by
  unfold actReduce
  dsimp only
  split <;> exact fused_complete (.set h₀)

theorem fused_actRotate (h₀ : Fused o s) : Fused o (actRotate p job sid s) := by
  unfold actRotate
  split
  · exact fused_complete (fused_activateKid h₀)
  · exact fused_complete h₀

theorem fused_actClose {sending receiving : Bool} (h₀ : Fused o s) : Fused o (actClose p sid job sending receiving s) :=
  .ite (fused_goOn (fused_endSend h₀)) (.ite h₀ (fused_complete h₀))

theorem fused_actCarve {base limit : Nat} (h₀ : Fused o s) : Fused o (actCarve p key base limit step s) := by
  refine .ite ?_ (.ite (fused_goOn (.set h₀)) (fused_complete h₀))
  split
  · exact fused_goOn h₀
  · exact fused_complete h₀

theorem fused_actAbandon {newGen : W16} {regions : List Nat} (h₀ : Fused o s) : Fused o (actAbandon p newGen regions s) :=
  fused_complete (fused_eachIdx (fun _ _ => fused_freeRegion) h₀)

theorem fused_actReset (h₀ : Fused o s) : Fused o (actReset p vf s) :=
  fused_startCleanup (.ite (fused_fnMod (fused_goOn h₀)) (fused_goOn h₀))

theorem fused_actFreeze (h₀ : Fused o s) : Fused o (actFreeze p vf step s) :=
  .ite (fused_goOn (.set (fused_closeStreams (fused_fnMod h₀)))) (fused_complete (fused_freezeViews h₀))

end Sys2Proof.Machine
end

section
/-! SUPPORT. Fuses stay burned through the firewall's and the carve-out table's operations. -/
namespace Sys2Proof.Machine

variable {o : OtpSt} {s : State} {k n n' : Nat} {f : Fn}

theorem fused_countRefused (h₀ : Fused o s) : Fused o (countRefused f n n' s) := .set (fused_countFn h₀)

theorem fused_markWrite (h₀ : Fused o s) : Fused o (markWrite f n n' s) :=
  .ite (fused_fnMod (.ite (fused_fnMod h₀) h₀)) (.ite (fused_fnMod h₀) h₀)

theorem fused_firewallAccess {m : MemAccess} (h₀ : Fused o s) : Fused o (firewallAccess m s) :=
  .ite h₀ (.ite (fused_emit (.set (.ite (fused_markWrite h₀) h₀))) (fused_emit (fused_countRefused h₀)))

theorem fused_carveMod {g : CarveSt → CarveSt} (h₀ : Fused o s) : Fused o (carveMod k g s) := .set h₀

theorem fused_enterBlocked (h₀ : Fused o s) : Fused o (enterBlocked k s) :=
  .ite (fused_carveMod h₀) (fused_toScrubber (fused_carveMod h₀))

theorem fused_endShrink {base limit : Nat} (h₀ : Fused o s) : Fused o (endShrink k base limit s) :=
  .ite (fused_enterBlocked (fused_carveMod (fused_toScrubber h₀))) (fused_carveMod (fused_toScrubber h₀))

theorem fused_takeMarks {fn : Nat} {cmd : Fn × W32} (h₀ : Fused o s) : Fused o (takeMarks fn cmd s) := by
  unfold takeMarks
  split
  · exact h₀
  · split
    · exact fused_modProg (fused_sendHost (fused_fnMod h₀))
    · exact h₀

theorem fused_applyStaged {c : Staged} (h₀ : Fused o s) : Fused o (applyStaged c s) := by
  unfold applyStaged
  split
  · exact fused_carveMod h₀
  · exact fused_carveMod h₀
  · exact fused_endShrink h₀
  · exact .ite h₀ (fused_enterBlocked h₀)
  · exact fused_carveMod h₀
  · exact fused_eachIdx (fun _ _ => fused_carveMod) h₀
  · exact fused_fnMod h₀
  · exact fused_takeMarks h₀

theorem fused_applyAll {l : List Staged} (h₀ : Fused o s) : Fused o (applyAll l s) := by
  induction l generalizing s with
  | nil => exact h₀
  | cons _ _ ih => exact ih (fused_applyStaged h₀)

theorem fused_passBoundary (h₀ : Fused o s) : Fused o (passBoundary s) := .set h₀
theorem fused_epochBoundary (h₀ : Fused o s) : Fused o (epochBoundary s) := fused_passBoundary (fused_applyAll (.set h₀))

end Sys2Proof.Machine
end

section
/-! SUPPORT. Fuses stay burned through the bulk engines' operations. -/
namespace Sys2Proof.Machine

variable {o : OtpSt} {s : State} {dst a : W64} {bctx : W32} {p : InProg} {wrapped : Bool} {r : BulkDone} {op : BulkOperands} {aux : Fetched
  Aux} {f
  : Fn} {k : Nat} {b : BulkCtx} {rec : Fetched BulkRec}

theorem fused_markSpace {n : Nat} (h₀ : Fused o s) : Fused o (markSpace f a n s) := .ite (fused_markWrite h₀) (fused_markHost h₀)
theorem fused_sendSpace {d : HostData} (h₀ : Fused o s) : Fused o (sendSpace f a d s) := fused_emit (fused_markSpace h₀)

theorem fused_takeTurn {wait : Act} {run : InProg → State → State} (hrun : ∀ x u, Fused o u → Fused o (run x u)) (h₀ : Fused o s) :
    Fused o (takeTurn bctx wait run p s) :=
  .ite (fused_goOn h₀) (.ite (hrun _ _ h₀) (fused_goOn h₀))

theorem fused_toEngine {act : Act} (h₀ : Fused o s) : Fused o (toEngine p k b act s) :=
  fused_emit (fused_goOn (.ite h₀ (.set (fused_cacheKid h₀))))

theorem fused_beginOp (h₀ : Fused o s) : Fused o (beginOp k b op aux s) := by
  unfold beginOp
  split
  · exact .set h₀
  · exact h₀

theorem fused_startOp (h₀ : Fused o s) : Fused o (startOp p k b bctx op aux s) := fused_toEngine (fused_beginOp h₀)

theorem fused_opNow (h₀ : Fused o s) : Fused o (opNow bctx op aux p s) := by
  unfold opNow
  split
  · exact fused_complete h₀
  · split
    · exact fused_complete h₀
    · exact fused_startOp h₀

theorem fused_actBulkOp (h₀ : Fused o s) : Fused o (actBulkOp p bctx op aux s) := fused_takeTurn (fun _ _ => fused_opNow) h₀

theorem fused_opFinish (h₀ : Fused o s) : Fused o (opFinish f bctx op aux r s).2.2 := by
  unfold opFinish
  dsimp only
  split
  · exact h₀
  · split
    · exact .ite (.set h₀) (fused_sendSpace (.set h₀))
    · exact .ite (fused_sendSpace (.ite (.set h₀) (fused_sendSpace (.set h₀)))) (.ite (.set h₀) (fused_sendSpace (.set h₀)))

theorem fused_opDone (h₀ : Fused o s) : Fused o (opDone p bctx op aux r s) := fused_complete (fused_opFinish h₀)

theorem fused_startBulkOpen {engine mode : Byte} {kid : W16} (h₀ : Fused o s) : Fused o (startBulkOpen engine mode kid p s) := by
  unfold startBulkOpen
  split
  · exact h₀
  · split
    · exact h₀
    · exact fused_complete (.set (.ite h₀ (fused_cacheKid h₀)))

theorem fused_startSave (h₀ : Fused o s) : Fused o (startSave p k b bctx dst wrapped s) := fused_toEngine h₀

theorem fused_saveNow (h₀ : Fused o s) : Fused o (saveNow bctx dst wrapped p s) := by
  unfold saveNow
  split
  · exact fused_complete h₀
  · split
    · exact fused_complete h₀
    · exact fused_startSave h₀

theorem fused_actSave (h₀ : Fused o s) : Fused o (actSave p bctx dst wrapped s) := fused_takeTurn (fun _ _ => fused_saveNow) h₀

theorem fused_saveFinish (h₀ : Fused o s) : Fused o (saveFinish f bctx dst wrapped r s).2.2 := by
  unfold saveFinish
  split
  · exact h₀
  · split
    · exact fused_sendSpace h₀
    · exact h₀

theorem fused_saveDone (h₀ : Fused o s) : Fused o (saveDone p bctx dst wrapped r s) := fused_complete (fused_saveFinish h₀)
theorem fused_startRestore (h₀ : Fused o s) : Fused o (startRestore p k b bctx wrapped rec s) := fused_toEngine h₀

theorem fused_restoreNow (h₀ : Fused o s) : Fused o (restoreNow bctx wrapped rec p s) := by
  unfold restoreNow
  split
  · exact fused_complete h₀
  · split
    · exact fused_complete h₀
    · exact fused_startRestore h₀

theorem fused_actRestore (h₀ : Fused o s) : Fused o (actRestore p bctx wrapped rec s) :=
  fused_takeTurn (fun _ _ => fused_restoreNow) h₀

theorem fused_restoreFinish (h₀ : Fused o s) : Fused o (restoreFinish f bctx wrapped rec r s).2.2 := by
  unfold restoreFinish
  dsimp only
  split
  · split
    · exact h₀
    · exact .ite (fused_finishRetire (fused_uncacheKid (.set h₀))) (.set h₀)
  · exact h₀

theorem fused_restoreDone (h₀ : Fused o s) : Fused o (restoreDone p bctx wrapped rec r s) := fused_complete (fused_restoreFinish h₀)

theorem fused_closeNow (h₀ : Fused o s) : Fused o (closeNow bctx p s) := by
  unfold closeNow
  split
  · exact fused_complete h₀
  · exact fused_complete (fused_closeBulk h₀)

theorem fused_actBulkClose (h₀ : Fused o s) : Fused o (actBulkClose p bctx s) := fused_takeTurn (fun _ _ => fused_closeNow) h₀

theorem fused_engineDone (h₀ : Fused o s) : Fused o (engineDone p r s) := by
  refine .ite h₀ ?_
  split
  · exact fused_opDone h₀
  · exact fused_saveDone h₀
  · exact fused_restoreDone h₀
  · exact h₀

end Sys2Proof.Machine
end

section
/-! SUPPORT. Fuses stay burned through the start's operations. -/
namespace Sys2Proof.Machine

variable {o : OtpSt} {s : State} {k base patterns : Nat} {met warm : Bool} {env : StartEnv} {t : TamperSrc} {h : Hash} {units : List Nat}
  {seed : W64}

theorem fused_eraseUser (h₀ : Fused o s) : Fused o (eraseUser s) := fused_emit (.set h₀)
theorem fused_noteSeen (h₀ : Fused o s) : Fused o (noteSeen t s) := .set h₀
theorem fused_setSource (h₀ : Fused o s) : Fused o (setSource t s) := .set h₀
theorem fused_noteSource (h₀ : Fused o s) : Fused o (noteSource t s) := fused_relog (fused_setSource h₀)
theorem fused_raiseLevel (h₀ : Fused o s) : Fused o (raiseLevel t s) := fused_relog (fused_burnKill (.set (fused_setSource h₀)))
theorem fused_fireSource (h₀ : Fused o s) : Fused o (fireSource t s) := fused_tocsin h₀

theorem fused_tamperSource (h₀ : Fused o s) : Fused o (tamperSource t s) :=
  .ite h₀ (.ite (fused_noteSource h₀) (.ite (fused_noteSeen h₀) (.ite (.ite (fused_raiseLevel h₀) (.ite (fused_noteSource (fused_bumpOpen
    h₀)) (fused_bumpOpen h₀))) (fused_fireSource h₀))))

theorem fused_unlessHalted {f : State → State} (hf : ∀ u, Fused o u → Fused o (f u)) (h₀ : Fused o s) : Fused o (unlessHalted f s) :=
  .ite h₀ (hf _ h₀)

theorem fused_afterReset (h₀ : Fused o s) : Fused o (afterReset warm s) := .set h₀

theorem fused_reloadHalt (h₀ : Fused o s) : Fused o (reloadHalt s) := by
  unfold reloadHalt
  split
  · exact .ite (.set h₀) h₀
  · exact h₀

theorem fused_selectProfile (h₀ : Fused o s) : Fused o (selectProfile warm env s) := .ite (.set h₀) (.set h₀)
theorem fused_finishOwner (h₀ : Fused o s) : Fused o (finishOwner k h s) := fused_installOwner (fused_burnMark (fused_burnOwner h₀))

theorem fused_resumeOwner (h₀ : Fused o s) : Fused o (resumeOwner k s) := by
  refine .ite (fused_installOwner (.ite (fused_burnMark (fused_eraseUser h₀)) h₀)) ?_
  split
  · exact fused_finishOwner (.ite (fused_burnMark (fused_eraseUser h₀)) h₀)
  · exact .set (.ite (fused_burnMark (fused_eraseUser h₀)) h₀)

theorem fused_resumeDestroy {bit : Nat} (h₀ : Fused o s) : Fused o (resumeDestroy base bit s) :=
  fused_burnState (.ite (fused_burnMark (fused_eraseUser (.ite (fused_burnMark (fused_burnKill h₀)) h₀))) (.ite (fused_burnMark
    (fused_burnKill h₀)) h₀))

theorem fused_resume (h₀ : Fused o s) : Fused o (resume s) := by
  refine .ite h₀ ?_
  split
  · exact fused_resumeOwner h₀
  · exact .ite (fused_resumeDestroy (.ite (fused_resumeDestroy h₀) h₀)) (.ite (fused_resumeDestroy h₀) h₀)

theorem fused_terminal (h₀ : Fused o s) : Fused o (terminal s) := .ite (fused_romHalt h₀) h₀

theorem fused_drawNonce (h₀ : Fused o s) : Fused o (drawNonce env s) :=
  .ite (fused_romHalt h₀) (.ite (fused_bumpDraw (.set h₀)) (fused_bumpDraw (.set (fused_bumpDraw (.set h₀)))))

theorem fused_heldBoot (h₀ : Fused o s) : Fused o (heldBoot s) := .set h₀

theorem fused_bootStep2 (h₀ : Fused o s) : Fused o (bootStep2 env s) :=
  fused_unlessHalted (fun _ => fused_drawNonce) (fused_unlessHalted (fun _ => fused_advanceBoot) (fused_unlessHalted (fun _ h =>
    fused_terminal h) (fused_unlessHalted (fun _ => fused_provision) (fused_resume (fused_heldBoot (fused_readOtp h₀))))))

theorem fused_trimAll (h₀ : Fused o s) : Fused o (trimAll met env s) := .set h₀

theorem fused_failedDetectors (h₀ : Fused o s) : Fused o (failedDetectors env s) := by
  unfold failedDetectors
  split
  · exact fused_tamperSource h₀
  · exact h₀

theorem fused_keepMisrs {runs : List UnitRun} (h₀ : Fused o s) : Fused o (keepMisrs runs units seed patterns s) := .set h₀
theorem fused_openMisrs (h₀ : Fused o s) : Fused o (openMisrs units seed patterns s) := .set h₀

theorem fused_selfTestStop {logic : Bool} (h₀ : Fused o s) : Fused o (selfTestStop logic env s) := by
  unfold selfTestStop
  dsimp only
  split
  · exact fused_romHalt (.set h₀)
  · exact .set h₀

theorem fused_enterRecovery {reason : Byte} (h₀ : Fused o s) : Fused o (enterRecovery reason s) := .set (.ite (.set h₀) h₀)

theorem fused_pairDie {d n : Nat} {l : List PairTry} (h₀ : Fused o s) : Fused o (pairDie d n l s) := by
  induction n generalizing s l with
  | zero => exact h₀
  | succ _ ih =>
    have h₁ : ∀ x, Fused o (emit x (bumpDraw s)) := fun _ => fused_emit (fused_bumpDraw h₀)
    unfold pairDie
    dsimp only
    split
    · exact .ite (fused_emit (.set (h₁ _))) (ih (h₁ _))
    · exact ih (h₁ _)

theorem fused_pairDies (h₀ : Fused o s) : Fused o (pairDies env s) := fused_foldl (fun _ _ h => .ite h (fused_pairDie h)) h₀
theorem fused_publish (h₀ : Fused o s) : Fused o (publish s) := .set h₀
theorem fused_armPins (h₀ : Fused o s) : Fused o (armPins env s) := .set h₀

theorem fused_firePins (h₀ : Fused o s) : Fused o (firePins s) := by
  unfold firePins
  split
  · exact h₀
  · exact fused_tocsin h₀

theorem fused_deriveIdentity (h₀ : Fused o s) : Fused o (deriveIdentity s) := .ite (.set h₀) h₀
theorem fused_makeReady (h₀ : Fused o s) : Fused o (makeReady env s) := fused_emit (.set h₀)

theorem fused_bootFirmware (h₀ : Fused o s) : Fused o (bootFirmware env s) := by
  unfold bootFirmware
  split
  · exact h₀
  · exact fused_unlessHalted (fun _ => fused_makeReady) (fused_unlessHalted (fun _ => fused_deriveIdentity) (fused_firePins
    (fused_armPins (fused_publish (fused_pairDies (.set h₀))))))

theorem fused_bootBist (h₀ : Fused o s) : Fused o (bootBist met env s) := .ite (fused_keepMisrs (.set h₀)) (fused_openMisrs (.set h₀))

theorem fused_bootFrom3 (h₀ : Fused o s) : Fused o (bootFrom3 met env s) :=
  fused_unlessHalted (fun _ h => .ite (fused_bootFirmware h) (fused_enterRecovery h)) (fused_unlessHalted (fun _ h => fused_selfTestStop h)
    (fused_failedDetectors (fused_trimAll (fused_bootBist h₀))))

theorem fused_start (h₀ : Fused o s) : Fused o (start warm env s) := by
  refine fused_unlessHalted (fun _ h => .ite (fused_bootFrom3 h) (.set h)) ?_
  refine fused_bootStep2 ?_
  refine fused_selectProfile ?_
  refine fused_reloadHalt ?_
  split
  · exact .set (fused_afterReset h₀)
  · exact fused_afterReset h₀

theorem fused_bistRecheck (h₀ : Fused o s) : Fused o (bistRecheck met s) := by
  unfold bistRecheck
  split
  · exact .ite (fused_bootFrom3 h₀) (.ite (fused_bootFrom3 h₀) (.set h₀))
  · exact h₀

end Sys2Proof.Machine
end

section
/-! SUPPORT. Fuses stay burned through the life-cycle transitions and debug grants. -/
namespace Sys2Proof.Machine

variable {o : OtpSt} {s : State} {r : LcReq} {p : InProg} {env : StartEnv}

theorem fused_quiescePackage (h₀ : Fused o s) : Fused o (quiescePackage s) :=
  .set (fused_eachPort (fun _ _ => fused_takeDown) (fused_zeroiseAll (fused_tdisError (fused_knellAll (fused_endPerturb h₀)))))

theorem fused_lcBegin (h₀ : Fused o s) : Fused o (lcBegin r s) :=
  .ite (fused_burnState h₀) (.ite (.set (fused_useToken h₀)) (.ite (fused_burnState (fused_drawPairing h₀)) (.ite (fused_burnState h₀)
    (.ite (fused_emit (.ite (fused_quiescePackage h₀) h₀)) (fused_burnMark (fused_burnKill (fused_burnMark (.ite (fused_quiescePackage h₀)
    h₀))))))))

theorem fused_lcJournal (h₀ : Fused o s) : Fused o (lcJournal r s) := fused_burnMark (.set h₀)

theorem fused_lcErased (h₀ : Fused o s) : Fused o (lcErased r s) :=
  .ite (fused_finishOwner (fused_burnMark (fused_eraseUser h₀))) (fused_burnState (fused_burnMark (fused_eraseUser h₀)))

theorem fused_lcEnd (h₀ : Fused o s) : Fused o (lcEnd r env s) :=
  .ite (.ite h₀ (fused_knellAll h₀)) (.ite (fused_terminal (.set (fused_readOtp (fused_afterReset (.ite h₀ (fused_knellAll h₀))))))
    (fused_start (.ite h₀ (fused_knellAll h₀))))

theorem fused_actLc {step : Nat} (h₀ : Fused o s) : Fused o (actLc p r env step s) :=
  .ite (fused_complete h₀) (.ite (.ite (fused_lcEnd (fused_complete (fused_lcBegin h₀))) (.ite (fused_goOn (fused_lcBegin h₀)) (fused_goOn
    (fused_lcBegin h₀)))) (.ite (fused_goOn (fused_lcJournal h₀)) (fused_lcEnd (fused_complete (fused_lcErased h₀)))))

theorem fused_actOwnerStore {it : OwnerItem} (h₀ : Fused o s) : Fused o (actOwnerStore p it s) := by
  unfold actOwnerStore
  split <;> exact fused_complete (.set h₀)

theorem fused_rightsChanged (h₀ : Fused o s) : Fused o (rightsChanged s) :=
  fused_foldl (fun _ _ => fused_asyncRecord) (fused_trace h₀)

theorem fused_applyGrant (h₀ : Fused o s) : Fused o (applyGrant c kid s) := by
  have hwiden : Fused o (if grantWidens s c then tdisErrorClean false (listedFns s) s else s) := .ite (fused_tdisErrorClean h₀) h₀
  have hold : ∀ u, Fused o u → Fused o (match u.grant with | some g => retireKid g.kid u | none => u) := fun u hu => by
    split
    · exact fused_retireKid hu
    · exact hu
  have hend : ∀ (b : Bool) u, Fused o u → Fused o (if b then u else endPerturb u) := fun _ _ hu => .ite hu (fused_endPerturb hu)
  exact fused_rightsChanged (hend _ _ (.set (fused_activateKid (fused_placeKey (fused_bumpDraw (hold _ hwiden))))))

theorem fused_actGrant {c : Cert} {kid : W16} (h₀ : Fused o s) : Fused o (actGrant p c kid s) :=
  .ite (fused_complete (fused_applyGrant h₀)) (fused_complete (fused_releaseKid h₀))

theorem fused_revokeGrant {g : GrantSt} (h₀ : Fused o s) : Fused o (revokeGrant g s) :=
  fused_rightsChanged (fused_retireKid (fused_endPerturb (.set h₀)))

end Sys2Proof.Machine
end

section
/-! SUPPORT. Fuses stay burned through the requests of compute requesters. -/
namespace Sys2Proof.Machine

variable {o : OtpSt} {s : State} {f : Fn} {q : SealReq} {ctx : W16} {t : TokenPay} {p : ChimePay} {c : Instr}

theorem fused_refuse (h₀ : Fused o s) : Fused o (refuse f ctx s) := fused_emit h₀

theorem fused_queueSeal {t : SendSt} {ftype : Byte} {units : Nat} {batch batchGen : W16} {payload : List Byte} (h₀ : Fused o s) :
    Fused o (queueSeal t ftype units q batch batchGen payload s) :=
  fused_enqueue h₀

theorem fused_sealRequest (h₀ : Fused o s) : Fused o (sealRequest q s) := by
  unfold sealRequest
  split
  · exact fused_refuse h₀
  · exact .ite (fused_refuse h₀) (.ite (fused_queueSeal h₀) (fused_queueSeal h₀))

theorem fused_tokenRequest (h₀ : Fused o s) : Fused o (tokenRequest q t s) := by
  unfold tokenRequest
  split
  · exact fused_refuse h₀
  · exact .ite (fused_queueSeal h₀) (fused_refuse h₀)

theorem fused_refusalRequest {job : W16} {source : BitVec 12} {choice reason : Byte} {expert : W16} (h₀ : Fused o s) :
    Fused o (refusalRequest job source t choice reason expert s) := by
  unfold refusalRequest
  dsimp only
  split
  · split
    · exact fused_countFn h₀
    · exact h₀
  · exact .ite (fused_countFn h₀) (fused_enqueue h₀)

theorem fused_localChime {cls : BitVec 4} {fport : BitVec 3} (h₀ : Fused o s) : Fused o (localChime f ctx cls fport p s) :=
  .ite (fused_refuse h₀) (.ite (fused_refuse (fused_countPkg h₀)) (.set h₀))

theorem fused_chimeRequest (h₀ : Fused o s) : Fused o (chimeRequest q p s) := by
  refine .ite (fused_localChime h₀) ?_
  refine .ite (fused_refuse h₀) ?_
  split
  · exact fused_refuse h₀
  · exact .ite (fused_queueSeal h₀) (fused_queueSeal h₀)

theorem fused_memberPool {q : PoolReq} {keeper : BitVec 12} {ordinal ret : BitVec 4} (h₀ : Fused o s) :
    Fused o (memberPool q keeper ordinal ret s) := by
  unfold memberPool
  split
  · exact fused_refuse h₀
  · exact .ite (fused_refuse h₀) (fused_enqueue (.set h₀))

theorem fused_localPool {q : PoolReq} (h₀ : Fused o s) : Fused o (localPool q s) := by
  refine .ite (fused_emit h₀) ?_
  split
  · exact fused_emit h₀
  · split
    · exact fused_emit h₀
    · exact fused_poolPump (fused_addJob h₀)

theorem fused_atPort {g : State → State} (hg : ∀ u, Fused o u → Fused o (g u)) (h₀ : Fused o s) : Fused o (atPort f c g s) :=
  .ite h₀ (.ite (fused_refuse h₀) (.ite (fused_fnMod h₀) (hg _ h₀)))

theorem fused_runHeld (h₀ : Fused o s) : Fused o (runHeld c s) := by
  unfold runHeld
  split
  · exact fused_sealRequest h₀
  · exact fused_tokenRequest h₀
  · exact fused_chimeRequest h₀
  · exact fused_localChime h₀
  · exact fused_memberPool h₀
  · exact fused_localPool h₀
  · exact h₀

theorem fused_runAllHeld {l : List Instr} (h₀ : Fused o s) : Fused o (runAllHeld l s) := by
  induction l generalizing s with
  | nil => exact h₀
  | cons _ _ ih => exact ih (fused_runHeld h₀)

theorem fused_releaseHeld (h₀ : Fused o s) : Fused o (releaseHeld f s) := fused_runAllHeld (fused_fnMod h₀)

end Sys2Proof.Machine
end

section
/-! SUPPORT. Fuses stay burned through the parts of quiescence, resets, replays and migration. -/
namespace Sys2Proof.Machine

variable {o : OtpSt} {s : State} {p : InProg} {f : Fn} {step : Nat} {ctx : W16} {total : W32} {l : List InProg} {env : StartEnv} {d :
  ReplayDesc} {r
  : BulkDone}

theorem fused_quiesceVf (h₀ : Fused o s) : Fused o (quiesceVf f s) := .ite h₀ (fused_fnMod h₀)
theorem fused_actQuiesce (h₀ : Fused o s) : Fused o (actQuiesce p s) := .ite (fused_complete h₀) h₀
theorem fused_actFreezeVf (h₀ : Fused o s) : Fused o (actFreezeVf p step s) := .ite h₀ (fused_actFreeze h₀)

theorem fused_markSuspect {q : InProg} (h₀ : Fused o s) : Fused o (markSuspect f q s) := by
  unfold markSuspect
  split
  · exact h₀
  · exact .ite h₀ (fused_traceKid (fused_setKid (fused_fnMod h₀)))

theorem fused_markSuspects (h₀ : Fused o s) : Fused o (markSuspects f l s) := by
  induction l generalizing s with
  | nil => exact h₀
  | cons _ _ ih => exact ih (fused_markSuspect h₀)

theorem fused_squashEngine {e : Nat} (h₀ : Fused o s) : Fused o (squashEngine f e s) :=
  fused_resetEngine (fused_abortCmds (fused_markSuspects h₀))

theorem fused_resetCores (h₀ : Fused o s) : Fused o (resetCores l s) := .set (fused_abortCmds h₀)

theorem fused_resetUnits (h₀ : Fused o s) : Fused o (resetUnits f s) :=
  fused_resetCores (fused_eachIdx (fun _ _ => fused_squashEngine) h₀)

theorem fused_squashReads {fs : List Fn} (h₀ : Fused o s) : Fused o (squashReads fs s) := .set h₀

theorem fused_beginReset (h₀ : Fused o s) : Fused o (beginReset p f s) :=
  .ite (fused_actReset (fused_resetUnits (fused_abortCmds h₀))) (fused_goOn (fused_squashReads (fused_abortCmds (fused_ringMod
    (fused_quiesceVf (fused_resetUnits (fused_abortCmds h₀)))))))

theorem fused_actResetVf (h₀ : Fused o s) : Fused o (actResetVf p f step s) := .ite (fused_beginReset h₀) (.ite (fused_actReset h₀) h₀)

theorem fused_beginPackageReset (h₀ : Fused o s) : Fused o (beginPackageReset p env s) :=
  fused_goOn (fused_squashReads (fused_abortCmds (fused_foldl (fun _ _ => fused_resetUnits) (fused_abortCmds h₀))))

theorem fused_actResetPackage (h₀ : Fused o s) : Fused o (actResetPackage p env s) :=
  fused_emit (fused_start (fused_zeroiseAll (fused_tdisError (fused_complete (fused_flushFns (fused_knellAll h₀))))))

theorem fused_liveAgain {l : List W16} (h₀ : Fused o s) : Fused o (liveAgain l s) := by
  induction l generalizing s with
  | nil => exact h₀
  | cons _ _ ih => exact ih (fused_traceKid (fused_setKid h₀))

theorem fused_endQuiesce (h₀ : Fused o s) : Fused o (endQuiesce f s) :=
  .ite h₀ (.ite (fused_fnMod h₀) (fused_releaseHeld (fused_fnMod h₀)))

theorem fused_finishReplay (h₀ : Fused o s) : Fused o (finishReplay p f ctx total s) :=
  fused_complete (fused_endQuiesce (.ite (fused_fnMod (.set h₀)) (fused_liveAgain (fused_fnMod (.set h₀)))))

theorem fused_stopReplay {st : W16} {d : W32} {done : Nat} (h₀ : Fused o s) : Fused o (stopReplay p st d done s) :=
  fused_complete (.set h₀)

theorem fused_descStart {k : Nat} {b : BulkCtx} {act : Act} (h₀ : Fused o s) : Fused o (descStart p k b d act s) :=
  .ite (fused_toEngine (fused_beginOp (.set h₀))) (fused_toEngine (.set h₀))

theorem fused_descFinish (h₀ : Fused o s) : Fused o (descFinish f d r s).2.2 := by
  unfold descFinish
  split
  · exact fused_opFinish h₀
  · split
    · exact fused_saveFinish h₀
    · exact fused_restoreFinish h₀

theorem fused_runReplay {l : List ReplayDesc} {n : Nat} (h₀ : Fused o s) : Fused o (runReplay p f ctx total l n s) := by
  induction l generalizing s n with
  | nil => exact fused_finishReplay h₀
  | cons _ _ ih =>
    unfold runReplay
    split
    · exact fused_stopReplay h₀
    · refine .ite (ih h₀) ?_
      split
      · exact fused_descStart h₀
      · exact fused_stopReplay h₀

theorem fused_replayDone (h₀ : Fused o s) : Fused o (replayDone p r s) := by
  unfold replayDone
  split
  · exact .ite (fused_stopReplay (fused_descFinish h₀)) (fused_runReplay (fused_descFinish h₀))
  · exact h₀

theorem fused_actReplay (h₀ : Fused o s) : Fused o (actReplay p ctx total s) := fused_finishReplay h₀

theorem fused_actMigrateKey {kid : W16} {addr : W64} {reply : Option HostData} (h₀ : Fused o s) :
    Fused o (actMigrateKey p kid addr reply s) := by
  unfold actMigrateKey
  dsimp only
  split
  · exact fused_goOn (fused_sendHost (.ite h₀ (fused_activateKid (fused_fnMod h₀))))
  · exact fused_complete (.ite h₀ (fused_activateKid (fused_fnMod h₀)))

theorem fused_actDirtySync {bits : Nat} (h₀ : Fused o s) : Fused o (actDirtySync p bits step s) := by
  refine .ite h₀ ?_
  split
  · exact .ite (fused_complete (fused_fnMod h₀)) (fused_complete h₀)
  · exact fused_complete h₀

end Sys2Proof.Machine
end

section
/-! SUPPORT. Fuses stay burned through the settlings after a row. -/
namespace Sys2Proof.Machine

variable {o : OtpSt} {s : State}

theorem fused_runAct {p : InProg} (h₀ : Fused o s) : Fused o (runAct p s) := by
  unfold runAct
  split
  · exact h₀
  · exact fused_complete h₀
  · exact fused_actJoin h₀
  · exact fused_actLeave h₀
  · exact fused_actLeaveDone h₀
  · exact fused_actPark h₀
  · exact fused_actResume h₀
  · exact h₀
  · exact fused_complete (fused_freeRegion h₀)
  · exact fused_actHandover h₀
  · exact fused_actReduce h₀
  · exact fused_actRotate h₀
  · exact h₀
  · exact h₀
  · exact fused_actClose h₀
  · exact fused_actCarve h₀
  · exact fused_complete h₀
  · exact fused_actAbandon h₀
  · exact h₀
  · exact fused_actQuiesce h₀
  · exact fused_actResetVf h₀
  · exact fused_actResetPackage h₀
  · exact fused_actReplay h₀
  · exact h₀
  · exact fused_actMigrateKey h₀
  · exact fused_actFreezeVf h₀
  · exact fused_actDirtySync h₀
  · exact fused_actGrant h₀
  · exact fused_actLc h₀
  · exact fused_actOwnerStore h₀
  · exact .ite (fused_actBulkOp h₀) h₀
  · exact .ite (fused_actSave h₀) h₀
  · exact .ite (fused_actRestore h₀) h₀
  · exact fused_actBulkClose h₀
  · exact h₀

theorem fused_settlePass {l : List InProg} (h₀ : Fused o s) : Fused o (settlePass l s) := by
  induction l generalizing s with
  | nil => exact h₀
  | cons _ _ ih =>
    refine ih ?_
    split
    · exact .ite (fused_runAct h₀) h₀
    · exact h₀

theorem fused_settleRings {l : List Fn} (h₀ : Fused o s) : Fused o (settleRings l s) := by
  induction l generalizing s with
  | nil => exact h₀
  | cons _ _ ih => exact ih (fused_settleRing h₀)

theorem fused_settleGo {n : Nat} (h₀ : Fused o s) : Fused o (settleGo n s) := by
  induction n generalizing s with
  | zero => exact h₀
  | succ _ ih => exact ih (fused_settleRings (fused_settleCleanups (fused_settlePass (fused_settleAllObjs h₀))))

theorem fused_tapSettle (h₀ : Fused o s) : Fused o (tapSettle s) := by
  unfold tapSettle
  split
  · exact .ite (fused_emit (.set h₀)) h₀
  · exact h₀

theorem fused_settle (h₀ : Fused o s) : Fused o (settle s) :=
  fused_flushAll (fused_tapSettle (.ite (fused_settleRings h₀) (fused_settleGo h₀)))

theorem fused_runRow {r : Row} {f : InProg → State → State} (hf : ∀ x u, Fused o u → Fused o (f x u)) (h₀ : Fused o s) :
    Fused o (runRow r f s) :=
  fused_settle (fused_runCmd hf h₀)

end Sys2Proof.Machine
end

section
/-! SUPPORT. Fuses stay burned through the bulk engine's reports. -/
namespace Sys2Proof.Machine

variable {o : OtpSt} {s : State}

theorem fused_bulkRequestDone {fn : Fn} {idx : W32} {r : BulkDone} (h₀ : Fused o s) : Fused o (bulkRequestDone fn idx r s) := by
  unfold bulkRequestDone
  split
  · exact fused_lateDone h₀
  · refine .ite (fused_lateDone h₀) ?_
    split
    · exact fused_settle (fused_replayDone h₀)
    · exact fused_settle (fused_engineDone h₀)

end Sys2Proof.Machine
end

section
/-! SUPPORT. Fuses stay burned through the commands on jobs and keys. -/
namespace Sys2Proof.Machine

variable {o : OtpSt} {s : State} {p : InProg} {kid : W16}

theorem fused_startJoin {buf : Fetched Encap} (h₀ : Fused o s) : Fused o (startJoin jobId buf p s) := by
  unfold startJoin
  dsimp only
  split
  · exact h₀
  · exact fused_goOn (fused_reserveKid h₀)

theorem fused_startLeave {jobId : W16} (h₀ : Fused o s) : Fused o (startLeave jobId p s) := fused_goOn h₀

theorem fused_completeKey {x : SlotSt} (h₀ : Fused o s) : Fused o (completeKey p x s) :=
  fused_complete (fused_activateKid (fused_placeKey (fused_reserveKid h₀)))

theorem fused_startAlloc {source : Byte} {buf : Fetched Blob} (h₀ : Fused o s) : Fused o (startAlloc source buf p s) := by
  refine .ite (fused_completeKey (fused_bumpDraw h₀)) ?_
  split
  · exact fused_completeKey h₀
  · exact fused_complete h₀

theorem fused_startDerive {parent : W16} {label : Byte} {args : BitVec 128} (h₀ : Fused o s) :
    Fused o (startDerive parent label args p s) :=
  .ite (fused_completeKey h₀) (fused_completeKey h₀)

theorem fused_startRotate (h₀ : Fused o s) : Fused o (startRotate kid p s) := by
  unfold startRotate
  split
  · exact h₀
  · exact fused_enqueue (fused_goOn (fused_placeNext h₀))

theorem fused_startRetire (h₀ : Fused o s) : Fused o (startRetire kid p s) := fused_goOn (fused_retireKid h₀)

theorem fused_flushConfirm {engine : Nat} (h₀ : Fused o s) : Fused o (flushConfirm kid engine s) :=
  .ite (fused_settle (fused_finishRetire (fused_uncacheKid h₀))) h₀

theorem fused_startPark {wrap : Byte} {rid : W64} {dirIndex : W32} (h₀ : Fused o s) : Fused o (startPark kid wrap rid dirIndex p s) := by
  unfold startPark
  split
  · exact fused_poolPump (fused_goOn (.set (fused_regionMod h₀)))
  · exact h₀

theorem fused_startResume {engine : Byte} (h₀ : Fused o s) : Fused o (startResume wrap engine rid dirIndex p s) := by
  unfold startResume
  dsimp only
  split
  · exact fused_poolPump (fused_goOn (fused_cmdJob (.set (fused_reserveKid h₀))))
  · exact h₀

theorem fused_checkpointWrite {job : W16} (h₀ : Fused o s) : Fused o (checkpointWrite job s) := by
  unfold checkpointWrite
  split
  · exact h₀
  · split
    · exact h₀
    · exact .ite h₀ (.ite (fused_settle (fused_poolPump (fused_writeBackAll h₀))) (fused_settle (.set (fused_emit (.set h₀)))))

end Sys2Proof.Machine
end

section
/-! SUPPORT. Fuses stay burned through the commands on partitions. -/
namespace Sys2Proof.Machine

variable {o : OtpSt} {s : State} {base limit : W64} {h : CmdHdr} {p : InProg} {set : Byte}

theorem fused_startGrow (h₀ : Fused o s) : Fused o (startGrow h set base limit p s) := fused_goOn (.set h₀)
theorem fused_startShrink (h₀ : Fused o s) : Fused o (startShrink h set base limit p s) := fused_goOn (.set h₀)

theorem fused_startCreate (h₀ : Fused o s) : Fused o (startCreate h p s) := by
  unfold startCreate
  dsimp only
  split
  · exact h₀
  · exact fused_complete (fused_fnMod h₀)

theorem fused_startAbandon (h₀ : Fused o s) : Fused o (startAbandon h p s) := by
  have hctx : Fused o (abandonCtx (hdrTarget h) h.ctx (p.fn, p.idx) s).2.2 := fused_abandonCtx h₀
  unfold startAbandon
  dsimp only
  exact .ite (fused_tdiError (fused_goOn hctx)) (fused_goOn hctx)

theorem fused_startMap {rights : Byte} {size : W64} {pick : W16} (h₀ : Fused o s) : Fused o (startMap h rights base size pick p s) := by
  unfold startMap
  split
  · exact h₀
  · exact fused_complete (fused_fnMod h₀)

theorem fused_startUnmap {handle : W32} (h₀ : Fused o s) : Fused o (startUnmap h handle p s) := by
  unfold startUnmap
  split
  · exact h₀
  · exact fused_goOn (fused_fnMod h₀)

theorem fused_accessDone {id : Nat} (h₀ : Fused o s) : Fused o (accessDone id s) := fused_settle (.set h₀)

theorem fused_reopen {carve : Option Nat} (h₀ : Fused o s) : Fused o (reopen carve s) := by
  unfold reopen
  split
  · exact h₀
  · exact .ite h₀ (.set h₀)

theorem fused_scrubDone (h₀ : Fused o s) : Fused o (scrubDone s) := by
  unfold scrubDone
  split
  · exact h₀
  · refine fused_reopen ?_
    split
    · exact fused_markWrite (fused_emit (.set h₀))
    · exact fused_emit (.set h₀)

theorem fused_switchNotice {fn : Fn} {ctx : W16} (h₀ : Fused o s) : Fused o (switchNotice fn ctx s) :=
  .ite h₀ (fused_settle (fused_emit (fused_switchBulk (fused_clearCtx (fused_traceVf h₀)))))

end Sys2Proof.Machine
end

section
/-! SUPPORT. Fuses stay burned through the keeper's commands and the answers of homes. -/
namespace Sys2Proof.Machine

variable {o : OtpSt} {s : State} {job st kid : W16} {xid d : W32} {k : Nat} {p : InProg} {x : ExchSt} {r : HomeResp} {rid : BitVec 40} {src
  : BitVec
  12}

theorem fused_countMade (h₀ : Fused o s) : Fused o (countMade job rid s) := .set h₀

theorem fused_startRegion {regionId size : W64} {home : W16} {engine : Byte} (h₀ : Fused o s) :
    Fused o (startRegion regionId size home engine p s) := by
  unfold startRegion
  dsimp only
  split
  · exact h₀
  · exact fused_goOn (fused_newExch (.set (fused_placeKey (fused_reserveKid (fused_countMade h₀)))))

theorem fused_startFree {rid : W64} (h₀ : Fused o s) : Fused o (startFree rid p s) := by
  unfold startFree
  split
  · exact h₀
  · exact fused_goOn (fused_beginFree h₀)

theorem fused_startHandover {rid : W64} {newKeeper : W16} (h₀ : Fused o s) : Fused o (startHandover rid newKeeper p s) := by
  unfold startHandover
  split
  · exact h₀
  · exact fused_goOn (fused_regionMod h₀)

theorem fused_failHandover (h₀ : Fused o s) : Fused o (failHandover p k st d s) := fused_complete (fused_regionMod h₀)

theorem fused_takeAnswer {status : W16} {detail : W32} (h₀ : Fused o s) : Fused o (takeAnswer job src rid status detail s) := by
  unfold takeAnswer
  split
  · exact h₀
  · split
    · exact .ite (fused_goOn (fused_newExch h₀)) (fused_failHandover h₀)
    · exact .ite (fused_releaseKid (.set h₀)) h₀
    · exact h₀

theorem fused_commitHandover {nk : BitVec 12} (h₀ : Fused o s) : Fused o (commitHandover p k nk s) := by
  unfold commitHandover
  split
  · exact h₀
  · exact fused_goOn (fused_retireKid (fused_sendMgmt h₀))

theorem fused_takeOffer {f : Fn} {x : OfferPay} (h₀ : Fused o s) : Fused o (takeOffer f job src x s) := by
  unfold takeOffer
  dsimp only
  split
  · exact fused_sendMgmt h₀
  · split
    · exact h₀
    · exact fused_sendMgmt (.set (fused_placeKey (fused_reserveKid h₀)))

theorem fused_takeCommit (h₀ : Fused o s) : Fused o (takeCommit job src rid s) := by
  unfold takeCommit
  split
  · exact h₀
  · split
    · exact h₀
    · exact .ite (fused_regionMod (fused_activateKid h₀)) h₀

theorem fused_handoverTimeout {fn : Fn} {idx : W32} (h₀ : Fused o s) : Fused o (handoverTimeout fn idx s) := by
  unfold handoverTimeout
  split
  · exact h₀
  · split
    · exact .ite (fused_settle (fused_failHandover (fused_cancelOffer (.set h₀)))) h₀
    · exact h₀

theorem fused_addParts {kind : PoolKind} {l : List (Nat × List Byte)} {l' : List Nat} (h₀ : Fused o s) :
    Fused o (addParts p k kind l l' s).2 := by
  induction l generalizing s l' with
  | nil => exact h₀
  | cons _ _ ih => exact ih (.set h₀)

theorem fused_startReduce {rid : W64} {op fmt : Byte} {offset : W64} {len : W32} {srcAddr : W64} {src : Fetched (List Byte)} (h₀ : Fused o
    s) :
    Fused o (startReduce rid op fmt offset len srcAddr src p s) := by
  unfold startReduce
  split
  · exact h₀
  · split
    · exact h₀
    · refine .ite (fused_complete h₀) ?_
      refine .ite (fused_complete h₀) ?_
      split
      · exact fused_complete h₀
      · split
        · exact fused_complete h₀
        · exact .ite (fused_complete (fused_countRefused h₀)) (fused_poolPump (fused_goOn (fused_addParts h₀)))

theorem fused_countPkgN {code n : Nat} (h₀ : Fused o s) : Fused o (countPkgN code n s) := .set h₀
theorem fused_dropExch (h₀ : Fused o s) : Fused o (dropExch xid s) := .set h₀

theorem fused_resendHeld {home : BitVec 12} {lease : Bool} {l : List (Nat × ExchSt)} (h₀ : Fused o s) :
    Fused o (resendHeld home lease l s) := by
  induction l generalizing s with
  | nil => exact h₀
  | cons _ _ ih => exact .ite (ih (fused_sendExch (.set h₀))) (ih h₀)

theorem fused_sendReleases {l : List (List Nat)} (h₀ : Fused o s) : Fused o (sendReleases x l s) := by
  induction l generalizing s with
  | nil => exact h₀
  | cons _ _ ih => exact ih (fused_newExch h₀)

theorem fused_dropLeases (h₀ : Fused o s) : Fused o (dropLeases k s) := by
  unfold dropLeases
  split
  · exact h₀
  · exact .ite h₀ (fused_sendReleases (fused_regionMod h₀))

theorem fused_fenceLines {l : List Nat} (h₀ : Fused o s) : Fused o (fenceLines k l s) := fused_foldl (fun _ _ => fused_addFence) h₀

theorem fused_linesRead (h₀ : Fused o s) : Fused o (linesRead k xid x r s) := by
  unfold linesRead
  dsimp only
  split
  · exact h₀
  · split
    · exact fused_gongHalt (fused_eachIdx (fun _ _ => fused_showLines) (.set h₀))
    · exact .ite (fused_gongHalt (fused_regionMod (fused_eachIdx (fun _ _ => fused_showLines) (.set h₀)))) (fused_fenceLines
      (fused_regionMod (fused_eachIdx (fun _ _ => fused_showLines) (.set h₀))))

theorem fused_nodesRead (h₀ : Fused o s) : Fused o (nodesRead k xid x r s) := by
  unfold nodesRead
  dsimp only
  split
  · exact h₀
  · split
    · exact fused_gongHalt h₀
    · exact fused_foldl (fun _ _ => fused_fenceBelow) (fused_regionMod h₀)

theorem fused_linesWritten (h₀ : Fused o s) : Fused o (linesWritten k xid x s) := fused_regionMod (.set h₀)

theorem fused_regionMade {adopt : Bool} (h₀ : Fused o s) : Fused o (regionMade p k kid adopt s) := by
  unfold regionMade
  split
  · exact h₀
  · exact fused_complete (fused_regionMod (fused_activateKid h₀))

theorem fused_failRegion (h₀ : Fused o s) : Fused o (failRegion p k kid st d s) := fused_complete (fused_releaseKid (.set h₀))

theorem fused_failWriteBack {l : List InProg} (h₀ : Fused o s) : Fused o (failWriteBack k l s) := by
  induction l generalizing s with
  | nil => exact h₀
  | cons _ _ ih => exact ih (.ite (fused_complete (fused_regionMod h₀)) h₀)

theorem fused_noAnswer (h₀ : Fused o s) : Fused o (noAnswer xid x s) := by
  refine fused_dropExch ?_
  refine .ite (fused_finishJobs h₀) ?_
  refine .ite (fused_finishJobs (fused_linesWritten (fused_fenceLines h₀))) ?_
  refine .ite (fused_failWriteBack (fused_foldl (fun _ _ => fused_fenceBelow) h₀)) ?_
  split
  · split
    · exact fused_failRegion h₀
    · exact fused_failHandover (fused_cancelOffer h₀)
    · exact h₀
  · exact h₀

theorem fused_answered (h₀ : Fused o s) : Fused o (answered xid x r s) := by
  unfold answered
  extract_lets k s₁ s₂
  have h₁ : Fused o s₁ := by
    refine .ite (fused_linesRead h₀) (.ite (fused_nodesRead h₀) (.ite (fused_linesWritten h₀) ?_))
    split
    · split
      · exact fused_regionMade h₀
      · exact fused_commitHandover h₀
      · exact h₀
    · exact h₀
  have h₂ : Fused o s₂ := fused_dropExch h₁
  exact .ite (fused_resendHeld h₂) (.ite (fused_resendHeld (fused_resendHeld h₂)) h₂)

theorem fused_refused {hstat : Byte} (h₀ : Fused o s) : Fused o (refused xid x hstat s) := by
  have h₁ : Fused o (countPkg 0x15 s) := fused_countPkg h₀
  have hlost : Fused o (if x.op = 0x02 then dropExch xid (countPkg 0x15 s) else dropExch xid (regionLost x.region (countPkg 0x15 s))) :=
    .ite (fused_dropExch h₁) (fused_dropExch (fused_regionLost h₁))
  have hheld : ∀ (c : Prop) [Decidable c] u, Fused o u → Fused o (if c then sendExch xid x [] [] [] (countPkg 0x15 s) else u) :=
    fun _ _ _ hu => .ite (fused_sendExch h₁) hu
  refine .ite ?_ (.ite ?_ (.ite hlost (.ite (.set h₁) (.ite (hheld _ _ (fused_sendReleases (fused_regionMod (.set h₁)))) (fused_noAnswer
    h₁)))))
  · split
    · exact fused_dropExch h₁
    · exact fused_dropExch (.ite (fused_regionMade h₁) (fused_failRegion h₁))
  · split
    · exact fused_dropExch (fused_failRegion h₁)
    · exact hlost

/-- Steps 1 to 4 of Table 07-11: the frame is dropped, goes on to another package, or is for this one. -/
theorem fused_hopChecks (h₀ : Fused o s) : Fused o (hopChecks a s).st := by
  unfold hopChecks
  extract_lets p h d s₁
  have h₁ : Fused o (takeAck a.port h s₁).1 := fused_takeAck (fused_portMod h₀)
  generalize takeAck a.port h s₁ = x at h₁
  rcases x with ⟨s₂, retry⟩
  split
  · exact h₀
  split
  · exact fused_portMod (fused_countPort h₀)
  split
  · exact .ite (fused_countPort h₀) (fused_sendNak (fused_countPort h₀))
  split
  · exact h₀
  dsimp -zeta only at h₁ ⊢
  extract_lets s₃ s₄ s₅ s₆ s₇
  have h₃ : Fused o s₃ := fused_pump (fused_grant h₁)
  have h₄ : Fused o s₄ := .ite (fused_wakeOpen (fused_portMod h₃)) h₃
  have h₅ : Fused o s₅ := fused_learn h₄
  split
  · exact fused_returnCredits (fused_countPort h₄)
  split
  · exact .ite (fused_returnCredits (fused_countPort h₅)) (fused_countPort h₅)
  split
  · exact fused_forward h₅
  · exact .ite (fused_portMod h₅) h₅

theorem fused_arrive {spelt : Bool} {g : State → State} (hg : ∀ u, Fused o u → Fused o (g u)) (h₀ : Fused o s) :
    Fused o (arrive a spelt g s) := by
  have h₁ : Fused o (if (hopChecks a s).mine then g (hopChecks a s).st else (hopChecks a s).st) :=
    .ite (hg _ (fused_hopChecks h₀)) (fused_hopChecks h₀)
  exact .ite h₀ (.ite (fused_portLost h₁) h₁)

theorem fused_homeAnswer {a : Arrival} {h : HomeHdr} (h₀ : Fused o s) : Fused o (homeAnswer a h r s) := by
  unfold homeAnswer
  dsimp only
  split
  · exact fused_countPkg (fused_returnCredits h₀)
  · exact .ite (fused_countPkg (fused_returnCredits h₀)) (fused_poolPump (fused_dropLeases (.ite (fused_answered (fused_countPkgN
    (fused_returnCredits h₀))) (fused_refused (fused_countPkgN (fused_returnCredits h₀))))))

theorem fused_homeTimeout (h₀ : Fused o s) : Fused o (homeTimeout xid s) := by
  unfold homeTimeout
  split
  · exact h₀
  · exact fused_settle (fused_poolPump (fused_dropLeases (fused_noAnswer h₀)))

end Sys2Proof.Machine
end

section
/-! SUPPORT. Fuses stay burned through the pool engines' local loops. -/
namespace Sys2Proof.Machine

variable {o : OtpSt} {s : State} {k e : Nat} {kid : W16} {data : List Byte} {write : Bool}

theorem fused_loopMacFail {x : ExchSt} (h₀ : Fused o s) : Fused o (loopMacFail x s) := .ite (fused_bumpOpen (fused_countPkgN h₀)) h₀

theorem fused_serveLoop {n : Nat} (h₀ : Fused o s) : Fused o (serveLoop n s) := by
  induction n generalizing s with
  | zero => exact h₀
  | succ _ ih =>
    unfold serveLoop
    split
    · exact h₀
    · split
      · exact h₀
      · exact ih (fused_poolPump (fused_dropLeases (fused_answered (fused_loopMacFail h₀))))

theorem fused_loopJob {own : Bool} {kind : PoolKind} {offset length : Nat} (h₀ : Fused o s) :
    Fused o (loopJob k kid own kind offset length data s) :=
  fused_serveLoop (fused_poolPump (fused_addJob h₀))

theorem fused_loopSweep (h₀ : Fused o s) : Fused o (loopSweep k s) := by
  unfold loopSweep
  split
  · exact h₀
  · exact fused_serveLoop (fused_poolPump (fused_putNode (fused_regionMod h₀)))

theorem fused_loopPass (h₀ : Fused o s) : Fused o (loopPass k kid s) :=
  fused_loopJob (fused_loopSweep (fused_loopJob (fused_loopJob (.set h₀))))

theorem fused_startLoop (h₀ : Fused o s) : Fused o (startLoop e kid s) := fused_loopPass (.set h₀)
theorem fused_endLoop (h₀ : Fused o s) : Fused o (endLoop e s) := .set h₀

theorem fused_debugPool {e : BitVec 3} {off : W64} {len : W32} (h₀ : Fused o s) : Fused o (debugPool e off len data write s) := by
  unfold debugPool
  split
  · exact .ite (fused_emit (fused_countFn h₀)) (.ite (fused_emit h₀) (.ite (fused_emit h₀) (fused_loopJob h₀)))
  · exact fused_emit (fused_countFn h₀)

theorem fused_debugMaster {t : DebugTarget} (h₀ : Fused o s) : Fused o (debugMaster t write s) := by
  unfold debugMaster
  split
  · exact .ite (fused_emit (.ite (fused_markWrite h₀) h₀)) (fused_emit (fused_countRefused h₀))
  · exact fused_debugPool h₀

end Sys2Proof.Machine
end

section
/-! SUPPORT. Fuses stay burned through the commands on fences and batches. -/
namespace Sys2Proof.Machine

variable {o : OtpSt} {s : State} {h : CmdHdr} {p : InProg} {value : W64} {handle : W32} {id : Nat}

theorem fused_startFenceCreate {pick : W16} (h₀ : Fused o s) : Fused o (startFenceCreate h value pick p s) := by
  unfold startFenceCreate
  split
  · exact h₀
  · exact fused_complete (fused_forwardFence (fused_fnMod h₀))

theorem fused_startRelease (h₀ : Fused o s) : Fused o (startRelease h handle p s) := by
  unfold startRelease
  split
  · exact h₀
  · exact fused_complete (fused_dropRef (.ite (fused_abortWaits h₀) (fused_abortUnitWaits (fused_abortWaits h₀))))

theorem fused_startSignal (h₀ : Fused o s) : Fused o (startSignal h handle value p s) := by
  unfold startSignal
  dsimp only
  split
  · exact h₀
  · split <;> exact fused_complete (fused_signalFence (fused_addRef h₀))

theorem fused_startWait (h₀ : Fused o s) : Fused o (startWait h handle value p s) := by
  unfold startWait
  dsimp only
  split
  · exact h₀
  · split
    · exact fused_complete (fused_addRef h₀)
    · exact fused_goOn (fused_addRef h₀)

theorem fused_syncWait {fn : Fn} {ctx : W16} (h₀ : Fused o s) : Fused o (syncWait fn ctx handle value s) := by
  unfold syncWait
  split
  · exact fused_emit h₀
  · exact .ite (fused_emit h₀) (fused_evalWaits (fused_fenceMod (fused_addRef h₀)))

theorem fused_startCancel {batchId : W16} (h₀ : Fused o s) : Fused o (startCancel h batchId p s) :=
  fused_goOn (.set (fused_claimBatch h₀))

theorem fused_readCompletion (h₀ : Fused o s) : Fused o (readCompletion id s) := by
  unfold readCompletion
  split
  · exact h₀
  · exact fused_settle (fused_clearJobWaits (fused_doneLocal (.set h₀)))

theorem fused_writeCompletion (h₀ : Fused o s) : Fused o (writeCompletion id s) := by
  unfold writeCompletion
  split
  · exact fused_readCompletion h₀
  · refine fused_settle ?_
    split
    · exact .ite (fused_stampMet (.set h₀)) (.set (fused_stampMet (.set h₀)))
    · exact fused_stampMet (.set h₀)

end Sys2Proof.Machine
end

section
/-! SUPPORT. Fuses stay burned through the openings and closings of streams. -/
namespace Sys2Proof.Machine

variable {o : OtpSt} {s : State} {idx sid : W32} {fn : Fn} {p : InProg} {job : W16}

theorem fused_openKey {kid : W16} {epoch : W32} {use : Byte} (h₀ : Fused o s) : Fused o (openKey p kid job sid epoch use s).2 := by
  unfold openKey
  split
  · exact fused_releaseKid h₀
  · exact fused_placeKey h₀

theorem fused_answerWith {challenge : BitVec 128} {sel : BitVec 2} {port : Fin 32} {relays : List (BitVec 12)} (h₀ : Fused o s) :
    Fused o (answerWith p job sid kid challenge sel port relays s).2 :=
  fused_sendControl (fused_portMod (.set (fused_openKey (fused_noteSent h₀))))

theorem fused_answerOpen (h₀ : Fused o s) : Fused o (answerOpen p s) := by
  unfold answerOpen
  dsimp only
  split
  · split
    · exact fused_complete (fused_activateKid (fused_answerWith h₀))
    · exact h₀
  · split
    · exact .ite (fused_complete (fused_activateKid (fused_activateKid (fused_answerWith h₀)))) (fused_modProg (fused_answerWith h₀))
    · exact h₀
  · exact h₀

theorem fused_startOpen (h₀ : Fused o s) : Fused o (startOpen peer cls ordinal direction p s) := by
  have hkid : Fused o (reserveKid p.fn s).2 := fused_reserveKid h₀
  unfold startOpen
  generalize reserveKid p.fn s = x at hkid
  rcases x with ⟨kid, s₁⟩
  dsimp -zeta only at hkid ⊢
  have hend : ∀ u, Fused o u → Fused o (match findProg u p.fn p.idx with | some q => answerOpen q u | none => u) := fun u hu => by
    split
    · exact fused_answerOpen hu
    · exact hu
  refine hend _ (.ite ?_ (fused_goOn hkid))
  refine fused_sendRouted (fused_goOn (fused_bumpDraw ?_))
  split
  · exact fused_reserveKid hkid
  · exact hkid

theorem fused_startClose {peer : W16} {cls ordinal direction : Byte} (h₀ : Fused o s) :
    Fused o (startClose peer cls ordinal direction p s) := by
  refine .ite ?_ (fused_goOn h₀)
  split
  · exact fused_enqueue (fused_modSend (fused_goOn h₀))
  · exact h₀

theorem fused_openReqResend (h₀ : Fused o s) : Fused o (openReqResend fn idx s) := by
  unfold openReqResend
  split
  · split
    · exact fused_sendRouted h₀
    · exact h₀
  · exact h₀

theorem fused_streamOpenTimeout (h₀ : Fused o s) : Fused o (streamOpenTimeout fn idx s) := by
  unfold streamOpenTimeout
  split
  · split
    · exact fused_settle (fused_complete (fused_releaseHolds h₀))
    · exact fused_settle (fused_complete (fused_releaseHolds h₀))
    · exact h₀
  · exact h₀

theorem fused_closeRecv (h₀ : Fused o s) : Fused o (closeRecv job sid s) := by
  unfold closeRecv
  split
  · exact h₀
  · exact fused_retireKids (.set h₀)

theorem fused_streamCloseTimeout (h₀ : Fused o s) : Fused o (streamCloseTimeout fn idx s) := by
  unfold streamCloseTimeout
  split
  · split
    · exact fused_settle (fused_complete (fused_closeRecv h₀))
    · exact h₀
  · exact h₀

end Sys2Proof.Machine
end

section
/-! SUPPORT. Fuses stay burned through the sealed frames. -/
namespace Sys2Proof.Machine

variable {o : OtpSt} {s : State} {t : RecvSt} {w : WaitSt} {h : SealHdr} {job : W16} {sid : W32} {b : FrameBody} {p : DataPay}

theorem fused_prepareRecv (h₀ : Fused o s) : Fused o (prepareRecv job sid s) := by
  unfold prepareRecv
  split
  · exact h₀
  · refine .ite h₀ ?_
    split
    · next e => exact fused_modRecv (fused_activateKid (fused_placeStream h₀ e))
    · exact h₀

theorem fused_keyRecv (h₀ : Fused o s) : Fused o (keyRecv job sid s) := by
  unfold keyRecv
  split
  · exact h₀
  · refine .ite h₀ ?_
    split
    · next e => exact fused_modRecv (fused_activateKid (fused_placeStream h₀ e))
    · exact h₀

theorem fused_rollRecv (h₀ : Fused o s) : Fused o (rollRecv job sid s) := by
  unfold rollRecv
  dsimp only
  split
  · exact fused_prepareRecv h₀
  · exact fused_retireKid (fused_modRecv (fused_prepareRecv h₀))

theorem fused_advanceRecv (h₀ : Fused o s) : Fused o (advanceRecv t b s) :=
  .ite (fused_rollRecv (.ite (fused_prepareRecv (fused_modRecv h₀)) (fused_modRecv h₀))) (.ite (fused_prepareRecv (fused_modRecv h₀))
    (fused_modRecv h₀))

theorem fused_freeFrame (h₀ : Fused o s) : Fused o (freeFrame w s) := fused_returnCredits h₀
theorem fused_dropFrame {code : Nat} (h₀ : Fused o s) : Fused o (dropFrame w code s) := fused_freeFrame (fused_countPort h₀)

theorem fused_writePlain {obj : Option (Nat × Nat)} {batch : Option (BitVec 12)} {addr : Nat} {d : List Byte} (h₀ : Fused o s) :
    Fused o (writePlain t obj batch addr d s) :=
  fused_emit (fused_markWrite (.set h₀))

theorem fused_placeData (h₀ : Fused o s) : Fused o (placeData t h p s) := by
  unfold placeData
  split
  · exact h₀
  · exact fused_writePlain h₀

theorem fused_placeReturn (h₀ : Fused o s) : Fused o (placeReturn t h p s) := by
  unfold placeReturn
  split
  · exact h₀
  · exact fused_writePlain (.set h₀)

theorem fused_takeSnare {p : ChimePay} (h₀ : Fused o s) : Fused o (takeSnare t w p s) := fused_stampMet (.set h₀)

theorem fused_poolRequest {p : PoolPay} (h₀ : Fused o s) : Fused o (poolRequest t h p s) := by
  refine .ite (fused_answerMember h₀) ?_
  split
  · exact fused_answerMember h₀
  · exact fused_poolPump (fused_addJob h₀)

theorem fused_poolAnswer {p : PoolPay} (h₀ : Fused o s) : Fused o (poolAnswer t p s) := by
  unfold poolAnswer
  split
  · exact fused_countFn h₀
  · exact .ite (fused_countFn (.set h₀)) (fused_emit (.ite (.set h₀) (fused_writePlain (.set h₀))))

theorem fused_deliver (h₀ : Fused o s) : Fused o (deliver t w s) := by
  unfold deliver
  split
  · exact fused_placeData h₀
  · exact fused_placeReturn h₀
  · exact fused_takeSnare h₀
  · exact fused_emit h₀
  · exact fused_emit h₀
  · exact .ite (fused_poolAnswer h₀) (fused_poolRequest h₀)
  · exact fused_takeOffer h₀
  · exact fused_takeAnswer h₀
  · exact fused_takeCommit h₀
  · exact h₀
  · exact fused_closeRecv h₀
  · exact h₀

theorem fused_waitFrame (h₀ : Fused o s) : Fused o (waitFrame w s) := .set h₀

theorem fused_earlyWrites (h₀ : Fused o s) : Fused o (earlyWrites t w s) := by
  refine .ite h₀ ?_
  split
  · split
    · exact fused_emit (fused_bumpOpen (.set h₀))
    · exact h₀
  · split
    · exact fused_emit (fused_bumpOpen (.set h₀))
    · exact h₀
  · split
    · exact .ite (fused_emit (fused_bumpOpen (.set h₀))) h₀
    · exact h₀
  · exact h₀

theorem fused_verifyFrame (h₀ : Fused o s) : Fused o (verifyFrame t w s) := by
  unfold verifyFrame
  dsimp only
  refine .ite (fused_gongHalt (fused_earlyWrites h₀)) ?_
  refine .ite (fused_gongHalt h₀) ?_
  split
  · exact fused_freeFrame (fused_advanceRecv (fused_countFn (fused_countPort (fused_countSealed (fused_cacheKid h₀)))))
  · exact fused_freeFrame (fused_deliver (fused_advanceRecv (fused_countSealed (fused_cacheKid h₀))))

theorem fused_openOn (h₀ : Fused o s) : Fused o (openOn t w s) :=
  .ite (fused_dropFrame h₀) (.ite (fused_dropFrame h₀) (.ite (fused_gongHalt h₀) (.ite (fused_waitFrame h₀) (.ite (fused_waitFrame h₀)
    (fused_verifyFrame h₀)))))

theorem fused_openFrame (h₀ : Fused o s) : Fused o (openFrame w s) := by
  unfold openFrame
  dsimp only
  refine .ite h₀ ?_
  refine .ite (fused_gongHalt h₀) ?_
  refine .ite (fused_emit (fused_waitFrame h₀)) ?_
  refine .ite (fused_waitFrame h₀) ?_
  split
  · exact fused_openOn (fused_keyRecv h₀)
  · exact .ite (fused_waitFrame (fused_keyRecv h₀)) (fused_dropFrame (fused_keyRecv h₀))

theorem fused_retryList {l : List WaitSt} (h₀ : Fused o s) : Fused o (retryList l s) := by
  induction l generalizing s with
  | nil => exact h₀
  | cons _ _ ih => exact ih (fused_openFrame h₀)

theorem fused_retryWaits (h₀ : Fused o s) : Fused o (retryWaits s) := .ite h₀ (fused_retryList (.set h₀))

theorem fused_sealedFrame {a : Arrival} (h₀ : Fused o s) : Fused o (sealedFrame a h b s) :=
  fused_settle (fused_arrive (fun _ h => fused_retryWaits (fused_openFrame h)) h₀)

theorem fused_receiveWaitExpiry (h₀ : Fused o s) : Fused o (receiveWaitExpiry job sid s) := by
  unfold receiveWaitExpiry
  dsimp only
  split
  · exact fused_retryWaits h₀
  · split
    · exact .ite (fused_settle (fused_retryWaits (fused_dropFrame (fused_modRecv (.set (fused_retryWaits h₀)))))) (fused_retryWaits h₀)
    · exact fused_settle (fused_retryWaits (fused_dropFrame (.set (fused_retryWaits h₀))))

theorem fused_chimeRelease {fn : Fn} {port : Option (Fin 32)} (h₀ : Fused o s) : Fused o (chimeRelease fn port s) := by
  unfold chimeRelease
  split
  · exact fused_settle (fused_retryWaits (fused_releaseChime h₀))
  · exact fused_settle (fused_releaseLocal h₀)

end Sys2Proof.Machine
end

section
/-! SUPPORT. Fuses stay burned through the home's operations. -/
namespace Sys2Proof.Machine

variable {o : OtpSt} {s : State} {h : HomeHdr} {a : Arrival} {e : EccReport} {hstat : Byte}

theorem fused_homeMod {g : HomeSt → HomeSt} (h₀ : Fused o s) : Fused o (homeMod h g s) := .set h₀
theorem fused_homeDrop (h₀ : Fused o s) : Fused o (homeDrop h s) := .set h₀

theorem fused_homeReply {payload : List Byte} {ue mac ce : W32} (h₀ : Fused o s) : Fused o (homeReply a h hstat payload ue mac ce s) :=
  fused_sendHome h₀

theorem fused_homeStatus (h₀ : Fused o s) : Fused o (homeStatus a h hstat s) := fused_homeReply h₀

theorem fused_onHome {max : Nat} {nodes : Bool} {g : HomeSt → State → State} (hg : ∀ x u, Fused o u → Fused o (g x u)) (h₀ : Fused o s) :
    Fused o (onHome a h max nodes g s) := by
  unfold onHome
  split
  · exact fused_homeStatus h₀
  · exact hg _ _ h₀

theorem fused_serveLines (h₀ : Fused o s) : Fused o (serveLines a h e s) := by
  unfold serveLines
  split
  · exact fused_homeStatus h₀
  · exact fused_homeReply h₀

theorem fused_leaseLines {x : HomeSt} (h₀ : Fused o s) : Fused o (leaseLines a h e x s) :=
  .ite (fused_homeMod h₀) (.ite (fused_homeStatus h₀) (fused_serveLines (fused_homeMod h₀)))

theorem fused_serveWaiting {l : List (Arrival × HomeHdr × EccReport)} (h₀ : Fused o s) : Fused o (serveWaiting l s) := by
  induction l generalizing s with
  | nil => exact h₀
  | cons _ _ ih =>
    refine ih ?_
    split
    · exact fused_leaseLines h₀
    · exact h₀

theorem fused_endLeases {is : List Nat} (h₀ : Fused o s) : Fused o (endLeases h is s) := by
  unfold endLeases
  split
  · exact h₀
  · exact fused_serveWaiting (fused_homeMod h₀)

theorem fused_homeRow {spelt : Bool} {g : State → State} (hg : ∀ u, Fused o u → Fused o (g u)) (h₀ : Fused o s) :
    Fused o (homeRow a spelt g s) :=
  fused_settle (fused_arrive (fun _ h => hg _ (fused_returnCredits h)) h₀)

theorem fused_homeAlloc {size : W64} {depth : Byte} (h₀ : Fused o s) : Fused o (homeAlloc a h size depth s) := by
  refine .ite (fused_homeStatus h₀) ?_
  refine .ite (fused_homeStatus h₀) ?_
  refine .ite (fused_homeStatus h₀) ?_
  split
  · exact fused_homeStatus h₀
  · exact fused_homeStatus (.set h₀)

theorem fused_homeFree (h₀ : Fused o s) : Fused o (homeFree a h s) :=
  fused_onHome (fun _ _ h => .ite (fused_homeStatus (fused_homeDrop h)) (fused_homeStatus h)) h₀

theorem fused_homeRebind {nk : BitVec 12} (h₀ : Fused o s) : Fused o (homeRebind a h nk s) :=
  fused_onHome (fun _ _ h => .ite (fused_homeStatus (fused_homeMod h)) (fused_homeStatus h)) h₀

theorem fused_homeReadLines (h₀ : Fused o s) : Fused o (homeReadLines a h e s) :=
  fused_onHome (fun _ _ h => .ite (fused_homeStatus h) (.ite (fused_leaseLines h) (fused_serveLines h))) h₀

theorem fused_homeWriteLines {ls : List (Line × W64)} (h₀ : Fused o s) : Fused o (homeWriteLines a h ls s) :=
  fused_onHome (fun _ _ h => .ite (fused_homeStatus h) (.ite (fused_endLeases (fused_homeStatus (fused_homeMod h))) (fused_homeStatus
    (fused_homeMod h)))) h₀

theorem fused_homeReadNodes {addrs : List W64} (h₀ : Fused o s) : Fused o (homeReadNodes a h addrs e s) :=
  fused_onHome (fun _ _ h => .ite (fused_homeStatus h) (fused_homeReply h)) h₀

theorem fused_homeWriteNodes {ns : List (W64 × Node × W64)} (h₀ : Fused o s) : Fused o (homeWriteNodes a h ns s) :=
  fused_onHome (fun _ _ h => .ite (fused_homeStatus h) (fused_homeStatus (fused_homeMod h))) h₀

theorem fused_homeLeaseRelease (h₀ : Fused o s) : Fused o (homeLeaseRelease a h s) :=
  fused_onHome (fun _ _ h => .ite (fused_homeStatus h) (fused_endLeases (fused_homeStatus h))) h₀

end Sys2Proof.Machine
end

section
/-! SUPPORT. Fuses stay burned through the rings' rows. -/
namespace Sys2Proof.Machine

variable {o : OtpSt} {s : State} {f fn : Fn} {a : RegAcc} {x : Fetched (BitVec 512)}

theorem fused_ringEnable (h₀ : Fused o s) : Fused o (ringEnable a s) := .ite h₀ (.ite (fused_ringMod h₀) (fused_emit (fused_ringMod h₀)))

theorem fused_ringEnableDone {writeOk : Bool} (h₀ : Fused o s) : Fused o (ringEnableDone fn x writeOk s) := by
  refine .ite h₀ ?_
  split
  · exact fused_settleRing (fused_ringMod h₀)
  · exact .ite (fused_settleRing (fused_ringMod h₀)) (.ite (fused_settleRing (fused_postDoorbell (fused_ringMod h₀))) (fused_settleRing
    (fused_ringMod (fused_ringMod h₀))))

theorem fused_ringDisable (h₀ : Fused o s) : Fused o (ringDisable a s) := .ite (fused_disableRing h₀) h₀

theorem fused_wakeRing (h₀ : Fused o s) : Fused o (wakeRing f s) := h₀.ringLocal (ringLocal_wakeRing ..)

theorem fused_wakeWrite {offset : BitVec 12} (h₀ : Fused o s) : Fused o (wakeWrite a offset s) := .ite (fused_wakeRing h₀) h₀

theorem fused_actOnRecord (h₀ : Fused o s) : Fused o (actOnRecord f d s) := h₀.ringLocal (ringLocal_actOnRecord ..)

theorem fused_doorbellReadDone (h₀ : Fused o s) : Fused o (doorbellReadDone fn x s) := by
  unfold doorbellReadDone
  extract_lets r s₁ s₂
  have h₂ : Fused o s₂ := by
    unfold s₂
    split
    · exact fused_ringFault (fused_ringMod h₀)
    · exact fused_actOnRecord (fused_ringMod h₀)
  exact .ite h₀ (.ite (fused_wakeRing h₂) h₂)

theorem fused_dispatchRaw {raw : BitVec 512} (h₀ : Fused o s) : Fused o (dispatchRaw f raw s) := by
  unfold dispatchRaw
  split
  · exact fused_settle (fused_complete (fused_postDoorbell (fused_traceVf (fused_ringMod h₀))))
  · exact .set (fused_postDoorbell (fused_traceVf (fused_ringMod h₀)))

theorem fused_scanDispatch (h₀ : Fused o s) : Fused o (scanDispatch x s) := by
  refine .ite h₀ ?_
  split
  · exact h₀
  · split
    · exact fused_ringFault (.set h₀)
    · exact .ite (fused_ringMod h₀) (fused_dispatchRaw (.set h₀))

theorem fused_hostDmaDone {what : DmaWhat} {ok : Bool} (h₀ : Fused o s) : Fused o (hostDmaDone what ok s) := by
  refine .ite h₀ ?_
  split
  · exact .ite h₀ (fused_ringFault h₀)
  · split
    · exact fused_lateDone h₀
    · exact .ite (fused_lateDone h₀) (.ite (fused_settle (fused_modProg h₀)) (fused_settle (fused_complete (fused_releaseHolds h₀))))

end Sys2Proof.Machine
end

section
/-! SUPPORT. Fuses stay burned through the control frames and port events. -/
namespace Sys2Proof.Machine

variable {o : OtpSt} {s : State} {sid epoch : W32} {sealIdle openIdle : BitVec 32} {port : Fin 32} {a : Arrival} {ch : BitVec 128} {tagOk :
  Bool}
  {job : W16} {relays : List (BitVec 12)}

theorem fused_readmit {id : BitVec 12} (h₀ : Fused o s) : Fused o (readmit port id s) := fused_portMod h₀

theorem fused_beat {fl : Byte} (h₀ : Fused o s) : Fused o (beat a boot fl s) := by
  have hlost : ∀ (c : Prop) [Decidable c] cause u, Fused o u → Fused o (if c then neighbourLost a.port cause u else u) :=
    fun _ _ _ _ hu => .ite (fused_neighbourLost hu) hu
  have hback : ∀ (c : Prop) [Decidable c] u, Fused o u → Fused o (if c then readmit a.port (sidSrc a.route) u else u) :=
    fun _ _ _ hu => .ite (fused_readmit hu) hu
  have hwake : ∀ (c : Prop) [Decidable c] u, Fused o u → Fused o (if c then wakeOpen a.port u else u) :=
    fun _ _ _ hu => .ite (fused_wakeOpen hu) hu
  exact fused_portMod (hwake _ _ (hback _ _ (fused_portMod (hlost _ _ _ (fused_portMod (hlost _ _ _ h₀))))))

theorem fused_knell {boot : W64} (h₀ : Fused o s) : Fused o (knell a boot s) := fused_neighbourLost (fused_portMod h₀)
theorem fused_proxyKnell {lost : BitVec 12} (h₀ : Fused o s) : Fused o (proxyKnell a lost s) := .ite h₀ (fused_peerLoss h₀)
theorem fused_holdReq {r : HeldReq} (h₀ : Fused o s) : Fused o (holdReq port r s) := .ite (.set h₀) (.ite (fused_countPort h₀) (.set h₀))

theorem fused_openReq (h₀ : Fused o s) : Fused o (openReq a sid job ch s) := by
  unfold openReq
  dsimp only
  split
  · exact fused_answerOpen (fused_holdReq h₀)
  · exact fused_holdReq h₀

theorem fused_openForRecv {p : InProg} {inn : W32} {peer : BitVec 12} {kid : W16} {out : Option W32} {sd : Bool} {e0 : W32} {sk : W16} (h₀
    : Fused o s) :
    Fused o (openForRecv p inn peer kid ch out sd e0 sk epoch relays s) := by
  refine .ite ?_ ?_
  · refine fused_complete ?_
    refine fused_activateKid ?_
    refine fused_activateKid ?_
    refine .set ?_
    split
    · exact fused_releaseKid h₀
    · exact fused_placeKey h₀
  · refine fused_modProg ?_
    refine .set ?_
    split
    · exact fused_releaseKid h₀
    · exact fused_placeKey h₀

theorem fused_openAck (h₀ : Fused o s) : Fused o (openAck a sid job epoch ch relays tagOk s) := by
  unfold openAck
  split
  · exact fused_countPort h₀
  · split
    · exact .ite (fused_retryWaits (fused_openForRecv h₀)) (fused_gongHalt h₀)
    · exact h₀

theorem fused_grantMore {l : List (BitVec 4 × BitVec 12)} (h₀ : Fused o s) : Fused o (grantMore port l s) := by
  induction l generalizing s with
  | nil => exact h₀
  | cons _ _ ih => exact ih (fused_grant h₀)

theorem fused_loopChecks {depth : Nat} (h₀ : Fused o s) : Fused o (loopChecks a depth tagOk s) :=
  .ite (fused_countPort h₀) (.ite h₀ (fused_countPort h₀))

theorem fused_loop (h₀ : Fused o s) : Fused o (loop a tagOk s) := by
  unfold loop
  split
  · exact .ite (fused_sendLoop (fused_loopChecks h₀)) h₀
  · exact fused_arrive (fun _ h => h) h₀

theorem fused_beatSend (h₀ : Fused o s) : Fused o (beatSend port s) := .ite (.set h₀) (fused_sendBeat h₀)

theorem fused_portDown (h₀ : Fused o s) : Fused o (portDown port s) :=
  .ite (fused_settle (fused_portLost (fused_portMod h₀))) (fused_portMod h₀)

theorem fused_lendPort (h₀ : Fused o s) : Fused o (lendPort sealIdle openIdle port s) := .ite (fused_portMod h₀) h₀

theorem fused_lendingCheck (h₀ : Fused o s) : Fused o (lendingCheck sealIdle openIdle s) :=
  .ite (fused_eachPort (fun _ _ => fused_lendPort) h₀) h₀

end Sys2Proof.Machine
end

section
/-! SUPPORT. Fuses stay burned through the rows of SELF_TEST. -/
namespace Sys2Proof.Machine

variable {o : OtpSt} {s : State} {seed : W64} {p : InProg} {unit : W16} {patterns : W32} {run : Option TestRun}

theorem fused_zeroiseUnit {u : Nat} (h₀ : Fused o s) : Fused o (zeroiseUnit u s) := h₀.keysOnly (keysOnly_zeroiseUnit ..)

theorem fused_dropPorts {l : List (Fin 32)} (h₀ : Fused o s) : Fused o (dropPorts l s) := by
  induction l generalizing s with
  | nil => exact h₀
  | cons _ _ ih => exact ih (.ite (fused_portLost h₀) h₀)

theorem fused_endTest {units : List W16} {patterns : Nat} {r : TestRun} (h₀ : Fused o s) :
    Fused o (endTest units seed patterns r p s) := by
  unfold endTest
  split
  · exact fused_complete (.set h₀)
  · exact fused_complete (fused_dropPorts (.set (fused_keepMisrs (.set h₀))))

theorem fused_startTest (h₀ : Fused o s) : Fused o (startTest unit patterns seed run p s) := by
  unfold startTest
  split
  · exact fused_endTest (fused_foldl (fun _ _ => fused_zeroiseUnit) (fused_openMisrs (.set h₀)))
  · exact fused_goOn (fused_foldl (fun _ _ => fused_zeroiseUnit) (fused_openMisrs (.set h₀)))

theorem fused_selfTest {h : CmdHdr} (h₀ : Fused o s) : Fused o (selfTest h unit patterns seed run s) := by
  unfold selfTest
  split
  · refine .ite ?_ h₀
    split
    · exact fused_settle (fused_endTest h₀)
    · exact h₀
  · exact fused_runRow (fun _ _ => fused_startTest) h₀

end Sys2Proof.Machine
end

section
/-! SUPPORT. Fuses stay burned through the register writes. -/
namespace Sys2Proof.Machine

variable {o : OtpSt} {s : State} {k depth : Nat} {v : W64} {a : RegAcc} {p : Fin 32} {last : W32}

theorem fused_haltClear (h₀ : Fused o s) : Fused o (haltClear a s) := .ite (.set h₀) h₀
theorem fused_recoveryRequest (h₀ : Fused o s) : Fused o (recoveryRequest a s) := .ite (.set h₀) h₀
theorem fused_setGo (h₀ : Fused o s) : Fused o (setGo a s) := .ite (fused_eachPort (fun _ _ => fused_tryUp) (.set h₀)) h₀
theorem fused_routeStage {reg1 : Bool} (h₀ : Fused o s) : Fused o (routeStage a reg1 v s) := .ite h₀ (.ite (.set h₀) (.ite h₀ (.set h₀)))
theorem fused_routeCommit (h₀ : Fused o s) : Fused o (routeCommit a v s) := .ite h₀ (.set h₀)

theorem fused_ptbWrite {g : State → State} (hg : ∀ u, Fused o u → Fused o (g u)) (h₀ : Fused o s) : Fused o (ptbWrite a g s) :=
  .ite h₀ (.ite (fused_countPkg h₀) (.ite (hg _ h₀) h₀))

theorem fused_ptbHsk (h₀ : Fused o s) : Fused o (ptbHsk v s) := .set h₀
theorem fused_ptbBp (h₀ : Fused o s) : Fused o (ptbBp v s) := .set h₀
theorem fused_ptbTaghold (h₀ : Fused o s) : Fused o (ptbTaghold v s) := .set h₀
theorem fused_ptbBeat (h₀ : Fused o s) : Fused o (ptbBeat v s) := .set h₀

theorem fused_dropLoopKid (h₀ : Fused o s) : Fused o (dropLoopKid k s) := by
  unfold dropLoopKid
  split
  · exact fused_retireKid (.set h₀)
  · exact h₀

theorem fused_takeLoopKid (h₀ : Fused o s) : Fused o (takeLoopKid k s) := by
  refine .set ?_
  refine fused_activateKid ?_
  refine fused_placeKey ?_
  split
  · exact .set (fused_bumpDraw h₀)
  · exact fused_bumpDraw h₀

theorem fused_endPortLoop (h₀ : Fused o s) : Fused o (endPortLoop p s) := fused_portMod (fused_dropLoopKid h₀)
theorem fused_endPoolLoop (h₀ : Fused o s) : Fused o (endPoolLoop k s) := .set (fused_endLoop (fused_dropLoopKid h₀))
theorem fused_loopReads {v : W32} (h₀ : Fused o s) : Fused o (loopReads v s) := .set h₀

theorem fused_setPortLoop {partner : BitVec 5} (h₀ : Fused o s) : Fused o (setPortLoop p depth partner last s) :=
  .ite (fused_loopReads (fused_endPortLoop h₀)) (.ite (fused_loopReads (fused_endPortLoop h₀)) (.ite (fused_loopReads (fused_endPortLoop
    h₀)) (fused_loopReads (fused_sendLoop (fused_takeLoopKid (fused_portMod (fused_endPortLoop h₀)))))))

theorem fused_setPoolLoop (h₀ : Fused o s) : Fused o (setPoolLoop k depth last s) :=
  .ite (fused_loopReads (fused_endPoolLoop h₀)) (.ite (fused_loopReads (fused_endPoolLoop h₀)) (.ite (fused_loopReads (fused_endPoolLoop
    h₀)) (fused_loopReads (fused_startLoop (.set (fused_takeLoopKid (fused_endPoolLoop h₀)))))))

theorem fused_ptbLoop (h₀ : Fused o s) : Fused o (ptbLoop v s) :=
  .ite (.ite (fused_setPoolLoop h₀) (fused_loopReads h₀)) (fused_setPortLoop h₀)

theorem fused_writeRing {n : Nat} (h₀ : Fused o s) : Fused o (writeRing a n v s) :=
  .ite h₀ (.ite (fused_ringMod h₀) (.ite (fused_ringMod h₀) (.ite (fused_ringMod h₀) (.ite (.ite (fused_ringMod h₀) h₀) (.ite (.ite
    (fused_ringMod h₀) h₀) h₀)))))

theorem fused_writeSeen (h₀ : Fused o s) : Fused o (writeSeen a v s) := .ite (.set h₀) h₀
theorem fused_writeFabId (h₀ : Fused o s) : Fused o (writeFabId a v s) := .ite (.set h₀) h₀
theorem fused_writeRouteSel (h₀ : Fused o s) : Fused o (writeRouteSel a v s) := .ite (.set h₀) h₀
theorem fused_writeCtrl (h₀ : Fused o s) : Fused o (writeCtrl a v s) := .ite (fused_ringEnable h₀) (fused_ringDisable h₀)
theorem fused_writeRoute0 (h₀ : Fused o s) : Fused o (writeRoute0 a v s) := .ite (fused_routeCommit h₀) (fused_routeStage h₀)

theorem fused_registerWrite {offset : W16} (h₀ : Fused o s) : Fused o (registerWrite a offset v s) :=
  .ite (fused_wakeWrite h₀) (.ite (fused_writeCtrl h₀) (.ite (fused_writeRing h₀) (.ite (fused_writeSeen h₀) (.ite (.ite
    (fused_recoveryRequest h₀) h₀) (.ite (.ite (fused_haltClear h₀) h₀) (.ite (fused_writeFabId h₀) (.ite (.ite (fused_setGo h₀) h₀) (.ite
    (fused_writeRouteSel h₀) (.ite (fused_writeRoute0 h₀) (.ite (fused_routeStage h₀) (.ite (fused_ptbWrite (fun _ => fused_ptbHsk)
    h₀) (.ite (fused_ptbWrite (fun _ => fused_ptbBp) h₀) (.ite (fused_ptbWrite (fun _ => fused_ptbTaghold) h₀) (.ite
    (fused_ptbWrite (fun _ => fused_ptbBeat) h₀) (.ite (fused_ptbWrite (fun _ => fused_ptbLoop) h₀) h₀)))))))))))))))

end Sys2Proof.Machine
end

section
/-! SUPPORT. Fuses stay burned through the mailboxes and the SPDM responder. -/
namespace Sys2Proof.Machine

variable {o : OtpSt} {s : State} {code slot index : Byte} {q : SpdmReq} {p : BitVec 1} {r : Resp} {me : Instr}

theorem fused_mailMod {g : MailSt → MailSt} (h₀ : Fused o s) : Fused o (mailMod p g s) := .ite (.set h₀) (.set h₀)
theorem fused_respond (h₀ : Fused o s) : Fused o (respond p r s) := fused_emit h₀

theorem fused_mail {f : State → State} (hf : ∀ u, Fused o u → Fused o (f u)) (h₀ : Fused o s) : Fused o (mail p me f s) :=
  .ite h₀ (.ite (.ite h₀ (fused_emit (fused_mailMod h₀))) (.ite h₀ (hf _ (.ite (fused_emit (.set h₀)) (.set h₀)))))

theorem fused_unsupported (h₀ : Fused o s) : Fused o (unsupported q code s) := fused_respond h₀
theorem fused_parityDrop (h₀ : Fused o s) : Fused o (parityDrop q s) := fused_respond (fused_bumpOpen h₀)

theorem fused_spdm {f : State → State} (hf : ∀ u, Fused o u → Fused o (f u)) (h₀ : Fused o s) : Fused o (spdm q me f s) :=
  fused_mail (fun _ h => .ite (fused_parityDrop h) (.ite (hf _ h) (fused_respond h))) h₀

theorem fused_attested {f : State → State} (hf : ∀ u, Fused o u → Fused o (f u)) (h₀ : Fused o s) : Fused o (attested q code f s) :=
  .ite (hf _ h₀) (fused_unsupported h₀)

theorem fused_doeDiscovery (h₀ : Fused o s) : Fused o (doeDiscovery p index s) := fused_respond h₀
theorem fused_getVersion (h₀ : Fused o s) : Fused o (getVersion q s) := fused_respond (fused_mailMod h₀)
theorem fused_getCapabilities (h₀ : Fused o s) : Fused o (getCapabilities q s) := fused_respond (fused_mailMod h₀)

theorem fused_negotiate {offer : Algorithms} (h₀ : Fused o s) : Fused o (negotiate q offer s) :=
  .ite (fused_respond (fused_mailMod h₀)) (fused_respond (fused_mailMod h₀))

theorem fused_getDigests (h₀ : Fused o s) : Fused o (getDigests q s) := fused_respond h₀

theorem fused_getCertificate {offset length : W16} (h₀ : Fused o s) : Fused o (getCertificate q slot offset length s) := by
  unfold getCertificate
  split
  · exact .ite (fused_respond h₀) (fused_respond h₀)
  · exact fused_respond h₀

theorem fused_owe (h₀ : Fused o s) : Fused o (owe q r s) := .ite (fused_respond (fused_mailMod h₀)) (fused_mailMod h₀)
theorem fused_challenge (h₀ : Fused o s) : Fused o (challenge q slot s) := .ite (fused_owe (fused_bumpDraw h₀)) (fused_respond h₀)

theorem fused_getMeasurements {signs : Option Key} (h₀ : Fused o s) : Fused o (getMeasurements q index signs s) := by
  unfold getMeasurements
  dsimp only
  split
  · exact fused_respond h₀
  · exact .ite (fused_owe (fused_bumpDraw h₀)) (fused_respond h₀)

theorem fused_keyExchange (h₀ : Fused o s) : Fused o (keyExchange q slot s) := by
  refine .ite (fused_respond h₀) ?_
  refine .ite (fused_respond h₀) ?_
  refine fused_owe ?_
  refine .set ?_
  refine fused_mailMod ?_
  refine fused_placeKey ?_
  split
  · exact .set (fused_bumpDraw h₀)
  · exact fused_bumpDraw h₀

theorem fused_finishSession {session : Nat} {verifyOk : Bool} (h₀ : Fused o s) : Fused o (finishSession q session verifyOk s) :=
  .ite (fused_unsupported h₀) (.ite (fused_respond h₀) (fused_respond (fused_mailMod h₀)))

theorem fused_endSession (h₀ : Fused o s) : Fused o (endSession q s) := by
  unfold endSession
  split
  · exact fused_unsupported h₀
  · exact fused_respond (fused_retireKid (fused_mailMod h₀))

theorem fused_respondIfReady (h₀ : Fused o s) : Fused o (respondIfReady q s) := by
  unfold respondIfReady
  dsimp only
  split
  · exact fused_respond (fused_mailMod h₀)
  · exact .ite (fused_respond h₀) (fused_unsupported h₀)

theorem fused_otherRequest (h₀ : Fused o s) : Fused o (otherRequest q code s) := .ite (fused_respond h₀) (fused_unsupported h₀)

theorem fused_vendorMsg {may : State → Bool} {f : State → State} (hf : ∀ u, Fused o u → Fused o (f u)) (h₀ : Fused o s) :
    Fused o (vendorMsg q me may f s) :=
  fused_spdm (fun _ h => .ite (fused_respond h) (.ite (hf _ h) (fused_unsupported h))) h₀

theorem fused_liveSession (h₀ : Fused o s) : Fused o (liveSession p r s) := by
  unfold liveSession
  split
  · split
    · exact fused_activateKid h₀
    · exact h₀
  · exact h₀

theorem fused_mailDone (h₀ : Fused o s) : Fused o (mailDone p s) := by
  unfold mailDone
  dsimp only
  split
  · exact h₀
  · exact .ite (fused_mailMod (fused_liveSession h₀)) (fused_respond (fused_mailMod (fused_liveSession h₀)))

theorem fused_kxeDone {who : KxeWho} (h₀ : Fused o s) : Fused o (kxeDone who s) := by
  unfold kxeDone
  split
  · exact .ite (fused_settle (fused_modProg h₀)) (fused_lateDone h₀)
  · exact fused_mailDone h₀

end Sys2Proof.Machine
end

section
/-! SUPPORT. Fuses stay burned through the rows of IDE_KM and of lost links. -/
namespace Sys2Proof.Machine

variable {o : OtpSt} {s : State} {l failed : List Fn} {q : SpdmReq} {i : IdeSel}

theorem fused_query (h₀ : Fused o s) : Fused o (query q s) := fused_respond h₀

theorem fused_transientIde {key : Key} (h₀ : Fused o s) : Fused o (transientIde key s) := h₀.sendsOnly (sendsOnly_transientIde ..)

theorem fused_keyProg {key : Key} {iv : W64} (h₀ : Fused o s) : Fused o (keyProg q i key iv s) :=
  .ite (fused_respond h₀) (fused_respond (.set (fused_transientIde h₀)))

theorem fused_kSetGo (h₀ : Fused o s) : Fused o (kSetGo q i s) := .ite (fused_respond h₀) (fused_respond (.set h₀))

theorem fused_kSetStop (h₀ : Fused o s) : Fused o (kSetStop q i s) :=
  .ite (fused_respond h₀) (fused_respond (.ite (fused_settle (fused_tdisErrorClean (.set h₀))) (.set h₀)))

theorem fused_faultRings (h₀ : Fused o s) : Fused o (faultRings failed l s) := by
  induction l generalizing s with
  | nil => exact h₀
  | cons _ _ ih => exact ih (.ite (fused_ringFault h₀) h₀)

theorem fused_dropStops (h₀ : Fused o s) : Fused o (dropStops l s) := by
  induction l generalizing s with
  | nil => exact h₀
  | cons _ _ ih => exact ih (.ite h₀ (fused_fnMod h₀))

theorem fused_eachError (h₀ : Fused o s) : Fused o (eachError l s) := by
  induction l generalizing s with
  | nil => exact h₀
  | cons _ _ ih => exact ih (fused_fnMod h₀)

theorem fused_linkDown {p : BitVec 1} (h₀ : Fused o s) : Fused o (linkDown p failed s) :=
  .ite (fused_settle (fused_tdisErrorClean (fused_faultRings (fused_dropStops (fused_retireKids (fused_mailMod (.set h₀)))))))
    (fused_eachError (fused_dropStops (fused_retireKids (fused_mailMod (.set h₀)))))

end Sys2Proof.Machine
end

section
/-! SUPPORT. Fuses stay burned through the life-cycle commands. -/
namespace Sys2Proof.Machine

variable {o : OtpSt} {s : State} {p : InProg} {addr : W64} {env : StartEnv}

theorem fused_startChallenge (h₀ : Fused o s) : Fused o (startChallenge addr p s) :=
  fused_goOn (fused_sendHost (fused_bumpDraw (.set h₀)))

theorem fused_startTransition {req : Fetched LcReq} (h₀ : Fused o s) : Fused o (startTransition req env p s) := by
  unfold startTransition
  split
  · exact h₀
  · exact fused_goOn (.set h₀)

theorem fused_startStatus (h₀ : Fused o s) : Fused o (startStatus addr p s) := fused_goOn (fused_sendHost h₀)

theorem fused_startOwnerStore {it : Fetched OwnerItem} (h₀ : Fused o s) : Fused o (startOwnerStore it p s) := by
  unfold startOwnerStore
  split
  · exact h₀
  · exact .ite (fused_emit (fused_goOn h₀)) (fused_complete h₀)

theorem fused_flashWriteDone {job : FlashJob} (h₀ : Fused o s) : Fused o (flashWriteDone job env s) := by
  unfold flashWriteDone
  split
  · exact fused_settle (fused_modProg h₀)
  · exact fused_settle (.set h₀)

end Sys2Proof.Machine
end

section
/-! SUPPORT. Fuses stay burned through the rows of TDISP and of VF resets. -/
namespace Sys2Proof.Machine

variable {o : OtpSt} {s : State} {vf : BitVec 12} {q : SpdmReq} {t : TdiSt}

theorem fused_tdispError {code : Nat} (h₀ : Fused o s) : Fused o (tdispError q code s) := fused_respond h₀

theorem fused_onIface {f : TdiSt → State → State} (hf : ∀ x u, Fused o u → Fused o (f x u)) (h₀ : Fused o s) : Fused o (onIface q vf f s) :=
  .ite (hf _ _ h₀) (fused_tdispError h₀)

theorem fused_tdiMod {g : TdiSt → TdiSt} (h₀ : Fused o s) : Fused o (tdiMod vf g s) := fused_fnMod h₀

theorem fused_lockIface {stream : Nat} {assocOk entropyOk : Bool} (h₀ : Fused o s) :
    Fused o (lockIface q vf stream assocOk entropyOk t s) := by
  unfold lockIface
  split
  · exact fused_tdispError h₀
  · exact fused_respond (fused_tdiMod (fused_bumpDraw h₀))

theorem fused_ifaceReport (h₀ : Fused o s) : Fused o (ifaceReport q vf t s) := .ite (fused_respond h₀) (fused_tdispError h₀)

theorem fused_startIface {nonce : Key} (h₀ : Fused o s) : Fused o (startIface q vf nonce t s) :=
  .ite (fused_tdispError h₀) (.ite (fused_tdispError h₀) (fused_respond (fused_tdiMod h₀)))

theorem fused_stopIface (h₀ : Fused o s) : Fused o (stopIface q vf t s) :=
  .ite (fused_settle (fused_startCleanup (fused_tdiMod h₀))) (.ite (fused_tdiMod h₀) (fused_respond (fused_tdiMod h₀)))

theorem fused_vfEnable {tick : Nat} {place : Placement} (h₀ : Fused o s) : Fused o (vfEnable vf tick place s) :=
  .ite h₀ (fused_viewMod (fused_viewMod (fused_fnMod h₀)))

theorem fused_configured {ev : VfEvent} (h₀ : Fused o s) : Fused o (configured vf ev s) := by
  unfold configured
  split
  · exact .ite (fused_fnMod h₀) h₀
  · exact h₀

theorem fused_pfReset (h₀ : Fused o s) : Fused o (pfReset s) :=
  fused_settle (fused_disableRing (fused_flushFn (fused_squashReads (fused_abortCmds (fused_ringMod h₀)))))

end Sys2Proof.Machine
end

section
/-! SUPPORT. Fuses stay burned through the tamper sources and power states. -/
namespace Sys2Proof.Machine

variable {o : OtpSt} {s : State} {t : Power} {p : Fin 32} {env : StartEnv}

theorem fused_notePin {t : TamperSrc} (h₀ : Fused o s) : Fused o (notePin t s) := by
  unfold notePin
  split
  · exact .ite h₀ (.set h₀)
  · exact h₀

theorem fused_droopWarning (h₀ : Fused o s) : Fused o (droopWarning s) := .ite h₀ (fused_emit (.set h₀))
theorem fused_setPower (h₀ : Fused o s) : Fused o (setPower t s) := .set h₀
theorem fused_endLending (h₀ : Fused o s) : Fused o (endLending p s) := h₀.sendsOnly (sendsOnly_endLending ..)

theorem fused_cacheOff {k : Nat} (h₀ : Fused o s) : Fused o (cacheOff k s) := fused_regionMod (fused_writeBackAll h₀)

theorem fused_enterA2 (h₀ : Fused o s) : Fused o (enterA2 s) :=
  fused_setPower (fused_eachIdx (fun _ _ => fused_cacheOff) (fused_eachPort (fun _ _ => fused_endLending) h₀))

theorem fused_wakeA1 (h₀ : Fused o s) : Fused o (wakeA1 s) :=
  fused_settle (fused_poolPump (fused_eachPort (fun _ _ => fused_pump) (fused_retryWaits (fused_setPower h₀))))

theorem fused_sleepPort (h₀ : Fused o s) : Fused o (sleepPort p s) :=
  .ite (fused_portMod (.ite (fused_takeDown h₀) h₀)) (.ite (fused_takeDown h₀) h₀)

theorem fused_closeViews (h₀ : Fused o s) : Fused o (closeViews l s) := by
  fun_induction closeViews l s with
  | case1 => exact h₀
  | case2 _ _ _ ih => exact ih (.ite (fused_closeWindow (fused_closeWindow h₀)) h₀)
  | case3 _ _ ih => exact ih h₀

theorem fused_taborOff (h₀ : Fused o s) : Fused o (taborOff s) :=
  .set (fused_closeWindow (fused_closeViews (fused_applyEvents (.set h₀))))

theorem fused_taborOn (h₀ : Fused o s) : Fused o (taborOn s) := .set h₀

theorem fused_enterA3 (h₀ : Fused o s) : Fused o (enterA3 s) :=
  fused_setPower (.set (fused_taborOff (fused_eachPort (fun _ _ => fused_sleepPort) h₀)))

theorem fused_readOwed {l : List Fn} (h₀ : Fused o s) : Fused o (readOwed l s) := by
  induction l generalizing s with
  | nil => exact h₀
  | cons _ _ ih => exact ih (.ite (fused_emit (fused_ringMod h₀)) h₀)

theorem fused_next {t : State} (h₀ : Fused o t) : Fused o (nextOf (.next t) s) := h₀

theorem fused_mailCommand {c : Instr} (hc : mailCommand c = true) (h₀ : Fused o s) : Fused o (nextOf (exec c s) s) := by
  cases c with
  | doeDiscovery _ _ => exact fused_next (fused_mail (fun _ => fused_doeDiscovery) h₀)
  | getVersion _ => exact fused_next (fused_spdm (fun _ => fused_getVersion) h₀)
  | getCapabilities _ => exact fused_next (fused_spdm (fun _ => fused_getCapabilities) h₀)
  | negotiateAlgorithms _ _ => exact fused_next (fused_spdm (fun _ => fused_negotiate) h₀)
  | getDigests _ => exact fused_next (fused_spdm (fun _ h => fused_attested (fun _ => fused_getDigests) h) h₀)
  | getCertificate _ _ _ _ => exact fused_next (fused_spdm (fun _ h => fused_attested (fun _ => fused_getCertificate) h) h₀)
  | challenge _ _ _ => exact fused_next (fused_spdm (fun _ h => fused_attested (fun _ => fused_challenge) h) h₀)
  | getMeasurements _ _ _ _ _ =>
    exact fused_next (fused_spdm (fun _ h => .ite (fused_attested (fun _ => fused_getMeasurements) h) (fused_getMeasurements h)) h₀)
  | keyExchange _ _ => exact fused_next (fused_spdm (fun _ h => fused_attested (fun _ => fused_keyExchange) h) h₀)
  | finish _ _ _ => exact fused_next (fused_spdm (fun _ h => fused_attested (fun _ => fused_finishSession) h) h₀)
  | endSession _ => exact fused_next (fused_spdm (fun _ => fused_endSession) h₀)
  | respondIfReady _ => exact fused_next (fused_spdm (fun _ => fused_respondIfReady) h₀)
  | spdmUnsupportedRequest _ _ => exact fused_next (fused_spdm (fun _ => fused_otherRequest) h₀)
  | query _ => exact fused_next (fused_vendorMsg (fun _ => fused_query) h₀)
  | keyProg _ _ _ _ => exact fused_next (fused_vendorMsg (fun _ => fused_keyProg) h₀)
  | kSetGo _ _ => exact fused_next (fused_vendorMsg (fun _ => fused_kSetGo) h₀)
  | kSetStop _ _ => exact fused_next (fused_vendorMsg (fun _ => fused_kSetStop) h₀)
  | getTdispVersion _ | getTdispCapabilities _ => exact fused_next (fused_vendorMsg (fun _ => fused_respond) h₀)
  | lockInterfaceRequest _ _ _ _ _ =>
    exact fused_next (fused_vendorMsg (fun _ h => fused_onIface (fun _ _ => fused_lockIface) h) h₀)
  | getDeviceInterfaceReport _ _ =>
    exact fused_next (fused_vendorMsg (fun _ h => fused_onIface (fun _ _ => fused_ifaceReport) h) h₀)
  | getDeviceInterfaceState _ _ =>
    exact fused_next (fused_vendorMsg (fun _ h => fused_onIface (fun _ _ => fused_respond) h) h₀)
  | startInterfaceRequest _ _ _ =>
    exact fused_next (fused_vendorMsg (fun _ h => fused_onIface (fun _ _ => fused_startIface) h) h₀)
  | stopInterfaceRequest _ _ =>
    exact fused_next (fused_vendorMsg (fun _ h => fused_onIface (fun _ _ => fused_stopIface) h) h₀)
  | tdispUnsupportedRequest _ _ => exact fused_next (fused_vendorMsg (fun _ => fused_tdispError) h₀)
  | _ => cases hc

theorem fused_serveMail {i : Instr} (h₀ : Fused o s) : Fused o (serveMail i s) := by
  obtain h | ⟨hi, h⟩ := serveMail_cases i s
  · rwa [h]
  · rw [h]
    exact fused_mailCommand hi h₀

theorem fused_serveHeld {p : BitVec 1} (h₀ : Fused o s) : Fused o (serveHeld p s) := by
  unfold serveHeld
  split
  · exact fused_serveMail (fused_mailMod h₀)
  · exact h₀

theorem fused_leaveA3 (h₀ : Fused o s) : Fused o (leaveA3 s) :=
  fused_serveHeld (fused_serveHeld (fused_readOwed (fused_taborOn (fused_deriveIdentity (fused_setPower h₀)))))

theorem fused_enterOff (h₀ : Fused o s) : Fused o (enterOff s) :=
  fused_setPower (.set (fused_hostLost (fused_zeroiseAll (fused_tdisError (fused_endPerturb h₀)))))

theorem fused_changePower (h₀ : Fused o s) : Fused o (changePower t env s) := by
  unfold changePower
  split
  · exact fused_setPower (fused_eachPort (fun _ _ => fused_endLending) h₀)
  · exact fused_eachPort (fun _ _ => fused_sendBeat) (fused_setPower h₀)
  · exact fused_enterOff h₀
  · exact fused_wakeA1 h₀
  · exact .ite (fused_leaveA3 h₀) (fused_enterA2 h₀)
  · exact fused_enterA3 h₀
  · exact fused_start h₀
  · exact h₀

theorem fused_powerRequest (h₀ : Fused o s) : Fused o (powerRequest t env s) := by
  refine .ite h₀ ?_
  split
  · exact fused_emit h₀
  · exact fused_changePower (fused_emit h₀)

theorem fused_pwrokFall (h₀ : Fused o s) : Fused o (pwrokFall s) := fused_afterReset (.ite (.set h₀) h₀)

end Sys2Proof.Machine
end

section
/-! SUPPORT. Fuses stay burned through the commands of recovery and migration. -/
namespace Sys2Proof.Machine

variable {o : OtpSt} {s : State} {p : InProg} {f : Fn} {h : CmdHdr} {addr : W64} {kid : W16}

theorem fused_startReset (h₀ : Fused o s) : Fused o (startReset h p s) := .ite (fused_beginReset h₀) (fused_goOn h₀)

theorem fused_startReplay {count : W32} {descs : Fetched (List ReplayDesc)} (h₀ : Fused o s) : Fused o (startReplay h count descs p s) :=
  .ite (fused_goOn (.set h₀)) (fused_runReplay (fused_goOn h₀))

theorem fused_placeMigration {key : Key} {reply : Option HostData} (h₀ : Fused o s) : Fused o (placeMigration p key addr reply s) :=
  fused_goOn (fused_placeKey (fused_reserveInt h₀))

theorem fused_startMigrateKey {msg : Fetched MigMsg} (h₀ : Fused o s) : Fused o (startMigrateKey addr msg p s) := by
  unfold startMigrateKey
  split
  · exact h₀
  · refine .ite (fused_goOn (fused_sendHost (fused_fnMod (fused_bumpDraw h₀)))) ?_
    refine .ite ?_ ?_
    · split
      · exact fused_goOn h₀
      · exact h₀
    · refine .ite ?_ ?_
      · split
        · exact fused_goOn h₀
        · split
          · exact fused_goOn h₀
          · exact fused_placeMigration (fused_bumpDraw (fused_bumpDraw (fused_bumpDraw h₀)))
      · split
        · exact fused_placeMigration h₀
        · exact fused_goOn h₀

theorem fused_saveOf {fresh : Bool} (h₀ : Fused o s) : Fused o (saveOf s f fresh).2 := by
  have hnew : Fused o (saveOf.newSave s).2 := fused_bumpDraw (fused_bumpDraw h₀)
  unfold saveOf
  split
  · split
    · exact hnew
    · exact h₀
  · exact hnew

theorem fused_writeChunks {mig : Key} {l : List (Byte × Nat)} {n n' : Nat} {v : SaveSt} (h₀ : Fused o s) :
    Fused o (writeChunks f mig addr l n n' v s).2.2.2 := by
  fun_induction writeChunks f mig addr l n n' v s with
  | case1 | case2 => exact h₀
  | case3 _ _ _ _ _ _ _ _ _ ih => exact ih (fused_sendHost (fused_bumpOpen h₀))

theorem fused_startSaveImage {bufLen : W64} (h₀ : Fused o s) : Fused o (startSaveImage kid addr bufLen cursor p s) := by
  have hsave : Fused o (saveOf s p.target (!(cursorSection cursor == 1) && cursorPos cursor == 0)).2 := fused_saveOf h₀
  have hend : ∀ (b : Bool) u, Fused o u → Fused o (if b then bumpOpen u else u) := fun _ _ hu => .ite (fused_bumpOpen hu) hu
  exact .ite (fused_complete (fused_fnMod (hend _ _ (fused_writeChunks hsave)))) (fused_goOn (fused_fnMod (hend _ _ (fused_writeChunks
    hsave))))

theorem fused_writeSegments {l : List (Nat × List Byte)} (h₀ : Fused o s) : Fused o (writeSegments f l s) := by
  induction l generalizing s with
  | nil => exact h₀
  | cons _ _ ih =>
    refine ih ?_
    split
    · exact fused_sendSpace h₀
    · exact h₀

theorem fused_placeTenant {x : SlotSt} (h₀ : Fused o s) : Fused o (placeTenant f kid x s) := by
  unfold placeTenant
  split
  · exact h₀
  · extract_lets own
    have hkid : ∀ t, Fused o t → Fused o (if own then (kid, t) else reserveKid f s).2 := fun t ht => by
      split
      · exact ht
      · exact fused_reserveKid h₀
    exact fused_activateKid (fused_placeKey (hkid _ (.set h₀)))

theorem fused_recreate {i : ImageItem} (h₀ : Fused o s) : Fused o (recreate f i s) := by
  unfold recreate
  split
  · exact fused_fnMod h₀
  · exact fused_fnMod h₀
  · exact fused_fnMod h₀
  · exact fused_placeTenant h₀
  · exact .ite h₀ (.set h₀)
  · exact fused_ringMod (fused_bumpOpen h₀)

theorem fused_recreateAll {l : List ImageItem} (h₀ : Fused o s) : Fused o (recreateAll f l s) := by
  induction l generalizing s with
  | nil => exact h₀
  | cons _ _ ih => exact ih (fused_recreate h₀)

theorem fused_endRestore {r : RestoreSt} (h₀ : Fused o s) : Fused o (endRestore f kid r s) := by
  unfold endRestore
  extract_lets s₁ s₂
  have h₂ : Fused o s₂ := by
    have h₁ : Fused o s₁ := fused_fnMod (fused_recreateAll h₀)
    unfold s₂
    split
    · exact h₁
    · exact .ite (fused_applyFilter h₁) (fused_fnMod h₁)
  exact .ite h₂ (fused_retireKid (fused_fnMod h₂))

theorem fused_failRestore {st : W16} (h₀ : Fused o s) : Fused o (failRestore p st s) := fused_complete (fused_tdiError h₀)

theorem fused_startRestoreImage {cursor : W64} {chunks : Fetched (List Chunk)} (h₀ : Fused o s) :
    Fused o (startRestoreImage kid cursor chunks p s) := by
  unfold startRestoreImage
  dsimp only
  split
  · exact h₀
  · split
    · exact fused_failRestore (fused_writeSegments h₀)
    · exact fused_complete (fused_endRestore (fused_writeSegments h₀))
    · exact fused_complete (fused_fnMod (.ite (fused_bumpOpen (fused_writeSegments h₀)) (fused_writeSegments h₀)))

theorem fused_startDirtySync (h₀ : Fused o s) : Fused o (startDirtySync addr p s) := by
  unfold startDirtySync
  split
  · exact h₀
  · exact fused_goOn (.set (fused_fnMod h₀))

end Sys2Proof.Machine
end

section
/-! SUPPORT. Fuses stay burned through the recovery mailbox's rows. -/
namespace Sys2Proof.Machine

variable {o : OtpSt} {s : State} {rcmd : Byte} {rstat : W16} {env : StartEnv}

theorem fused_recBody {body : List Byte} (h₀ : Fused o s) : Fused o (recBody rcmd rstat body s) := fused_emit h₀
theorem fused_recRespond (h₀ : Fused o s) : Fused o (recRespond rcmd rstat s) := fused_recBody h₀

theorem fused_recMail {ok : Bool} {f : State → State} (hf : ∀ u, Fused o u → Fused o (f u)) (h₀ : Fused o s) :
    Fused o (recMail rcmd ok f s) :=
  .ite h₀ (.ite (hf _ h₀) (fused_recRespond h₀))

theorem fused_recStatus (h₀ : Fused o s) : Fused o (recStatus s) := fused_recBody h₀
theorem fused_recChallenge (h₀ : Fused o s) : Fused o (recChallenge s) := fused_recBody (fused_bumpDraw (.set h₀))

theorem fused_recTransition {r : LcReq} (h₀ : Fused o s) : Fused o (recTransition r env s) := by
  unfold recTransition
  split
  · exact fused_recRespond h₀
  · exact fused_recRespond h₀
  · exact .ite (fused_recRespond h₀) (.ite (fused_start (fused_recRespond (fused_finishOwner (.set h₀)))) (fused_recRespond (.set h₀)))

theorem fused_imgStart {length : Nat} (h₀ : Fused o s) : Fused o (imgStart length s) :=
  .ite (fused_recRespond h₀) (fused_recRespond (.set h₀))

theorem fused_imgTake {bytes n : Nat} (h₀ : Fused o s) : Fused o (imgTake bytes n s) :=
  .ite (fused_recRespond h₀) (fused_recRespond (.set h₀))

theorem fused_imgVerify {img : FwImage} (h₀ : Fused o s) : Fused o (imgVerify img s) :=
  .ite (fused_emit (fused_recRespond (.set h₀))) (fused_recRespond h₀)

theorem fused_imageWritten {readBackOk : Bool} (h₀ : Fused o s) : Fused o (imageWritten readBackOk env s) :=
  .ite (fused_start (.set h₀)) h₀

end Sys2Proof.Machine
end

section
/-! SUPPORT. Fuses stay burned through the commands of debug and telemetry. -/
namespace Sys2Proof.Machine

variable {o : OtpSt} {s : State} {p : InProg} {bad : List Nat} {fn : Fn} {ctx : W16}

theorem fused_startGrant {cert : Fetched Cert} (h₀ : Fused o s) : Fused o (startGrant cert p s) := by
  unfold startGrant
  split
  · exact h₀
  · exact fused_goOn (fused_reserveInt h₀)

theorem fused_startRevoke (h₀ : Fused o s) : Fused o (startRevoke p s) := by
  unfold startRevoke
  split
  · exact fused_complete h₀
  · exact fused_goOn (fused_revokeGrant h₀)

theorem fused_startTelemRead {h : CmdHdr} {addr : W64} {bufLen : W32} (h₀ : Fused o s) : Fused o (startTelemRead h addr bufLen bad p s) :=
  fused_goOn (fused_sendHost (.set h₀))

theorem fused_startTraceConfig {share gib : Byte} (h₀ : Fused o s) : Fused o (startTraceConfig share gib p s) :=
  fused_complete (.set (.ite (fused_toScrubber h₀) h₀))

theorem fused_commandStart (h₀ : Fused o s) : Fused o (commandStart fn ctx s) := by
  unfold commandStart
  dsimp only
  split
  · exact fused_emit (.set h₀)
  · exact .ite (fused_emit (.set h₀)) (fused_emit h₀)

theorem fused_taborEvent {type format units tick : Nat} (h₀ : Fused o s) : Fused o (taborEvent fn ctx type format units tick s) :=
  .ite h₀ (fused_addSet (.set h₀))

theorem fused_traceSlot (h₀ : Fused o s) : Fused o (traceSlot f s) :=
  .ite h₀ (.set (fused_activateKid (fused_placeKey (fused_reserveInt h₀))))

theorem fused_traceBlockSeal {f : Fn} (h₀ : Fused o s) : Fused o (traceBlockSeal f s) := .ite h₀ (fused_emit (.set (fused_traceSlot h₀)))

end Sys2Proof.Machine
end

section
/-! SUPPORT. Fuses stay burned through the TAP's instructions. -/
namespace Sys2Proof.Machine

variable {o : OtpSt} {s : State} {st : W16} {d : W32} {r : LcReq} {env : StartEnv}

theorem fused_tapBypass (h₀ : Fused o s) : Fused o (tapBypass s) := fused_emit h₀
theorem fused_tapOpen (h₀ : Fused o s) : Fused o (tapOpen s) := fused_bumpOpen (fused_emit h₀)

theorem fused_tap {n : Nat} {f : State → State} (hf : ∀ u, Fused o u → Fused o (f u)) (h₀ : Fused o s) : Fused o (tap n f s) :=
  .ite (hf _ h₀) (fused_tapBypass h₀)

theorem fused_tapLcAnswer (h₀ : Fused o s) : Fused o (tapLcAnswer st d s) := fused_emit h₀

theorem fused_tapRun (h₀ : Fused o s) : Fused o (tapRun r env s) :=
  fused_lcEnd (fused_emit (.ite (fused_lcBegin h₀) (.ite (fused_lcErased (fused_lcJournal (fused_lcBegin h₀))) (fused_lcErased
    (fused_lcBegin h₀)))))

theorem fused_tapTransition (h₀ : Fused o s) : Fused o (tapTransition r env s) := by
  unfold tapTransition
  split
  · exact fused_tapLcAnswer h₀
  · exact .ite (fused_tapRun (.set h₀)) (fused_tapLcAnswer (.set h₀))

theorem fused_tapChallenge (h₀ : Fused o s) : Fused o (tapChallenge s) := by
  unfold tapChallenge
  split
  · exact fused_tapLcAnswer h₀
  · exact fused_emit (fused_bumpDraw (.set h₀))

theorem fused_lcMailbox {op : LcMailOp} (h₀ : Fused o s) : Fused o (lcMailbox op s) := by
  refine .ite (fused_tapBypass h₀) ?_
  split
  · exact fused_emit h₀
  · exact .ite (fused_tapChallenge h₀) (fused_tapLcAnswer h₀)
  · exact .ite (fused_tapTransition h₀) (fused_tapLcAnswer h₀)

theorem fused_tapDbgAnswer (h₀ : Fused o s) : Fused o (tapDbgAnswer st d s) := fused_emit h₀

theorem fused_tapGrant (h₀ : Fused o s) : Fused o (tapGrant c s) := by
  unfold tapGrant
  split
  · exact fused_tapDbgAnswer h₀
  · exact .ite (fused_settle (fused_tapDbgAnswer (fused_applyGrant (fused_reserveInt h₀)))) (fused_tapDbgAnswer h₀)

theorem fused_tapRevoke (h₀ : Fused o s) : Fused o (tapRevoke s) := by
  unfold tapRevoke
  split
  · exact fused_tapDbgAnswer h₀
  · exact fused_settle (.set (fused_revokeGrant h₀))

theorem fused_dbgMailbox {op : Byte} {c : Cert} (h₀ : Fused o s) : Fused o (dbgMailbox op c s) :=
  .ite (fused_tapBypass h₀) (.ite (.ite (fused_tapGrant h₀) (fused_tapDbgAnswer h₀)) (.ite (.ite (fused_tapRevoke h₀) (fused_tapDbgAnswer
    h₀)) (fused_tapDbgAnswer h₀)))

theorem fused_traceRd {reader : Fn} {bad : List Nat} (h₀ : Fused o s) : Fused o (traceRd reader bad s) := fused_emit (.set h₀)

theorem fused_tileDbg {f : Fn} (h₀ : Fused o s) : Fused o (tileDbg f s) := by
  unfold tileDbg
  split
  · exact .ite (fused_emit h₀) (fused_emit (fused_countFn h₀))
  · exact fused_emit (fused_countFn h₀)

theorem fused_scanDump (h₀ : Fused o s) : Fused o (scanDump s) := fused_afterReset (fused_tapOpen h₀)

end Sys2Proof.Machine
end

section
/-! SUPPORT. The statement on fuses. -/
namespace Sys2Proof.Machine

variable {o : OtpSt} {s : State}

theorem fused_exec {c : Instr} (h₀ : Fused o s) : Fused o (nextOf (exec c s) s) := by
  by_cases hm : mailCommand c = true
  · exact fused_mailCommand hm h₀
  cases c with
  | wakeWrite _ _ => exact fused_next (fused_wakeWrite h₀)
  | doorbellReadDone _ _ => exact fused_next (fused_doorbellReadDone h₀)
  | scanDispatch _ => exact fused_next (fused_scanDispatch h₀)
  | joinJob _ _ _ _ _ => exact fused_next (fused_runRow (fun _ _ => fused_startJoin) h₀)
  | leaveJob _ _ => exact fused_next (fused_runRow (fun _ _ => fused_startLeave) h₀)
  | nop _ => exact fused_next (fused_runRow (fun _ _ => fused_complete) h₀)
  | keyAlloc _ _ _ _ => exact fused_next (fused_runRow (fun _ _ => fused_startAlloc) h₀)
  | keyDerive _ _ _ _ => exact fused_next (fused_runRow (fun _ _ => fused_startDerive) h₀)
  | keyRotate _ _ => exact fused_next (fused_runRow (fun _ _ => fused_startRotate) h₀)
  | keyRetire _ _ => exact fused_next (fused_runRow (fun _ _ => fused_startRetire) h₀)
  | flushConfirm _ _ => exact fused_next (fused_whenLive (fun _ => fused_flushConfirm) h₀)
  | park _ _ _ _ _ => exact fused_next (fused_runRow (fun _ _ => fused_startPark) h₀)
  | resume _ _ _ _ _ => exact fused_next (fused_runRow (fun _ _ => fused_startResume) h₀)
  | checkpointWrite _ => exact fused_next (fused_whenLive (fun _ => fused_checkpointWrite) h₀)
  | regionCreate _ _ _ _ _ => exact fused_next (fused_runRow (fun _ _ => fused_startRegion) h₀)
  | regionFree _ _ => exact fused_next (fused_runRow (fun _ _ => fused_startFree) h₀)
  | keeperHandover _ _ _ => exact fused_next (fused_runRow (fun _ _ => fused_startHandover) h₀)
  | reduce _ _ _ _ _ _ _ _ => exact fused_next (fused_runRow (fun _ _ => fused_startReduce) h₀)
  | streamOpen _ _ _ _ _ => exact fused_next (fused_runRow (fun _ _ => fused_startOpen) h₀)
  | streamClose _ _ _ _ _ => exact fused_next (fused_runRow (fun _ _ => fused_startClose) h₀)
  | batchCancel _ _ => exact fused_next (fused_runRow (fun _ _ => fused_startCancel) h₀)
  | carveGrow _ _ _ _ => exact fused_next (fused_runRow (fun _ _ => fused_startGrow) h₀)
  | carveShrink _ _ _ _ => exact fused_next (fused_runRow (fun _ _ => fused_startShrink) h₀)
  | contextCreate _ => exact fused_next (fused_runRow (fun _ _ => fused_startCreate) h₀)
  | contextAbandon _ => exact fused_next (fused_runRow (fun _ _ => fused_startAbandon) h₀)
  | fenceCreate _ _ _ => exact fused_next (fused_runRow (fun _ _ => fused_startFenceCreate) h₀)
  | fenceRelease _ _ => exact fused_next (fused_runRow (fun _ _ => fused_startRelease) h₀)
  | fenceSignal _ _ _ => exact fused_next (fused_runRow (fun _ _ => fused_startSignal) h₀)
  | fenceWait _ _ _ => exact fused_next (fused_runRow (fun _ _ => fused_startWait) h₀)
  | memMap _ _ _ _ _ => exact fused_next (fused_runRow (fun _ _ => fused_startMap) h₀)
  | memUnmap _ _ => exact fused_next (fused_runRow (fun _ _ => fused_startUnmap) h₀)
  | quiesceVf _ => exact fused_next (fused_runRow (fun _ _ h => fused_goOn (fused_quiesceVf h)) h₀)
  | resetVf _ => exact fused_next (fused_runRow (fun _ _ => fused_startReset) h₀)
  | resetPackage _ _ => exact fused_next (fused_runRow (fun _ _ => fused_beginPackageReset) h₀)
  | replayContext _ _ _ => exact fused_next (fused_runRow (fun _ _ => fused_startReplay) h₀)
  | migrateKey _ _ _ _ => exact fused_next (fused_runRow (fun _ _ => fused_startMigrateKey) h₀)
  | migrateFreeze _ => exact fused_next (fused_runRow (fun _ _ h => fused_goOn (fused_quiesceVf h)) h₀)
  | migrateSave _ _ _ _ _ => exact fused_next (fused_runRow (fun _ _ => fused_startSaveImage) h₀)
  | migrateRestore _ _ _ _ => exact fused_next (fused_runRow (fun _ _ => fused_startRestoreImage) h₀)
  | dirtyLogStart _ _ _ => exact fused_next (fused_runRow (fun _ _ h => fused_complete (fused_fnMod (.set h))) h₀)
  | dirtyLogStop _ => exact fused_next (fused_runRow (fun _ _ h => fused_complete (fused_fnMod h)) h₀)
  | dirtyLogSync _ _ _ => exact fused_next (fused_runRow (fun _ _ => fused_startDirtySync) h₀)
  | telemWindow _ _ => exact fused_next (fused_runRow (fun _ _ h => fused_complete (fused_viewMod h)) h₀)
  | telemRead _ _ _ _ => exact fused_next (fused_runRow (fun _ _ => fused_startTelemRead) h₀)
  | traceConfig _ _ _ => exact fused_next (fused_runRow (fun _ _ => fused_startTraceConfig) h₀)
  | debugGrant _ _ _ => exact fused_next (fused_runRow (fun _ _ => fused_startGrant) h₀)
  | debugRevoke _ => exact fused_next (fused_runRow (fun _ _ => fused_startRevoke) h₀)
  | lcChallenge _ _ => exact fused_next (fused_runRow (fun _ _ => fused_startChallenge) h₀)
  | lcTransition _ _ _ _ => exact fused_next (fused_runRow (fun _ _ => fused_startTransition) h₀)
  | lcStatus _ _ _ => exact fused_next (fused_runRow (fun _ _ => fused_startStatus) h₀)
  | ownerStore _ _ _ _ => exact fused_next (fused_runRow (fun _ _ => fused_startOwnerStore) h₀)
  | bulkCtxOpen _ _ _ _ => exact fused_next (fused_runRow (fun _ _ => fused_startBulkOpen) h₀)
  | bulkOp _ _ _ _ =>
    refine fused_next ?_
    refine fused_runRow ?_ h₀
    intro _ _ h
    refine fused_takeTurn ?_ h
    intro _ _ h
    split
    · exact fused_startOp h
    · exact h
  | bulkCtxSave _ _ _ _ =>
    refine fused_next ?_
    refine fused_runRow ?_ h₀
    intro _ _ h
    refine fused_takeTurn ?_ h
    intro _ _ h
    split
    · exact fused_startSave h
    · exact h
  | bulkCtxRestore _ _ _ _ _ =>
    refine fused_next ?_
    refine fused_runRow ?_ h₀
    intro _ _ h
    refine fused_takeTurn ?_ h
    intro _ _ h
    split
    · exact fused_startRestore h
    · exact h
  | bulkCtxClose _ _ => exact fused_next (fused_runRow (fun _ _ h => fused_takeTurn (fun _ _ => fused_closeNow) h) h₀)
  | setProfile _ _ => exact fused_next (fused_runRow (fun _ _ h => fused_complete (.set h)) h₀)
  | selfTest _ _ _ _ _ => exact fused_next (fused_selfTest h₀)
  | ringEnable _ => exact fused_next (fused_ringEnable h₀)
  | ringEnableDone _ _ _ => exact fused_next (fused_ringEnableDone h₀)
  | ringDisable _ => exact fused_next (fused_ringDisable h₀)
  | haltClear _ => exact fused_next (fused_haltClear h₀)
  | recoveryRequest _ => exact fused_next (fused_recoveryRequest h₀)
  | go _ => exact fused_next (fused_setGo h₀)
  | routeCommit _ _ => exact fused_next (fused_routeCommit h₀)
  | routeStage _ _ _ => exact fused_next (fused_routeStage h₀)
  | ptbHskWrite _ _ => exact fused_next (fused_ptbWrite (fun _ => fused_ptbHsk) h₀)
  | ptbBpWrite _ _ => exact fused_next (fused_ptbWrite (fun _ => fused_ptbBp) h₀)
  | ptbTagholdWrite _ _ => exact fused_next (fused_ptbWrite (fun _ => fused_ptbTaghold) h₀)
  | ptbBeatWrite _ _ => exact fused_next (fused_ptbWrite (fun _ => fused_ptbBeat) h₀)
  | ptbLoopWrite _ _ => exact fused_next (fused_ptbWrite (fun _ => fused_ptbLoop) h₀)
  | registerWrite _ _ _ => exact fused_next (fused_registerWrite h₀)
  | sealRequest _ => exact fused_next (fused_settle (fused_atPort (fun _ => fused_sealRequest) h₀))
  | tokenRequest _ _ => exact fused_next (fused_settle (fused_atPort (fun _ => fused_tokenRequest) h₀))
  | refusalRequest _ _ _ _ _ _ => exact fused_next (fused_settle (fused_whenLive (fun _ => fused_refusalRequest) h₀))
  | chimeRequest _ _ => exact fused_next (fused_settle (fused_atPort (fun _ => fused_chimeRequest) h₀))
  | localChimeRequest _ _ _ _ _ => exact fused_next (fused_atPort (fun _ => fused_localChime) h₀)
  | memberPoolRequest _ _ _ _ => exact fused_next (fused_settle (fused_atPort (fun _ => fused_memberPool) h₀))
  | localPoolRequest _ => exact fused_next (fused_settle (fused_atPort (fun _ => fused_localPool) h₀))
  | debugMasterRequest _ _ => exact fused_next (fused_whenLive (fun _ => fused_debugMaster) h₀)
  | firewallAccess _ => exact fused_next (fused_firewallAccess h₀)
  | switchNotice _ _ => exact fused_next (fused_switchNotice h₀)
  | commandStart _ _ => exact fused_next (fused_whenLive (fun _ => fused_commandStart) h₀)
  | taborEvent _ _ _ _ _ _ => exact fused_next (fused_whenLive (fun _ => fused_taborEvent) h₀)
  | syncWaitRegister _ _ _ _ => exact fused_next (fused_whenLive (fun _ => fused_syncWait) h₀)
  | writeCompletion _ => exact fused_next (fused_writeCompletion h₀)
  | chimeRelease _ _ => exact fused_next (fused_whenLive (fun _ => fused_chimeRelease) h₀)
  | data _ _ _ | chime _ _ _ | token _ _ _ | return_ _ _ _ | refusal _ _ _ | poolRead _ _ _ | poolWrite _ _ _ | poolReduce _ _ _
  | poolResponse _ _ _ | mgmtOffer _ _ _ | mgmtAnswer _ _ _ _ _ | mgmtCommit _ _ _ | epochEnd _ _ _ | close _ _ =>
    exact fused_next (fused_sealedFrame h₀)
  | homeResponse _ _ _ => exact fused_next (fused_settle (fused_arrive (fun _ => fused_homeAnswer) h₀))
  | alloc _ _ _ _ => exact fused_next (fused_homeRow (fun _ => fused_homeAlloc) h₀)
  | free _ _ => exact fused_next (fused_homeRow (fun _ => fused_homeFree) h₀)
  | rebind _ _ _ => exact fused_next (fused_homeRow (fun _ => fused_homeRebind) h₀)
  | readLines _ _ => exact fused_next (fused_homeRow (fun _ => fused_homeReadLines) h₀)
  | writeLines _ _ _ => exact fused_next (fused_homeRow (fun _ => fused_homeWriteLines) h₀)
  | readNodes _ _ _ => exact fused_next (fused_homeRow (fun _ => fused_homeReadNodes) h₀)
  | writeNodes _ _ _ => exact fused_next (fused_homeRow (fun _ => fused_homeWriteNodes) h₀)
  | leaseRelease _ _ => exact fused_next (fused_homeRow (fun _ h => .ite (fused_homeStatus h) (fused_homeLeaseRelease h)) h₀)
  | relayForward _ => exact fused_next (fused_settle (fused_arrive (fun _ h => h) h₀))
  | beat _ _ _ _ => exact fused_next (fused_settle (fused_arrive (fun _ => fused_beat) h₀))
  | knell _ _ _ => exact fused_next (fused_settle (fused_arrive (fun _ => fused_knell) h₀))
  | proxyKnell _ _ _ _ => exact fused_next (fused_settle (fused_arrive (fun _ => fused_proxyKnell) h₀))
  | openReq _ _ _ _ => exact fused_next (fused_settle (fused_arrive (fun _ => fused_openReq) h₀))
  | openAck _ _ _ _ _ _ _ _ => exact fused_next (fused_settle (fused_arrive (fun _ => fused_openAck) h₀))
  | credit _ _ => exact fused_next (fused_settle (fused_arrive (fun _ h => fused_pump (fused_grantMore h)) h₀))
  | loop _ _ => exact fused_next (fused_settle (.ite (fused_loop h₀) h₀))
  | reservedKindFrame _ => exact fused_next (fused_settle (fused_arrive (fun _ h => h) h₀))
  | beatSend _ => exact fused_next (fused_whenLive (fun _ => fused_beatSend) h₀)
  | neighbourLostSilence _ => exact fused_next (fused_whenLive (fun _ h => .ite (fused_settle (fused_neighbourLost h)) h) h₀)
  | portDown _ => exact fused_next (fused_portDown h₀)
  | portTrained _ => exact fused_next (fused_tryUp (fused_portMod h₀))
  | openReqResend _ _ => exact fused_next (fused_whenLive (fun _ => fused_openReqResend) h₀)
  | openReqHoldExpiry _ _ => exact fused_next (fused_whenLive (fun _ h => .set h) h₀)
  | streamOpenTimeout _ _ => exact fused_next (fused_whenLive (fun _ => fused_streamOpenTimeout) h₀)
  | streamCloseTimeout _ _ => exact fused_next (fused_whenLive (fun _ => fused_streamCloseTimeout) h₀)
  | receiveWaitExpiry _ _ => exact fused_next (fused_whenLive (fun _ => fused_receiveWaitExpiry) h₀)
  | homeExchangeTimeout _ => exact fused_next (fused_whenLive (fun _ => fused_homeTimeout) h₀)
  | handoverTimeout _ _ => exact fused_next (fused_whenLive (fun _ => fused_handoverTimeout) h₀)
  | dirtyNodeWriteback _ _ _ _ =>
    refine fused_next ?_
    refine fused_whenLive ?_ h₀
    intro _ h
    split
    · exact fused_settle (fused_poolPump (fused_writeBack h))
    · exact h
  | overflowSweep _ _ _ _ =>
    refine fused_next ?_
    refine fused_whenLive ?_ h₀
    intro _ h
    split
    · exact fused_settle (fused_poolPump (fused_sweepMod h))
    · exact h
  | quarantineEpoch => exact fused_next (fused_whenLive (fun _ => fused_quarantineTick) h₀)
  | fabricEpochBoundary => exact fused_next (.ite (fused_settle (fused_epochBoundary h₀)) h₀)
  | windowEnd _ => exact fused_next (.ite (fused_windowEnd h₀) h₀)
  | traceBlockSeal _ => exact fused_next (fused_whenLive (fun _ => fused_traceBlockSeal) h₀)
  | lendingCheck _ _ => exact fused_next (fused_whenLive (fun _ => fused_lendingCheck) h₀)
  | bankRestoreDone _ _ => exact fused_next (fused_portMod h₀)
  | budgetReport _ => exact fused_next (fused_whenLive (fun _ => fused_emit) h₀)
  | scrubDone => exact fused_next (.ite (fused_scrubDone h₀) h₀)
  | powerStateRequest _ _ => exact fused_next (fused_powerRequest h₀)
  | tamperSourceFire _ => exact fused_next (fused_tamperSource (fused_notePin h₀))
  | clockMonitorMeasure _ _ | meshPattern _ => exact fused_next (.ite (fused_tamperSource h₀) h₀)
  | droopWarning _ => exact fused_next (fused_droopWarning h₀)
  | avkPwrokRise _ => exact fused_next (.ite (fused_start h₀) h₀)
  | avkPwrokFall => exact fused_next (fused_pwrokFall h₀)
  | bistLimitRecheck _ => exact fused_next (fused_bistRecheck h₀)
  | svnFuseBurn => exact fused_next (fused_svnFuseBurn h₀)
  | vfEnable _ _ => exact fused_next (fused_vfEnable h₀)
  | vfFunctionLevelReset _ => exact fused_next (fused_whenLive (fun _ h => fused_settle (fused_tdiError h)) (fused_configured h₀))
  | pfFunctionLevelReset => exact fused_next (fused_whenLive (fun _ => fused_pfReset) h₀)
  | ideIntegrityFailure _ _ => exact fused_next (fused_whenLive (fun _ h => fused_settle (fused_tdisErrorClean h)) h₀)
  | linkDown _ _ => exact fused_next (fused_linkDown h₀)
  | recoveryStatus => exact fused_next (fused_recMail (fun _ => fused_recStatus) h₀)
  | recoveryLcChallenge => exact fused_next (fused_recMail (fun _ => fused_recChallenge) h₀)
  | recoveryLcTransition _ _ => exact fused_next (fused_recMail (fun _ => fused_recTransition) h₀)
  | imgBegin _ => exact fused_next (fused_recMail (fun _ => fused_imgStart) h₀)
  | imgData _ _ => exact fused_next (fused_recMail (fun _ => fused_imgTake) h₀)
  | imgCommit _ => exact fused_next (fused_recMail (fun _ => fused_imgVerify) h₀)
  | imageWriteDone _ _ => exact fused_next (fused_imageWritten h₀)
  | extest => exact fused_next (fused_tapOpen h₀)
  | samplePreload => exact fused_next (fused_bumpOpen (fused_emit h₀))
  | idcode => exact fused_next (fused_emit h₀)
  | lcMbox _ => exact fused_next (fused_lcMailbox h₀)
  | dbgMbox _ _ => exact fused_next (fused_dbgMailbox h₀)
  | statusRd | ctrRd => exact fused_next (fused_tap (fun _ => fused_emit) h₀)
  | traceRd _ _ => exact fused_next (fused_tap (fun _ => fused_traceRd) h₀)
  | memPort _ _ => exact fused_next (.ite (fused_debugMaster h₀) (fused_tapBypass h₀))
  | tileDbg _ => exact fused_next (fused_tap (fun _ => fused_tileDbg) h₀)
  | ksMetaRd _ | otpRd _ => exact fused_next (fused_tap (fun _ => fused_emit) h₀)
  | ctrlDbg | kxeDbg | entropyRd => exact fused_next (fused_tap (fun _ => fused_tapOpen) h₀)
  | scanAon | scanCipher => exact fused_next (fused_tap (fun _ => fused_scanDump) h₀)
  | bypass _ => exact fused_next (fused_tapBypass h₀)
  | parityError _ => exact fused_next (fused_gongHalt h₀)
  | reservedFtypeFrame _ _ _ => exact fused_next (fused_sealedFrame h₀)
  | kxeOperationDone _ => exact fused_next (fused_whenLive (fun _ => fused_kxeDone) h₀)
  | bulkRequestDone _ _ _ => exact fused_next (fused_whenLive (fun _ => fused_bulkRequestDone) h₀)
  | flashWriteDone _ _ => exact fused_next (fused_whenLive (fun _ => fused_flashWriteDone) h₀)
  | hostDmaDone _ _ => exact fused_next (fused_hostDmaDone h₀)
  | checkerAccessDone _ => exact fused_next (fused_accessDone h₀)
  | pcieControllerUncorrectable _ _ =>
    exact fused_next (fused_whenLive (fun _ h => fused_settle (fused_tdisErrorClean (fused_emit h))) h₀)
  | _ => exact absurd rfl hm

/-- Settles O59: what is fused is an invariant of every operation, since whatever writes a fused word adds bits to it. -/
theorem fusesOnlyBurn : Obligations.FusesOnlyBurn := by
  intro s t ht
  unfold step at ht
  split at ht
  · cases ht
    exact .refl _
  · next c rest _ =>
    have h : Fused s.otp (nextOf (exec c { s with pending := rest }) { s with pending := rest }) := fused_exec (OtpLe.refl _)
    rwa [ht] at h

end Sys2Proof.Machine
end
